-- ==== Sys2Proof/Config.lean ====
section
/-! DEFINITION. What one implementation or one part fixes, and the values the spec leaves open: constants with no body, so that nothing can be proved of their values. -/

namespace Sys2Proof.Config

/-- The fuse bits behind a register whose reset value is F (R16), by BAR0 byte address. Log entry 7. -/
opaque fuse : Nat → Nat

/-- The mean y, in 2^-56, that an aid has in holdover with no y in any valid bin and no fallback: R118 states none. Log entry 8. -/
opaque aidMean : Nat → Int

/-- The bytes that a function named by an outside standard gives (AES, HMAC, HKDF, SHA-256, ECDSA): the function's number, its inputs as numbers, and the octets that come out. Log entry 6. -/
opaque standard : Nat → List Nat → List (BitVec 8)

/-- The store hash of R275 over seed, bucket selector and key octets, before reduction to 18 bits. Log entry 6. -/
opaque storeHash : Nat → Nat → List Nat → Nat

/-- The fairness hash of R248 over the key octets, before reduction to 12 bits. Log entry 6. -/
opaque fairHash : List Nat → Nat

/-- An item of the calibration set that no register shows (R82, R87): the item's kind and its index. Log entry 7. -/
opaque calib : Nat → Nat → Nat

/-- The source code that the link measurement writes to the probe channel (R25, R169), of which the spec gives no value. Log entry 85. -/
opaque linkTap : Nat → Nat

/-- What PWR_COST shows for a code that is no kind of R379. Log entry 7. -/
opaque cost : Nat → Nat

end Sys2Proof.Config
end

