-- ==== Sys2Proof/Word.lean ====
section
/-! DEFINITION. The value types of the model and the two records that describe a register: a named field and a row of the register map. -/

namespace Sys2Proof

/-- The value of one register of any width the spec uses (32, 64 or 96 bits, R12 and R38). -/
abbrev Word := BitVec 96

/-- One octet of a frame, a record or a message. -/
abbrev Octet := BitVec 8

namespace Machine

/-- A field of a register: the register's offset in its page, and its highest and lowest bit. -/
structure Fld where
  off : Nat
  hi : Nat
  lo : Nat
  deriving DecidableEq, Repr

/-- How the Reset column of a register table gives the value (R16). -/
inductive ResetKind where
  /-- The value stands in the table (a field marked C reads all-ones until it is loaded). -/
  | val
  /-- The bits of the mask come from fuses. -/
  | fuse (mask : Nat)
  /-- PAGE_ID: block type and instance of the page (R442, R447). -/
  | pageId
  /-- SVCn_BWt: the bandwidths of R114. -/
  | svcBw
  /-- TDCn_MUX: the sources of R169. -/
  | tdcMux
  /-- SEL_PRIk: ROLE is 1 for k = 1 and 2 (R110). -/
  | selPri
  /-- FLT_SLOTk: the page index of the slot (R366, R448). -/
  | fltSlot
  deriving DecidableEq, Repr

/-- One row of the register map: a register, or an array of them, of one kind of page. -/
structure RegDesc where
  off : Nat
  stride : Nat
  count : Nat
  stride2 : Nat
  count2 : Nat
  width : Nat
  latched : Bool
  kind : ResetKind
  reset : Nat
  rw : Nat
  w1c : Nat
  w1s : Nat
  rwl : Nat
  wo : Nat
  deriving DecidableEq, Repr

end Machine
end Sys2Proof
end

