-- ==== Sys2Proof/Machine/Bits.lean ====
section
/-! DEFINITION. Bit-field, sign, byte-order and sparse-store helpers, the one place where each is decided. -/

namespace Sys2Proof.Machine

/-- The value of a field in a register. -/
def Fld.get (f : Fld) (w : Word) : Nat := (w.toNat >>> f.lo) % 2 ^ (f.hi + 1 - f.lo)

/-- The bits of a field, set. -/
def Fld.mask (f : Fld) : Word := BitVec.ofNat 96 ((2 ^ (f.hi + 1 - f.lo) - 1) <<< f.lo)

/-- A register with one field replaced; a value wider than the field is cut to it. -/
def Fld.put (f : Fld) (v : Nat) (w : Word) : Word :=
  (w &&& ~~~ f.mask) ||| (BitVec.ofNat 96 (v <<< f.lo) &&& f.mask)

/-- Two's complement reading of an n-bit value. -/
def sgn (n v : Nat) : Int := if v % 2 ^ n < 2 ^ (n - 1) then (v % 2 ^ n : Nat) else (v % 2 ^ n : Nat) - (2 ^ n : Nat)

/-- Two's complement encoding in n bits. -/
def unsgn (n : Nat) (i : Int) : Nat := (i % (2 ^ n : Nat)).toNat

/-- Bit i of a number. -/
def bit (v i : Nat) : Bool := v.testBit i

/-- A Bool as a one-bit value. -/
def b2n (b : Bool) : Nat := if b then 1 else 0

/-- The n octets of a number, least significant first (R10, R339). -/
def oct : Nat → Nat → List Nat
  | 0, _ => []
  | n + 1, v => v % 256 :: oct n (v / 256)

/-- The number spelled by octets, least significant first. -/
def unoct : List Nat → Nat
  | [] => 0
  | x :: l => x % 256 + 256 * unoct l

/-- Division rounded up. -/
def cdiv (a b : Nat) : Nat := (a + b - 1) / b

/-- Integer division rounded toward zero. -/
def tdiv (a b : Int) : Int := a.tdiv b

/-- A value held within two limits. -/
def clampN (lo hi v : Nat) : Nat := max lo (min hi v)

/-- A value held within two limits. -/
def clampI (lo hi v : Int) : Int := max lo (min hi v)

/-- An element put before the first one it comes before. -/
def insertBy {α : Type} (before : α → α → Bool) (x : α) : List α → List α
  | [] => [x]
  | y :: l => if before x y then x :: y :: l else y :: insertBy before x l

/-- A list in an order. -/
def sortBy {α : Type} (before : α → α → Bool) : List α → List α
  | [] => []
  | x :: l => insertBy before x (sortBy before l)

/-- The value of a key in a sparse store; an absent key holds its default. -/
def sget {α : Type} (dflt : Nat → α) : List (Nat × α) → Nat → α
  | [], k => dflt k
  | (j, v) :: l, k => if j = k then v else sget dflt l k

/-- The store without a key. -/
def sdel {α : Type} : List (Nat × α) → Nat → List (Nat × α)
  | [], _ => []
  | (j, v) :: l, k => if j = k then sdel l k else (j, v) :: sdel l k

/-- The store with a key listed, keys kept rising. -/
def sins {α : Type} : List (Nat × α) → Nat → α → List (Nat × α)
  | [], k, v => [(k, v)]
  | (j, w) :: l, k, v =>
    if k < j then (k, v) :: (j, w) :: l else if k = j then (k, v) :: l else (j, w) :: sins l k v

/-- The store after a write: a key that takes its default is not listed. -/
def sset {α : Type} [DecidableEq α] (dflt : Nat → α) (m : List (Nat × α)) (k : Nat) (v : α) : List (Nat × α) :=
  if v = dflt k then sdel m k else sins m k v

/-- The canonical form of a sparse store: keys strictly rising, and no listed value equal to its default. -/
def swf {α : Type} [DecidableEq α] (dflt : Nat → α) : List (Nat × α) → Bool
  | [] => true
  | (k, v) :: l => decide (v ≠ dflt k) && (match l with | [] => true | (j, _) :: _ => decide (k < j)) && swf dflt l

end Sys2Proof.Machine
end

