-- ==== Sys2Proof/Machine/RegTable.lean ====
section
/-! DEFINITION. The register map: one row for each register of the register tables of spec/00 to spec/22, with its offset, array strides, width, latch mark, reset value and the masks of its access types (R13).
Field order of a row: offset, stride, count, inner stride, inner count, width, latched, reset kind, reset value, RW, W1C, W1S, RWL and WO masks. -/

namespace Sys2Proof.Machine

/-- Registers of kind GLB (00 R6, 22 R449). -/
def regMap.GLB : List RegDesc := [
  ⟨0x100, 0, 1, 0, 1, 32, false, (.fuse 0xF0), 0x241100, 0x0, 0x0, 0x0, 0x0, 0x0⟩,
  ⟨0x104, 0, 1, 0, 1, 32, false, .val, 0x0, 0x0, 0x0, 0x0, 0x0, 0x0⟩,
  ⟨0x108, 0, 1, 0, 1, 32, false, .val, 0x0, 0x0, 0x0, 0x0, 0x0, 0xFF0F0003⟩,
  ⟨0x10C, 0, 1, 0, 1, 32, false, .val, 0x0, 0x0, 0x0, 0x0, 0x0, 0x0⟩,
  ⟨0x110, 0, 1, 0, 1, 32, false, .val, 0x0, 0x0, 0x0, 0x0, 0x0, 0x0⟩,
  ⟨0x114, 0, 1, 0, 1, 32, false, .val, 0x0, 0x0, 0x0, 0x0, 0x0, 0x0⟩,
  ⟨0x118, 0, 1, 0, 1, 32, false, .val, 0x0, 0x0, 0x0, 0x0, 0x0, 0x0⟩,
  ⟨0x11C, 0, 1, 0, 1, 32, false, .val, 0x0, 0x0, 0x0, 0x0, 0x0, 0x0⟩,
  ⟨0x120, 0, 1, 0, 1, 32, false, (.fuse 0x707), 0x0, 0x0, 0x0, 0x0, 0x0, 0x0⟩,
  ⟨0x124, 0, 1, 0, 1, 32, false, .val, 0x0, 0x0, 0x0, 0x1, 0x0, 0x0⟩,
  ⟨0x140, 4, 8, 0, 1, 32, false, .val, 0x0, 0x0, 0x0, 0x0, 0x0, 0x0⟩]

/-- Registers of kind TS (02 R43, 02 R55, 02 R57, 02 R59, 03 R74). -/
def regMap.TS : List RegDesc := [
  ⟨0x300, 0, 1, 0, 1, 32, false, .val, 0x0, 0x8000FFFF, 0x0, 0x0, 0x0, 0x0⟩,
  ⟨0x304, 0, 1, 0, 1, 32, false, .val, 0x0, 0x3, 0x80000000, 0x0, 0x0, 0x0⟩,
  ⟨0x308, 0, 1, 0, 1, 64, false, .val, 0x0, 0xFFFFFFFFFFFF, 0x0, 0x0, 0x0, 0x0⟩,
  ⟨0x340, 0, 1, 0, 1, 64, true, .val, 0x0, 0x0, 0x0, 0x0, 0x0, 0x0⟩,
  ⟨0x310, 0, 1, 0, 1, 32, true, .val, 0xFFFF, 0x0, 0x0, 0x0, 0x0, 0x0⟩,
  ⟨0x314, 0, 1, 0, 1, 32, true, .val, 0xFFFFFFFF, 0x0, 0x0, 0x0, 0x0, 0x0⟩,
  ⟨0x318, 0, 1, 0, 1, 32, true, .val, 0xFFFF0000, 0x0, 0x0, 0x0, 0x0, 0x0⟩,
  ⟨0x31C, 0, 1, 0, 1, 32, true, .val, 0xFFFF, 0x0, 0x0, 0x0, 0x0, 0x0⟩,
  ⟨0x334, 0, 1, 0, 1, 32, false, .val, 0x7000000, 0x87FFFFFF, 0x0, 0x0, 0x0, 0x0⟩,
  ⟨0x320, 4, 4, 0, 1, 32, false, .val, 0x0, 0xFFFFC1FF, 0x0, 0x0, 0x0, 0x0⟩,
  ⟨0x330, 0, 1, 0, 1, 32, false, .val, 0x170010F8, 0xFFFFFFFF, 0x0, 0x0, 0x0, 0x0⟩,
  ⟨0x100, 0, 1, 0, 1, 96, true, .val, 0x0, 0x0, 0x0, 0x0, 0x0, 0x0⟩,
  ⟨0x110, 0, 1, 0, 1, 64, true, .val, 0x0, 0x0, 0x0, 0x0, 0x0, 0x0⟩,
  ⟨0x120, 0, 1, 0, 1, 64, false, .val, 0x1000000000000, 0xFFFFFFFFFFFFFFFF, 0x0, 0x0, 0x0, 0x0⟩,
  ⟨0x128, 0, 1, 0, 1, 64, true, .val, 0x1000000000000, 0x0, 0x0, 0x0, 0x0, 0x0⟩,
  ⟨0x130, 0, 1, 0, 1, 32, false, .val, 0x0, 0x1, 0x0, 0x0, 0x0, 0x0⟩,
  ⟨0x134, 0, 1, 0, 1, 32, false, .val, 0x0, 0x0, 0x0, 0x0, 0x0, 0x0⟩,
  ⟨0x138, 0, 1, 0, 1, 32, false, .val, 0x0, 0x0, 0x0, 0x0, 0x0, 0x0⟩,
  ⟨0x140, 0, 1, 0, 1, 64, false, .val, 0x0, 0x0, 0x0, 0x0, 0x0, 0xFFFFFFFFFFFFFFFF⟩,
  ⟨0x148, 0, 1, 0, 1, 64, true, .val, 0x0, 0x0, 0x0, 0x0, 0x0, 0x0⟩,
  ⟨0x150, 0, 1, 0, 1, 32, false, .val, 0x32, 0x7FF, 0x0, 0x0, 0x0, 0x0⟩,
  ⟨0x160, 0, 1, 0, 1, 64, false, .val, 0x0, 0xFFFFFFFFFFFFFFFF, 0x0, 0x0, 0x0, 0x0⟩,
  ⟨0x170, 0, 1, 0, 1, 96, false, .val, 0x0, 0x3FFFFFFFFFFFFFFFFFFFFFFF, 0x0, 0x0, 0x0, 0x0⟩,
  ⟨0x180, 0, 1, 0, 1, 32, false, .val, 0x0, 0x3, 0x0, 0x0, 0x0, 0x0⟩,
  ⟨0x184, 0, 1, 0, 1, 32, false, .val, 0xF4240, 0xFFFFFFFF, 0x0, 0x0, 0x0, 0x0⟩,
  ⟨0x188, 0, 1, 0, 1, 32, false, .val, 0x0, 0x0, 0x0, 0x0, 0x0, 0xFF07⟩,
  ⟨0x18C, 0, 1, 0, 1, 32, false, .val, 0x0, 0x0, 0x0, 0x0, 0x0, 0x0⟩,
  ⟨0x190, 0, 1, 0, 1, 32, false, .val, 0xFFFF, 0xFFFF, 0x0, 0x0, 0x0, 0x0⟩]

/-- Registers of kind TSA (03 R75). -/
def regMap.TSA : List RegDesc := [
  ⟨0x440, 4, 48, 0, 1, 32, false, .val, 0x0, 0x31, 0x0, 0x0, 0x0, 0x0⟩,
  ⟨0x500, 8, 48, 0, 1, 64, true, .val, 0x0, 0x0, 0x0, 0x0, 0x0, 0x0⟩,
  ⟨0x400, 0, 1, 0, 1, 64, true, .val, 0x0, 0x0, 0x0, 0x0, 0x0, 0x0⟩,
  ⟨0x408, 0, 1, 0, 1, 32, false, .val, 0x32, 0x7FF, 0x0, 0x0, 0x0, 0x0⟩]

/-- The monitor block of R83 at base 0x100. -/
def regMap.MON1 : List RegDesc := [
  ⟨0x100, 0, 1, 0, 1, 32, false, .val, 0x4003E80A, 0xE0FFFFFF, 0x0, 0x0, 0x0, 0x0⟩,
  ⟨0x104, 0, 1, 0, 1, 32, false, .val, 0x12C, 0x1FFFF, 0x0, 0x0, 0x0, 0x0⟩,
  ⟨0x108, 0, 1, 0, 1, 32, false, .val, 0xFFFFFFFF, 0xFFFFFFFF, 0x0, 0x0, 0x0, 0x0⟩,
  ⟨0x10C, 0, 1, 0, 1, 32, false, .val, 0x0, 0x0, 0x0, 0x0, 0x0, 0x7⟩,
  ⟨0x110, 0, 1, 0, 1, 32, true, .val, 0x0, 0x0, 0x0, 0x0, 0x0, 0x0⟩,
  ⟨0x114, 0, 1, 0, 1, 32, true, .val, 0xFFFFFFFF, 0x0, 0x0, 0x0, 0x0, 0x0⟩,
  ⟨0x118, 0, 1, 0, 1, 64, true, .val, 0x0, 0x0, 0x0, 0x0, 0x0, 0x0⟩,
  ⟨0x120, 0, 1, 0, 1, 64, true, .val, 0x0, 0x0, 0x0, 0x0, 0x0, 0x0⟩,
  ⟨0x128, 0, 1, 0, 1, 32, true, .val, 0x0, 0x0, 0x0, 0x0, 0x0, 0x0⟩,
  ⟨0x12C, 0, 1, 0, 1, 32, true, .val, 0x0, 0x0, 0x0, 0x0, 0x0, 0x0⟩,
  ⟨0x130, 0, 1, 0, 1, 32, true, .val, 0x0, 0x0, 0x0, 0x0, 0x0, 0x0⟩]

/-- The monitor block of R83 at base 0x800. -/
def regMap.MON8 : List RegDesc := [
  ⟨0x800, 0, 1, 0, 1, 32, false, .val, 0x4003E80A, 0xE0FFFFFF, 0x0, 0x0, 0x0, 0x0⟩,
  ⟨0x804, 0, 1, 0, 1, 32, false, .val, 0x12C, 0x1FFFF, 0x0, 0x0, 0x0, 0x0⟩,
  ⟨0x808, 0, 1, 0, 1, 32, false, .val, 0xFFFFFFFF, 0xFFFFFFFF, 0x0, 0x0, 0x0, 0x0⟩,
  ⟨0x80C, 0, 1, 0, 1, 32, false, .val, 0x0, 0x0, 0x0, 0x0, 0x0, 0x7⟩,
  ⟨0x810, 0, 1, 0, 1, 32, true, .val, 0x0, 0x0, 0x0, 0x0, 0x0, 0x0⟩,
  ⟨0x814, 0, 1, 0, 1, 32, true, .val, 0xFFFFFFFF, 0x0, 0x0, 0x0, 0x0, 0x0⟩,
  ⟨0x818, 0, 1, 0, 1, 64, true, .val, 0x0, 0x0, 0x0, 0x0, 0x0, 0x0⟩,
  ⟨0x820, 0, 1, 0, 1, 64, true, .val, 0x0, 0x0, 0x0, 0x0, 0x0, 0x0⟩,
  ⟨0x828, 0, 1, 0, 1, 32, true, .val, 0x0, 0x0, 0x0, 0x0, 0x0, 0x0⟩,
  ⟨0x82C, 0, 1, 0, 1, 32, true, .val, 0x0, 0x0, 0x0, 0x0, 0x0, 0x0⟩,
  ⟨0x830, 0, 1, 0, 1, 32, true, .val, 0x0, 0x0, 0x0, 0x0, 0x0, 0x0⟩]

/-- Registers of kind REF (04 R89). -/
def regMap.REF : List RegDesc := [
  ⟨0x200, 0, 1, 0, 1, 32, false, .val, 0x5A0000, 0xFFFF0F03, 0x0, 0x0, 0x0, 0x0⟩,
  ⟨0x204, 0, 1, 0, 1, 32, false, .val, 0x989680, 0xFFFFFFFF, 0x0, 0x0, 0x0, 0x0⟩,
  ⟨0x208, 0, 1, 0, 1, 32, false, .val, 0x0, 0xFFFFFFFF, 0x0, 0x0, 0x0, 0x0⟩,
  ⟨0x20C, 0, 1, 0, 1, 32, false, .val, 0x3E8, 0x1FFFF, 0x0, 0x0, 0x0, 0x0⟩]

/-- Registers of kind ATM (04 R91, 04 R93). -/
def regMap.ATM : List RegDesc := [
  ⟨0x220, 0, 1, 0, 1, 32, false, .val, 0xCB73, 0xF0FFFFFF, 0x0, 0x0, 0x0, 0x0⟩,
  ⟨0x224, 0, 1, 0, 1, 32, false, .val, 0x0, 0x0, 0x0, 0x0, 0x0, 0x0⟩,
  ⟨0x228, 0, 1, 0, 1, 32, false, .val, 0x0, 0x0, 0x0, 0x0, 0x0, 0x1⟩,
  ⟨0x22C, 0, 1, 0, 1, 32, false, .val, 0x0, 0x0, 0x0, 0x0, 0x0, 0xFF⟩,
  ⟨0x230, 0, 1, 0, 1, 32, false, .val, 0x0, 0x0, 0x0, 0x0, 0x0, 0x0⟩,
  ⟨0x234, 0, 1, 0, 1, 32, false, .val, 0x0, 0x80FFFFFF, 0x0, 0x0, 0x0, 0x0⟩,
  ⟨0x238, 0, 1, 0, 1, 32, false, .val, 0x0, 0xFFFFFFFF, 0x0, 0x0, 0x0, 0x0⟩,
  ⟨0x23C, 0, 1, 0, 1, 32, false, .val, 0x0, 0xFFFFFFFF, 0x0, 0x0, 0x0, 0x0⟩,
  ⟨0x240, 0, 1, 0, 1, 32, false, .val, 0x0, 0xFFFFFFFF, 0x0, 0x0, 0x0, 0x0⟩,
  ⟨0x244, 0, 1, 0, 1, 32, false, .val, 0x0, 0xFFFFFFFF, 0x0, 0x0, 0x0, 0x0⟩,
  ⟨0x250, 0, 1, 0, 1, 32, false, .val, 0x180900, 0xF03FFF00, 0x0, 0x0, 0x0, 0x0⟩,
  ⟨0x254, 0, 1, 0, 1, 32, false, .val, 0x0, 0xFFFFFFFF, 0x0, 0x0, 0x0, 0x0⟩,
  ⟨0x258, 0, 1, 0, 1, 32, false, .val, 0x0, 0x0, 0x0, 0x0, 0x0, 0x0⟩,
  ⟨0x200, 0, 1, 0, 1, 32, false, .val, 0x5A0000, 0xFFFF0300, 0x0, 0x0, 0x0, 0x0⟩,
  ⟨0x208, 0, 1, 0, 1, 32, false, .val, 0x0, 0xFFFFFFFF, 0x0, 0x0, 0x0, 0x0⟩,
  ⟨0x20C, 0, 1, 0, 1, 32, false, .val, 0x3E8, 0x1FFFF, 0x0, 0x0, 0x0, 0x0⟩]

/-- Registers of kind US (04 R94, 04 R97). -/
def regMap.US : List RegDesc := [
  ⟨0x200, 0, 1, 0, 1, 32, false, .val, 0x500000, 0x1FFCFF00, 0x0, 0x0, 0x0, 0x0⟩,
  ⟨0x204, 0, 1, 0, 1, 32, false, .val, 0xFCFC0000, 0xFFFFFF00, 0x0, 0x0, 0x0, 0x0⟩,
  ⟨0x208, 0, 1, 0, 1, 32, false, .val, 0x12C, 0xFFFF, 0x0, 0x0, 0x0, 0x0⟩,
  ⟨0x210, 4, 4, 0, 1, 32, false, .val, 0x0, 0xFFFFFFFF, 0x0, 0x0, 0x0, 0x0⟩,
  ⟨0x220, 0, 1, 0, 1, 64, false, .val, 0x0, 0xFFFFFFFFFFFFFFFF, 0x0, 0x0, 0x0, 0x0⟩,
  ⟨0x228, 0, 1, 0, 1, 32, false, .val, 0x7, 0xFFFFFFFF, 0x0, 0x0, 0x0, 0x0⟩,
  ⟨0x230, 0, 1, 0, 1, 32, true, .val, 0x0, 0x0, 0x0, 0x0, 0x0, 0x0⟩,
  ⟨0x238, 0, 1, 0, 1, 64, true, .val, 0x0, 0x0, 0x0, 0x0, 0x0, 0x0⟩,
  ⟨0x240, 0, 1, 0, 1, 64, true, .val, 0x0, 0x0, 0x0, 0x0, 0x0, 0x0⟩,
  ⟨0x900, 0, 1, 0, 1, 32, false, .val, 0xB00000, 0x1FF00000, 0x0, 0x0, 0x0, 0x0⟩,
  ⟨0x904, 0, 1, 0, 1, 32, true, .val, 0x0, 0x0, 0x0, 0x0, 0x0, 0x0⟩]

/-- Registers of kind SEL (04 R99, 05 R110). -/
def regMap.SEL : List RegDesc := [
  ⟨0x800, 0, 1, 0, 1, 32, false, .val, 0x258, 0x1FFFF, 0x0, 0x0, 0x0, 0x0⟩,
  ⟨0x804, 0, 1, 0, 1, 32, false, .val, 0x3E803E8, 0xFFFFFFFF, 0x0, 0x0, 0x0, 0x0⟩,
  ⟨0x808, 0, 1, 0, 1, 32, true, .val, 0x0, 0x0, 0x0, 0x0, 0x0, 0x0⟩,
  ⟨0x840, 4, 19, 0, 1, 32, true, .val, 0x0, 0x0, 0x0, 0x0, 0x0, 0x0⟩,
  ⟨0x100, 64, 2, 0, 1, 32, false, .val, 0x30101F04, 0xF0FF1F07, 0x0, 0x0, 0x0, 0x0⟩,
  ⟨0x104, 64, 2, 0, 1, 32, true, .val, 0x1F1F0000, 0x0, 0x0, 0x0, 0x0, 0x0⟩,
  ⟨0x108, 64, 2, 0, 1, 32, false, .val, 0x3C03E8, 0xFFFFFFFF, 0x0, 0x0, 0x0, 0x0⟩,
  ⟨0x180, 0, 1, 0, 1, 32, false, .val, 0x3C, 0xFFFF, 0x0, 0x0, 0x0, 0x0⟩,
  ⟨0x200, 4, 19, 0, 1, 32, false, .selPri, 0x0, 0x10F0F, 0x0, 0x0, 0x0, 0x0⟩,
  ⟨0x300, 8, 19, 0, 1, 64, true, .val, 0x0, 0x0, 0x0, 0x0, 0x0, 0x0⟩]

/-- Registers of kind SVC (05 R116). -/
def regMap.SVC : List RegDesc := [
  ⟨0x100, 0, 1, 0, 1, 32, false, .val, 0xB5, 0x800000FF, 0x0, 0x0, 0x0, 0x0⟩,
  ⟨0x104, 0, 1, 0, 1, 32, false, .val, 0x200, 0xFFFF, 0x0, 0x0, 0x0, 0x0⟩,
  ⟨0x110, 4, 7, 0, 1, 32, false, .svcBw, 0x0, 0xFFFFFF, 0x0, 0x0, 0x0, 0x0⟩,
  ⟨0x200, 0, 1, 0, 1, 64, true, .val, 0x0, 0x0, 0x0, 0x0, 0x0, 0x0⟩,
  ⟨0x208, 0, 1, 0, 1, 64, true, .val, 0x0, 0x0, 0x0, 0x0, 0x0, 0x0⟩,
  ⟨0x210, 0, 1, 0, 1, 32, true, .val, 0xFFFFFFFF, 0x0, 0x0, 0x0, 0x0, 0x0⟩,
  ⟨0x214, 0, 1, 0, 1, 32, true, .val, 0xFFFFFFFF, 0x0, 0x0, 0x0, 0x0, 0x0⟩,
  ⟨0x218, 0, 1, 0, 1, 32, true, .val, 0x0, 0x0, 0x0, 0x0, 0x0, 0x0⟩,
  ⟨0x220, 0, 1, 0, 1, 64, true, .val, 0x0, 0x0, 0x0, 0x0, 0x0, 0x0⟩,
  ⟨0x228, 0, 1, 0, 1, 32, true, .val, 0x1F00, 0x0, 0x0, 0x0, 0x0, 0x0⟩]

/-- Registers of kind HLD (05 R122). -/
def regMap.HLD : List RegDesc := [
  ⟨0x100, 128, 2, 0, 1, 32, false, .val, 0xE10, 0x1FFFF, 0x0, 0x0, 0x0, 0x0⟩,
  ⟨0x104, 128, 2, 0, 1, 32, false, .val, 0x12C, 0x3FFF, 0x0, 0x0, 0x0, 0x0⟩,
  ⟨0x108, 128, 2, 0, 1, 32, false, .val, 0x3200, 0xFF03, 0x0, 0x0, 0x0, 0x0⟩,
  ⟨0x10C, 128, 2, 0, 1, 32, true, .val, 0x0, 0x0, 0x0, 0x0, 0x0, 0x0⟩,
  ⟨0x110, 128, 2, 0, 1, 64, true, .val, 0x1000000000000, 0x0, 0x0, 0x0, 0x0, 0x0⟩,
  ⟨0x118, 128, 2, 0, 1, 32, true, .val, 0xFFFFFFFF, 0x0, 0x0, 0x0, 0x0, 0x0⟩,
  ⟨0x11C, 128, 2, 0, 1, 32, true, .val, 0xFFFFFFFF, 0x0, 0x0, 0x0, 0x0, 0x0⟩,
  ⟨0x120, 128, 2, 0, 1, 64, true, .val, 0x0, 0x0, 0x0, 0x0, 0x0, 0x0⟩,
  ⟨0x128, 128, 2, 0, 1, 32, true, .val, 0x0, 0x0, 0x0, 0x0, 0x0, 0x0⟩,
  ⟨0x400, 16, 3, 0, 1, 32, false, .val, 0xFFFFFFFF, 0xFFFFFFFF, 0x0, 0x0, 0x0, 0x0⟩,
  ⟨0x404, 16, 3, 0, 1, 32, false, .val, 0xFFFFFFFF, 0xFFFFFFFF, 0x0, 0x0, 0x0, 0x0⟩,
  ⟨0x408, 16, 3, 0, 1, 32, false, .val, 0xFFFFFFFF, 0xFFFFFFFF, 0x0, 0x0, 0x0, 0x0⟩,
  ⟨0x440, 0, 1, 0, 1, 32, false, .val, 0xF4240, 0xFFFFFFFF, 0x0, 0x0, 0x0, 0x0⟩]

/-- Registers of kind GNSS0 (06 R145). -/
def regMap.GNSS0 : List RegDesc := [
  ⟨0x200, 0, 1, 0, 1, 32, false, .val, 0x700, 0x80013703, 0x0, 0x0, 0x0, 0x0⟩,
  ⟨0x204, 0, 1, 0, 1, 32, true, .val, 0x0, 0x0, 0x0, 0x0, 0x0, 0x0⟩,
  ⟨0x210, 0, 1, 0, 1, 64, true, .val, 0x0, 0x0, 0x0, 0x0, 0x0, 0x0⟩,
  ⟨0x218, 0, 1, 0, 1, 64, true, .val, 0x0, 0x0, 0x0, 0x0, 0x0, 0x0⟩,
  ⟨0x220, 0, 1, 0, 1, 32, true, .val, 0xFFFFFFFF, 0x0, 0x0, 0x0, 0x0, 0x0⟩,
  ⟨0x224, 0, 1, 0, 1, 32, true, .val, 0xFFFF0000, 0x0, 0x0, 0x0, 0x0, 0x0⟩,
  ⟨0x228, 0, 1, 0, 1, 32, false, .val, 0x2753, 0xFFFF, 0x0, 0x0, 0x0, 0x0⟩,
  ⟨0x230, 0, 1, 0, 1, 32, false, .val, 0x3C, 0xFFFF, 0x0, 0x0, 0x0, 0x0⟩,
  ⟨0x240, 0, 1, 0, 1, 32, true, .val, 0x0, 0x0, 0x0, 0x0, 0x0, 0x0⟩,
  ⟨0x248, 0, 1, 0, 1, 64, true, .val, 0x0, 0x0, 0x0, 0x0, 0x0, 0x0⟩]

/-- Registers of kind GNSS1 (06 R146). -/
def regMap.GNSS1 : List RegDesc := [
  ⟨0x100, 0, 1, 0, 1, 32, false, .val, 0x3C05, 0xFFFF, 0x0, 0x0, 0x0, 0x0⟩,
  ⟨0x104, 0, 1, 0, 1, 32, true, .val, 0x0, 0x0, 0x0, 0x0, 0x0, 0x0⟩,
  ⟨0x108, 0, 1, 0, 1, 32, true, .val, 0x0, 0x0, 0x0, 0x0, 0x0, 0x0⟩,
  ⟨0x10C, 0, 1, 0, 1, 32, false, .val, 0x0, 0xFFFF, 0x0, 0x0, 0x0, 0x0⟩,
  ⟨0x110, 0, 1, 0, 1, 32, false, .val, 0xFFFFFFFF, 0xFFFFFFFF, 0x0, 0x0, 0x0, 0x0⟩,
  ⟨0x114, 0, 1, 0, 1, 32, false, .val, 0xFFFFFFFF, 0xFFFFFFFF, 0x0, 0x0, 0x0, 0x0⟩,
  ⟨0x118, 0, 1, 0, 1, 32, false, .val, 0x0, 0xFFFFFFFF, 0x0, 0x0, 0x0, 0x0⟩]

/-- Registers of kind GNSS2 (06 R147). -/
def regMap.GNSS2 : List RegDesc := [
  ⟨0x100, 0, 1, 0, 1, 32, false, .val, 0x8001388, 0xFF00FFFF, 0x0, 0x0, 0x0, 0x0⟩,
  ⟨0x104, 0, 1, 0, 1, 32, false, .val, 0x7D0, 0xFFFF, 0x0, 0x0, 0x0, 0x0⟩,
  ⟨0x108, 0, 1, 0, 1, 32, true, .val, 0x0, 0x0, 0x0, 0x0, 0x0, 0x0⟩]

/-- Registers of kind GNSS3 (06 R147). -/
def regMap.GNSS3 : List RegDesc := [
  ⟨0x100, 0, 1, 0, 1, 32, false, .val, 0x0, 0x7F, 0x0, 0x0, 0x0, 0x0⟩,
  ⟨0x104, 0, 1, 0, 1, 32, true, .val, 0xC0000000, 0x0, 0x0, 0x0, 0x0, 0x0⟩]

/-- Registers of kind GNSS4 (06 R147). -/
def regMap.GNSS4 : List RegDesc := [
  ⟨0x100, 0, 1, 0, 1, 32, false, .val, 0x140E10, 0xC1FFFFFF, 0x0, 0x0, 0x0, 0x0⟩,
  ⟨0x104, 0, 1, 0, 1, 32, false, .val, 0x0, 0xFFFFFFFF, 0x0, 0x0, 0x0, 0x0⟩,
  ⟨0x108, 0, 1, 0, 1, 32, false, .val, 0x0, 0xFFFFFFFF, 0x0, 0x0, 0x0, 0x0⟩,
  ⟨0x10C, 0, 1, 0, 1, 32, false, .val, 0x0, 0xFFFFFFFF, 0x0, 0x0, 0x0, 0x0⟩,
  ⟨0x110, 0, 1, 0, 1, 32, false, .val, 0xFFFF, 0xFFFF, 0x0, 0x0, 0x0, 0x0⟩,
  ⟨0x114, 0, 1, 0, 1, 32, false, .val, 0x0, 0x0, 0x0, 0x0, 0x0, 0x0⟩,
  ⟨0x120, 0, 1, 0, 1, 32, false, .val, 0x8004001E, 0x80FFFFFF, 0x0, 0x0, 0x0, 0x0⟩,
  ⟨0x124, 0, 1, 0, 1, 32, false, .val, 0x12C, 0xFFFF, 0x0, 0x0, 0x0, 0x0⟩,
  ⟨0x128, 0, 1, 0, 1, 32, true, .val, 0x0, 0x0, 0x0, 0x0, 0x0, 0x0⟩]

/-- Registers of kind GNSS5 (06 R147). -/
def regMap.GNSS5 : List RegDesc := [
  ⟨0x100, 0, 1, 0, 1, 32, false, .val, 0xF, 0xF, 0x0, 0x0, 0x0, 0x0⟩,
  ⟨0x104, 0, 1, 0, 1, 32, false, .val, 0x370A, 0xFFFF, 0x0, 0x0, 0x0, 0x0⟩,
  ⟨0x108, 0, 1, 0, 1, 32, false, .val, 0x12CFFF6, 0xFFFFFFFF, 0x0, 0x0, 0x0, 0x0⟩,
  ⟨0x10C, 0, 1, 0, 1, 32, false, .val, 0x3, 0xFF, 0x0, 0x0, 0x0, 0x0⟩,
  ⟨0x110, 0, 1, 0, 1, 32, false, .val, 0x3C0064, 0xFFFFFFFF, 0x0, 0x0, 0x0, 0x0⟩]

/-- Registers of kind GNSS6 (06 R147). -/
def regMap.GNSS6 : List RegDesc := [
  ⟨0x100, 0, 1, 0, 1, 32, false, .val, 0x2583840, 0xFFFFFFFF, 0x0, 0x0, 0x0, 0x0⟩,
  ⟨0x104, 0, 1, 0, 1, 32, true, .val, 0xFFFF0000, 0x0, 0x0, 0x0, 0x0, 0x0⟩,
  ⟨0x108, 0, 1, 0, 1, 32, false, .val, 0x0, 0x0, 0x0, 0x0, 0x0, 0x3⟩]

/-- Registers of kind SYN (07 R160). -/
def regMap.SYN : List RegDesc := [
  ⟨0x100, 0, 1, 0, 1, 32, false, .val, 0x0, 0xFC000000, 0x0, 0x0, 0x0, 0x0⟩,
  ⟨0x104, 0, 1, 0, 1, 32, false, .val, 0x64, 0xFC0000FF, 0x0, 0x0, 0x0, 0x0⟩,
  ⟨0x108, 0, 1, 0, 1, 32, false, .val, 0xC8, 0x7FF, 0x0, 0x0, 0x0, 0x0⟩,
  ⟨0x110, 0, 1, 0, 1, 64, false, .val, 0x0, 0xFFFFFFFFFF, 0x0, 0x0, 0x0, 0x0⟩,
  ⟨0x118, 0, 1, 0, 1, 32, false, .val, 0x4080210, 0xFFFFFF1F, 0x0, 0x0, 0x0, 0x0⟩,
  ⟨0x11C, 0, 1, 0, 1, 32, false, .val, 0x64, 0x3FF, 0x0, 0x0, 0x0, 0x0⟩,
  ⟨0x120, 0, 1, 0, 1, 32, false, .val, 0x32, 0x1FFFF, 0x0, 0x0, 0x0, 0x0⟩,
  ⟨0x124, 0, 1, 0, 1, 32, false, .val, 0x200000, 0xC03F003F, 0x0, 0x0, 0x0, 0x0⟩,
  ⟨0x128, 0, 1, 0, 1, 32, false, .val, 0x0, 0x0, 0x0, 0x0, 0x0, 0x7⟩,
  ⟨0x12C, 0, 1, 0, 1, 32, false, .val, 0x80000000, 0xFFFF001F, 0x0, 0x0, 0x0, 0x0⟩,
  ⟨0x130, 0, 1, 0, 1, 32, true, .val, 0x0, 0x0, 0x0, 0x0, 0x0, 0x0⟩,
  ⟨0x138, 0, 1, 0, 1, 64, true, .val, 0x0, 0x0, 0x0, 0x0, 0x0, 0x0⟩,
  ⟨0x140, 0, 1, 0, 1, 64, true, .val, 0x0, 0x0, 0x0, 0x0, 0x0, 0x0⟩,
  ⟨0x148, 0, 1, 0, 1, 32, true, .val, 0x0, 0x0, 0x0, 0x0, 0x0, 0x0⟩,
  ⟨0x400, 4, 32, 0, 1, 32, false, .val, 0xFFFFFFFF, 0xFFFFFFFF, 0x0, 0x0, 0x0, 0x0⟩]

/-- Registers of kind CKO (07 R163). -/
def regMap.CKO : List RegDesc := [
  ⟨0x80, 256, 16, 0, 1, 32, false, .val, 0x0, 0xF3000007, 0x0, 0x0, 0x0, 0x0⟩,
  ⟨0x84, 256, 16, 0, 1, 32, false, .val, 0x40, 0xFFFFF, 0x0, 0x0, 0x0, 0x0⟩,
  ⟨0x88, 256, 16, 0, 1, 32, false, .val, 0x21, 0x73, 0x0, 0x0, 0x0, 0x0⟩,
  ⟨0x8C, 256, 16, 0, 1, 32, false, .val, 0x0, 0xFFFFF, 0x0, 0x0, 0x0, 0x0⟩,
  ⟨0x90, 256, 16, 0, 1, 32, false, .val, 0xFFFFFFFF, 0xFFFFFFFF, 0x0, 0x0, 0x0, 0x0⟩,
  ⟨0x94, 256, 16, 0, 1, 32, true, .val, 0x0, 0x0, 0x0, 0x0, 0x0, 0x0⟩]

/-- Registers of kind TDC (08 R184). -/
def regMap.TDC : List RegDesc := [
  ⟨0x100, 0, 1, 0, 1, 32, false, .val, 0x1, 0xFF00FFFF, 0x0, 0x0, 0x0, 0x0⟩,
  ⟨0x104, 0, 1, 0, 1, 32, false, .tdcMux, 0x0, 0x7F, 0x0, 0x0, 0x0, 0x0⟩,
  ⟨0x108, 0, 1, 0, 1, 32, false, .val, 0x0, 0x0, 0x0, 0x0, 0x0, 0x3⟩,
  ⟨0x10C, 0, 1, 0, 1, 32, true, .val, 0x0, 0x0, 0x0, 0x0, 0x0, 0x0⟩,
  ⟨0x110, 0, 1, 0, 1, 96, false, .val, 0x0, 0x0, 0x0, 0x0, 0x0, 0x0⟩,
  ⟨0x11C, 0, 1, 0, 1, 32, false, .val, 0xFFFF, 0x0, 0x0, 0x0, 0x0, 0x0⟩,
  ⟨0x120, 0, 1, 0, 1, 32, false, .val, 0x0, 0x0, 0x0, 0x0, 0x0, 0x1⟩,
  ⟨0x124, 0, 1, 0, 1, 32, false, .val, 0x989680, 0xFFFFFFFF, 0x0, 0x0, 0x0, 0x0⟩,
  ⟨0x128, 0, 1, 0, 1, 32, false, .val, 0x0, 0x0, 0x0, 0x0, 0x0, 0x0⟩,
  ⟨0x12C, 0, 1, 0, 1, 32, false, .val, 0x0, 0x0, 0x0, 0x0, 0x0, 0x0⟩,
  ⟨0x130, 0, 1, 0, 1, 32, false, .val, 0x0, 0x0, 0x0, 0x0, 0x0, 0x0⟩,
  ⟨0x138, 0, 1, 0, 1, 64, true, .val, 0x0, 0x0, 0x0, 0x0, 0x0, 0x0⟩,
  ⟨0x140, 0, 1, 0, 1, 32, true, .val, 0x0, 0x0, 0x0, 0x0, 0x0, 0x0⟩,
  ⟨0x144, 0, 1, 0, 1, 32, true, .val, 0xFFFFFFFF, 0x0, 0x0, 0x0, 0x0, 0x0⟩,
  ⟨0x148, 0, 1, 0, 1, 32, false, .val, 0xFFFFFFFF, 0xFFFFFFFF, 0x0, 0x0, 0x0, 0x0⟩,
  ⟨0x14C, 0, 1, 0, 1, 32, true, .val, 0x0, 0x0, 0x0, 0x0, 0x0, 0x0⟩,
  ⟨0x150, 0, 1, 0, 1, 32, true, .val, 0xFFFFFFFF, 0x0, 0x0, 0x0, 0x0, 0x0⟩,
  ⟨0x180, 0, 1, 0, 1, 64, false, .val, 0x0, 0xFFFFFFFFFFFFF000, 0x0, 0x0, 0x0, 0x0⟩,
  ⟨0x188, 0, 1, 0, 1, 32, false, .val, 0xA, 0x1F, 0x0, 0x0, 0x0, 0x0⟩,
  ⟨0x18C, 0, 1, 0, 1, 32, false, .val, 0x0, 0x0, 0x0, 0x0, 0x0, 0x0⟩,
  ⟨0x190, 0, 1, 0, 1, 32, false, .val, 0x0, 0xFFFFFF, 0x0, 0x0, 0x0, 0x0⟩,
  ⟨0x194, 0, 1, 0, 1, 32, false, .val, 0x0, 0x0, 0x0, 0x0, 0x0, 0x0⟩]

/-- Registers of kind TDCCAL (08 R185). -/
def regMap.TDCCAL : List RegDesc := [
  ⟨0x100, 0, 1, 0, 1, 32, false, .val, 0x8005003C, 0x80FFFFFF, 0x0, 0x0, 0x0, 0x0⟩,
  ⟨0x104, 0, 1, 0, 1, 32, true, .val, 0x1F00, 0x0, 0x0, 0x0, 0x0, 0x0⟩,
  ⟨0x108, 0, 1, 0, 1, 32, false, .val, 0x0, 0x0, 0x0, 0x0, 0x0, 0x1F03⟩,
  ⟨0x10C, 0, 1, 0, 1, 32, false, .val, 0x2800180, 0xFFFFFFFF, 0x0, 0x0, 0x0, 0x0⟩,
  ⟨0x110, 0, 1, 0, 1, 32, false, .val, 0x0, 0x1F03FF, 0x0, 0x0, 0x0, 0x0⟩,
  ⟨0x114, 0, 1, 0, 1, 32, false, .val, 0xFFFFFFFF, 0xFFFFFFFF, 0x0, 0x0, 0x0, 0x0⟩,
  ⟨0x118, 0, 1, 0, 1, 32, true, .val, 0x0, 0x0, 0x0, 0x0, 0x0, 0x0⟩,
  ⟨0x11C, 0, 1, 0, 1, 32, false, .val, 0xB, 0xF, 0x0, 0x0, 0x0, 0x0⟩,
  ⟨0x120, 0, 1, 0, 1, 32, true, .val, 0x0, 0x0, 0x0, 0x0, 0x0, 0x0⟩,
  ⟨0x124, 0, 1, 0, 1, 32, true, .val, 0xFFFFFFFF, 0x0, 0x0, 0x0, 0x0, 0x0⟩,
  ⟨0x128, 0, 1, 0, 1, 32, true, .val, 0x0, 0x0, 0x0, 0x0, 0x0, 0x0⟩]

/-- Registers of kind EVO (09 R192). -/
def regMap.EVO : List RegDesc := [
  ⟨0x100, 64, 16, 0, 1, 32, false, .val, 0x0, 0xFC000000, 0x0, 0x0, 0x0, 0x0⟩,
  ⟨0x104, 64, 16, 0, 1, 32, false, .val, 0x0, 0x0, 0x0, 0x0, 0x0, 0x3⟩,
  ⟨0x108, 64, 16, 0, 1, 96, false, .val, 0x0, 0x3FFFFFFFFFFFFFFFFFFFFFFF, 0x0, 0x0, 0x0, 0x0⟩,
  ⟨0x118, 64, 16, 0, 1, 64, false, .val, 0x3B9ACA000000, 0xFFFFFFFFFFFFFFFF, 0x0, 0x0, 0x0, 0x0⟩,
  ⟨0x120, 64, 16, 0, 1, 64, false, .val, 0x5F5E1000000, 0xFFFFFFFFFFFFFFFF, 0x0, 0x0, 0x0, 0x0⟩,
  ⟨0x128, 64, 16, 0, 1, 32, false, .val, 0x1, 0xFFFFFFFF, 0x0, 0x0, 0x0, 0x0⟩,
  ⟨0x12C, 64, 16, 0, 1, 32, false, .val, 0xFFFFFFFF, 0xFFFFFFFF, 0x0, 0x0, 0x0, 0x0⟩,
  ⟨0x130, 64, 16, 0, 1, 32, true, .val, 0xFFFF0000, 0x0, 0x0, 0x0, 0x0, 0x0⟩,
  ⟨0x134, 64, 16, 0, 1, 96, true, .val, 0x0, 0x0, 0x0, 0x0, 0x0, 0x0⟩,
  ⟨0x500, 4, 16, 0, 1, 32, true, .val, 0x0, 0x0, 0x0, 0x0, 0x0, 0x0⟩,
  ⟨0x540, 4, 16, 0, 1, 32, true, .val, 0x0, 0x0, 0x0, 0x0, 0x0, 0x0⟩,
  ⟨0x580, 4, 16, 0, 1, 32, true, .val, 0x0, 0x0, 0x0, 0x0, 0x0, 0x0⟩]

/-- Registers of kind EVI (09 R195). -/
def regMap.EVI : List RegDesc := [
  ⟨0x100, 16, 16, 0, 1, 32, false, .val, 0x5A0000, 0x80FFFFFF, 0x0, 0x0, 0x0, 0x0⟩,
  ⟨0x104, 16, 16, 0, 1, 32, true, .val, 0x0, 0x0, 0x0, 0x0, 0x0, 0x0⟩,
  ⟨0x108, 16, 16, 0, 1, 32, true, .val, 0x0, 0x0, 0x0, 0x0, 0x0, 0x0⟩,
  ⟨0x400, 8, 16, 0, 1, 64, true, .val, 0x0, 0x0, 0x0, 0x0, 0x0, 0x0⟩]

/-- Registers of kind PORT (10 R214, 10 R216). -/
def regMap.PORT : List RegDesc := [
  ⟨0x800, 8, 64, 0, 1, 64, true, .val, 0x0, 0x0, 0x0, 0x0, 0x0, 0x0⟩,
  ⟨0x100, 0, 1, 0, 1, 32, false, .val, 0x8000, 0xE7338000, 0x0, 0x0, 0x0, 0x0⟩,
  ⟨0x104, 0, 1, 0, 1, 32, false, .val, 0x31F, 0x31F, 0x0, 0x0, 0x0, 0x0⟩,
  ⟨0x108, 0, 1, 0, 1, 32, false, .val, 0xBB80000, 0xFFFF0000, 0x0, 0x0, 0x0, 0x0⟩,
  ⟨0x10C, 0, 1, 0, 1, 32, false, .val, 0x0, 0x0, 0x0, 0x0, 0x0, 0x7⟩,
  ⟨0x110, 0, 1, 0, 1, 32, true, .val, 0x0, 0x0, 0x0, 0x0, 0x0, 0x0⟩,
  ⟨0x114, 0, 1, 0, 1, 32, false, .val, 0x5EE, 0x3FFF, 0x0, 0x0, 0x0, 0x0⟩,
  ⟨0x118, 0, 1, 0, 1, 32, false, .val, 0xA, 0xE30000FF, 0x0, 0x0, 0x0, 0x0⟩,
  ⟨0x11C, 0, 1, 0, 1, 32, true, .val, 0x0, 0x0, 0x0, 0x0, 0x0, 0x0⟩,
  ⟨0x120, 0, 1, 0, 1, 32, false, .val, 0x100000, 0x80FFFFFF, 0x0, 0x0, 0x0, 0x0⟩,
  ⟨0x124, 0, 1, 0, 1, 32, true, .val, 0x0, 0x0, 0x0, 0x0, 0x0, 0x0⟩,
  ⟨0x128, 0, 1, 0, 1, 32, false, .val, 0x0, 0xF0000000, 0x0, 0x0, 0x0, 0x0⟩,
  ⟨0x12C, 0, 1, 0, 1, 32, false, .val, 0x0, 0xFFFFFFFF, 0x0, 0x0, 0x0, 0x0⟩,
  ⟨0x130, 0, 1, 0, 1, 64, false, .val, 0x0, 0xFFFFFFFFFFFF, 0x0, 0x0, 0x0, 0x0⟩,
  ⟨0x138, 0, 1, 0, 1, 32, true, .val, 0x0, 0x0, 0x0, 0x0, 0x0, 0x0⟩,
  ⟨0x180, 0, 1, 0, 1, 64, false, .val, 0x0, 0xFFFFFFFFFFFFF000, 0x0, 0x0, 0x0, 0x0⟩,
  ⟨0x188, 0, 1, 0, 1, 32, false, .val, 0xB000A, 0x1F001F, 0x0, 0x0, 0x0, 0x0⟩,
  ⟨0x18C, 0, 1, 0, 1, 32, false, .val, 0x0, 0x0, 0x0, 0x0, 0x0, 0x0⟩,
  ⟨0x190, 0, 1, 0, 1, 32, false, .val, 0x0, 0xFFFF, 0x0, 0x0, 0x0, 0x0⟩,
  ⟨0x198, 0, 1, 0, 1, 64, false, .val, 0x0, 0xFFFFFFFFFFFFF000, 0x0, 0x0, 0x0, 0x0⟩,
  ⟨0x1A0, 0, 1, 0, 1, 32, false, .val, 0xA, 0x1F, 0x0, 0x0, 0x0, 0x0⟩,
  ⟨0x1A4, 0, 1, 0, 1, 32, false, .val, 0x0, 0xFFFF, 0x0, 0x0, 0x0, 0x0⟩,
  ⟨0x1A8, 0, 1, 0, 1, 32, false, .val, 0x0, 0x0, 0x0, 0x0, 0x0, 0x0⟩,
  ⟨0x1AC, 0, 1, 0, 1, 32, false, .val, 0x3E80040, 0xFFFFFFFF, 0x0, 0x0, 0x0, 0x0⟩,
  ⟨0x700, 0, 1, 0, 1, 32, false, .val, 0x0, 0x0, 0xFFFFFFFF, 0x0, 0x0, 0x0⟩,
  ⟨0x704, 0, 1, 0, 1, 32, false, .val, 0x0, 0x0, 0xFFFFFFFF, 0x0, 0x0, 0x0⟩]

/-- Registers of kind PC (10 R217). -/
def regMap.PC : List RegDesc := [
  ⟨0x100, 0, 1, 0, 1, 32, false, .val, 0x0, 0x0, 0x0, 0x0, 0x0, 0x3⟩,
  ⟨0x104, 0, 1, 0, 1, 32, true, .val, 0x0, 0x0, 0x0, 0x0, 0x0, 0x0⟩]

/-- Registers of kind PTS (11 R234). -/
def regMap.PTS : List RegDesc := [
  ⟨0x100, 0, 1, 0, 1, 32, false, .val, 0xC005003C, 0xC0FFFFFF, 0x0, 0x0, 0x0, 0x0⟩,
  ⟨0x104, 0, 1, 0, 1, 32, false, .val, 0x0, 0xFFFFF, 0x0, 0x0, 0x0, 0x0⟩,
  ⟨0x108, 0, 1, 0, 1, 32, false, .val, 0x0, 0x0, 0x0, 0x0, 0x0, 0x3⟩,
  ⟨0x110, 0, 1, 0, 1, 32, false, .val, 0x0, 0xFFFFFFFF, 0x0, 0x0, 0x0, 0x0⟩,
  ⟨0x114, 0, 1, 0, 1, 32, false, .val, 0x0, 0xFFFFFFFF, 0x0, 0x0, 0x0, 0x0⟩,
  ⟨0x118, 0, 1, 0, 1, 32, false, .val, 0x0, 0xFFFFFFFF, 0x0, 0x0, 0x0, 0x0⟩,
  ⟨0x11C, 0, 1, 0, 1, 32, false, .val, 0xFFFF, 0xFFFF, 0x0, 0x0, 0x0, 0x0⟩,
  ⟨0x120, 0, 1, 0, 1, 32, true, .val, 0xFFFF, 0x0, 0x0, 0x0, 0x0, 0x0⟩,
  ⟨0x124, 0, 1, 0, 1, 32, true, .val, 0x0, 0x0, 0x0, 0x0, 0x0, 0x0⟩,
  ⟨0x128, 0, 1, 0, 1, 64, true, .val, 0x0, 0x0, 0x0, 0x0, 0x0, 0x0⟩,
  ⟨0x130, 0, 1, 0, 1, 64, true, .val, 0x0, 0x0, 0x0, 0x0, 0x0, 0x0⟩,
  ⟨0x138, 0, 1, 0, 1, 32, true, .val, 0xFFFFFFFF, 0x0, 0x0, 0x0, 0x0, 0x0⟩,
  ⟨0x13C, 0, 1, 0, 1, 32, true, .val, 0xFFFFFFFF, 0x0, 0x0, 0x0, 0x0, 0x0⟩,
  ⟨0x140, 0, 1, 0, 1, 32, true, .val, 0x0, 0x0, 0x0, 0x0, 0x0, 0x0⟩,
  ⟨0x144, 0, 1, 0, 1, 32, true, .val, 0x0, 0x0, 0x0, 0x0, 0x0, 0x0⟩,
  ⟨0x148, 0, 1, 0, 1, 32, true, .val, 0x0, 0x0, 0x0, 0x0, 0x0, 0x0⟩,
  ⟨0x200, 16, 5, 0, 1, 32, false, .val, 0xFFFFFFFF, 0xFFFFFFFF, 0x0, 0x0, 0x0, 0x0⟩,
  ⟨0x204, 16, 5, 0, 1, 32, false, .val, 0xFFFFFFFF, 0xFFFFFFFF, 0x0, 0x0, 0x0, 0x0⟩,
  ⟨0x208, 16, 5, 0, 1, 32, false, .val, 0xFFFFFFFF, 0xFFFFFFFF, 0x0, 0x0, 0x0, 0x0⟩,
  ⟨0x20C, 16, 5, 0, 1, 32, false, .val, 0xFFFFFFFF, 0xFFFFFFFF, 0x0, 0x0, 0x0, 0x0⟩,
  ⟨0x300, 0, 1, 0, 1, 32, false, .val, 0x0, 0xFFFFFFFF, 0x0, 0x0, 0x0, 0x0⟩,
  ⟨0x310, 0, 1, 0, 1, 96, false, .val, 0x0, 0x0, 0x0, 0x0, 0x0, 0x0⟩,
  ⟨0x31C, 0, 1, 0, 1, 32, false, .val, 0xFFFF, 0x0, 0x0, 0x0, 0x0, 0x0⟩,
  ⟨0x320, 0, 1, 0, 1, 32, false, .val, 0x0, 0x0, 0x0, 0x0, 0x0, 0x0⟩,
  ⟨0x324, 0, 1, 0, 1, 32, false, .val, 0x0, 0x0, 0x0, 0x0, 0x0, 0x1⟩,
  ⟨0x328, 0, 1, 0, 1, 32, false, .val, 0x0, 0x0, 0x0, 0x0, 0x0, 0x0⟩]

/-- Registers of kind RSP0 (12 R265). -/
def regMap.RSP0 : List RegDesc := [
  ⟨0x100, 0, 1, 0, 1, 32, false, .val, 0x40000000, 0xC0000000, 0x0, 0x0, 0x0, 0x0⟩,
  ⟨0x104, 0, 1, 0, 1, 32, true, .val, 0x0, 0x0, 0x0, 0x0, 0x0, 0x0⟩,
  ⟨0x108, 0, 1, 0, 1, 64, false, .val, 0x0, 0xFFFFFFFFFFFFFFFF, 0x0, 0x0, 0x0, 0x0⟩,
  ⟨0x110, 0, 1, 0, 1, 32, false, .val, 0x8, 0xFF, 0x0, 0x0, 0x0, 0x0⟩,
  ⟨0x114, 0, 1, 0, 1, 32, false, .val, 0x0, 0x0, 0x0, 0x0, 0x0, 0x3⟩]

/-- Registers of kind RSP1 (12 R266). -/
def regMap.RSP1 : List RegDesc := [
  ⟨0x100, 0, 1, 0, 1, 32, true, .val, 0x0, 0x0, 0x0, 0x0, 0x0, 0x0⟩,
  ⟨0x104, 0, 1, 0, 1, 32, true, .val, 0x0, 0x0, 0x0, 0x0, 0x0, 0x0⟩,
  ⟨0x108, 0, 1, 0, 1, 32, false, .val, 0x12C, 0xFFFF, 0x0, 0x0, 0x0, 0x0⟩,
  ⟨0x10C, 0, 1, 0, 1, 32, false, .val, 0x10040, 0xFFFFFF, 0x0, 0x0, 0x0, 0x0⟩,
  ⟨0x110, 0, 1, 0, 1, 32, false, .val, 0x0, 0xFFF, 0x0, 0x0, 0x0, 0x0⟩,
  ⟨0x114, 0, 1, 0, 1, 32, true, .val, 0x0, 0x0, 0x0, 0x0, 0x0, 0x0⟩,
  ⟨0x118, 0, 1, 0, 1, 32, true, .val, 0x0, 0x0, 0x0, 0x0, 0x0, 0x0⟩,
  ⟨0x11C, 0, 1, 0, 1, 32, true, .val, 0x0, 0x0, 0x0, 0x0, 0x0, 0x0⟩,
  ⟨0x400, 16, 24, 0, 1, 32, false, .val, 0x4E20400, 0xFFFFFFFF, 0x0, 0x0, 0x0, 0x0⟩]

/-- Registers of kind RSP2 (12 R267). -/
def regMap.RSP2 : List RegDesc := [
  ⟨0x100, 64, 8, 0, 1, 32, false, .val, 0x700, 0xFFFF07FF, 0x0, 0x0, 0x0, 0x0⟩,
  ⟨0x104, 64, 8, 0, 1, 32, false, .val, 0x80804E5D, 0xFFFFFFFF, 0x0, 0x0, 0x0, 0x0⟩,
  ⟨0x108, 64, 8, 0, 1, 32, false, .val, 0xFC00FC00, 0xFFFFFF00, 0x0, 0x0, 0x0, 0x0⟩,
  ⟨0x10C, 64, 8, 0, 1, 32, false, .val, 0xF9FDF900, 0xFFFFFF00, 0x0, 0x0, 0x0, 0x0⟩,
  ⟨0x110, 64, 8, 0, 1, 32, false, .val, 0x4FA2, 0xFFFF, 0x0, 0x0, 0x0, 0x0⟩,
  ⟨0x114, 64, 8, 0, 1, 32, false, .val, 0x0, 0xFFFFFFFF, 0x0, 0x0, 0x0, 0x0⟩,
  ⟨0x118, 64, 8, 0, 1, 32, true, .val, 0x0, 0x0, 0x0, 0x0, 0x0, 0x0⟩]

/-- Registers of kind RSP3 (12 R268). -/
def regMap.RSP3 : List RegDesc := [
  ⟨0x100, 32, 4, 0, 1, 32, false, .val, 0x1E00000, 0xEFFF0000, 0x0, 0x0, 0x0, 0x0⟩,
  ⟨0x104, 32, 4, 0, 1, 32, false, .val, 0x0, 0xFFFFFFFF, 0x0, 0x0, 0x0, 0x0⟩,
  ⟨0x200, 8, 2, 0, 1, 64, true, .val, 0x0, 0x0, 0x0, 0x0, 0x0, 0x0⟩]

/-- Registers of kind RSP4 (12 R269). -/
def regMap.RSP4 : List RegDesc := [
  ⟨0x100, 32, 64, 0, 1, 32, false, .val, 0x0, 0xFCFFFFFF, 0x0, 0x0, 0x0, 0x0⟩,
  ⟨0x104, 32, 64, 4, 4, 32, false, .val, 0x0, 0xFFFFFFFF, 0x0, 0x0, 0x0, 0x0⟩]

/-- Registers of kind RSP5 (12 R269). -/
def regMap.RSP5 : List RegDesc := [
  ⟨0x100, 64, 24, 0, 1, 32, false, .val, 0x4B00, 0xFF00CF00, 0x0, 0x0, 0x0, 0x0⟩,
  ⟨0x104, 64, 24, 0, 1, 32, true, .val, 0x0, 0x0, 0x0, 0x0, 0x0, 0x0⟩]

/-- Registers of kind RSP7 (12 R271). -/
def regMap.RSP7 : List RegDesc := [
  ⟨0x100, 4, 4, 0, 1, 32, true, .val, 0x0, 0x0, 0x0, 0x0, 0x0, 0x0⟩,
  ⟨0x110, 0, 1, 0, 1, 32, true, .val, 0x0, 0x0, 0x0, 0x0, 0x0, 0x0⟩,
  ⟨0x120, 0, 1, 0, 1, 32, true, .val, 0x0, 0x0, 0x0, 0x0, 0x0, 0x0⟩,
  ⟨0x124, 0, 1, 0, 1, 32, true, .val, 0x0, 0x0, 0x0, 0x0, 0x0, 0x0⟩,
  ⟨0x130, 0, 1, 0, 1, 32, true, .val, 0x0, 0x0, 0x0, 0x0, 0x0, 0x0⟩]

/-- Registers of kind CST (13 R288). -/
def regMap.CST : List RegDesc := [
  ⟨0x100, 0, 1, 0, 1, 32, false, .val, 0x0, 0xE0000000, 0x0, 0x0, 0x0, 0x0⟩,
  ⟨0x104, 0, 1, 0, 1, 32, true, .val, 0x0, 0x0, 0x0, 0x0, 0x0, 0x0⟩,
  ⟨0x108, 0, 1, 0, 1, 32, false, .val, 0x0, 0x0, 0x0, 0x0, 0x0, 0x3⟩,
  ⟨0x110, 0, 1, 0, 1, 32, false, .val, 0x0, 0xFFFF031F, 0x0, 0x0, 0x0, 0x0⟩,
  ⟨0x114, 4, 4, 0, 1, 32, false, .val, 0x0, 0xFFFFFFFF, 0x0, 0x0, 0x0, 0x0⟩,
  ⟨0x128, 0, 1, 0, 1, 64, false, .val, 0x0, 0xFFFFFFFFFFFFFFFF, 0x0, 0x0, 0x0, 0x0⟩,
  ⟨0x130, 0, 1, 0, 1, 32, true, .val, 0x0, 0x0, 0x0, 0x0, 0x0, 0x0⟩,
  ⟨0x138, 0, 1, 0, 1, 64, true, .val, 0x0, 0x0, 0x0, 0x0, 0x0, 0x0⟩,
  ⟨0x140, 0, 1, 0, 1, 32, false, .val, 0x0, 0xFFFFFFFF, 0x0, 0x0, 0x0, 0x0⟩,
  ⟨0x144, 0, 1, 0, 1, 32, false, .val, 0x3C, 0xFFFF, 0x0, 0x0, 0x0, 0x0⟩,
  ⟨0x148, 0, 1, 0, 1, 32, true, .val, 0x0, 0x0, 0x0, 0x0, 0x0, 0x0⟩,
  ⟨0x14C, 0, 1, 0, 1, 32, true, .val, 0x0, 0x0, 0x0, 0x0, 0x0, 0x0⟩,
  ⟨0x150, 0, 1, 0, 1, 32, true, .val, 0x0, 0x0, 0x0, 0x0, 0x0, 0x0⟩,
  ⟨0x154, 0, 1, 0, 1, 32, true, .val, 0x0, 0x0, 0x0, 0x0, 0x0, 0x0⟩,
  ⟨0x158, 0, 1, 0, 1, 32, true, .val, 0x0, 0x0, 0x0, 0x0, 0x0, 0x0⟩,
  ⟨0x15C, 0, 1, 0, 1, 32, true, .val, 0x0, 0x0, 0x0, 0x0, 0x0, 0x0⟩,
  ⟨0x160, 4, 5, 0, 1, 32, true, .val, 0x0, 0x0, 0x0, 0x0, 0x0, 0x0⟩,
  ⟨0x180, 0, 1, 0, 1, 32, false, .val, 0x0, 0x3F, 0x0, 0x0, 0x0, 0x0⟩,
  ⟨0x184, 0, 1, 0, 1, 32, true, (.fuse 0x87FFFFFF), 0x0, 0x0, 0x0, 0x0, 0x0, 0x0⟩,
  ⟨0x188, 0, 1, 0, 1, 32, true, .val, 0x0, 0x0, 0x0, 0x0, 0x0, 0x0⟩]

/-- Registers of kind CL (14 R293). -/
def regMap.CL : List RegDesc := [
  ⟨0x100, 0, 1, 0, 1, 32, false, .val, 0x0, 0x80000000, 0x0, 0x0, 0x0, 0x0⟩,
  ⟨0x104, 0, 1, 0, 1, 32, false, .val, 0x0, 0x0, 0x0, 0x0, 0x0, 0x3⟩,
  ⟨0x108, 0, 1, 0, 1, 32, true, .val, 0x0, 0x0, 0x0, 0x0, 0x0, 0x0⟩,
  ⟨0x110, 0, 1, 0, 1, 64, true, .val, 0x0, 0x0, 0x0, 0x0, 0x0, 0x0⟩,
  ⟨0x118, 0, 1, 0, 1, 32, true, .val, 0x0, 0x0, 0x0, 0x0, 0x0, 0x0⟩,
  ⟨0x11C, 0, 1, 0, 1, 32, true, .val, 0x0, 0x0, 0x0, 0x0, 0x0, 0x0⟩,
  ⟨0x120, 0, 1, 0, 1, 32, true, .val, 0x0, 0x0, 0x0, 0x0, 0x0, 0x0⟩,
  ⟨0x130, 0, 1, 0, 1, 32, false, .val, 0x0, 0xF, 0x0, 0x0, 0x0, 0x0⟩,
  ⟨0x134, 0, 1, 0, 1, 32, true, .val, 0x0, 0x0, 0x0, 0x0, 0x0, 0x0⟩,
  ⟨0x138, 0, 1, 0, 1, 32, true, .val, 0x0, 0x0, 0x0, 0x0, 0x0, 0x0⟩]

/-- Registers of kind KEY0 (14 R314). -/
def regMap.KEY0 : List RegDesc := [
  ⟨0x100, 0, 1, 0, 1, 32, false, .val, 0x0, 0x0, 0x0, 0x0, 0x0, 0xFF000F⟩,
  ⟨0x104, 0, 1, 0, 1, 32, false, .val, 0x1FF000, 0x3E1FF0FF, 0x0, 0x0, 0x0, 0x0⟩,
  ⟨0x108, 0, 1, 0, 1, 32, false, .val, 0x0, 0xFFFFFF, 0x0, 0x0, 0x0, 0x0⟩,
  ⟨0x10C, 0, 1, 0, 1, 32, false, .val, 0x0, 0xFFFFFFFF, 0x0, 0x0, 0x0, 0x0⟩,
  ⟨0x110, 4, 8, 0, 1, 32, false, .val, 0x0, 0x0, 0x0, 0x0, 0x0, 0xFFFFFFFF⟩,
  ⟨0x130, 4, 8, 0, 1, 32, false, .val, 0x0, 0xFFFFFFFF, 0x0, 0x0, 0x0, 0x0⟩,
  ⟨0x150, 4, 16, 0, 1, 32, false, .val, 0x0, 0xFFFFFFFF, 0x0, 0x0, 0x0, 0x0⟩,
  ⟨0x190, 0, 1, 0, 1, 32, false, .val, 0x0, 0x3F7F, 0x0, 0x0, 0x0, 0x0⟩,
  ⟨0x1A0, 0, 1, 0, 1, 32, true, .val, 0x0, 0x0, 0x0, 0x0, 0x0, 0x0⟩,
  ⟨0x1A4, 0, 1, 0, 1, 32, false, .val, 0x0, 0x0, 0x0, 0x0, 0x0, 0x0⟩,
  ⟨0x1A8, 0, 1, 0, 1, 32, true, .val, 0x0, 0x0, 0x0, 0x0, 0x0, 0x0⟩,
  ⟨0x1B0, 0, 1, 0, 1, 32, true, (.fuse 0x10707), 0x0, 0x0, 0x0, 0x0, 0x0, 0x0⟩,
  ⟨0x1C0, 4, 4, 0, 1, 32, false, .val, 0x0, 0x0, 0x0, 0x0, 0x0, 0x0⟩,
  ⟨0x200, 4, 80, 0, 1, 32, false, .val, 0x0, 0x0, 0x0, 0x0, 0x0, 0xFFFFFFFF⟩,
  ⟨0x340, 0, 1, 0, 1, 32, false, .val, 0x0, 0x0, 0x0, 0x0, 0x0, 0x1⟩,
  ⟨0x344, 0, 1, 0, 1, 32, true, .val, 0x0, 0x0, 0x0, 0x0, 0x0, 0x0⟩]

/-- Registers of kind KEY1 (14 R315). -/
def regMap.KEY1 : List RegDesc := [
  ⟨0x100, 16, 128, 0, 1, 32, true, .val, 0x1FF000, 0x0, 0x0, 0x0, 0x0, 0x0⟩,
  ⟨0x104, 16, 128, 0, 1, 32, true, .val, 0x0, 0x0, 0x0, 0x0, 0x0, 0x0⟩,
  ⟨0x108, 16, 128, 0, 1, 32, true, .val, 0x0, 0x0, 0x0, 0x0, 0x0, 0x0⟩,
  ⟨0x10C, 16, 128, 0, 1, 32, true, .val, 0x0, 0x0, 0x0, 0x0, 0x0, 0x0⟩]

/-- Registers of kind KEY3 (14 R316). -/
def regMap.KEY3 : List RegDesc := [
  ⟨0x100, 0, 1, 0, 1, 64, false, (.fuse 0xFFFFFFFFFFFFFFFF), 0x0, 0x0, 0x0, 0x0, 0x0, 0x0⟩,
  ⟨0x108, 0, 1, 0, 1, 32, false, .val, 0x0, 0xFF, 0x0, 0x0, 0x0, 0x0⟩,
  ⟨0x110, 4, 8, 0, 1, 32, false, .val, 0x0, 0xFF, 0x0, 0x0, 0x0, 0x0⟩,
  ⟨0x130, 0, 1, 0, 1, 32, false, .val, 0x0, 0xFF, 0x0, 0x0, 0x0, 0x0⟩,
  ⟨0x134, 0, 1, 0, 1, 32, false, .val, 0x0, 0xFF, 0x0, 0x0, 0x0, 0x0⟩,
  ⟨0x140, 4, 4, 0, 1, 32, false, .val, 0x0, 0xFFFFFFFF, 0x0, 0x0, 0x0, 0x0⟩,
  ⟨0x150, 0, 1, 0, 1, 32, false, .val, 0x0, 0x0, 0x0, 0x0, 0x0, 0x1⟩,
  ⟨0x154, 0, 1, 0, 1, 32, true, .val, 0x0, 0x0, 0x0, 0x0, 0x0, 0x0⟩,
  ⟨0x160, 4, 8, 0, 1, 32, true, .val, 0x0, 0x0, 0x0, 0x0, 0x0, 0x0⟩,
  ⟨0x180, 4, 8, 0, 1, 32, true, .val, 0x0, 0x0, 0x0, 0x0, 0x0, 0x0⟩,
  ⟨0x1A0, 0, 1, 0, 1, 64, true, .val, 0x0, 0x0, 0x0, 0x0, 0x0, 0x0⟩,
  ⟨0x1C0, 0, 1, 0, 1, 32, false, .val, 0x0, 0xFF, 0x0, 0x0, 0x0, 0x0⟩,
  ⟨0x1C4, 0, 1, 0, 1, 32, true, .val, 0x0, 0x0, 0x0, 0x0, 0x0, 0x0⟩]

/-- Registers of kind AUD (15 R328). -/
def regMap.AUD : List RegDesc := [
  ⟨0x100, 256, 2, 0, 1, 32, false, .val, 0x2020000, 0xFF9FFF00, 0x0, 0x0, 0x0, 0x0⟩,
  ⟨0x104, 256, 2, 0, 1, 32, false, .val, 0xBB80, 0x1FFFFFF, 0x0, 0x0, 0x0, 0x0⟩,
  ⟨0x108, 256, 2, 0, 1, 32, false, .val, 0x30003, 0xFFFF, 0x0, 0x0, 0x0, 0x0⟩,
  ⟨0x10C, 256, 2, 0, 1, 32, false, .val, 0x0, 0x0, 0x0, 0x0, 0x0, 0x3⟩,
  ⟨0x110, 256, 2, 0, 1, 32, false, .val, 0x3E8, 0x1FFFF, 0x0, 0x0, 0x0, 0x0⟩,
  ⟨0x114, 256, 2, 0, 1, 32, true, .val, 0x0, 0x0, 0x4000000, 0x0, 0x0, 0x0⟩,
  ⟨0x118, 256, 2, 0, 1, 64, true, .val, 0x0, 0x0, 0x0, 0x0, 0x0, 0x0⟩,
  ⟨0x120, 256, 2, 0, 1, 64, false, .val, 0x0, 0xFFFFFFFFFFFFFFFF, 0x0, 0x0, 0x0, 0x0⟩,
  ⟨0x128, 256, 2, 0, 1, 32, true, .val, 0x0, 0x0, 0x0, 0x0, 0x0, 0x0⟩,
  ⟨0x12C, 256, 2, 0, 1, 32, true, .val, 0x0, 0x0, 0x0, 0x0, 0x0, 0x0⟩,
  ⟨0x130, 256, 2, 0, 1, 32, false, .val, 0x64, 0xFFFF, 0x0, 0x0, 0x0, 0x0⟩,
  ⟨0x134, 256, 2, 0, 1, 32, true, .val, 0x0, 0x0, 0x0, 0x0, 0x0, 0x0⟩,
  ⟨0x138, 256, 2, 0, 1, 32, true, .val, 0x0, 0x0, 0x0, 0x0, 0x0, 0x0⟩,
  ⟨0x13C, 256, 2, 0, 1, 32, true, .val, 0x0, 0x0, 0x0, 0x0, 0x0, 0x0⟩,
  ⟨0x140, 256, 2, 0, 1, 64, false, .val, 0x0, 0xFFFFFFFFFFFFF000, 0x0, 0x0, 0x0, 0x0⟩,
  ⟨0x148, 256, 2, 0, 1, 32, false, .val, 0xA, 0x1F, 0x0, 0x0, 0x0, 0x0⟩,
  ⟨0x14C, 0, 1, 0, 1, 32, false, .val, 0x0, 0xFFFFF, 0x0, 0x0, 0x0, 0x0⟩,
  ⟨0x24C, 0, 1, 0, 1, 32, false, .val, 0x0, 0x0, 0x0, 0x0, 0x0, 0x0⟩,
  ⟨0x150, 0, 1, 0, 1, 32, false, .val, 0x0, 0x0, 0x0, 0x0, 0x0, 0x0⟩,
  ⟨0x250, 0, 1, 0, 1, 32, false, .val, 0x0, 0xFFFFF, 0x0, 0x0, 0x0, 0x0⟩]

/-- Registers of kind AUD0 (15 R328). -/
def regMap.AUD0 : List RegDesc := [
  ⟨0x400, 8, 4, 0, 1, 64, false, .val, 0x0, 0xFFFFFFFFFFFFFFFF, 0x0, 0x0, 0x0, 0x0⟩]

/-- Registers of kind SEQ (16 R338). -/
def regMap.SEQ : List RegDesc := [
  ⟨0x100, 0, 1, 0, 1, 32, false, .val, 0x0, 0x80000000, 0x0, 0x0, 0x0, 0x0⟩,
  ⟨0x104, 0, 1, 0, 1, 32, false, .val, 0x0, 0x0, 0x0, 0x0, 0x0, 0x3⟩,
  ⟨0x108, 0, 1, 0, 1, 32, false, .val, 0x0, 0x1FF, 0x0, 0x0, 0x0, 0x0⟩,
  ⟨0x10C, 0, 1, 0, 1, 32, false, .val, 0x3E8, 0xFFFFFFFF, 0x0, 0x0, 0x0, 0x0⟩,
  ⟨0x110, 0, 1, 0, 1, 32, true, .val, 0x380000, 0x0, 0x0, 0x0, 0x0, 0x0⟩,
  ⟨0x118, 0, 1, 0, 1, 64, true, .val, 0x0, 0x0, 0x0, 0x0, 0x0, 0x0⟩,
  ⟨0x120, 4, 4, 0, 1, 32, false, .val, 0x0, 0x0, 0x0, 0x0, 0x807F01FF, 0x0⟩,
  ⟨0x140, 4, 8, 0, 1, 32, false, .val, 0x0, 0x0, 0x0, 0x0, 0x9FFF3FFF, 0x0⟩,
  ⟨0x160, 0, 1, 0, 1, 32, false, .val, 0x0, 0x0, 0x0, 0x80000000, 0x3, 0x0⟩,
  ⟨0x180, 4, 8, 0, 1, 32, true, .val, 0x0, 0x0, 0x0, 0x0, 0x0, 0x0⟩,
  ⟨0x1A0, 4, 4, 0, 1, 32, false, .val, 0x0, 0x0, 0xFFFFFFFF, 0x0, 0x0, 0x0⟩,
  ⟨0x1B0, 0, 1, 0, 1, 32, true, .val, 0x0, 0x0, 0x0, 0x0, 0x0, 0x0⟩,
  ⟨0x1B4, 0, 1, 0, 1, 32, true, .val, 0x0, 0x0, 0x0, 0x0, 0x0, 0x0⟩,
  ⟨0x1B8, 0, 1, 0, 1, 32, true, .val, 0x0, 0x0, 0x0, 0x0, 0x0, 0x0⟩,
  ⟨0x400, 4, 64, 0, 1, 32, false, .val, 0x0, 0xFFFFFFFF, 0x0, 0x0, 0x0, 0x0⟩,
  ⟨0x800, 4, 512, 0, 1, 32, false, .val, 0x0, 0xFFFFFFFF, 0x0, 0x0, 0x0, 0x0⟩]

/-- Registers of kind REC (17 R351). -/
def regMap.REC : List RegDesc := [
  ⟨0x100, 0, 1, 0, 1, 32, false, .val, 0x0, 0xC0000000, 0x0, 0x0, 0x0, 0x0⟩,
  ⟨0x104, 0, 1, 0, 1, 32, false, .val, 0xC00, 0x1FFF, 0x0, 0x0, 0x0, 0x0⟩,
  ⟨0x108, 0, 1, 0, 1, 32, false, .val, 0x4000, 0x3FFFF, 0x0, 0x0, 0x0, 0x0⟩,
  ⟨0x10C, 0, 1, 0, 1, 32, false, .val, 0x0, 0x0, 0x0, 0x0, 0x0, 0x3F⟩,
  ⟨0x110, 0, 1, 0, 1, 32, true, .val, 0x4000, 0x0, 0x0, 0x0, 0x0, 0x0⟩,
  ⟨0x114, 0, 1, 0, 1, 32, true, .val, 0x0, 0x0, 0x0, 0x0, 0x0, 0x0⟩,
  ⟨0x118, 0, 1, 0, 1, 32, true, .val, 0x0, 0x0, 0x0, 0x0, 0x0, 0x0⟩,
  ⟨0x11C, 0, 1, 0, 1, 32, true, .val, 0x0, 0x0, 0x0, 0x0, 0x0, 0x0⟩,
  ⟨0x120, 0, 1, 0, 1, 32, true, .val, 0x0, 0x0, 0x0, 0x0, 0x0, 0x0⟩,
  ⟨0x124, 0, 1, 0, 1, 32, true, .val, 0x0, 0x0, 0x0, 0x0, 0x0, 0x0⟩,
  ⟨0x128, 0, 1, 0, 1, 32, true, .val, 0x0, 0x0, 0x0, 0x0, 0x0, 0x0⟩,
  ⟨0x12C, 0, 1, 0, 1, 32, true, .val, 0x0, 0x0, 0x0, 0x0, 0x0, 0x0⟩,
  ⟨0x130, 0, 1, 0, 1, 32, true, .val, 0x0, 0x0, 0x0, 0x0, 0x0, 0x0⟩,
  ⟨0x140, 4, 4, 0, 1, 32, false, .val, 0x0, 0x0, 0x0, 0x0, 0x0, 0x0⟩,
  ⟨0x150, 4, 4, 0, 1, 32, false, .val, 0x0, 0x0, 0x0, 0x0, 0x0, 0xFFFFFFFF⟩,
  ⟨0x160, 0, 1, 0, 1, 32, false, .val, 0x0, 0xFFFFFFFF, 0x0, 0x0, 0x0, 0x0⟩,
  ⟨0x164, 0, 1, 0, 1, 32, true, .val, 0x0, 0x0, 0x0, 0x0, 0x0, 0x0⟩,
  ⟨0x180, 4, 16, 0, 1, 32, true, .val, 0x0, 0x0, 0x0, 0x0, 0x0, 0x0⟩,
  ⟨0x200, 4, 16, 0, 1, 32, false, .val, 0x0, 0x80007FFF, 0x0, 0x0, 0x0, 0x0⟩,
  ⟨0x240, 4, 5, 0, 1, 32, false, .val, 0x0, 0x8000000F, 0x0, 0x0, 0x0, 0x0⟩,
  ⟨0x260, 0, 1, 0, 1, 32, true, .val, 0x0, 0x0, 0x0, 0x0, 0x0, 0x0⟩,
  ⟨0x400, 4, 256, 0, 1, 32, false, .val, 0x0, 0x1FFFFFF, 0x0, 0x0, 0x0, 0x0⟩]

/-- Registers of kind HDR (18 R365, 18 R371, 19 R393, 22 R442). -/
def regMap.HDR : List RegDesc := [
  ⟨0x1C, 0, 1, 0, 1, 32, false, .val, 0x0, 0x0, 0x0, 0x0, 0x0, 0x0⟩,
  ⟨0x20, 0, 1, 0, 1, 32, false, .val, 0x0, 0x1F, 0x0, 0x0, 0x0, 0x0⟩,
  ⟨0x24, 0, 1, 0, 1, 32, false, .val, 0x0, 0x0, 0x0, 0x0, 0x0, 0x1F⟩,
  ⟨0x30, 4, 4, 0, 1, 32, false, .val, 0x0, 0xC0000FFF, 0x0, 0x0, 0x0, 0x20000000⟩,
  ⟨0x40, 8, 4, 0, 1, 64, true, .val, 0x0, 0x0, 0x0, 0x0, 0x0, 0x0⟩,
  ⟨0x28, 0, 1, 0, 1, 32, false, .val, 0x0, 0x3, 0x0, 0x0, 0x0, 0x0⟩,
  ⟨0x2C, 0, 1, 0, 1, 32, true, .val, 0x38000000, 0x0, 0x0, 0x0, 0x0, 0x0⟩,
  ⟨0x0, 0, 1, 0, 1, 32, false, .pageId, 0x1, 0x0, 0x0, 0x0, 0x0, 0x0⟩,
  ⟨0x4, 0, 1, 0, 1, 32, false, .val, 0x1, 0x0, 0x0, 0x0, 0x0, 0x0⟩,
  ⟨0x8, 0, 1, 0, 1, 32, false, .val, 0x80000000, 0xC0000000, 0x0, 0x0, 0x0, 0x1⟩,
  ⟨0xC, 0, 1, 0, 1, 32, false, .val, 0x0, 0x0, 0x0, 0x0, 0x0, 0x0⟩,
  ⟨0x10, 0, 1, 0, 1, 32, false, .val, 0x0, 0x0, 0xFFFFFFFF, 0x0, 0x0, 0x0⟩,
  ⟨0x14, 0, 1, 0, 1, 32, false, .val, 0x0, 0xFFFFFFFF, 0x0, 0x0, 0x0, 0x0⟩,
  ⟨0x18, 0, 1, 0, 1, 32, false, .val, 0x0, 0x0, 0x0, 0xFFFFFFFF, 0x0, 0x0⟩,
  ⟨0x60, 0, 1, 0, 1, 64, true, .val, 0x0, 0x0, 0x0, 0x0, 0x0, 0x0⟩,
  ⟨0x68, 0, 1, 0, 1, 32, true, .val, 0xFF, 0x0, 0x0, 0x0, 0x0, 0x0⟩,
  ⟨0x70, 0, 1, 0, 1, 32, false, .val, 0x0, 0x0, 0x0, 0x0, 0x0, 0x3⟩,
  ⟨0x74, 0, 1, 0, 1, 32, false, .val, 0x0, 0x0, 0x0, 0x0, 0x0, 0x0⟩,
  ⟨0xC0, 0, 1, 0, 1, 32, true, .val, 0x0, 0x0, 0x0, 0x0, 0x0, 0x0⟩,
  ⟨0xC8, 0, 1, 0, 1, 64, true, .val, 0x0, 0x0, 0x0, 0x0, 0x0, 0x0⟩,
  ⟨0xD0, 0, 1, 0, 1, 64, true, .val, 0x0, 0x0, 0x0, 0x0, 0x0, 0x0⟩,
  ⟨0xD8, 0, 1, 0, 1, 32, true, .val, 0xFF, 0x0, 0x0, 0x0, 0x0, 0x0⟩,
  ⟨0xE0, 0, 1, 0, 1, 64, true, .val, 0x0, 0x0, 0x0, 0x0, 0x0, 0x0⟩]

/-- Registers of kind FLT (18 R366). -/
def regMap.FLT : List RegDesc := [
  ⟨0x100, 0, 1, 0, 1, 32, false, .val, 0x0, 0x0, 0x0, 0x40000000, 0x80000000, 0x0⟩,
  ⟨0x104, 0, 1, 0, 1, 32, false, .val, 0x0, 0x0, 0x0, 0x0, 0x0, 0x1F⟩,
  ⟨0x108, 0, 1, 0, 1, 32, true, .val, 0x0, 0x0, 0x0, 0x0, 0x0, 0x0⟩,
  ⟨0x110, 0, 1, 0, 1, 32, true, .val, 0x0, 0x0, 0x0, 0x0, 0x0, 0x0⟩,
  ⟨0x118, 0, 1, 0, 1, 64, true, .val, 0x0, 0x0, 0x0, 0x0, 0x0, 0x0⟩,
  ⟨0x120, 0, 1, 0, 1, 32, true, .val, 0x0, 0x0, 0x0, 0x0, 0x0, 0x0⟩,
  ⟨0x124, 0, 1, 0, 1, 32, true, .val, 0x0, 0x0, 0x0, 0x0, 0x0, 0x0⟩,
  ⟨0x128, 0, 1, 0, 1, 32, true, .val, 0x0, 0x0, 0x0, 0x0, 0x0, 0x0⟩,
  ⟨0x130, 4, 5, 0, 1, 32, true, .val, 0x0, 0x0, 0x0, 0x0, 0x0, 0x0⟩,
  ⟨0x200, 4, 8, 0, 1, 32, true, .val, 0x0, 0x0, 0x0, 0x0, 0x0, 0x0⟩,
  ⟨0x240, 4, 8, 0, 1, 32, true, .val, 0x0, 0x0, 0x0, 0x0, 0x0, 0x0⟩,
  ⟨0x400, 4, 256, 0, 1, 32, false, .fltSlot, 0x0, 0x0, 0x0, 0x0, 0x0, 0x0⟩]

/-- Registers of kind PMC (18 R373). -/
def regMap.PMC : List RegDesc := [
  ⟨0x100, 0, 1, 0, 1, 32, false, .val, 0x3E8, 0xC000FFFF, 0x0, 0x0, 0x0, 0x0⟩,
  ⟨0x104, 0, 1, 0, 1, 32, false, .val, 0x0, 0x0, 0x0, 0x0, 0x0, 0x1⟩,
  ⟨0x108, 0, 1, 0, 1, 32, false, .val, 0x0, 0xFFFF, 0x0, 0x0, 0x0, 0x0⟩,
  ⟨0x10C, 0, 1, 0, 1, 32, false, .val, 0xF, 0xF, 0x0, 0x0, 0x0, 0x0⟩,
  ⟨0x110, 0, 1, 0, 1, 32, false, .val, 0x0, 0x1FFFFFC, 0x0, 0x0, 0x0, 0x0⟩,
  ⟨0x114, 0, 1, 0, 1, 32, false, .val, 0x1FFFFFC, 0x1FFFFFC, 0x0, 0x0, 0x0, 0x0⟩,
  ⟨0x118, 0, 1, 0, 1, 32, false, .val, 0xFFFF, 0xFFFF, 0x0, 0x0, 0x0, 0x0⟩,
  ⟨0x120, 0, 1, 0, 1, 64, true, .val, 0x0, 0x0, 0x0, 0x0, 0x0, 0x0⟩,
  ⟨0x200, 4, 64, 0, 1, 32, false, .val, 0x0, 0x9FFF0003, 0x0, 0x0, 0x0, 0x0⟩,
  ⟨0x400, 8, 64, 0, 1, 64, true, .val, 0x0, 0x0, 0x0, 0x0, 0x0, 0x0⟩]

/-- Registers of kind PWR (19 R394). -/
def regMap.PWR : List RegDesc := [
  ⟨0x100, 0, 1, 0, 1, 32, false, .val, 0xE0000064, 0xE000FFFF, 0x0, 0x0, 0x0, 0x0⟩,
  ⟨0x104, 0, 1, 0, 1, 32, false, .val, 0x2710, 0xFFFF, 0x0, 0x0, 0x0, 0x0⟩,
  ⟨0x108, 0, 1, 0, 1, 32, false, .val, 0x69645F00, 0xFFFFFF00, 0x0, 0x0, 0x0, 0x0⟩,
  ⟨0x10C, 0, 1, 0, 1, 32, false, .val, 0x3E8, 0xFFFF, 0x0, 0x0, 0x0, 0x0⟩,
  ⟨0x110, 0, 1, 0, 1, 32, false, .val, 0x0, 0x0, 0x0, 0x0, 0x0, 0x3⟩,
  ⟨0x114, 0, 1, 0, 1, 32, true, .val, 0x0, 0x0, 0x0, 0x0, 0x0, 0x0⟩,
  ⟨0x118, 0, 1, 0, 1, 32, true, .val, 0x2710, 0x0, 0x0, 0x0, 0x0, 0x0⟩,
  ⟨0x120, 4, 6, 0, 1, 32, true, .val, 0x0, 0x0, 0x0, 0x0, 0x0, 0x0⟩,
  ⟨0x140, 0, 1, 0, 1, 32, false, .val, 0x0, 0x1F, 0x0, 0x0, 0x0, 0x0⟩,
  ⟨0x144, 0, 1, 0, 1, 32, false, .val, 0xFFFF, 0x0, 0x0, 0x0, 0x0, 0x0⟩]

/-- Registers of kind CLKD (19 R395). -/
def regMap.CLKD : List RegDesc := [
  ⟨0x100, 0, 1, 0, 1, 32, true, .val, 0x0, 0x0, 0x0, 0x0, 0x0, 0x0⟩,
  ⟨0x104, 0, 1, 0, 1, 32, false, .val, 0x200000, 0x803F003F, 0x0, 0x0, 0x0, 0x0⟩,
  ⟨0x108, 0, 1, 0, 1, 32, false, .val, 0x0, 0x0, 0x0, 0x40000000, 0x80000000, 0x0⟩,
  ⟨0x10C, 0, 1, 0, 1, 32, false, .val, 0x41, 0xFF, 0x0, 0x0, 0x0, 0x0⟩,
  ⟨0x110, 0, 1, 0, 1, 32, false, .val, 0xA02, 0x3F3F, 0x0, 0x0, 0x0, 0x0⟩,
  ⟨0x114, 0, 1, 0, 1, 32, true, .val, 0x0, 0x0, 0x0, 0x0, 0x0, 0x0⟩]

/-- Registers of kind PLK (20 R414). -/
def regMap.PLK : List RegDesc := [
  ⟨0x100, 0, 1, 0, 1, 32, false, .val, 0x60000000, 0xBC000000, 0x0, 0x2000000, 0x40000000, 0x0⟩,
  ⟨0x104, 0, 1, 0, 1, 32, false, .val, 0x0, 0x0, 0x0, 0x0, 0x0, 0x7⟩,
  ⟨0x108, 0, 1, 0, 1, 32, true, .val, 0x1000000, 0x0, 0x0, 0x0, 0x0, 0x0⟩,
  ⟨0x10C, 0, 1, 0, 1, 32, true, .val, 0xFFFFFFFF, 0x0, 0x0, 0x0, 0x0, 0x0⟩,
  ⟨0x110, 0, 1, 0, 1, 32, true, .val, 0x0, 0x0, 0x0, 0x0, 0x0, 0x0⟩,
  ⟨0x114, 0, 1, 0, 1, 32, false, .val, 0xA0A3215, 0xFFFFFFFF, 0x0, 0x0, 0x0, 0x0⟩,
  ⟨0x118, 0, 1, 0, 1, 32, false, .val, 0x1E, 0xFFFF, 0x0, 0x0, 0x0, 0x0⟩,
  ⟨0x11C, 0, 1, 0, 1, 32, false, .val, 0x0, 0xFF, 0x0, 0x0, 0x0, 0x0⟩,
  ⟨0x120, 0, 1, 0, 1, 64, false, .val, 0x0, 0x0, 0x0, 0x0, 0xFFFFFFFFFFFFFFFF, 0x0⟩,
  ⟨0x128, 0, 1, 0, 1, 32, false, .val, 0x0, 0x7, 0x0, 0x0, 0x0, 0x0⟩,
  ⟨0x12C, 0, 1, 0, 1, 32, false, .val, 0x0, 0x80000003, 0x0, 0x0, 0x0, 0x0⟩,
  ⟨0x130, 0, 1, 0, 1, 32, false, .val, 0x0, 0xFFFFFFFF, 0x0, 0x0, 0x0, 0x0⟩,
  ⟨0x134, 0, 1, 0, 1, 32, false, .val, 0xFFFF, 0xFFFF, 0x0, 0x0, 0x0, 0x0⟩,
  ⟨0x138, 0, 1, 0, 1, 32, false, .val, 0xFFFF, 0xFFFF, 0x0, 0x0, 0x0, 0x0⟩,
  ⟨0x200, 4, 24, 0, 1, 32, false, .val, 0x1F, 0x1F, 0x0, 0x0, 0x0, 0x0⟩,
  ⟨0x300, 0, 1, 0, 1, 64, true, .val, 0x0, 0x0, 0x0, 0x0, 0x0, 0x0⟩,
  ⟨0x308, 0, 1, 0, 1, 32, true, .val, 0xFFFF, 0x0, 0x0, 0x0, 0x0, 0x0⟩,
  ⟨0x310, 0, 1, 0, 1, 64, true, .val, 0x0, 0x0, 0x0, 0x0, 0x0, 0x0⟩,
  ⟨0x320, 4, 4, 0, 1, 32, true, .val, 0x0, 0x0, 0x0, 0x0, 0x0, 0x0⟩,
  ⟨0x380, 4, 6, 0, 1, 32, true, .val, 0x0, 0x0, 0x0, 0x0, 0x0, 0x0⟩]

/-- Registers of kind LDR (21 R434). -/
def regMap.LDR : List RegDesc := [
  ⟨0x100, 0, 1, 0, 1, 32, false, .val, 0x1000012C, 0x1000FFFF, 0x0, 0x8000000, 0xE0000000, 0x0⟩,
  ⟨0x104, 0, 1, 0, 1, 32, false, .val, 0x0, 0x0, 0x0, 0x0, 0x0, 0xF⟩,
  ⟨0x108, 0, 1, 0, 1, 64, false, .val, 0x0, 0xFFFFFFFFFFFFFFFF, 0x0, 0x0, 0x0, 0x0⟩,
  ⟨0x110, 0, 1, 0, 1, 32, false, .val, 0x0, 0xFFFFFFFF, 0x0, 0x0, 0x0, 0x0⟩,
  ⟨0x120, 0, 1, 0, 1, 32, true, .val, 0xFF0000, 0x0, 0x0, 0x0, 0x0, 0x0⟩,
  ⟨0x128, 0, 1, 0, 1, 32, false, .val, 0x1E, 0x8000FFFF, 0x0, 0x0, 0x0, 0x40000000⟩,
  ⟨0x130, 0, 1, 0, 1, 32, true, (.fuse 0xFF000000), 0x0, 0x0, 0x0, 0x0, 0x0, 0x0⟩,
  ⟨0x134, 0, 1, 0, 1, 32, true, .val, 0x0, 0x0, 0x0, 0x0, 0x0, 0x0⟩,
  ⟨0x140, 0, 1, 0, 1, 32, true, .val, 0x0, 0x0, 0x0, 0x0, 0x0, 0x0⟩,
  ⟨0x144, 0, 1, 0, 1, 32, true, .val, 0x0, 0x0, 0x0, 0x0, 0x0, 0x0⟩]

/-- Registers of kind HIF (22 R450). -/
def regMap.HIF : List RegDesc := [
  ⟨0x100, 0, 1, 0, 1, 32, true, .val, 0x0, 0x0, 0x0, 0x0, 0x0, 0x0⟩,
  ⟨0x104, 0, 1, 0, 1, 32, false, .val, 0x8000004A, 0xA000007F, 0x0, 0x10000000, 0x40000000, 0x0⟩,
  ⟨0x108, 0, 1, 0, 1, 32, false, .val, 0xFA0, 0xFFFF, 0x0, 0x0, 0x0, 0x0⟩,
  ⟨0x10C, 0, 1, 0, 1, 32, true, .val, 0x0, 0x0, 0x0, 0x0, 0x0, 0x0⟩,
  ⟨0x400, 4, 256, 0, 1, 32, false, .val, 0x80000000, 0xC000033F, 0x0, 0x0, 0x0, 0x0⟩]

/-- Registers of kind RSP6 (12 R270). -/
def regMap.RSP6 : List RegDesc := [
  ⟨0x100, 8, 32, 0, 1, 64, true, .val, 0x0, 0x0, 0x0, 0x0, 0x0, 0x0⟩,
  ⟨0x300, 0, 1, 0, 1, 32, false, .val, 0x0, 0x0, 0xFFFFFFFF, 0x0, 0x0, 0x0⟩]

/-- Registers of kind GNSS7 (06 R148). -/
def regMap.GNSS7 : List RegDesc := [
  ⟨0x100, 0, 1, 0, 1, 32, false, .val, 0x40A24, 0x0, 0x0, 0x0, 0x0, 0x0⟩,
  ⟨0x104, 0, 1, 0, 1, 32, false, .val, 0x0, 0xFFFFFFFF, 0x0, 0x0, 0x0, 0x0⟩,
  ⟨0x108, 0, 1, 0, 1, 32, false, .val, 0x0, 0x0, 0x0, 0x0, 0x0, 0x0⟩,
  ⟨0x10C, 0, 1, 0, 1, 32, false, .val, 0x0, 0x0, 0x0, 0x0, 0x0, 0x0⟩,
  ⟨0x110, 0, 1, 0, 1, 32, false, .val, 0x0, 0x0, 0x0, 0x0, 0x0, 0x0⟩,
  ⟨0x114, 0, 1, 0, 1, 32, false, .val, 0x0, 0x0, 0x0, 0x0, 0x0, 0x0⟩,
  ⟨0x118, 0, 1, 0, 1, 32, false, .val, 0x0, 0xFFFFFFFF, 0x0, 0x0, 0x0, 0x0⟩,
  ⟨0x11C, 0, 1, 0, 1, 32, false, .val, 0x0, 0xFFFFFFFF, 0x0, 0x0, 0x0, 0x0⟩,
  ⟨0x120, 0, 1, 0, 1, 32, false, .val, 0x0, 0xFFFFFFFF, 0x0, 0x0, 0x0, 0x0⟩,
  ⟨0x124, 0, 1, 0, 1, 32, false, .val, 0xE10, 0xFFFFFFFF, 0x0, 0x0, 0x0, 0x0⟩,
  ⟨0x128, 0, 1, 0, 1, 32, false, .val, 0x0, 0xFFFFFFFF, 0x0, 0x0, 0x0, 0x0⟩,
  ⟨0x12C, 0, 1, 0, 1, 32, false, .val, 0x0, 0x0, 0x0, 0x0, 0x0, 0x0⟩]

end Sys2Proof.Machine
end

