-- ==== Sys2Proof/Machine/RegMap.lean ====
section
/-! DEFINITION. The BAR0 pages of R447, the register that lies at an address, its reset value, and the slot of a page (R448). -/

namespace Sys2Proof.Machine

/-- The regions of R22, in the order of GLB_RST_CMD.TARGET (R449). -/
inductive Region where
  | time | measurement | synthesis | gnss | portA | portB | service | store | audio | control | host
  deriving DecidableEq, Repr

/-- One row of R447: page index of the first page, page step, number of pages, TYPE code, first collector slot and slot step, region, reachable in Cave (R454), open to Operator (R437). -/
structure PageRow where
  base : Nat
  step : Nat
  num : Nat
  typ : Nat
  slot : Nat
  slotStep : Nat
  region : Region
  cave : Bool
  oper : Bool
  deriving DecidableEq, Repr

/-- The pages of R447 with the slots of R448. -/
def pageRows : List PageRow := [
  ⟨0x000, 1, 1, 0x001, 0, 1, .host, true, false⟩, ⟨0x001, 1, 1, 0x002, 1, 1, .control, true, false⟩,
  ⟨0x002, 1, 1, 0x003, 2, 1, .control, true, false⟩, ⟨0x010, 1, 2, 0x010, 3, 1, .time, true, false⟩,
  ⟨0x012, 1, 1, 0x011, 5, 1, .time, true, false⟩, ⟨0x013, 1, 2, 0x012, 6, 1, .time, true, false⟩,
  ⟨0x015, 1, 1, 0x013, 8, 1, .time, true, false⟩, ⟨0x020, 1, 8, 0x020, 9, 1, .measurement, false, false⟩,
  ⟨0x028, 1, 2, 0x021, 17, 1, .measurement, true, false⟩, ⟨0x02A, 1, 4, 0x022, 19, 1, .measurement, false, false⟩,
  ⟨0x030, 1, 8, 0x030, 23, 1, .gnss, true, false⟩, ⟨0x040, 1, 4, 0x040, 31, 1, .synthesis, false, true⟩,
  ⟨0x044, 1, 1, 0x041, 35, 1, .synthesis, false, true⟩, ⟨0x050, 1, 16, 0x050, 36, 1, .measurement, false, false⟩,
  ⟨0x060, 1, 1, 0x051, 52, 1, .measurement, true, false⟩, ⟨0x061, 1, 1, 0x060, 53, 1, .time, true, true⟩,
  ⟨0x062, 1, 1, 0x061, 54, 1, .measurement, false, true⟩, ⟨0x100, 2, 12, 0x100, 55, 2, .portA, false, true⟩,
  ⟨0x118, 2, 12, 0x100, 79, 2, .portB, false, true⟩, ⟨0x101, 2, 12, 0x101, 56, 2, .portA, false, true⟩,
  ⟨0x119, 2, 12, 0x101, 80, 2, .portB, false, true⟩, ⟨0x130, 1, 3, 0x102, 103, 1, .portA, false, true⟩,
  ⟨0x133, 1, 3, 0x102, 106, 1, .portB, false, true⟩, ⟨0x200, 1, 8, 0x200, 109, 1, .service, false, true⟩,
  ⟨0x210, 1, 1, 0x210, 117, 1, .store, false, true⟩, ⟨0x220, 1, 16, 0x220, 118, 1, .service, false, false⟩,
  ⟨0x230, 1, 4, 0x230, 134, 1, .service, false, false⟩, ⟨0x240, 1, 4, 0x240, 138, 1, .audio, false, true⟩,
  ⟨0x250, 1, 8, 0x250, 142, 1, .control, false, false⟩, ⟨0x260, 1, 1, 0x260, 150, 1, .control, true, false⟩,
  ⟨0x270, 1, 1, 0x270, 151, 1, .control, true, false⟩, ⟨0x280, 1, 1, 0x280, 152, 1, .control, true, false⟩,
  ⟨0x290, 1, 1, 0x290, 153, 1, .control, false, false⟩, ⟨0x2A0, 1, 1, 0x2A0, 154, 1, .host, false, false⟩,
  ⟨0x2B0, 1, 1, 0x2B0, 155, 1, .host, false, false⟩]

/-- Whether a page index lies in a row. -/
def PageRow.has (r : PageRow) (pg : Nat) : Bool :=
  r.base ≤ pg && pg < r.base + r.step * r.num && (pg - r.base) % r.step == 0

/-- The row of an implemented page. -/
def pageRow (pg : Nat) : Option PageRow := pageRows.find? (·.has pg)

/-- The first page index of each block type, where the instance number counts from. -/
def typeBase (typ : Nat) : Nat := ((pageRows.find? (·.typ == typ)).map (·.base)).getD 0

/-- The instance number of a page (R447). -/
def pageInst (pg : Nat) : Nat := match pageRow pg with
  | some r => (pg - typeBase r.typ) / r.step
  | none => 0

/-- The collector slot of a page (R448). -/
def slotOf (pg : Nat) : Nat := match pageRow pg with
  | some r => r.slot + r.slotStep * ((pg - r.base) / r.step)
  | none => 255

/-- The page of a collector slot; 0x1FFF for an unused slot (R366). -/
def pageOfSlot (k : Nat) : Nat :=
  (pageRows.findSome? fun r =>
    if r.slot ≤ k ∧ k < r.slot + r.slotStep * r.num ∧ (k - r.slot) % r.slotStep = 0 then
      some (r.base + r.step * ((k - r.slot) / r.slotStep)) else none).getD 0x1FFF

/-- Every implemented page, in slot order. -/
def allPages : List Nat := (List.range 156).map pageOfSlot

/-- The pages of a region (R22). -/
def regionPages (r : Region) : List Nat := allPages.filter fun p => (pageRow p).map (·.region) == some r

/-- The registers of a page's own ranges, by page index (R447). -/
def ownRegs (pg : Nat) : List RegDesc :=
  if pg = 0 then regMap.GLB else if pg = 1 then regMap.PWR else if pg = 2 then regMap.CLKD
  else if pg = 0x10 then regMap.TS ++ regMap.TSA else if pg = 0x11 then regMap.TS
  else if pg = 0x12 then regMap.SEL else if pg ≤ 0x14 then regMap.SVC else if pg = 0x15 then regMap.HLD
  else if pg < 0x28 then regMap.MON1 ++ regMap.REF else if pg < 0x2A then regMap.MON1 ++ regMap.ATM
  else if pg < 0x30 then regMap.MON1 ++ regMap.US ++ regMap.MON8
  else if pg = 0x30 then regMap.MON1 ++ regMap.GNSS0 else if pg = 0x31 then regMap.GNSS1
  else if pg = 0x32 then regMap.GNSS2 else if pg = 0x33 then regMap.GNSS3 else if pg = 0x34 then regMap.GNSS4
  else if pg = 0x35 then regMap.GNSS5 else if pg = 0x36 then regMap.GNSS6 else if pg = 0x37 then regMap.GNSS7
  else if pg < 0x44 then regMap.SYN else if pg = 0x44 then regMap.CKO else if pg < 0x60 then regMap.TDC
  else if pg = 0x60 then regMap.TDCCAL else if pg = 0x61 then regMap.EVO else if pg = 0x62 then regMap.EVI
  else if pg < 0x130 then (if pg % 2 = 0 then regMap.PORT else regMap.PTS)
  else if pg < 0x200 then regMap.PC
  else if pg = 0x200 then regMap.RSP0 else if pg = 0x201 then regMap.RSP1 else if pg = 0x202 then regMap.RSP2
  else if pg = 0x203 then regMap.RSP3 else if pg = 0x204 then regMap.RSP4 else if pg = 0x205 then regMap.RSP5
  else if pg = 0x206 then regMap.RSP6 else if pg = 0x207 then regMap.RSP7
  else if pg = 0x210 then regMap.CST else if pg < 0x230 then regMap.CL
  else if pg = 0x230 then regMap.KEY0 else if pg < 0x233 then regMap.KEY1 else if pg = 0x233 then regMap.KEY3
  else if pg = 0x240 then regMap.AUD ++ regMap.AUD0 else if pg < 0x250 then regMap.AUD
  else if pg < 0x260 then regMap.SEQ else if pg = 0x260 then regMap.REC else if pg = 0x270 then regMap.FLT
  else if pg = 0x280 then regMap.PMC else if pg = 0x290 then regMap.PLK else if pg = 0x2A0 then regMap.LDR
  else regMap.HIF

/-- The registers of a page: the common header (R442) and the page's own. -/
def pageRegs (pg : Nat) : List RegDesc := regMap.HDR ++ ownRegs pg

/-- The offsets a register array occupies start at these places; the answer is the array index. -/
def RegDesc.index (d : RegDesc) (o : Nat) : Option Nat :=
  if o < d.off then none else
  let r := o - d.off
  let i := if d.stride = 0 then 0 else r / d.stride
  let r1 := if d.stride = 0 then r else r % d.stride
  let j := if d.stride2 = 0 then 0 else r1 / d.stride2
  let r2 := if d.stride2 = 0 then r1 else r1 % d.stride2
  if i < d.count ∧ j < d.count2 ∧ r2 < d.width / 8 then some i else none

/-- The offset of the first word of the register that holds the offset o. -/
def RegDesc.start (d : RegDesc) (o : Nat) : Nat :=
  let r := o - d.off
  let r1 := if d.stride = 0 then r else r % d.stride
  let r2 := if d.stride2 = 0 then r1 else r1 % d.stride2
  o - r2

/-- The register that holds offset o of an implemented page. -/
def regAt (pg o : Nat) : Option RegDesc := if (pageRow pg).isSome then (pageRegs pg).find? fun d => (d.index o).isSome else none

/-- The bandwidths of R114, in microhertz. -/
def svcBwReset (t : Nat) : Nat := [0x2710, 0x64, 0x2710, 0x186A0, 0x3E8, 0xF4240, 0x186A0].getD t 0

/-- The sources of R169. -/
def tdcMuxReset (n : Nat) : Nat :=
  [0x0D, 0x09, 0x0A, 0x01, 0x02, 0x03, 0x04, 0x05, 0x06, 0x07, 0x08, 0x30, 0x20, 0x21, 0x22, 0x23].getD n 0

/-- The reset value of a register (R16). -/
def RegDesc.resetAt (d : RegDesc) (pg o : Nat) : Nat :=
  let i := (d.index o).getD 0
  match d.kind with
  | .val => d.reset
  | .fuse m => d.reset ||| (Config.fuse (4096 * pg + o) &&& m)
  | .pageId => d.reset ||| (((pageRow pg).map (·.typ)).getD 0) <<< 20 ||| pageInst pg <<< 12
  | .svcBw => svcBwReset i
  | .tdcMux => tdcMuxReset (pageInst pg)
  | .selPri => d.reset ||| (if i = 1 ∨ i = 2 then 1 <<< 16 else 0)
  | .fltSlot => pageOfSlot i

/-- The reset value behind a BAR0 byte address; an address that starts no register holds 0. -/
def resetWord (a : Nat) : Word :=
  match regAt (a / 4096) (a % 4096) with
  | some d => BitVec.ofNat 96 (d.resetAt (a / 4096) (a % 4096))
  | none => 0

/-- Page indexes by block (R447). -/
abbrev Pg.glb : Nat := 0x000
abbrev Pg.pwr : Nat := 0x001
abbrev Pg.clkd : Nat := 0x002
abbrev Pg.ts (n : Nat) : Nat := 0x010 + n
abbrev Pg.sel : Nat := 0x012
abbrev Pg.svc (n : Nat) : Nat := 0x013 + n
abbrev Pg.hld : Nat := 0x015
abbrev Pg.ref (n : Nat) : Nat := 0x020 + n
abbrev Pg.atm (n : Nat) : Nat := 0x028 + n
abbrev Pg.us (n : Nat) : Nat := 0x02A + n
abbrev Pg.gnss (p : Nat) : Nat := 0x030 + p
abbrev Pg.syn (n : Nat) : Nat := 0x040 + n
abbrev Pg.cko : Nat := 0x044
abbrev Pg.tdc (n : Nat) : Nat := 0x050 + n
abbrev Pg.tdcCal : Nat := 0x060
abbrev Pg.evo : Nat := 0x061
abbrev Pg.evi : Nat := 0x062
abbrev Pg.port (n : Nat) : Nat := 0x100 + 2 * n
abbrev Pg.pts (n : Nat) : Nat := 0x101 + 2 * n
abbrev Pg.pc (n : Nat) : Nat := 0x130 + n
abbrev Pg.rsp (p : Nat) : Nat := 0x200 + p
abbrev Pg.cst : Nat := 0x210
abbrev Pg.cl (n : Nat) : Nat := 0x220 + n
abbrev Pg.key (p : Nat) : Nat := 0x230 + p
abbrev Pg.aud (m : Nat) : Nat := 0x240 + m
abbrev Pg.seq (n : Nat) : Nat := 0x250 + n
abbrev Pg.rec : Nat := 0x260
abbrev Pg.flt : Nat := 0x270
abbrev Pg.pmc : Nat := 0x280
abbrev Pg.plk : Nat := 0x290
abbrev Pg.ldr : Nat := 0x2A0
abbrev Pg.hif : Nat := 0x2B0

end Sys2Proof.Machine
end

