-- ==== Sys2Proof/Syntax.lean ====
section
/-! DEFINITION. The commands of the block: the operand types, and one constructor for each row of spec/opcode_table.json.
The table gives no operand fields; a command carries what its rule reads from outside the state (the master and value of a write, a measured quantity, the content of a frame). Log entry 5. -/

namespace Sys2Proof

/-- The masters of R436. -/
inductive Master where
  | pf0 | pf1 | pf2 | mgmt
  | svc (n : Fin 2)
  | seq (n : Fin 8)
  | kwager | loader | snapshot | collector
  deriving DecidableEq, Repr

/-- A timescale: 0 is TSA, 1 is TSB. -/
abbrev Ts := Fin 2


/-- A Sync as the session reads it (R95, R96): time transmitter, sequence, two-step flag, origin timestamp, correction and receive stamp in 2^-16 ns, and organizationId and code of an error-bound TLV. -/
structure PtpSync where
  tt : Nat
  seq : Nat
  twoStep : Bool
  t1 : Int
  corr : Int
  t2 : Int
  tlv : Option (Nat × Nat)
  deriving DecidableEq, Repr

/-- A Follow_Up: precise origin timestamp and correction in 2^-16 ns. -/
structure PtpFollowUp where
  tt : Nat
  seq : Nat
  t1 : Int
  corr : Int
  tlv : Option (Nat × Nat)
  deriving DecidableEq, Repr

/-- An Announce: clockClass, clockAccuracy, and the rest of its data set in the order of comparison (priority1 before, and variance, priority2, steps after). -/
structure PtpAnnounce where
  tt : Nat
  priority1 : Nat
  cls : Nat
  acc : Nat
  rest : List Nat
  tlv : Option (Nat × Nat)
  deriving DecidableEq, Repr

/-- A Delay_Resp: receive timestamp and correction in 2^-16 ns. -/
structure PtpDelayResp where
  tt : Nat
  seq : Nat
  t4 : Int
  corr : Int
  tlv : Option (Nat × Nat)
  deriving DecidableEq, Repr

/-- A page of BAR0 by its index (R447). -/
abbrev Page := Fin 1024

/-- A band A signal to search (R126): 0 GPS L1 C/A, 1 Galileo E1, 2 BeiDou B1C, 3 GPS L1C; and its satellite. -/
structure GnssSig where
  kind : Fin 4
  svid : Nat
  deriving DecidableEq, Repr

/-- One satellite of a second's solution (R132, R136, R137): its channel; its pseudoranges on band A and band B less the range and satellite clock, and the delay that the broadcast ionosphere model gives, in 2^-16 ns; C/N0; elevation in degrees; health. -/
structure GnssSat where
  ch : Fin 96
  pa : Int
  pb : Int
  iono : Int
  cn0a : Nat
  cn0b : Nat
  elev : Nat
  healthy : Bool
  deriving DecidableEq, Repr

/-- A second's raw solution: satellites, σ_clk in 2^-8 ps, in survey mode the position in cm, and the channels that have lost their signal. -/
structure GnssSol where
  sats : List GnssSat
  sigma : Nat
  pos : Int × Int × Int
  lost : List (Fin 96)
  deriving DecidableEq, Repr

/-- An authentication TLV as received (R306, R307): last TLV of the message, lengthField, SPP, keyID, ICV octets. -/
structure AuthTlv where
  last : Bool
  len : Nat
  spp : Nat
  keyId : Nat
  icv : List Nat
  deriving DecidableEq, Repr

/-- A unicast negotiation TLV (R252): message type 0 Announce, 1 Sync, 2 Delay_Resp. -/
inductive SigTlv where
  | request (msg : Fin 3) (log : Int) (dur : Nat)
  | cancel (msg : Fin 3)
  deriving DecidableEq, Repr

/-- What a PTP message is (R236); the fields of messages to an upstream session, without their receive stamp. -/
inductive PtpBody where
  | delayReq (seq : Nat) (corr : Int)
  | signaling (tlvs : List SigTlv)
  | usSync (x : PtpSync)
  | usFollowUp (x : PtpFollowUp)
  | usAnnounce (x : PtpAnnounce)
  | usDelayResp (x : PtpDelayResp)
  | usGrant (typ : Fin 3) (dur : Nat)
  | management
  | pdelay
  | malformed
  deriving DecidableEq, Repr

/-- A PTP message as received: transport (0 Ethernet, 1 IPv4, 2 IPv6), source and destination address, portIdentity of the sender, domainNumber, authentication TLV, the octets its ICV covers. -/
structure PtpMsg where
  trans : Fin 3
  src : Nat
  dst : Nat
  mcast : Bool
  clockId : Nat
  portNum : Nat
  domain : Nat
  auth : Option AuthTlv
  covered : List Nat
  body : PtpBody
  deriving DecidableEq, Repr

/-- The NTS extension fields of a request (R262, R303): Unique Identifier, cookie key identifier, nonce and ciphertext, request nonce and tag, associated octets, number of Cookie Placeholders. -/
structure NtsPart where
  uid : List Nat
  kid : Nat
  nonce : List Nat
  ct : List Nat
  reqNonce : List Nat
  reqTag : List Nat
  reqData : List Nat
  placeholders : Nat
  deriving DecidableEq, Repr

/-- An NTP request: IPv6, addresses, version, mode, octets of NTP data, legacy MAC, poll, transmit timestamp, NTS fields. -/
structure NtpMsg where
  v6 : Bool
  src : Nat
  dst : Nat
  version : Nat
  mode : Nat
  len : Nat
  mac : Bool
  poll : Nat
  xmit : Nat
  nts : Option NtsPart
  deriving DecidableEq, Repr

/-- What a received frame holds. -/
inductive FrameBody where
  | pause (quanta : Nat)
  | macControl
  | ptp (x : PtpMsg)
  | ntp (x : NtpMsg)
  | esmc (ql : Fin 16) (ext : Bool)
  | other
  deriving DecidableEq, Repr

/-- The start delimiter of an mPacket, with the frame number and the fragment count it names, and whether the mPacket is the last of its frame (R206, R208). -/
inductive Mpacket where
  | plain
  | start (num : Fin 4) (last : Bool)
  | cont (num frag : Fin 4) (last : Bool)
  | verify | respond
  | unknown
  deriving DecidableEq, Repr

/-- A stamp of a link message on TSA, on TSB and on the MEC, in 2^-16 ns (R410). -/
structure LaneStamp where
  tsa : Int
  tsb : Int
  mec : Int
  deriving DecidableEq, Repr

/-- When a link message was received: the reference edge of its detection in 2^-16 ns of MEC, and the CDR phase (R221, R410). -/
structure LaneRx where
  edge : Nat
  psi : Fin 64
  deriving DecidableEq, Repr

/-- What a calibration slot has measured (R227, R228): the mean loop latency from the launch edges to the detections, its CDR phases included, reduced to one position u in the codeword; ε_tx before the clock-link delay is taken out; the residual delay of the clock link with its uncertainty in ps. Times in 2^-16 ns. -/
structure LoopMeas where
  loop : Int
  u : Nat
  eps : Int
  link : Int × Nat
  deriving DecidableEq, Repr

/-- A received frame, or one fragment of a preempted frame: length with tags and FCS or mCRC, FCS check, PCS errors, uncorrectable and corrected codewords, start delimiter, cast (0 unicast, 1 multicast, 2 broadcast), tags, the reference edge of start-of-frame detection in 2^-16 ns of MEC, codeword position, CDR phase (R221), the octets without FCS, and its content. -/
structure RxFrame where
  len : Nat
  fcs : Bool
  symErr : Bool
  alignErr : Bool
  uncorr : Nat
  corrected : Nat
  pre : Mpacket
  cast : Fin 3
  sTci : Option Nat
  cTci : Option Nat
  third : Bool
  edge : Nat
  u : Nat
  psi : Fin 64
  data : List Nat
  body : FrameBody
  deriving DecidableEq, Repr

/-- A Delay_Req behind the classifier: its message, sequenceId, correctionField, domain profile, stamp in 2^-16 ns of the port's view with its bound code, the same on TSA and TSB (R240), and the tags stripped. -/
structure DreqIn where
  msg : PtpMsg
  seq : Nat
  corr : Int
  dom : Fin 8
  t : Int
  bound : Nat
  tFixed : Int × Int
  bFixed : Nat × Nat
  sTci : Option Nat
  cTci : Option Nat
  deriving DecidableEq, Repr

/-- An NTP request behind the classifier: its NTP class, stamp and bound, and the timescale with the steps applied to it when the stamp was taken, in 2^-48 ns. -/
structure NtpIn where
  msg : NtpMsg
  cls : Fin 4
  t : Int
  bound : Nat
  step : Fin 2 × Int
  sTci : Option Nat
  cTci : Option Nat
  deriving DecidableEq, Repr

/-- A Signaling message behind the classifier. -/
structure SigIn where
  msg : PtpMsg
  tlvs : List SigTlv
  dom : Fin 8
  sTci : Option Nat
  cTci : Option Nat
  deriving DecidableEq, Repr

/-- What every link message carries (R399): the sender's MEC and claim number. -/
structure KwgHead where
  mec : Nat
  claim : Nat
  deriving DecidableEq, Repr

/-- A partner's health report (R408): role, fit, self-test, STATE and CODE of TSA and TSB, UTC_OFFSET word, PENDING and SEC of a leap, and the first four words of the report as it lies in the message. -/
structure Health where
  role : Nat
  fit : Bool
  selftest : Bool
  tsa : Nat × Nat
  tsb : Nat × Nat
  utc : Nat
  pending : Nat
  leapAt : Nat
  words : List Nat
  deriving DecidableEq, Repr

/-- A mirrored client-store entry (R411, R412): the partner's key and fields; expiries and due times as intervals that remain at the MEC of the message, in 2^-16 s; a release instead of a change. -/
structure MirrorEntry where
  release : Bool
  port : Fin 32
  atype : Nat
  addr : Nat
  clock : Nat
  num : Nat
  ts : Nat
  dom : Nat
  tags : Nat
  granted : Nat
  keySlot : Nat
  sTci : Nat
  cTci : Nat
  logs : List Nat
  keyId : Nat
  left : List Nat
  dueSync : Nat
  dueAnn : Nat
  seqSync : Nat
  seqAnn : Nat
  dreqLast : Nat
  deriving DecidableEq, Repr

/-- A table of the TDC in a calibration set (R178, R423): its unit, the entries the host wrote, and the counts of the installed calibration. -/
structure TdcTab where
  unit : Fin 17
  ents : List (Nat × Nat)
  counts : Option (List Nat)
  deriving DecidableEq, Repr

/-- A Sivon container (R421): the 256 header octets, the body octets, and what the body of a configuration or of a calibration set spells: BAR0 byte addresses with values in order, and TDC tables. -/
structure Container where
  head : List Nat
  body : List Nat
  writes : List (Nat × Nat)
  tabs : List TdcTab
  origin : Nat
  deriving DecidableEq, Repr

/-- The containers in the flash areas of R419; of a two-slot area the one that governs (R420). -/
structure Flash where
  running : Option Container
  ret : Option Container
  staging : Option Container
  cal : Option Container
  cfg : Option Container
  deriving DecidableEq, Repr

/-- What a boot meets outside the device's state: the flash when it was programmed from outside since the last boot, the error pins that fail their test with the level they are stuck at (R354), the measurements of the die links, each attempt as its residual delay in 2^-16 ns and its uncertainty in ps (R25, R26), whether the TRNG passes its start-up tests, and whether root area 0 and root area 1 take their bits (R308). -/
structure BootIn where
  flash : Option Flash
  pins : List (Page × Fin 5 × Bool)
  links : List (Fin 5 × List (Int × Nat))
  trng : Bool
  blows : Bool × Bool
  deriving DecidableEq, Repr

/-- The commands of the block, in the order of the table, those that a master sends after the others. -/
inductive Instr where
  /-- R456: Supplies rise in order; the internal power-on reset holds the package until the order is complete, after which the MEC epoch starts with PD1. -/
  | powerOn
  /-- R392: An assertion of PKG_RST_N, accepted through the digital filter, makes a package reset; one that arrives during a PFW flush is deferred. -/
  | pkgRstN
  /-- R21: The rails of an error signal read an invalid pair for two cycles, and the cluster collector raises a rail fault of the signal's class. -/
  | railFault (pg : Page) (c : Fin 5)
  /-- R361: Once the C4 flush and its snapshot complete, the region reset of the page's region begins. -/
  | c4RegionReset (r : Machine.Region)
  /-- R361: 10 µs after it begins, the region reset completes and the region restarts from its reset state. -/
  | regionResetComplete (r : Machine.Region)
  /-- R26: Every 10 s, each UNCALIBRATED die link is measured again by TDCS. -/
  | linkRemeasure (n : Fin 5) (tries : List (Int × Nat))
  /-- R28: Once per second, each replica is compared with its timescale; a difference raises C3 and reloads the replica. -/
  | replicaCheck (n : Ts) (die : Fin 2) (upset : Int)
  /-- R64: 32 ticks after registration, a registered timescale change applies in the timescale, both replicas and EVO. -/
  | applicationTick (n : Ts)
  /-- R53: Every 1,024 ticks, B_TS of each timescale is recomputed and published. -/
  | boundPublish (n : Ts)
  /-- R59: A lower clockClass takes effect once its match has held for HOLD seconds. -/
  | clockClassHoldExpiry (n : Ts)
  /-- R44: At LEAP_AT.SEC, or at the next second for a late leap, OFFSET changes, PENDING clears, DONE is set and a LEAP record is written. -/
  | leapApply (n : Ts)
  /-- R45: A write to TSA_UTC_OFFSET sets OFFSET and VALID. -/
  | utcOffsetWrite (m : Master) (n : Ts) (v : Nat)
  /-- R45: A write of TSA_LEAP_CTL.PENDING arms a leap, which applies late if SEC already lies at or beyond LEAP_AT. -/
  | leapPendingWrite (m : Master) (n : Ts) (v : Nat)
  /-- R45: A write of TSA_LEAP_AT sets the second at which the pending leap applies. -/
  | leapAtWrite (m : Master) (n : Ts) (v : Nat)
  /-- R68: The final slew tick adds the exact remainder and SLEWING returns to 0. -/
  | slewComplete (n : Ts)
  /-- R70: An arm expires 10 s after the accepted ARM. -/
  | stepArmExpiry (n : Ts)
  /-- R72: At its application tick the pending step applies: a range check, a TIME_STEP record, STEP_ACC updated, slew cancelled and the bound held. -/
  | stepApply (n : Ts)
  /-- R445: A write of SNAP_CTL.SNAP = 1 latches every latched register of the page at its MEC; on the REC page it also advances the cursor and latches the window. -/
  | snap (m : Master) (pg : Fin 1024) (v : Nat)
  /-- R445: The latched set is complete; VALID becomes 1 and SEQ increments. -/
  | snapDone (pg : Page)
  /-- R76: The binding correction reaches 0 and WALKING clears. -/
  | walkComplete (n : Fin 48)
  /-- R86: A PPS edge is accepted in its window, counted as stray, or used as a presence pair that declares presence. -/
  | ppsEdge (k : Fin 19) (t : Nat)
  /-- R86: A PPS window closes with no edge; the miss is counted, and a second consecutive miss is a loss. -/
  | pulseMissed (k : Fin 19)
  /-- R86: A frequency reference sees no edge in 8 nominal periods and is lost. -/
  | refFreqTimeout (k : Fin 19)
  /-- R84: The ACQUIRE timer reaches 0 and the monitor goes to QUALIFIED on first qualification, otherwise to WTR. -/
  | acquireExpiry (k : Fin 19)
  /-- R84: The WTR timer reaches 0 and the return check decides between QUALIFIED and DISQUALIFIED. -/
  | wtrExpiry (k : Fin 19)
  /-- R85: An alarm-type disqualification condition has been false for QUAL seconds, and the monitor goes to WTR. -/
  | dqHoldExpiry (k : Fin 19)
  /-- R87: Each second, the monitor recomputes B_ref and the mean x and y, and checks the frequency limit. -/
  | monitorSecond (k : Fin 19) (y : Option Int)
  /-- R92: A telemetry byte is received and enters the FIFO, or is dropped and counted in OVF, and is matched against the patterns. -/
  | uartRxByte (n : Fin 2) (b : Fin 256)
  /-- R92: No byte arrives for TMO seconds; TLM_LOST is set and C1 is raised. -/
  | tlmTimeout (n : Fin 2)
  /-- R96: A Sync from the followed time transmitter is received and stamped. -/
  | usSyncRx (n : Fin 4) (x : PtpSync)
  /-- R96: A Follow_Up supplies the precise origin timestamp of its Sync. -/
  | usFollowUpRx (n : Fin 4) (x : PtpFollowUp)
  /-- R95: An Announce feeds the dataset comparison and the UPSTREAM clockClass check. -/
  | usAnnounceRx (n : Fin 4) (x : PtpAnnounce)
  /-- R96: The session sends a Delay_Req at its interval. -/
  | usDelayReqTx (n : Fin 4)
  /-- R96: A Delay_Resp completes an exchange, and the offset and phase are computed. -/
  | usDelayRespRx (n : Fin 4) (x : PtpDelayResp)
  /-- R95: A grant answer sets NEG granted or refused. -/
  | usGrantRx (n : Fin 4) (typ : Fin 3) (dur : Nat)
  /-- R95: At half of a grant's duration the session renews the grant. -/
  | usGrantRenew (n : Fin 4) (typ : Fin 3)
  /-- R95: A refused request is retried after 8 s. -/
  | usGrantRetry (n : Fin 4) (typ : Fin 3)
  /-- R86: A unicast Sync or Announce grant lapses, which is a loss. -/
  | usGrantLapse (n : Fin 4) (typ : Fin 3)
  /-- R86: Three Sync intervals are missed, which is a loss. -/
  | usSyncTimeout (n : Fin 4)
  /-- R86: Three Announce intervals pass with no Announce, which is a loss. -/
  | usAnnounceTimeout (n : Fin 4)
  /-- R97: An ESMC PDU updates the slot's QL, with the ALARM check against QL_MIN. -/
  | synceEsmcRx (n : Fin 4) (ql : Fin 16)
  /-- R86: No ESMC arrives for 5 s, and the SyncE slot is lost. -/
  | esmcTimeout (n : Fin 4)
  /-- R97: A 1 s gate of the recovered clock against TCLK completes. -/
  | synceGate (n : Fin 4) (y : Int)
  /-- R98: The receiver delivers x and G_t to the GNSS monitor. -/
  | gnssMeasurement
  /-- R101: At each TSA second the ensemble compares pairs and flags or disqualifies sources. -/
  | ensembleEval
  /-- R107: At each TSA second the selector chooses the best selectable reference and applies the transitions of R108. -/
  | selectorEval (n : Ts)
  /-- R109: SETTLE seconds after the slew or step end, the switch ends and the selector goes to LOCKED, SWITCHING or HOLDOVER. -/
  | switchEnd (n : Ts)
  /-- R108: |x̂| has held at or below THR for TIME seconds, and ACQUIRE or RELOCK enters LOCKED. -/
  | lockAchieved (n : Ts)
  /-- R115: At the end of each measurement interval, the servo updates y_int and writes TSA_INCR. -/
  | servoUpdate (n : Ts)
  /-- R117: No heartbeat arrives within TMO; the core halts, WDOG is set and C2 is raised. -/
  | svcWatchdogExpiry (n : Ts)
  /-- R118: A 10 s bin closes, and I_avg, fill, F and y_model are updated. -/
  | holdoverBin (n : Ts)
  /-- R130: On EN set or a wake, the start is classed cold, warm or hot and the search begins. -/
  | gnssStart (visible : List GnssSig)
  /-- R129: A search dwell of 1,024 cells completes, and the signal is found or the engine steps on. -/
  | searchDwell (e : Fin 8) (found : Option Nat)
  /-- R130: After 200 ms of band A tracking, the band B channel is loaded by scaling. -/
  | bandBHandover (c : Fin 96) (cn0 : Nat)
  /-- R133: At each whole solved second the internal pulse is emitted and q is reported. -/
  | gnssPulse (sec : Nat)
  /-- R136: Each second's solution is formed and checked by RAIM and by the spoofing and clock-jump tests. -/
  | gnssSolution (x : GnssSol)
  /-- R136: An excluded satellite's hold of HOLD seconds ends. -/
  | raimHoldExpiry (sat : Fin 256)
  /-- R135: The survey ends; the position and uncertainty are written, MODE is set to fixed and a GNSS_SURVEY record is written. -/
  | surveyComplete
  /-- R135: A gap in solutions longer than 10 s restarts the survey. -/
  | surveyRestart
  /-- R137: AGC gain stays below threshold for 2 s, and JAM_A or JAM_B is raised. -/
  | jamAlarm (band : Fin 2) (gain : Fin 256)
  /-- R137: Bias current lies out of window for 1 s; ANT is set and C1 is raised. -/
  | antBiasFault (a b : Nat)
  /-- R139: An alarm test has passed for CLR seconds, and the alarm is withdrawn with a GNSS_ALARM record. -/
  | alarmWithdraw (a : Fin 4)
  /-- R140: Broadcast UTC parameters are decoded into GNSS_UTC_STS and UTC_AT. -/
  | gnssUtcDecode (ofs : Int) (leap : Fin 4) (sec : Nat)
  /-- R142: In Cave the receiver wakes at the end of SLEEP. -/
  | gnssWake
  /-- R142: In Cave the receiver sleeps after AWAKE seconds. -/
  | gnssSleep
  /-- R155: The band is selected and the VCO calibrated, so LOCKING begins, or the start fails with CAUSE BAND. -/
  | vcoCalDone (n : Fin 4)
  /-- R153: A lock gate completes and is judged in lock or out of lock, driving the LOCKED and FREEZE transitions. -/
  | lockGate (n : Fin 4) (count : Nat) (y : Int) (tune : Nat)
  /-- R155: 256 gates pass without LOCKED, and the synthesizer returns to START with CAUSE UNLOCK. -/
  | lockingTimeout (n : Fin 4)
  /-- R154: The synthesizer reference is lost and the synthesizer enters COAST. -/
  | synRefLoss (n : Fin 4)
  /-- R155: After 100 ms in FREEZE with the reference present, the synthesizer goes to LOCKING. -/
  | freezeTimeout (n : Fin 4)
  /-- R158: A spread change applies at the next zero crossing of the modulation. -/
  | ssApply (n : Fin 4)
  /-- R151: Every 1 µs the DPLL measures e and recomputes N_eff. -/
  | dpllUpdate (n : Fin 4) (e : Int)
  /-- R170: An edge at a channel input is stamped, or is lost to dead time, and goes to the tap, queue and stream. -/
  | tdcStamp (n : Fin 16) (phi : Fin 65536) (bin bin2 : Fin 1024) (falling : Bool) (lane : Fin 4) (ps : Nat)
  /-- R173: At each second boundary the channel latches y and E for the gate. -/
  | tdcFreqGate (n : Fin 16)
  /-- R176: The arbiter writes a stamp record to the host ring and advances WP, or drops it when full. -/
  | streamWrite
  /-- R179: TDCS takes over a channel's source in overlap, every PERIOD or on priority. -/
  | rotationStart
  /-- R179: After the overlap, TDCS delivers the stamps and the channel starts calibration. -/
  | rotationSwitch
  /-- R178: After 2^24 edges the bin table is checked and installed or rejected. -/
  | calTableCheck (counts : List Nat)
  /-- R182: The 4,096-edge test completes and σ_t is measured. -/
  | precisionTest (bins : List (Fin 1024))
  /-- R179: The channel rejoins its source, TDCS is freed and a TDC_CAL record is written. -/
  | rotationSwitchBack
  /-- R172: MCLK loses lock, so stamps become unbounded and C3 is raised on both timescales. -/
  | mclkUnlock
  /-- R186: A programmed leading or trailing edge is placed, and the generator returns to IDLE after its last index. -/
  | evoEdge (n : Fin 16)
  /-- R191: After the claim is gained, the driver is enabled at the first idle instant. -/
  | evoDriverEnable (n : Fin 16)
  /-- R194: An EVI edge passes the filter and holdoff, is counted and has its MEC latched, or is rejected. -/
  | eviEdge (k : Fin 16) (falling : Bool) (ps : Nat)
  /-- R199: With the cluster granted and the lane PLL locked, the port goes to its restart entry. -/
  | lanePllLocked (p : Fin 24)
  /-- R199: Clause 73 completes and loads the rate and FEC, or restarts with NO_HCD. -/
  | anComplete (p : Fin 24) (abil : Nat) (reqRs : Bool) (reqBaseR : Bool)
  /-- R199: Both ends report training complete, and the port goes to ALIGN. -/
  | trainComplete (p : Fin 24)
  /-- R199: PORT_TRAIN.TMO elapses and the port restarts. -/
  | trainTimeout (p : Fin 24)
  /-- R199: Block lock is held for 10 ms, and the port goes UP with a PORT_LINK record. -/
  | alignUp (p : Fin 24)
  /-- R199: 1 s in ALIGN without reaching UP restarts the port. -/
  | alignTimeout (p : Fin 24)
  /-- R199: Loss of block lock, of FEC alignment or high BER restarts the link, counts a flap and drops queued frames. -/
  | linkLoss (p : Fin 24) (cause : Fin 3)
  /-- R199: A remote fault is received and the port enters RFAULT. -/
  | remoteFault (p : Fin 24)
  /-- R199: No remote fault for 10 ms returns the port to UP. -/
  | remoteFaultClear (p : Fin 24)
  /-- R200: A received frame passes decode, reassembly, length, MAC control and tag checks, then classification. -/
  | frameRx (p : Fin 24) (f : RxFrame)
  /-- R205: The pause time runs out and transmission resumes. -/
  | pauseExpiry (p : Fin 24)
  /-- R201: The transmit MAC picks the next frame by level and starts it, preempting where permitted. -/
  | frameTx (p : Fin 24)
  /-- R206: A verify mPacket is sent every VERIFY_TIME ms, and after 3 without response the result is FAILED. -/
  | verifySend (p : Fin 24)
  /-- R211: With no frame queued for IDLE µs, the transmitter enters low-power idle. -/
  | lpiEntry (p : Fin 24)
  /-- R211: A queued frame wakes the transmitter, which holds the frame for TW. -/
  | lpiWake (p : Fin 24)
  /-- R213: A host-class frame is written to the receive ring and WP advances, or it is dropped. -/
  | hostRxWrite (p : Fin 24) (sTci : Option Nat) (cTci : Option Nat) (data : List Nat) (mec : Nat)
  /-- R213: A host descriptor frame is sent or dropped, and RP advances. -/
  | hostTxFrame (p : Fin 24) (tag : Bool) (data : List Nat)
  /-- R225: A 1 ms probe dwell on a port tap completes, and the new ε_tx is installed. -/
  | probeDwell (p : Fin 25) (eps : Int)
  /-- R229: PROBE_AGE passes 10 s, and B_port becomes unbounded. -/
  | probeStale (p : Fin 24)
  /-- R226: A calibration slot starts and switches the receiver to pad loopback. -/
  | calSlotStart (p : Fin 25)
  /-- R228: The slot ends; A_rx is checked and installed or rejected, and CAL is updated. -/
  | calSlotEnd (p : Fin 25) (x : Option LoopMeas)
  /-- R257: A Delay_Req is admitted or dropped and answered with a Delay_Resp. -/
  | delayReqRx (p : Fin 24) (x : DreqIn)
  /-- R259: An NTP request is admitted and answered, or dropped, including for a step straddle. -/
  | ntpRequestRx (p : Fin 24) (x : NtpIn)
  /-- R262: An NTS request is opened, authenticated and answered with new cookies, or receives a NAK or is dropped. -/
  | ntsRequestRx (p : Fin 24) (x : NtpIn)
  /-- R252: A Signaling message is processed TLV by TLV and answered in one message. -/
  | signalingRx (p : Fin 24) (x : SigIn)
  /-- R248: Every 1 µs, unreserved capacity is shared as tokens among the active buckets. -/
  | admissionEpoch
  /-- R255: The timing wheel serves a slot: due Sync and Announce and grant expiries. -/
  | wheelSlot
  /-- R263: Once per second an ESMC information PDU is sent on each enabled UP port. -/
  | esmcInfoPdu (p : Fin 24)
  /-- R251: At each TSA second an overload second writes or repeats an OVERLOAD record, and the NTP limit restarts. -/
  | overloadSecond
  /-- R250: A readmitted unit is counted in capacity after its grant has held for 1 s. -/
  | capacityCount (kind inst : Nat)
  /-- R278: A host write to an entry word through BAR2 is applied as a masked read-modify-write under LOCK, STATE and TS rules. -/
  | cstWrite (m : Master) (addr : Nat) (wide : Bool) (v : Nat)
  /-- R278: A write through the bit-set alias sets the bits written as 1. -/
  | cstSetWrite (m : Master) (addr : Nat) (wide : Bool) (v : Nat)
  /-- R278: A write through the bit-clear alias clears the bits written as 1. -/
  | cstClearWrite (m : Master) (addr : Nat) (wide : Bool) (v : Nat)
  /-- R283: A scrub pass completes and refreshes the reserved work sum. -/
  | scrubPass (errs : List (Nat × Bool))
  /-- R286: BRINE written 0 wakes the store, with a release pass if Brine lasted over 65,536 s. -/
  | brineExit (m : Master) (v : Nat)
  /-- R292: The known-answer test ends, and the lane enters RUN or FAULT. -/
  | katDone (n : Fin 16) (pass : Bool)
  /-- R292: KAT_NOW drains the lane and reruns the known-answer test. -/
  | katNow (m : Master) (n : Fin 16)
  /-- R289: A lane completes an operation and its result is checked. -/
  | cryptoOp (n : Fin 16) (ok : Bool)
  /-- R300: The journaled command completes; mirrors load, the state becomes visible and KEY_CMD is recorded. -/
  | keyCommit
  /-- R327: A master oscillator locks; the direction waits for its start, or enters FREE on an unqualified timescale. -/
  | audOscLock (p : Fin 4) (rx : Bool)
  /-- R320: The master reaches its start point, with a phase set and RUN. -/
  | audStart (p : Fin 4) (rx : Bool)
  /-- R322: At each frame boundary TX emits, repeats or discards records, and RX writes the frame. -/
  | audFrameBoundary (p : Fin 4) (rx : Bool) (recs : List (Nat × List Nat)) (samples : List Nat)
  /-- R324: A slave frame-start edge is stamped and given a frame count and phase error. -/
  | wsEdge (p : Fin 4) (rx : Bool)
  /-- R324: No frame start arrives in 8 periods, and the slave direction is LOST. -/
  | audInputLoss (p : Fin 4) (rx : Bool)
  /-- R325: Each second the frame rate is measured and RATE_CHG is set on a change. -/
  | audRateMeasure (p : Fin 4) (rx : Bool)
  /-- R330: An idle sequencer with a pending enabled trigger starts that trigger's recipe. -/
  | triggerStart (n : Fin 8)
  /-- R334: No operation. -/
  | seqNop (n : Fin 8)
  /-- R334: A posted write of Va or D[d] to BAR0 or BAR2, checked against the windows. -/
  | seqWr (n : Fin 8) (sp src : Bool) (va : Fin 8) (w : Fin 64) (addr : Nat)
  /-- R334: Reads a data word or a register into Va. -/
  | seqRd (n : Fin 8) (mode : Fin 4) (va : Fin 8) (w : Fin 64) (vb : Fin 8)
  /-- R334: Writes 1 to bit b of a register. -/
  | seqSetb (n : Fin 8) (sp : Bool) (b : Fin 32) (w : Fin 64)
  /-- R334: Writes 0 to bit b of a register. -/
  | seqClrb (n : Fin 8) (sp : Bool) (b : Fin 32) (w : Fin 64)
  /-- R334: Waits for a register bit to read VAL. -/
  | seqWaitb (n : Fin 8) (sp : Bool) (b : Fin 32) (val : Bool) (w : Fin 64) (unit : Fin 4) (tmo : Nat)
  /-- R334: Waits for an engine time or a MEC interval. -/
  | seqWaitt (n : Fin 8) (rel : Bool) (ts : Ts) (w : Fin 64)
  /-- R332: Waits for an event occurrence. -/
  | seqWaite (n : Fin 8) (e : Fin 128) (old : Bool) (unit : Fin 4) (tmo : Nat)
  /-- R334: Unconditional jump. -/
  | seqJmp (n : Fin 8) (t : Fin 512)
  /-- R334: Jump if Va is zero. -/
  | seqJz (n : Fin 8) (va : Fin 8) (t : Fin 512)
  /-- R334: Jump if Va is not zero. -/
  | seqJnz (n : Fin 8) (va : Fin 8) (t : Fin 512)
  /-- R334: Decrement Va and jump if it is not zero. -/
  | seqDjnz (n : Fin 8) (va : Fin 8) (t : Fin 512)
  /-- R334: Va ← Va + operand. -/
  | seqAdd (n : Fin 8) (va : Fin 8) (imm : Bool) (vb : Fin 8) (k : Nat)
  /-- R334: Va ← Va − operand. -/
  | seqSub (n : Fin 8) (va : Fin 8) (imm : Bool) (vb : Fin 8) (k : Nat)
  /-- R334: Va ← Va AND operand. -/
  | seqAnd (n : Fin 8) (va : Fin 8) (imm : Bool) (vb : Fin 8) (k : Nat)
  /-- R334: Va ← Va OR operand. -/
  | seqOr (n : Fin 8) (va : Fin 8) (imm : Bool) (vb : Fin 8) (k : Nat)
  /-- R338: Writes a SEQ_USER record. -/
  | seqRec (n : Fin 8) (tag : Nat)
  /-- R334: The SNAP instruction starts recorder snapshot list l. -/
  | seqSnap (n : Fin 8) (l : Fin 16)
  /-- R334: Raises a software event or forces a fault of class c on the sequencer's page. -/
  | seqRaise (n : Fin 8) (kind : Bool) (x : Fin 16)
  /-- R330: Ends the run and returns the sequencer to IDLE. -/
  | seqHalt (n : Fin 8)
  /-- R334: Pushes PC + 1 and jumps. -/
  | seqCall (n : Fin 8) (t : Fin 512)
  /-- R334: Pops the return address. -/
  | seqRet (n : Fin 8)
  /-- R330: A fetched opcode 0x15–0x1F faults the sequencer with CAUSE OPCODE. -/
  | seqIllegal (n : Fin 8) (parity : Bool)
  /-- R330: A wait's condition is met or its timeout passes; V7 is set and the run continues. -/
  | seqWaitEnd (n : Fin 8)
  /-- R330: The run exceeds BUDGET.MS and the sequencer faults. -/
  | seqBudgetExpiry (n : Fin 8)
  /-- R341: The flush has written its records to Rind or Wheel, with spill, and raises event 79. -/
  | flushComplete
  /-- R348: The snapshot reads complete and the group is entered in one cycle, or dropped. -/
  | snapshotComplete
  /-- R354: Every 1 ms the collector reads FLT_STS of pages with failed pins. -/
  | pinPoll
  /-- R355: The collector rails disagree, all affected sources are latched and C2 is raised. -/
  | collectorRailDisagree (pages : List Page)
  /-- R363: A die link word fails its check; it is retried, counted and C1 is raised on GLB. -/
  | linkWordError (n : Fin 5)
  /-- R363: The link fails to resynchronise in 10 µs and C4 is raised on GLB. -/
  | linkResyncTimeout (n : Fin 5)
  /-- R372: With AUTO, the copy is made every PERIOD ms. -/
  | pmcAutoLatch
  /-- R380: Every 100 µs the scheduler grants, revokes or holds wake requests against CAP_EFF. -/
  | admissionCycle
  /-- R384: Each 1 ms the temperature and power are sampled, and HOT and COOL are judged. -/
  | thermalSample (core analog portA portB : Int) (mw : Nat)
  /-- R384: At a MEC second CAP_EFF moves by one STEP, with a THROTTLE record. -/
  | capStep
  /-- R386: PFW asserted starts a flush and, with PFW_CAVE, Cave entry. -/
  | pfwAssert
  /-- R389: PFW deasserted ends write-through and starts the EXIT_HOLD wait. -/
  | pfwDeassert
  /-- R458: The supply monitor trips on a switched rail out of tolerance for 2 µs. -/
  | monitorTrip
  /-- R389: Power has been back for EXIT_HOLD ms and Cave is left. -/
  | autoExit
  /-- R388: At +10 µs of entry, units outside the Cave set are revoked. -/
  | caveRevoke
  /-- R333: At +100 µs, CCLK to the sequencers stops. -/
  | caveCclkStop
  /-- R388: At +150 µs, PD5 enters Brine or is switched off. -/
  | caveStore
  /-- R388: At +200 µs, domains are off and STATE becomes CAVE. -/
  | caveEntered
  /-- R389: The PD11 link is up and STATE returns to RUN. -/
  | caveExitDone
  /-- R376: OSC is lost; the PLL freezes, and C3 is raised on both timescales with a CLK_LOSS record. -/
  | oscLoss
  /-- R376: After 1 s of good gates OSC is present again and the PLL walks to relock. -/
  | oscReturn
  /-- R376: The PLL relocks, and the C3 sources stop being live. -/
  | oscRelock
  /-- R458: A Cave rail below 90 % for 1 µs makes an internal power-on reset. -/
  | caveBrownout
  /-- R398: Block lock held for 10 ms moves the link to HELLO. -/
  | kwgBlockLock (lock : Bool)
  /-- R398: 1 s without block lock counts LINK_FAIL. -/
  | kwgAlignTimeout
  /-- R398: HELLO is sent every 1 ms. -/
  | helloTx
  /-- R398: An authenticated HELLO from the expected partner brings the link UP. -/
  | helloRx (h : KwgHead) (uid epoch : Nat)
  /-- R399: A message failing its tag or replay check is dropped, and 16 in a row drop the link. -/
  | kwgTagFail (replay : Bool)
  /-- R398: No valid message for PLK_TMO.LINK returns the link to ALIGN. -/
  | kwgLinkTimeout
  /-- R400: HB_OUT toggles every 1 ms. -/
  | hbToggle
  /-- R400: HB_IN is silent and no valid message arrives for PLK_TMO.HB. -/
  | partnerLost
  /-- R407: A take condition comes to hold for a FIT standby, which goes to REQUESTING. -/
  | takeCondition
  /-- R404: After the grant, CLAIM_IN has been low for 1 µs or its wait has ended; the unit becomes ACTIVE with a new claim number. -/
  | claimWaitEnd
  /-- R404: WIT_GRANT falls and the active unit releases its drivers. -/
  | witGrantFall
  /-- R404: No grant arrives in PLK_TMO.REQ and the unit returns to STANDBY. -/
  | reqTimeout
  /-- R404: A handover request from the partner makes the holder release. -/
  | handoverRequestRx (h : KwgHead)
  /-- R408: A HEALTH message is sent every 100 ms. -/
  | healthTx
  /-- R408: The partner's HEALTH is latched, with the UTC mirror and the dual-active check. -/
  | healthRx (h : KwgHead) (x : Health)
  /-- R410: A SYNC message is sent every 1 ms. -/
  | kwgSyncTx
  /-- R410: A partner SYNC is stamped and answered with RESP. -/
  | kwgSyncRx (h : KwgHead) (f : LaneRx)
  /-- R410: A RESP completes the exchange and updates the offsets. -/
  | kwgRespRx (h : KwgHead) (sync : Nat) (t2 t3 : LaneStamp) (f : LaneRx)
  /-- R412: A mirrored client-store change is written locked in the standby store. -/
  | mirrorEntryRx (h : KwgHead) (x : MirrorEntry)
  /-- R406: The periodic self-test round runs and sets SELFTEST. -/
  | selftest (ok : Bool)
  /-- R416: After reset release the loader runs the boot sequence. -/
  | boot (x : BootIn)
  /-- R416: BOOT_DONE is set, event 6 is raised and TDC rotation starts. -/
  | bootDone
  /-- R417: The 2 s boot watchdog expires and forces a package reset. -/
  | bootWatchdogExpiry
  /-- R427: The download completes and the phase becomes DOWNLOADED. -/
  | loadComplete
  /-- R427: A copy phase completes and the next phase or a package reset follows. -/
  | copyDone
  /-- R432: The conditions have held for CONF_TIME and the image is self-confirmed. -/
  | selfConfirm
  /-- R428: 600 s without progress releases the lock. -/
  | sessionTimeout
  /-- R431: The loader watchdog expires and forces a package reset. -/
  | ldrWatchdogExpiry
  /-- R427: The partner pushes a container over the Kwager link. -/
  | partnerContainerRx (h : KwgHead) (c : Container)
  /-- R437: A write to a register with no row of its own, subject to class, lock and pre-boot checks. -/
  | registerWrite (m : Master) (addr : Nat) (wide : Bool) (v : Nat)
  /-- R438: An I3C/I2C 8-octet write transfer becomes a register write, or is discarded. -/
  | mgmtWriteTransfer (octets : List Nat)
  /-- R467: PCIE_PERST_N resets only the endpoint. -/
  | pciePerst
  /-- R453: The PCIe link comes up and held messages are sent. -/
  | pcieLinkUp (width speed : Nat)
  /-- R185: MCLK regains lock to TCLK; TDC_MCLK_STS.LOCK returns to 1, INT_STS bit 2 is set and stamps are no longer forced unbounded by the unlock. -/
  | mclkRelock
  /-- R404: WIT_GRANT rises to this unit, starting the CLAIM_IN wait of a REQUESTING unit, opening the claim gate and raising the management in-band interrupt with byte 0x02. -/
  | witGrantRise
  /-- R404: The partner's CLAIM_OUT, seen on CLAIM_IN, rises or falls, which can end a take condition and return a REQUESTING unit to STANDBY. -/
  | claimInChange (high : Bool)
  /-- R400: An edge arrives on HB_IN, which makes the partner alive again and ends the partner-lost take condition. -/
  | hbInEdge
  /-- R458: The internal supply monitor clears after all switched rails have been within tolerance for 1 ms, ending write-through together with PFW deassertion. -/
  | monitorClear
  /-- R211: The link partner signals low-power idle; the receiver enters and leaves it, RX_LPI changes and LPI_RX_ENTRIES counts. -/
  | lpiRxEntry (p : Fin 24) (enter : Bool)
  /-- R453: The PCIe link goes down or starts to retrain, LINK_UP falls, and writes to host memory and MSI-X messages are held. -/
  | pcieLinkDown
  /-- R449: GLB_RST_CMD with OP PACKAGE and KEY 0xC3 makes a package reset. -/
  | packageReset (m : Master) (key : Nat)
  /-- R449: GLB_RST_CMD with OP REGION resets the region named by TARGET, under the absorption rules of R20. -/
  | regionCmd (m : Master) (key target : Nat)
  /-- R449: GLB_RST_CMD with OP DIE resets the PORTA or PORTB die. -/
  | dieCmd (m : Master) (key target : Nat)
  /-- R63: An accepted write of TSA_INCR is clamped to the limits and applied at its application tick; an out-of-range value sets CLAMPED and raises C1. -/
  | incrWrite (m : Master) (n : Ts) (v : Nat)
  /-- R65: A write of TSA_CTL.MODE from PF0 or the loader registers a change of writer mode. -/
  | modeWrite (m : Master) (n : Ts) (v : Nat)
  /-- R68: A write to TSA_SLEW_AMT starts, replaces or ends a slew, or is refused when |A| exceeds 1 s. -/
  | slewStart (m : Master) (n : Ts) (v : Nat)
  /-- R70: ARM with KEY 0x5A arms the master for 10 s; a wrong key is refused with RESULT 0x1. -/
  | stepArm (m : Master) (n : Ts) (key : Nat)
  /-- R70: From the armed master, EXEC_REL takes TSA_STEP_AMT and schedules a relative step; otherwise it is refused. -/
  | execRel (m : Master) (n : Ts) (key : Nat)
  /-- R70: From the armed master, EXEC_ABS takes TSA_SET_TIME and schedules a step to that time. -/
  | execAbs (m : Master) (n : Ts) (key : Nat)
  /-- R70: DISARM clears the arm held on the timescale. -/
  | disarm (m : Master) (n : Ts) (key : Nat)
  /-- R67: A write of TSA_MAN_UNC restarts the host-mode bound and qualifies the timescale when the code is finite. -/
  | manUncWrite (m : Master) (n : Ts) (v : Nat)
  /-- R73: SNAP_CTL with JOINT = 1 on the TSA page latches TSA and TSB at the same MEC. -/
  | snapJoint (m : Master)
  /-- R77: A write of TSA_BINDn requests a rebinding, or is refused with REFUSED set; HOLD and FORCE are written. -/
  | bindWrite (m : Master) (k : Fin 48) (v : Nat)
  /-- R76: A write of TSA_XTS_CTL.RATE sets the walk rate from its application tick. -/
  | xtsRateWrite (m : Master) (v : Nat)
  /-- R84: MON_CTL.EN written 1 moves a DISABLED monitor to LOST. -/
  | monEnable (m : Master) (k : Fin 19) (v : Nat)
  /-- R84: MON_CTL.EN written 0 moves the monitor to DISABLED and clears its flags. -/
  | monDisable (m : Master) (k : Fin 19) (v : Nat)
  /-- R84: A write of FORCE_DQ disqualifies a QUALIFIED reference, or allows an OPERATOR disqualification to leave. -/
  | forceDqWrite (m : Master) (k : Fin 19) (v : Nat)
  /-- R85: ACCEPT returns a PHASE_JUMP or MODEL disqualification to QUALIFIED, or a DRIFT disqualification to WTR; in any other case it has no effect. -/
  | accept (m : Master) (k : Fin 19)
  /-- R84: SKIP_WTR ends WTR at once and applies the return check. -/
  | skipWtr (m : Master) (k : Fin 19)
  /-- R84: RESTART returns the monitor to LOST and keeps CAUSE. -/
  | restart (m : Master) (k : Fin 19)
  /-- R85: A write to MON_WTR during WTR resets TIMER to the new value minus the time already spent. -/
  | monWtrWrite (m : Master) (k : Fin 19) (v : Nat)
  /-- R90: A write to REFn_IN_CTL, FREQ_NOM or DELAY beyond LOST returns the monitor to LOST with CAUSE = CONFIG. -/
  | refConfigWrite (m : Master) (k : Fin 19) (off v : Nat)
  /-- R91: A write of POP advances the receive FIFO by one byte. -/
  | uartPop (m : Master) (n : Fin 2) (v : Nat)
  /-- R91: A byte is queued for transmission, or is discarded and counted when the FIFO is full. -/
  | uartTxWrite (m : Master) (n : Fin 2) (v : Nat)
  /-- R92: A write of ATMn_UART_CTL.EN turns the receiver on or off and stops or restarts the telemetry timeout. -/
  | uartEnWrite (m : Master) (n : Fin 2) (v : Nat)
  /-- R93: A write to ATMn_STEER_VAL sends one SPI frame while steering is active, and is held otherwise. -/
  | steerValWrite (m : Master) (n : Fin 2) (v : Nat)
  /-- R94: A write to the US configuration while the session runs returns the monitor to LOST and restarts the session. -/
  | usConfigWrite (m : Master) (n : Fin 4) (off v : Nat)
  /-- R117: A write of SVCn_CTL.RUN halts the core on 0, or on 1 restarts the watchdog and ends the halt's C2 source. -/
  | svcRunWrite (m : Master) (n : Ts) (v : Nat)
  /-- R117: A write to HB restarts the servo watchdog. -/
  | svcHeartbeat (m : Master) (n : Ts) (v : Nat)
  /-- R135: A host write to GNSS_CTL, ANT_DLY or CAL_IB returns the GNSS monitor to LOST with CAUSE = CONFIG. -/
  | gnssConfigWrite (m : Master) (p : Fin 8) (off v : Nat)
  /-- R135: A host write of the position or POS_CTL.MODE returns the monitor to LOST, or is discarded in survey mode. -/
  | gnssPosWrite (m : Master) (off v : Nat)
  /-- R141: KEPT_CMD CLEAR discards the kept data. -/
  | keptClear (m : Master)
  /-- R148: A write to the HT4 window acts on the same receiver, or is discarded outside HT4 mode. -/
  | ht4Write (m : Master) (off v : Nat)
  /-- R155: SYNn_CTL.EN written 1 enters START, or stays in OFF with CAUSE CONFIG. -/
  | synEnable (m : Master) (n : Fin 4) (v : Nat)
  /-- R155: EN written 0 holds the outputs and enters OFF. -/
  | synDisable (m : Master) (n : Fin 4) (v : Nat)
  /-- R155: The ALIGN command holds the outputs for one period and sets the phase again. -/
  | align (m : Master) (n : Fin 4)
  /-- R155: TEST_ENTER applies the test band and tuning word open loop. -/
  | testEnter (m : Master) (n : Fin 4)
  /-- R155: TEST_EXIT returns the synthesizer to START. -/
  | testExit (m : Master) (n : Fin 4)
  /-- R155: The RELOCK command moves the synthesizer from FREEZE to LOCKING. -/
  | relock (m : Master) (n : Fin 4)
  /-- R155: A write to SRC, FREQ_INT, FREQ_FRAC or BAND while running returns the synthesizer to START. -/
  | synConfigWrite (m : Master) (n : Fin 4) (off v : Nat)
  /-- R156: A SCALE write applies at once, or is held with SCALE_PEND. -/
  | scaleWrite (m : Master) (n : Fin 4) (v : Nat)
  /-- R158: A spread control write, or a CLASS write, is accepted or refused with SS_REFUSED. -/
  | ssCtlWrite (m : Master) (n : Fin 4) (off v : Nat)
  /-- R161: A write of CKOm_CTL enables or disables the output or changes SRC, FMT or CLAIM. -/
  | ckoCtlWrite (m : Master) (n : Fin 16) (v : Nat)
  /-- R161: A DIV write on a running output holds it and restarts it at its next grid edge. -/
  | ckoDivWrite (m : Master) (n : Fin 16) (v : Nat)
  /-- R161: A PHASE write moves the output by one VCO cycle per period toward the new value. -/
  | ckoPhaseWrite (m : Master) (n : Fin 16) (v : Nat)
  /-- R173: ARM arms single-shot mode. -/
  | tdcArm (m : Master) (n : Fin 16)
  /-- R173: DISARM ends an armed shot with no stamp. -/
  | tdcDisarm (m : Master) (n : Fin 16)
  /-- R174: FLUSH empties the channel queue. -/
  | tdcFlush (m : Master) (n : Fin 16)
  /-- R174: A write of TDCn_Q_POP removes the head stamp. -/
  | tdcPop (m : Master) (n : Fin 16) (v : Nat)
  /-- R177: A write of STR_BASE or STR_SIZE is taken only while the stream is excluded. -/
  | strConfigWrite (m : Master) (n : Fin 16) (off v : Nat)
  /-- R169: A write of TDCn_MUX or TDCn_CTL changes the source at the next tick and returns the monitors fed to LOST. -/
  | tdcMuxWrite (m : Master) (n : Fin 16) (off v : Nat)
  /-- R185: CAL_NOW puts the named unit at the front of the calibration order. -/
  | tdcCalNow (m : Master) (u : Fin 32)
  /-- R181: RESTORE calibrates a retired channel and returns it to service if the calibration passes. -/
  | tdcRestore (m : Master) (u : Fin 32)
  /-- R180: A host write of a table entry is used from the unit's next stamp. -/
  | calEntWrite (m : Master) (v : Nat)
  /-- R188: ARM latches START, PERIOD, WIDTH and COUNT and begins the sequence, or is refused with CONFIG or ends LATE. -/
  | evoArm (m : Master) (n : Fin 16)
  /-- R188: STOP, or EN written 0, ends the sequence after the pulse in progress. -/
  | evoStop (m : Master) (n : Fin 16) (off v : Nat)
  /-- R193: A write of EVIi_CTL takes effect at the next tick and rejects an edge still in the filter. -/
  | eviCtlWrite (m : Master) (k : Fin 16) (v : Nat) (inFilter : Bool)
  /-- R199: PORT_CTL.EN written 1 with a valid configuration requests a wake, and with an invalid one gives CAUSE CONFIG. -/
  | portEnable (m : Master) (p : Fin 24) (v : Nat)
  /-- R199: EN written 0 drops queued frames and releases the lane. -/
  | portDisable (m : Master) (p : Fin 24) (v : Nat)
  /-- R199: A write to RATE, FEC, AN_EN, TRAIN_EN or AN_ADV restarts the link or disables the port. -/
  | portConfigWrite (m : Master) (p : Fin 24) (off v : Nat)
  /-- R199: RESTART_AN restarts auto-negotiation. -/
  | restartAn (m : Master) (p : Fin 24)
  /-- R199: RESTART_LINK takes the port to its restart entry. -/
  | restartLink (m : Master) (p : Fin 24)
  /-- R214: STAT_CLR zeroes the counters, WRAPPED, HALF and HOLD_MAX. -/
  | statClr (m : Master) (p : Fin 24)
  /-- R206: PRE_VERIFY restarts the preemption verify handshake. -/
  | preVerify (m : Master) (p : Fin 24)
  /-- R217: PCn_CMD CLUSTER_RESET takes the cluster's enabled ports through DISABLED to WAIT_PWR. -/
  | clusterReset (m : Master) (c : Fin 6)
  /-- R211: A write of EN or TW takes effect at the next exit from low-power idle. -/
  | lpiCtlWrite (m : Master) (p : Fin 24) (v : Nat)
  /-- R213: Host software advances PORT_HTX_WP and the device takes descriptors. -/
  | htxWpWrite (m : Master) (p : Fin 24) (v : Nat)
  /-- R213: A ring base or configuration write is accepted only while RATE = 0. -/
  | ringConfigWrite (m : Master) (p : Fin 24) (off v : Nat)
  /-- R226: CAL_NOW schedules a slot at the next slot point. -/
  | ptsCalNow (m : Master) (p : Fin 24)
  /-- R233: Q_FLUSH empties the port stamp queue. -/
  | qFlush (m : Master) (p : Fin 24)
  /-- R233: A write of PTSn_Q_POP removes the head stamp. -/
  | ptsPop (m : Master) (p : Fin 24) (v : Nat)
  /-- R224: A write of EXT_TX, EXT_RX or ASYM applies from the next word boundary. -/
  | ptsDelayWrite (m : Master) (p : Fin 24) (off v : Nat)
  /-- R264: A write of RSP_CTL.EN enables or disables the responder, and is refused while CLOCK_ID = 0. -/
  | rspEnWrite (m : Master) (v : Nat)
  /-- R265: CNT_CLR clears the responder counters and the wheel lag. -/
  | cntClr (m : Master)
  /-- R254: A change of domain service fields removes all grants of the domain. -/
  | domCtlWrite (m : Master) (k : Fin 8) (v : Nat)
  /-- R288: CST_CMD LOOKUP looks up the CST_KEY registers and reports the hit and buckets. -/
  | lookup (m : Master)
  /-- R288: SCRUB_NOW starts a scrub pass. -/
  | scrubNow (m : Master)
  /-- R285: BRINE written 1 puts the store into retention, or is refused with BRINE_REFUSED. -/
  | brineEnter (m : Master) (v : Nat)
  /-- R287: A write of CST_HASH_SEED is accepted only while USED = 0. -/
  | hashSeedWrite (m : Master) (v : Nat)
  /-- R292: FENCE written 1 fences the lane and redispatches its queue. -/
  | fenceWrite (m : Master) (n : Fin 16) (v : Nat)
  /-- R292: UNFENCE with FENCE = 0 returns the lane to LOAD. -/
  | unfence (m : Master) (n : Fin 16)
  /-- R298: IMPORT installs staged material into a slot under the journal. -/
  | importKey (m : Master) (slot : Fin 256)
  /-- R299: DERIVE computes new material with HKDF from the parent. -/
  | deriveKey (m : Master) (slot : Fin 256)
  /-- R298: RETIRE makes an ACTIVE slot and its descendants STALE. -/
  | retireKey (m : Master) (slot : Fin 256)
  /-- R298: DESTROY zeroises the slot's material and makes it DESTROYED. -/
  | destroyKey (m : Master) (slot : Fin 256)
  /-- R298: UNWRAP from the Kwager link installs a key wrapped by the partner. -/
  | unwrapKey (m : Master) (slot : Fin 256) (blob : List Nat)
  /-- R298: ABORT clears staging, salt and info. -/
  | keyAbort (m : Master)
  /-- R304: A write of KEY_NTS_CUR chooses the cookie sealing slot from the next dispatch. -/
  | keyNtsCurWrite (m : Master) (v : Nat)
  /-- R309: ATTEST computes RESP over the challenge and device digest and latches the results. -/
  | attest (m : Master)
  /-- R311: SUBMIT checks the life-cycle token and, if valid, blows the state bit and destroys keys. -/
  | submitToken (m : Master)
  /-- R327: EN written 1 moves the direction to WAIT, or leaves it in OFF with CAUSE CONFIG. -/
  | audEnable (m : Master) (p : Fin 4) (rx : Bool) (v : Nat)
  /-- R327: EN written 0 completes the frame and holds the outputs. -/
  | audDisable (m : Master) (p : Fin 4) (rx : Bool) (v : Nat)
  /-- R326: A MASK write goes to the shadow register. -/
  | audMaskWrite (m : Master) (p : Fin 4) (rx : Bool) (v : Nat)
  /-- R327: REALIGN holds a master for one frame and sets its phase again. -/
  | realign (m : Master) (p : Fin 4) (rx : Bool)
  /-- R328: CNT_CLR clears SLIPS, LATE and DISC. -/
  | audCntClr (m : Master) (p : Fin 4) (rx : Bool)
  /-- R327: A CTL, FS or OFS write beyond OFF returns the direction to WAIT. -/
  | audConfigWrite (m : Master) (p : Fin 4) (rx : Bool) (off v : Nat)
  /-- R330: EN written 1 after BOOT_DONE makes the sequencer IDLE. -/
  | seqEnable (m : Master) (n : Fin 8) (v : Nat)
  /-- R330: EN written 0 stops the sequencer in OFF. -/
  | seqDisable (m : Master) (n : Fin 8) (v : Nat)
  /-- R330: START runs the recipe at SEQn_START.ENTRY. -/
  | seqStart (m : Master) (n : Fin 8)
  /-- R330: STOP ends the run after the current instruction. -/
  | seqStop (m : Master) (n : Fin 8)
  /-- R330: CLR_FAULT returns a faulted sequencer to IDLE. -/
  | clrFault (m : Master) (n : Fin 8)
  /-- R337: An instruction word write is accepted only while EN = 0. -/
  | seqInstrWrite (m : Master) (n : Fin 8) (k : Fin 512) (v : Nat)
  /-- R341: REC_CMD FLUSH starts a flush. -/
  | recFlush (m : Master)
  /-- R350: CLEAR with a valid token commits a new clear epoch and writes a CLEAR record, or is refused. -/
  | recClear (m : Master)
  /-- R348: REC_CMD SNAP queues a snapshot of list l. -/
  | recSnap (m : Master) (l : Fin 16)
  /-- R349: A write of REC_CURSOR sets the cursor and restarts the walk. -/
  | recCursorWrite (m : Master) (v : Nat)
  /-- R357: FLT_CLR clears latched classes that are not live, and refuses the others with FAULT_CLR records. -/
  | fltClr (m : Master) (pg : Page) (v : Nat)
  /-- R357: FLT_CLR_ALL applies the clear rule to every page for the named classes. -/
  | fltClrAll (m : Master) (v : Nat)
  /-- R364: A write of FLT_FORCE forces sources live, with class 4 gated by C4_FORCE. -/
  | fltForceWrite (m : Master) (pg : Page) (v : Nat)
  /-- R370: A write of PMC_SELk selects an event and, with CLR, zeroes the count. -/
  | pmcSelWrite (m : Master) (pg : Page) (k : Fin 4) (v : Nat)
  /-- R372: LATCH copies the listed counters into PMC_WIN at one MEC. -/
  | pmcLatch (m : Master)
  /-- R369: A write to the PMC filter applies from the next cycle. -/
  | pmcFilterWrite (m : Master) (off v : Nat)
  /-- R383: A POWER_CAP write takes effect at the next admission cycle, revoking units to fit. -/
  | powerCapWrite (m : Master) (v : Nat)
  /-- R393: A write of PWR_REQ.MODE changes how the block requests wake. -/
  | pwrReqWrite (m : Master) (pg : Page) (v : Nat)
  /-- R386: PWR_CMD ENTER_CAVE starts Cave entry. -/
  | enterCave (m : Master)
  /-- R389: EXIT_CAVE from PF0 or the management target starts the exit. -/
  | exitCave (m : Master)
  /-- R377: A CLKD_SS_CTL write changes the SCLK spread at the next zero crossing. -/
  | sclkSsWrite (m : Master) (v : Nat)
  /-- R398: PLK_CTL.EN written 1 with BOOT_DONE starts link alignment and STANDBY. -/
  | plkEnable (m : Master) (v : Nat)
  /-- R404: EN written 0 releases the link and the claim. -/
  | plkDisable (m : Master) (v : Nat)
  /-- R404: TAKE requests the claim, forced or through a handover request. -/
  | take (m : Master) (force : Bool)
  /-- R404: HANDOVER releases the claim with a RELEASE message. -/
  | handover (m : Master)
  /-- R404: ABORT ends a request and returns to STANDBY. -/
  | plkAbort (m : Master)
  /-- R427: OPEN records the session source and fetches the header. -/
  | openSession (m : Master) (c : Container)
  /-- R428: VERIFY_HDR checks the header and takes the update lock. -/
  | verifyHdr (m : Master)
  /-- R427: LOAD writes the body to staging or to the loader. -/
  | loadBody (m : Master)
  /-- R427: VERIFY_BODY checks the body hash. -/
  | verifyBody (m : Master)
  /-- R427: ACTIVATE starts the image copy or the slot write. -/
  | activate (m : Master)
  /-- R432: CONFIRM confirms the trial image and blows rollback bits. -/
  | confirm (m : Master)
  /-- R427: ABORT ends the session before ACTIVATE. -/
  | ldrAbort (m : Master)
  /-- R425: CAL_COMMIT writes the running calibration as an integrator set. -/
  | calCommit (m : Master)
  /-- R433: RESTORE falls back to the return image, or is refused. -/
  | restoreImage (m : Master)
  /-- R431: KICK restarts the loader watchdog. -/
  | kick (m : Master) (v : Nat)
  /-- R443: PAGE_CTL.SOFT_RST resets the page and its block. -/
  | softRst (m : Master) (pg : Page) (v : Nat)
  /-- R443: A write of PAGE_CTL.FREEZE stops or restarts the page's counters. -/
  | freezeWrite (m : Master) (pg : Page) (v : Nat)
  /-- R451: A W1C of INT_STS clears bits and may resend MSI-X. -/
  | intStsClear (m : Master) (pg : Page) (v : Nat)
  /-- R442: INT_FORCE sets INT_STS bits. -/
  | intForce (m : Master) (pg : Page) (v : Nat)
  /-- R451: A write of INT_EN updates the summary and MSI-X state. -/
  | intEnWrite (m : Master) (pg : Page) (v : Nat)
  /-- R451: Unmasking an asserted vector sends its message. -/
  | msixUnmask (m : Master) (vec : Fin 64)
  /-- R449: TEST_DIS disables the test access port. -/
  | testDis (m : Master)
  deriving DecidableEq, Repr

end Sys2Proof
end

