-- ==== Sys2Proof/Decode.lean ====
section
/-! DEFINITION. The decoder over the rows of spec/opcode_table.json that give bits. No row gives any, so no word spells a command. -/

namespace Sys2Proof

/-- The command a word spells by the table's bits: none, since every row of the table has an empty field list. -/
def decodeTableWord (_nbits _w : Nat) : Option Instr := none

end Sys2Proof
end

