-- ==== Sys2Proof/Machine/Fields.lean ====
section
/-! DEFINITION. The named registers and fields of every page, at the offsets and bit positions of the register tables of spec/00 to spec/22.
An arrayed register takes its instance number; a monitor register (R81) takes the base of its block. -/

namespace Sys2Proof.Machine

abbrev GLB.DEVICE_ID : Fld := ⟨0x100, 31, 0⟩
abbrev GLB.DEVICE_ID_PART_NUMBER : Fld := ⟨0x100, 31, 16⟩
abbrev GLB.DEVICE_ID_SI_LETTER : Fld := ⟨0x100, 15, 12⟩
abbrev GLB.DEVICE_ID_SI_STEP : Fld := ⟨0x100, 11, 8⟩
abbrev GLB.DEVICE_ID_GRADE : Fld := ⟨0x100, 7, 4⟩
abbrev GLB.BOOT_STS : Fld := ⟨0x104, 31, 0⟩
abbrev GLB.BOOT_STS_BOOT_DONE : Fld := ⟨0x104, 31, 31⟩
abbrev GLB.RST_CMD : Fld := ⟨0x108, 31, 0⟩
abbrev GLB.RST_CMD_KEY : Fld := ⟨0x108, 31, 24⟩
abbrev GLB.RST_CMD_TARGET : Fld := ⟨0x108, 19, 16⟩
abbrev GLB.RST_CMD_OP : Fld := ⟨0x108, 1, 0⟩
abbrev GLB.RST_ABSORBED : Fld := ⟨0x10C, 31, 0⟩
abbrev GLB.RST_ABSORBED_COUNT : Fld := ⟨0x10C, 31, 0⟩
abbrev GLB.LINK_STS : Fld := ⟨0x110, 31, 0⟩
abbrev GLB.LINK_STS_UNCAL : Fld := ⟨0x110, 4, 0⟩
abbrev GLB.PREBOOT_DISC : Fld := ⟨0x114, 31, 0⟩
abbrev GLB.PREBOOT_DISC_COUNT : Fld := ⟨0x114, 31, 0⟩
abbrev GLB.UNIMPL_DISC : Fld := ⟨0x118, 31, 0⟩
abbrev GLB.UNIMPL_DISC_COUNT : Fld := ⟨0x118, 31, 0⟩
abbrev GLB.CAVE_DISC : Fld := ⟨0x11C, 31, 0⟩
abbrev GLB.CAVE_DISC_COUNT : Fld := ⟨0x11C, 31, 0⟩
abbrev GLB.LC_STS : Fld := ⟨0x120, 31, 0⟩
abbrev GLB.LC_STS_ROOT : Fld := ⟨0x120, 10, 8⟩
abbrev GLB.LC_STS_LC : Fld := ⟨0x120, 2, 0⟩
abbrev GLB.LC_CTL : Fld := ⟨0x124, 31, 0⟩
abbrev GLB.LC_CTL_TEST_DIS : Fld := ⟨0x124, 0, 0⟩
abbrev GLB.INT_SUM (i : Nat) : Fld := ⟨0x140 + 4 * i, 31, 0⟩
abbrev GLB.INT_SUM_SUM (i : Nat) : Fld := ⟨0x140 + 4 * i, 31, 0⟩

abbrev TS.UTC_OFFSET : Fld := ⟨0x300, 31, 0⟩
abbrev TS.UTC_OFFSET_VALID : Fld := ⟨0x300, 31, 31⟩
abbrev TS.UTC_OFFSET_OFFSET : Fld := ⟨0x300, 15, 0⟩
abbrev TS.LEAP_CTL : Fld := ⟨0x304, 31, 0⟩
abbrev TS.LEAP_CTL_DONE : Fld := ⟨0x304, 31, 31⟩
abbrev TS.LEAP_CTL_PENDING : Fld := ⟨0x304, 1, 0⟩
abbrev TS.LEAP_AT : Fld := ⟨0x308, 63, 0⟩
abbrev TS.LEAP_AT_SEC : Fld := ⟨0x308, 47, 0⟩
abbrev TS.STEP_ACC : Fld := ⟨0x340, 63, 0⟩
abbrev TS.STEP_ACC_ACC : Fld := ⟨0x340, 63, 0⟩
abbrev TS.BOUND_STS : Fld := ⟨0x310, 31, 0⟩
abbrev TS.BOUND_STS_UNCONFIRMED : Fld := ⟨0x310, 28, 28⟩
abbrev TS.BOUND_STS_DISAGREE : Fld := ⟨0x310, 27, 27⟩
abbrev TS.BOUND_STS_STATE : Fld := ⟨0x310, 26, 24⟩
abbrev TS.BOUND_STS_TRACE : Fld := ⟨0x310, 23, 16⟩
abbrev TS.BOUND_STS_CODE : Fld := ⟨0x310, 15, 0⟩
abbrev TS.BOUND_T0 : Fld := ⟨0x314, 31, 0⟩
abbrev TS.BOUND_T0_SERVO : Fld := ⟨0x314, 31, 16⟩
abbrev TS.BOUND_T0_REF : Fld := ⟨0x314, 15, 0⟩
abbrev TS.BOUND_T1 : Fld := ⟨0x318, 31, 0⟩
abbrev TS.BOUND_T1_GROWTH : Fld := ⟨0x318, 31, 16⟩
abbrev TS.BOUND_T1_DIS : Fld := ⟨0x318, 15, 0⟩
abbrev TS.BOUND_T2 : Fld := ⟨0x31C, 31, 0⟩
abbrev TS.BOUND_T2_ENTRY : Fld := ⟨0x31C, 15, 0⟩
abbrev TS.EBT_CTL : Fld := ⟨0x334, 31, 0⟩
abbrev TS.EBT_CTL_EN : Fld := ⟨0x334, 31, 31⟩
abbrev TS.EBT_CTL_MSG : Fld := ⟨0x334, 26, 24⟩
abbrev TS.EBT_CTL_ORG : Fld := ⟨0x334, 23, 0⟩
abbrev TS.CC_MAP (i : Nat) : Fld := ⟨0x320 + 4 * i, 31, 0⟩
abbrev TS.CC_MAP_THR (i : Nat) : Fld := ⟨0x320 + 4 * i, 31, 16⟩
abbrev TS.CC_MAP_STATE (i : Nat) : Fld := ⟨0x320 + 4 * i, 15, 14⟩
abbrev TS.CC_MAP_EN (i : Nat) : Fld := ⟨0x320 + 4 * i, 8, 8⟩
abbrev TS.CC_MAP_CLASS (i : Nat) : Fld := ⟨0x320 + 4 * i, 7, 0⟩
abbrev TS.CC_CTL : Fld := ⟨0x330, 31, 0⟩
abbrev TS.CC_CTL_ACC_FLOOR : Fld := ⟨0x330, 31, 24⟩
abbrev TS.CC_CTL_HOLD : Fld := ⟨0x330, 23, 8⟩
abbrev TS.CC_CTL_DEFAULT : Fld := ⟨0x330, 7, 0⟩
abbrev TS.TIME_SNAP : Fld := ⟨0x100, 95, 0⟩
abbrev TS.TIME_SNAP_SEC : Fld := ⟨0x100, 93, 46⟩
abbrev TS.TIME_SNAP_NS : Fld := ⟨0x100, 45, 16⟩
abbrev TS.TIME_SNAP_FRAC : Fld := ⟨0x100, 15, 0⟩
abbrev TS.MEC_SNAP : Fld := ⟨0x110, 63, 0⟩
abbrev TS.MEC_SNAP_MEC : Fld := ⟨0x110, 63, 0⟩
abbrev TS.INCR : Fld := ⟨0x120, 63, 0⟩
abbrev TS.INCR_INCR : Fld := ⟨0x120, 63, 0⟩
abbrev TS.INCR_EFF : Fld := ⟨0x128, 63, 0⟩
abbrev TS.INCR_EFF_EFF : Fld := ⟨0x128, 63, 0⟩
abbrev TS.CTL : Fld := ⟨0x130, 31, 0⟩
abbrev TS.CTL_MODE : Fld := ⟨0x130, 0, 0⟩
abbrev TS.STS : Fld := ⟨0x134, 31, 0⟩
abbrev TS.STS_CLAMPED : Fld := ⟨0x134, 4, 4⟩
abbrev TS.STS_SLEW_RES : Fld := ⟨0x134, 3, 2⟩
abbrev TS.STS_SLEWING : Fld := ⟨0x134, 1, 1⟩
abbrev TS.STS_MODE : Fld := ⟨0x134, 0, 0⟩
abbrev TS.WR_DISC : Fld := ⟨0x138, 31, 0⟩
abbrev TS.WR_DISC_COUNT : Fld := ⟨0x138, 31, 0⟩
abbrev TS.SLEW_AMT : Fld := ⟨0x140, 63, 0⟩
abbrev TS.SLEW_AMT_AMT : Fld := ⟨0x140, 63, 0⟩
abbrev TS.SLEW_REM : Fld := ⟨0x148, 63, 0⟩
abbrev TS.SLEW_REM_REM : Fld := ⟨0x148, 63, 0⟩
abbrev TS.SLEW_MAX : Fld := ⟨0x150, 31, 0⟩
abbrev TS.SLEW_MAX_RATE : Fld := ⟨0x150, 10, 0⟩
abbrev TS.STEP_AMT : Fld := ⟨0x160, 63, 0⟩
abbrev TS.STEP_AMT_AMT : Fld := ⟨0x160, 63, 0⟩
abbrev TS.SET_TIME : Fld := ⟨0x170, 95, 0⟩
abbrev TS.SET_TIME_TIME : Fld := ⟨0x170, 93, 0⟩
abbrev TS.STEP_CTL : Fld := ⟨0x180, 31, 0⟩
abbrev TS.STEP_CTL_AT_SEC : Fld := ⟨0x180, 1, 1⟩
abbrev TS.STEP_CTL_PERMIT : Fld := ⟨0x180, 0, 0⟩
abbrev TS.STEP_THR : Fld := ⟨0x184, 31, 0⟩
abbrev TS.STEP_THR_THR : Fld := ⟨0x184, 31, 0⟩
abbrev TS.STEP_CMD : Fld := ⟨0x188, 31, 0⟩
abbrev TS.STEP_CMD_KEY : Fld := ⟨0x188, 15, 8⟩
abbrev TS.STEP_CMD_OP : Fld := ⟨0x188, 2, 0⟩
abbrev TS.STEP_STS : Fld := ⟨0x18C, 31, 0⟩
abbrev TS.STEP_STS_ARM_LEFT : Fld := ⟨0x18C, 31, 16⟩
abbrev TS.STEP_STS_ARM_MASTER : Fld := ⟨0x18C, 15, 8⟩
abbrev TS.STEP_STS_ARMED : Fld := ⟨0x18C, 5, 5⟩
abbrev TS.STEP_STS_PENDING : Fld := ⟨0x18C, 4, 4⟩
abbrev TS.STEP_STS_RESULT : Fld := ⟨0x18C, 3, 0⟩
abbrev TS.MAN_UNC : Fld := ⟨0x190, 31, 0⟩
abbrev TS.MAN_UNC_CODE : Fld := ⟨0x190, 15, 0⟩

abbrev TSA.BIND (i : Nat) : Fld := ⟨0x440 + 4 * i, 31, 0⟩
abbrev TSA.BIND_WALKING (i : Nat) : Fld := ⟨0x440 + 4 * i, 31, 31⟩
abbrev TSA.BIND_REFUSED (i : Nat) : Fld := ⟨0x440 + 4 * i, 30, 30⟩
abbrev TSA.BIND_FORCE (i : Nat) : Fld := ⟨0x440 + 4 * i, 5, 5⟩
abbrev TSA.BIND_HOLD (i : Nat) : Fld := ⟨0x440 + 4 * i, 4, 4⟩
abbrev TSA.BIND_CUR (i : Nat) : Fld := ⟨0x440 + 4 * i, 1, 1⟩
abbrev TSA.BIND_SEL (i : Nat) : Fld := ⟨0x440 + 4 * i, 0, 0⟩
abbrev TSA.BIND_CORR (i : Nat) : Fld := ⟨0x500 + 8 * i, 63, 0⟩
abbrev TSA.BIND_CORR_CORR (i : Nat) : Fld := ⟨0x500 + 8 * i, 63, 0⟩
abbrev TSA.XTS_OFF : Fld := ⟨0x400, 63, 0⟩
abbrev TSA.XTS_OFF_OFF : Fld := ⟨0x400, 63, 0⟩
abbrev TSA.XTS_CTL : Fld := ⟨0x408, 31, 0⟩
abbrev TSA.XTS_CTL_RATE : Fld := ⟨0x408, 10, 0⟩

abbrev MON.CTL (b : Nat) : Fld := ⟨b + 0x0, 31, 0⟩
abbrev MON.CTL_EN (b : Nat) : Fld := ⟨b + 0x0, 31, 31⟩
abbrev MON.CTL_ENS (b : Nat) : Fld := ⟨b + 0x0, 30, 30⟩
abbrev MON.CTL_FORCE_DQ (b : Nat) : Fld := ⟨b + 0x0, 29, 29⟩
abbrev MON.CTL_FLIM (b : Nat) : Fld := ⟨b + 0x0, 23, 8⟩
abbrev MON.CTL_QUAL (b : Nat) : Fld := ⟨b + 0x0, 7, 0⟩
abbrev MON.WTR (b : Nat) : Fld := ⟨b + 0x4, 31, 0⟩
abbrev MON.WTR_WTR (b : Nat) : Fld := ⟨b + 0x4, 16, 0⟩
abbrev MON.DECL (b : Nat) : Fld := ⟨b + 0x8, 31, 0⟩
abbrev MON.DECL_FUNC (b : Nat) : Fld := ⟨b + 0x8, 31, 16⟩
abbrev MON.DECL_PUNC (b : Nat) : Fld := ⟨b + 0x8, 15, 0⟩
abbrev MON.CMD (b : Nat) : Fld := ⟨b + 0xC, 31, 0⟩
abbrev MON.CMD_OP (b : Nat) : Fld := ⟨b + 0xC, 2, 0⟩
abbrev MON.STS (b : Nat) : Fld := ⟨b + 0x10, 31, 0⟩
abbrev MON.STS_STEERED (b : Nat) : Fld := ⟨b + 0x10, 27, 27⟩
abbrev MON.STS_MODEL_DEV (b : Nat) : Fld := ⟨b + 0x10, 26, 26⟩
abbrev MON.STS_UNCONFIRMED (b : Nat) : Fld := ⟨b + 0x10, 25, 25⟩
abbrev MON.STS_DISAGREE (b : Nat) : Fld := ⟨b + 0x10, 24, 24⟩
abbrev MON.STS_CAUSE (b : Nat) : Fld := ⟨b + 0x10, 23, 20⟩
abbrev MON.STS_STATE (b : Nat) : Fld := ⟨b + 0x10, 19, 17⟩
abbrev MON.STS_TIMER (b : Nat) : Fld := ⟨b + 0x10, 16, 0⟩
abbrev MON.BREF (b : Nat) : Fld := ⟨b + 0x14, 31, 0⟩
abbrev MON.BREF_FUNC (b : Nat) : Fld := ⟨b + 0x14, 31, 16⟩
abbrev MON.BREF_BREF (b : Nat) : Fld := ⟨b + 0x14, 15, 0⟩
abbrev MON.PHASE (b : Nat) : Fld := ⟨b + 0x18, 63, 0⟩
abbrev MON.PHASE_X (b : Nat) : Fld := ⟨b + 0x18, 63, 0⟩
abbrev MON.FREQ (b : Nat) : Fld := ⟨b + 0x20, 63, 0⟩
abbrev MON.FREQ_Y (b : Nat) : Fld := ⟨b + 0x20, 63, 0⟩
abbrev MON.LOSS_CNT (b : Nat) : Fld := ⟨b + 0x28, 31, 0⟩
abbrev MON.LOSS_CNT_COUNT (b : Nat) : Fld := ⟨b + 0x28, 31, 0⟩
abbrev MON.MISS_CNT (b : Nat) : Fld := ⟨b + 0x2C, 31, 0⟩
abbrev MON.MISS_CNT_COUNT (b : Nat) : Fld := ⟨b + 0x2C, 31, 0⟩
abbrev MON.STRAY_CNT (b : Nat) : Fld := ⟨b + 0x30, 31, 0⟩
abbrev MON.STRAY_CNT_COUNT (b : Nat) : Fld := ⟨b + 0x30, 31, 0⟩

abbrev REF.IN_CTL : Fld := ⟨0x200, 31, 0⟩
abbrev REF.IN_CTL_GLITCH : Fld := ⟨0x200, 31, 24⟩
abbrev REF.IN_CTL_THR : Fld := ⟨0x200, 23, 16⟩
abbrev REF.IN_CTL_PRESC : Fld := ⟨0x200, 11, 10⟩
abbrev REF.IN_CTL_POL : Fld := ⟨0x200, 9, 9⟩
abbrev REF.IN_CTL_DIFF : Fld := ⟨0x200, 8, 8⟩
abbrev REF.IN_CTL_FORMAT : Fld := ⟨0x200, 1, 0⟩
abbrev REF.FREQ_NOM : Fld := ⟨0x204, 31, 0⟩
abbrev REF.FREQ_NOM_HZ : Fld := ⟨0x204, 31, 0⟩
abbrev REF.DELAY : Fld := ⟨0x208, 31, 0⟩
abbrev REF.DELAY_DELAY : Fld := ⟨0x208, 31, 0⟩
abbrev REF.PPS_WIN : Fld := ⟨0x20C, 31, 0⟩
abbrev REF.PPS_WIN_WIN : Fld := ⟨0x20C, 16, 0⟩

abbrev ATM.UART_CTL : Fld := ⟨0x220, 31, 0⟩
abbrev ATM.UART_CTL_EN : Fld := ⟨0x220, 31, 31⟩
abbrev ATM.UART_CTL_PARITY : Fld := ⟨0x220, 30, 29⟩
abbrev ATM.UART_CTL_STOP2 : Fld := ⟨0x220, 28, 28⟩
abbrev ATM.UART_CTL_DIV : Fld := ⟨0x220, 23, 0⟩
abbrev ATM.UART_RX : Fld := ⟨0x224, 31, 0⟩
abbrev ATM.UART_RX_VALID : Fld := ⟨0x224, 31, 31⟩
abbrev ATM.UART_RX_DATA : Fld := ⟨0x224, 7, 0⟩
abbrev ATM.UART_POP : Fld := ⟨0x228, 31, 0⟩
abbrev ATM.UART_POP_POP : Fld := ⟨0x228, 0, 0⟩
abbrev ATM.UART_TX : Fld := ⟨0x22C, 31, 0⟩
abbrev ATM.UART_TX_DATA : Fld := ⟨0x22C, 7, 0⟩
abbrev ATM.UART_STS : Fld := ⟨0x230, 31, 0⟩
abbrev ATM.UART_STS_OVF : Fld := ⟨0x230, 31, 16⟩
abbrev ATM.UART_STS_TLM_LOST : Fld := ⟨0x230, 15, 15⟩
abbrev ATM.UART_STS_RX_LVL : Fld := ⟨0x230, 8, 0⟩
abbrev ATM.TLM_CTL : Fld := ⟨0x234, 31, 0⟩
abbrev ATM.TLM_CTL_MATCH_EN : Fld := ⟨0x234, 31, 31⟩
abbrev ATM.TLM_CTL_DELIM : Fld := ⟨0x234, 23, 16⟩
abbrev ATM.TLM_CTL_TMO : Fld := ⟨0x234, 15, 0⟩
abbrev ATM.TLM_AVAL : Fld := ⟨0x238, 31, 0⟩
abbrev ATM.TLM_AVAL_V : Fld := ⟨0x238, 31, 0⟩
abbrev ATM.TLM_AMSK : Fld := ⟨0x23C, 31, 0⟩
abbrev ATM.TLM_AMSK_V : Fld := ⟨0x23C, 31, 0⟩
abbrev ATM.TLM_OVAL : Fld := ⟨0x240, 31, 0⟩
abbrev ATM.TLM_OVAL_V : Fld := ⟨0x240, 31, 0⟩
abbrev ATM.TLM_OMSK : Fld := ⟨0x244, 31, 0⟩
abbrev ATM.TLM_OMSK_V : Fld := ⟨0x244, 31, 0⟩
abbrev ATM.STEER_CTL : Fld := ⟨0x250, 31, 0⟩
abbrev ATM.STEER_CTL_EN : Fld := ⟨0x250, 31, 31⟩
abbrev ATM.STEER_CTL_TS : Fld := ⟨0x250, 30, 30⟩
abbrev ATM.STEER_CTL_CPMODE : Fld := ⟨0x250, 29, 28⟩
abbrev ATM.STEER_CTL_LEN : Fld := ⟨0x250, 21, 16⟩
abbrev ATM.STEER_CTL_DIV : Fld := ⟨0x250, 15, 8⟩
abbrev ATM.STEER_VAL : Fld := ⟨0x254, 31, 0⟩
abbrev ATM.STEER_VAL_VAL : Fld := ⟨0x254, 31, 0⟩
abbrev ATM.STEER_SENT : Fld := ⟨0x258, 31, 0⟩
abbrev ATM.STEER_SENT_SENT : Fld := ⟨0x258, 31, 0⟩
abbrev ATM.IN_CTL : Fld := ⟨0x200, 31, 0⟩
abbrev ATM.IN_CTL_GLITCH : Fld := ⟨0x200, 31, 24⟩
abbrev ATM.IN_CTL_THR : Fld := ⟨0x200, 23, 16⟩
abbrev ATM.IN_CTL_PRESC : Fld := ⟨0x200, 11, 10⟩
abbrev ATM.IN_CTL_POL : Fld := ⟨0x200, 9, 9⟩
abbrev ATM.IN_CTL_DIFF : Fld := ⟨0x200, 8, 8⟩
abbrev ATM.IN_CTL_FORMAT : Fld := ⟨0x200, 1, 0⟩
abbrev ATM.DELAY : Fld := ⟨0x208, 31, 0⟩
abbrev ATM.DELAY_DELAY : Fld := ⟨0x208, 31, 0⟩
abbrev ATM.PPS_WIN : Fld := ⟨0x20C, 31, 0⟩
abbrev ATM.PPS_WIN_WIN : Fld := ⟨0x20C, 16, 0⟩

abbrev US.CFG : Fld := ⟨0x200, 31, 0⟩
abbrev US.CFG_PORT : Fld := ⟨0x200, 28, 24⟩
abbrev US.CFG_TRANSPORT : Fld := ⟨0x200, 23, 22⟩
abbrev US.CFG_MODE : Fld := ⟨0x200, 21, 20⟩
abbrev US.CFG_PROFILE : Fld := ⟨0x200, 19, 18⟩
abbrev US.CFG_DOMAIN : Fld := ⟨0x200, 15, 8⟩
abbrev US.INTV : Fld := ⟨0x204, 31, 0⟩
abbrev US.INTV_LOG_SYNC : Fld := ⟨0x204, 31, 24⟩
abbrev US.INTV_LOG_DREQ : Fld := ⟨0x204, 23, 16⟩
abbrev US.INTV_LOG_ANN : Fld := ⟨0x204, 15, 8⟩
abbrev US.GRANT : Fld := ⟨0x208, 31, 0⟩
abbrev US.GRANT_DUR : Fld := ⟨0x208, 15, 0⟩
abbrev US.ADDR (i : Nat) : Fld := ⟨0x210 + 4 * i, 31, 0⟩
abbrev US.ADDR_ADDR (i : Nat) : Fld := ⟨0x210 + 4 * i, 31, 0⟩
abbrev US.TT_ID : Fld := ⟨0x220, 63, 0⟩
abbrev US.TT_ID_CLOCK_ID : Fld := ⟨0x220, 63, 0⟩
abbrev US.UP_CTL : Fld := ⟨0x228, 31, 0⟩
abbrev US.UP_CTL_ORG : Fld := ⟨0x228, 31, 8⟩
abbrev US.UP_CTL_CLASS_MAX : Fld := ⟨0x228, 7, 0⟩
abbrev US.STS : Fld := ⟨0x230, 31, 0⟩
abbrev US.STS_UP_CLASS : Fld := ⟨0x230, 31, 24⟩
abbrev US.STS_UP_ACC : Fld := ⟨0x230, 23, 16⟩
abbrev US.STS_NEG : Fld := ⟨0x230, 7, 4⟩
abbrev US.STS_TWO_STEP : Fld := ⟨0x230, 3, 3⟩
abbrev US.OFFSET : Fld := ⟨0x238, 63, 0⟩
abbrev US.OFFSET_OFF : Fld := ⟨0x238, 63, 0⟩
abbrev US.MPD : Fld := ⟨0x240, 63, 0⟩
abbrev US.MPD_MPD : Fld := ⟨0x240, 63, 0⟩
abbrev US.SYNCE_CFG : Fld := ⟨0x900, 31, 0⟩
abbrev US.SYNCE_CFG_PORT : Fld := ⟨0x900, 28, 24⟩
abbrev US.SYNCE_CFG_QL_MIN : Fld := ⟨0x900, 23, 20⟩
abbrev US.SYNCE_STS : Fld := ⟨0x904, 31, 0⟩
abbrev US.SYNCE_STS_LINK : Fld := ⟨0x904, 5, 5⟩
abbrev US.SYNCE_STS_ESMC_TMO : Fld := ⟨0x904, 4, 4⟩
abbrev US.SYNCE_STS_QL : Fld := ⟨0x904, 3, 0⟩

abbrev SEL.ENS_CTL : Fld := ⟨0x800, 31, 0⟩
abbrev SEL.ENS_CTL_WIN : Fld := ⟨0x800, 16, 0⟩
abbrev SEL.ENS_MARGIN : Fld := ⟨0x804, 31, 0⟩
abbrev SEL.ENS_MARGIN_FMARGIN : Fld := ⟨0x804, 31, 16⟩
abbrev SEL.ENS_MARGIN_PMARGIN : Fld := ⟨0x804, 15, 0⟩
abbrev SEL.ENS_STS : Fld := ⟨0x808, 31, 0⟩
abbrev SEL.ENS_STS_NOMAJ : Fld := ⟨0x808, 13, 13⟩
abbrev SEL.ENS_STS_MAJ : Fld := ⟨0x808, 12, 8⟩
abbrev SEL.ENS_STS_N : Fld := ⟨0x808, 4, 0⟩
abbrev SEL.ENS_PAIR (i : Nat) : Fld := ⟨0x840 + 4 * i, 31, 0⟩
abbrev SEL.ENS_PAIR_DIS (i : Nat) : Fld := ⟨0x840 + 4 * i, 18, 0⟩
abbrev SEL.CTL (i : Nat) : Fld := ⟨0x100 + 64 * i, 31, 0⟩
abbrev SEL.CTL_ACC_MULT (i : Nat) : Fld := ⟨0x100 + 64 * i, 31, 28⟩
abbrev SEL.CTL_SETTLE (i : Nat) : Fld := ⟨0x100 + 64 * i, 23, 16⟩
abbrev SEL.CTL_MAN_K (i : Nat) : Fld := ⟨0x100 + 64 * i, 12, 8⟩
abbrev SEL.CTL_REVERT (i : Nat) : Fld := ⟨0x100 + 64 * i, 2, 2⟩
abbrev SEL.CTL_MODE (i : Nat) : Fld := ⟨0x100 + 64 * i, 1, 0⟩
abbrev SEL.STS (i : Nat) : Fld := ⟨0x104 + 64 * i, 31, 0⟩
abbrev SEL.STS_PEND_K (i : Nat) : Fld := ⟨0x104 + 64 * i, 28, 24⟩
abbrev SEL.STS_SEL_K (i : Nat) : Fld := ⟨0x104 + 64 * i, 20, 16⟩
abbrev SEL.STS_CORR (i : Nat) : Fld := ⟨0x104 + 64 * i, 3, 3⟩
abbrev SEL.STS_STATE (i : Nat) : Fld := ⟨0x104 + 64 * i, 2, 0⟩
abbrev SEL.LOCK (i : Nat) : Fld := ⟨0x108 + 64 * i, 31, 0⟩
abbrev SEL.LOCK_TIME (i : Nat) : Fld := ⟨0x108 + 64 * i, 31, 16⟩
abbrev SEL.LOCK_THR (i : Nat) : Fld := ⟨0x108 + 64 * i, 15, 0⟩
abbrev SEL.CORR : Fld := ⟨0x180, 31, 0⟩
abbrev SEL.CORR_TIME : Fld := ⟨0x180, 15, 0⟩
abbrev SEL.PRI (i : Nat) : Fld := ⟨0x200 + 4 * i, 31, 0⟩
abbrev SEL.PRI_ROLE (i : Nat) : Fld := ⟨0x200 + 4 * i, 16, 16⟩
abbrev SEL.PRI_PRI_B (i : Nat) : Fld := ⟨0x200 + 4 * i, 11, 8⟩
abbrev SEL.PRI_PRI_A (i : Nat) : Fld := ⟨0x200 + 4 * i, 3, 0⟩
abbrev SEL.XLAST (i : Nat) : Fld := ⟨0x300 + 8 * i, 63, 0⟩
abbrev SEL.XLAST_X (i : Nat) : Fld := ⟨0x300 + 8 * i, 63, 0⟩

abbrev SVC.CTL : Fld := ⟨0x100, 31, 0⟩
abbrev SVC.CTL_RUN : Fld := ⟨0x100, 31, 31⟩
abbrev SVC.CTL_DAMP : Fld := ⟨0x100, 7, 0⟩
abbrev SVC.WDOG : Fld := ⟨0x104, 31, 0⟩
abbrev SVC.WDOG_TMO : Fld := ⟨0x104, 15, 8⟩
abbrev SVC.WDOG_HB : Fld := ⟨0x104, 7, 0⟩
abbrev SVC.BW (i : Nat) : Fld := ⟨0x110 + 4 * i, 31, 0⟩
abbrev SVC.BW_BW (i : Nat) : Fld := ⟨0x110 + 4 * i, 23, 0⟩
abbrev SVC.XHAT : Fld := ⟨0x200, 63, 0⟩
abbrev SVC.XHAT_X : Fld := ⟨0x200, 63, 0⟩
abbrev SVC.YINT : Fld := ⟨0x208, 63, 0⟩
abbrev SVC.YINT_Y : Fld := ⟨0x208, 63, 0⟩
abbrev SVC.SIGX : Fld := ⟨0x210, 31, 0⟩
abbrev SVC.SIGX_SIGX : Fld := ⟨0x210, 31, 0⟩
abbrev SVC.UY : Fld := ⟨0x214, 31, 0⟩
abbrev SVC.UY_UY : Fld := ⟨0x214, 31, 0⟩
abbrev SVC.TAU : Fld := ⟨0x218, 31, 0⟩
abbrev SVC.TAU_TAU : Fld := ⟨0x218, 31, 0⟩
abbrev SVC.LAST : Fld := ⟨0x220, 63, 0⟩
abbrev SVC.LAST_MEC : Fld := ⟨0x220, 63, 0⟩
abbrev SVC.STS : Fld := ⟨0x228, 31, 0⟩
abbrev SVC.STS_FW_VER : Fld := ⟨0x228, 31, 24⟩
abbrev SVC.STS_REF_K : Fld := ⟨0x228, 12, 8⟩
abbrev SVC.STS_WDOG : Fld := ⟨0x228, 7, 7⟩
abbrev SVC.STS_CLAMP : Fld := ⟨0x228, 6, 6⟩
abbrev SVC.STS_BW_T : Fld := ⟨0x228, 5, 3⟩
abbrev SVC.STS_LOOP : Fld := ⟨0x228, 2, 0⟩

abbrev HLD.RIPEN (i : Nat) : Fld := ⟨0x100 + 128 * i, 31, 0⟩
abbrev HLD.RIPEN_WIN (i : Nat) : Fld := ⟨0x100 + 128 * i, 16, 0⟩
abbrev HLD.GUARD (i : Nat) : Fld := ⟨0x104 + 128 * i, 31, 0⟩
abbrev HLD.GUARD_GUARD (i : Nat) : Fld := ⟨0x104 + 128 * i, 13, 0⟩
abbrev HLD.CTL (i : Nat) : Fld := ⟨0x108 + 128 * i, 31, 0⟩
abbrev HLD.CTL_FILL_MIN (i : Nat) : Fld := ⟨0x108 + 128 * i, 15, 8⟩
abbrev HLD.CTL_AID (i : Nat) : Fld := ⟨0x108 + 128 * i, 1, 0⟩
abbrev HLD.STS (i : Nat) : Fld := ⟨0x10C + 128 * i, 31, 0⟩
abbrev HLD.STS_FILL (i : Nat) : Fld := ⟨0x10C + 128 * i, 31, 24⟩
abbrev HLD.STS_HW_ENTRY (i : Nat) : Fld := ⟨0x10C + 128 * i, 2, 2⟩
abbrev HLD.STS_AIDED (i : Nat) : Fld := ⟨0x10C + 128 * i, 1, 1⟩
abbrev HLD.STS_ACTIVE (i : Nat) : Fld := ⟨0x10C + 128 * i, 0, 0⟩
abbrev HLD.AVG (i : Nat) : Fld := ⟨0x110 + 128 * i, 63, 0⟩
abbrev HLD.AVG_AVG (i : Nat) : Fld := ⟨0x110 + 128 * i, 63, 0⟩
abbrev HLD.F (i : Nat) : Fld := ⟨0x118 + 128 * i, 31, 0⟩
abbrev HLD.F_F (i : Nat) : Fld := ⟨0x118 + 128 * i, 31, 0⟩
abbrev HLD.SIG (i : Nat) : Fld := ⟨0x11C + 128 * i, 31, 0⟩
abbrev HLD.SIG_SIG (i : Nat) : Fld := ⟨0x11C + 128 * i, 31, 0⟩
abbrev HLD.T0 (i : Nat) : Fld := ⟨0x120 + 128 * i, 63, 0⟩
abbrev HLD.T0_T0 (i : Nat) : Fld := ⟨0x120 + 128 * i, 63, 0⟩
abbrev HLD.BLOCK (i : Nat) : Fld := ⟨0x128 + 128 * i, 31, 0⟩
abbrev HLD.BLOCK_BLOCK (i : Nat) : Fld := ⟨0x128 + 128 * i, 31, 0⟩
abbrev HLD.F0 (i : Nat) : Fld := ⟨0x400 + 16 * i, 31, 0⟩
abbrev HLD.F0_F0 (i : Nat) : Fld := ⟨0x400 + 16 * i, 31, 0⟩
abbrev HLD.D (i : Nat) : Fld := ⟨0x404 + 16 * i, 31, 0⟩
abbrev HLD.D_D (i : Nat) : Fld := ⟨0x404 + 16 * i, 31, 0⟩
abbrev HLD.W (i : Nat) : Fld := ⟨0x408 + 16 * i, 31, 0⟩
abbrev HLD.W_W (i : Nat) : Fld := ⟨0x408 + 16 * i, 31, 0⟩
abbrev HLD.FNOFILL : Fld := ⟨0x440, 31, 0⟩
abbrev HLD.FNOFILL_FNOFILL : Fld := ⟨0x440, 31, 0⟩

abbrev GNSS0.CTL : Fld := ⟨0x200, 31, 0⟩
abbrev GNSS0.CTL_EN : Fld := ⟨0x200, 31, 31⟩
abbrev GNSS0.CTL_FALLBACK : Fld := ⟨0x200, 16, 16⟩
abbrev GNSS0.CTL_TREF : Fld := ⟨0x200, 13, 12⟩
abbrev GNSS0.CTL_SYS : Fld := ⟨0x200, 10, 8⟩
abbrev GNSS0.CTL_MODE : Fld := ⟨0x200, 1, 0⟩
abbrev GNSS0.STS : Fld := ⟨0x204, 31, 0⟩
abbrev GNSS0.STS_FBK : Fld := ⟨0x204, 29, 29⟩
abbrev GNSS0.STS_ALARM : Fld := ⟨0x204, 28, 24⟩
abbrev GNSS0.STS_NSV_USED : Fld := ⟨0x204, 23, 16⟩
abbrev GNSS0.STS_NSV_TRK : Fld := ⟨0x204, 15, 8⟩
abbrev GNSS0.STS_UNMON : Fld := ⟨0x204, 7, 7⟩
abbrev GNSS0.STS_SOL : Fld := ⟨0x204, 6, 6⟩
abbrev GNSS0.STS_START : Fld := ⟨0x204, 5, 3⟩
abbrev GNSS0.STS_STATE : Fld := ⟨0x204, 2, 0⟩
abbrev GNSS0.TSOL_X : Fld := ⟨0x210, 63, 0⟩
abbrev GNSS0.TSOL_X_X : Fld := ⟨0x210, 63, 0⟩
abbrev GNSS0.TSOL_SEC : Fld := ⟨0x218, 63, 0⟩
abbrev GNSS0.TSOL_SEC_SEC : Fld := ⟨0x218, 47, 0⟩
abbrev GNSS0.TSOL_GT : Fld := ⟨0x220, 31, 0⟩
abbrev GNSS0.TSOL_GT_SIGCLK : Fld := ⟨0x220, 31, 16⟩
abbrev GNSS0.TSOL_GT_GT : Fld := ⟨0x220, 15, 0⟩
abbrev GNSS0.TSOL_GT1 : Fld := ⟨0x224, 31, 0⟩
abbrev GNSS0.TSOL_GT1_UPOS : Fld := ⟨0x224, 31, 16⟩
abbrev GNSS0.TSOL_GT1_UIONO : Fld := ⟨0x224, 15, 0⟩
abbrev GNSS0.IONO_UNC : Fld := ⟨0x228, 31, 0⟩
abbrev GNSS0.IONO_UNC_CODE : Fld := ⟨0x228, 15, 0⟩
abbrev GNSS0.ALM_CTL : Fld := ⟨0x230, 31, 0⟩
abbrev GNSS0.ALM_CTL_CLR : Fld := ⟨0x230, 15, 0⟩
abbrev GNSS0.UTC_STS : Fld := ⟨0x240, 31, 0⟩
abbrev GNSS0.UTC_STS_VALID : Fld := ⟨0x240, 31, 31⟩
abbrev GNSS0.UTC_STS_LEAP : Fld := ⟨0x240, 25, 24⟩
abbrev GNSS0.UTC_STS_OFFSET : Fld := ⟨0x240, 15, 0⟩
abbrev GNSS0.UTC_AT : Fld := ⟨0x248, 63, 0⟩
abbrev GNSS0.UTC_AT_SEC : Fld := ⟨0x248, 63, 0⟩

abbrev GNSS1.RF_CTL : Fld := ⟨0x100, 31, 0⟩
abbrev GNSS1.RF_CTL_BIAS_MAX : Fld := ⟨0x100, 15, 8⟩
abbrev GNSS1.RF_CTL_BIAS_MIN : Fld := ⟨0x100, 7, 0⟩
abbrev GNSS1.BIAS_STS : Fld := ⟨0x104, 31, 0⟩
abbrev GNSS1.BIAS_STS_GNB : Fld := ⟨0x104, 31, 16⟩
abbrev GNSS1.BIAS_STS_GNA : Fld := ⟨0x104, 15, 0⟩
abbrev GNSS1.AGC_STS : Fld := ⟨0x108, 31, 0⟩
abbrev GNSS1.AGC_STS_GAIN_B : Fld := ⟨0x108, 15, 8⟩
abbrev GNSS1.AGC_STS_GAIN_A : Fld := ⟨0x108, 7, 0⟩
abbrev GNSS1.AGC_THR : Fld := ⟨0x10C, 31, 0⟩
abbrev GNSS1.AGC_THR_LOW_B : Fld := ⟨0x10C, 15, 8⟩
abbrev GNSS1.AGC_THR_LOW_A : Fld := ⟨0x10C, 7, 0⟩
abbrev GNSS1.CAL_IB : Fld := ⟨0x110, 31, 0⟩
abbrev GNSS1.CAL_IB_IB : Fld := ⟨0x110, 31, 0⟩
abbrev GNSS1.CAL_UNC : Fld := ⟨0x114, 31, 0⟩
abbrev GNSS1.CAL_UNC_UIB : Fld := ⟨0x114, 31, 16⟩
abbrev GNSS1.CAL_UNC_UCAL : Fld := ⟨0x114, 15, 0⟩
abbrev GNSS1.ANT_DLY : Fld := ⟨0x118, 31, 0⟩
abbrev GNSS1.ANT_DLY_DLY : Fld := ⟨0x118, 31, 0⟩

abbrev GNSS2.ACQ_CTL : Fld := ⟨0x100, 31, 0⟩
abbrev GNSS2.ACQ_CTL_NC : Fld := ⟨0x100, 31, 24⟩
abbrev GNSS2.ACQ_CTL_DOPP : Fld := ⟨0x100, 15, 0⟩
abbrev GNSS2.ACQ_OSC : Fld := ⟨0x104, 31, 0⟩
abbrev GNSS2.ACQ_OSC_OSC_UNC : Fld := ⟨0x104, 15, 0⟩
abbrev GNSS2.ACQ_STS : Fld := ⟨0x108, 31, 0⟩
abbrev GNSS2.ACQ_STS_DENY : Fld := ⟨0x108, 31, 16⟩
abbrev GNSS2.ACQ_STS_BUSY : Fld := ⟨0x108, 7, 0⟩

abbrev GNSS3.CH_IDX : Fld := ⟨0x100, 31, 0⟩
abbrev GNSS3.CH_IDX_IDX : Fld := ⟨0x100, 6, 0⟩
abbrev GNSS3.CH_STS : Fld := ⟨0x104, 31, 0⟩
abbrev GNSS3.CH_STS_SYS : Fld := ⟨0x104, 31, 30⟩
abbrev GNSS3.CH_STS_SVID : Fld := ⟨0x104, 29, 24⟩
abbrev GNSS3.CH_STS_CN0_B : Fld := ⟨0x104, 23, 16⟩
abbrev GNSS3.CH_STS_CN0_A : Fld := ⟨0x104, 15, 8⟩
abbrev GNSS3.CH_STS_EXCL : Fld := ⟨0x104, 7, 4⟩
abbrev GNSS3.CH_STS_USED : Fld := ⟨0x104, 3, 3⟩
abbrev GNSS3.CH_STS_TRK_B : Fld := ⟨0x104, 2, 2⟩
abbrev GNSS3.CH_STS_TRK_A : Fld := ⟨0x104, 1, 1⟩

abbrev GNSS4.POS_CTL : Fld := ⟨0x100, 31, 0⟩
abbrev GNSS4.POS_CTL_MODE : Fld := ⟨0x100, 31, 30⟩
abbrev GNSS4.POS_CTL_ELEV : Fld := ⟨0x100, 24, 17⟩
abbrev GNSS4.POS_CTL_SURVEY : Fld := ⟨0x100, 16, 0⟩
abbrev GNSS4.POS_X : Fld := ⟨0x104, 31, 0⟩
abbrev GNSS4.POS_X_POS : Fld := ⟨0x104, 31, 0⟩
abbrev GNSS4.POS_Y : Fld := ⟨0x108, 31, 0⟩
abbrev GNSS4.POS_Y_POS : Fld := ⟨0x108, 31, 0⟩
abbrev GNSS4.POS_Z : Fld := ⟨0x10C, 31, 0⟩
abbrev GNSS4.POS_Z_POS : Fld := ⟨0x10C, 31, 0⟩
abbrev GNSS4.POS_UNC : Fld := ⟨0x110, 31, 0⟩
abbrev GNSS4.POS_UNC_UNC : Fld := ⟨0x110, 15, 0⟩
abbrev GNSS4.POS_DISC : Fld := ⟨0x114, 31, 0⟩
abbrev GNSS4.POS_DISC_COUNT : Fld := ⟨0x114, 31, 0⟩
abbrev GNSS4.RAIM_CTL : Fld := ⟨0x120, 31, 0⟩
abbrev GNSS4.RAIM_CTL_REQ : Fld := ⟨0x120, 31, 31⟩
abbrev GNSS4.RAIM_CTL_MAX_EXCL : Fld := ⟨0x120, 23, 16⟩
abbrev GNSS4.RAIM_CTL_THR : Fld := ⟨0x120, 15, 0⟩
abbrev GNSS4.RAIM_HOLD : Fld := ⟨0x124, 31, 0⟩
abbrev GNSS4.RAIM_HOLD_HOLD : Fld := ⟨0x124, 15, 0⟩
abbrev GNSS4.RAIM_STS : Fld := ⟨0x128, 31, 0⟩
abbrev GNSS4.RAIM_STS_EXCL : Fld := ⟨0x128, 23, 16⟩
abbrev GNSS4.RAIM_STS_RDN : Fld := ⟨0x128, 15, 8⟩
abbrev GNSS4.RAIM_STS_NSYS : Fld := ⟨0x128, 7, 0⟩

abbrev GNSS5.SPF_CTL : Fld := ⟨0x100, 31, 0⟩
abbrev GNSS5.SPF_CTL_EN : Fld := ⟨0x100, 3, 0⟩
abbrev GNSS5.SPF_CN0 : Fld := ⟨0x104, 31, 0⟩
abbrev GNSS5.SPF_CN0_CN0_MAX : Fld := ⟨0x104, 15, 8⟩
abbrev GNSS5.SPF_CN0_SD_MIN : Fld := ⟨0x104, 7, 0⟩
abbrev GNSS5.SPF_IB : Fld := ⟨0x108, 31, 0⟩
abbrev GNSS5.SPF_IB_DMAX : Fld := ⟨0x108, 31, 16⟩
abbrev GNSS5.SPF_IB_DMIN : Fld := ⟨0x108, 15, 0⟩
abbrev GNSS5.SPF_NSV : Fld := ⟨0x10C, 31, 0⟩
abbrev GNSS5.SPF_NSV_NSV_FAIL : Fld := ⟨0x10C, 7, 0⟩
abbrev GNSS5.SPF_CJ : Fld := ⟨0x110, 31, 0⟩
abbrev GNSS5.SPF_CJ_WIN : Fld := ⟨0x110, 31, 16⟩
abbrev GNSS5.SPF_CJ_THR : Fld := ⟨0x110, 15, 0⟩

abbrev GNSS6.CAVE_CTL : Fld := ⟨0x100, 31, 0⟩
abbrev GNSS6.CAVE_CTL_EN : Fld := ⟨0x100, 31, 31⟩
abbrev GNSS6.CAVE_CTL_AWAKE : Fld := ⟨0x100, 30, 16⟩
abbrev GNSS6.CAVE_CTL_SLEEP : Fld := ⟨0x100, 15, 0⟩
abbrev GNSS6.KEPT_STS : Fld := ⟨0x104, 31, 0⟩
abbrev GNSS6.KEPT_STS_AGE : Fld := ⟨0x104, 31, 16⟩
abbrev GNSS6.KEPT_STS_NEPH : Fld := ⟨0x104, 15, 8⟩
abbrev GNSS6.KEPT_STS_POS : Fld := ⟨0x104, 1, 1⟩
abbrev GNSS6.KEPT_STS_ALM : Fld := ⟨0x104, 0, 0⟩
abbrev GNSS6.KEPT_CMD : Fld := ⟨0x108, 31, 0⟩
abbrev GNSS6.KEPT_CMD_OP : Fld := ⟨0x108, 1, 0⟩

abbrev SYN.CTL : Fld := ⟨0x100, 31, 0⟩
abbrev SYN.CTL_EN : Fld := ⟨0x100, 31, 31⟩
abbrev SYN.CTL_CLASS : Fld := ⟨0x100, 30, 30⟩
abbrev SYN.CTL_MODE : Fld := ⟨0x100, 29, 28⟩
abbrev SYN.CTL_UNLOCK_ACT : Fld := ⟨0x100, 27, 26⟩
abbrev SYN.REF_CTL : Fld := ⟨0x104, 31, 0⟩
abbrev SYN.REF_CTL_SRC : Fld := ⟨0x104, 31, 28⟩
abbrev SYN.REF_CTL_SCALE : Fld := ⟨0x104, 27, 26⟩
abbrev SYN.REF_CTL_TOL : Fld := ⟨0x104, 7, 0⟩
abbrev SYN.FREQ_INT : Fld := ⟨0x108, 31, 0⟩
abbrev SYN.FREQ_INT_NINT : Fld := ⟨0x108, 10, 0⟩
abbrev SYN.FREQ_FRAC : Fld := ⟨0x110, 63, 0⟩
abbrev SYN.FREQ_FRAC_NFRAC : Fld := ⟨0x110, 39, 0⟩
abbrev SYN.LOCK_CTL : Fld := ⟨0x118, 31, 0⟩
abbrev SYN.LOCK_CTL_LOCK_N : Fld := ⟨0x118, 31, 24⟩
abbrev SYN.LOCK_CTL_UNLOCK_TOL : Fld := ⟨0x118, 23, 16⟩
abbrev SYN.LOCK_CTL_LOCK_TOL : Fld := ⟨0x118, 15, 8⟩
abbrev SYN.LOCK_CTL_GATE : Fld := ⟨0x118, 4, 0⟩
abbrev SYN.DPLL : Fld := ⟨0x11C, 31, 0⟩
abbrev SYN.DPLL_BW : Fld := ⟨0x11C, 9, 0⟩
abbrev SYN.PSLEW : Fld := ⟨0x120, 31, 0⟩
abbrev SYN.PSLEW_RATE : Fld := ⟨0x120, 16, 0⟩
abbrev SYN.SS_CTL : Fld := ⟨0x124, 31, 0⟩
abbrev SYN.SS_CTL_SS_EN : Fld := ⟨0x124, 31, 31⟩
abbrev SYN.SS_CTL_CENTER : Fld := ⟨0x124, 30, 30⟩
abbrev SYN.SS_CTL_FMOD : Fld := ⟨0x124, 21, 16⟩
abbrev SYN.SS_CTL_DEPTH : Fld := ⟨0x124, 5, 0⟩
abbrev SYN.CMD : Fld := ⟨0x128, 31, 0⟩
abbrev SYN.CMD_OP : Fld := ⟨0x128, 2, 0⟩
abbrev SYN.TEST : Fld := ⟨0x12C, 31, 0⟩
abbrev SYN.TEST_TUNE : Fld := ⟨0x12C, 31, 16⟩
abbrev SYN.TEST_BAND : Fld := ⟨0x12C, 4, 0⟩
abbrev SYN.STS : Fld := ⟨0x130, 31, 0⟩
abbrev SYN.STS_CAUSE : Fld := ⟨0x130, 27, 24⟩
abbrev SYN.STS_BAND_SEL : Fld := ⟨0x130, 23, 19⟩
abbrev SYN.STS_SS_REFUSED : Fld := ⟨0x130, 18, 18⟩
abbrev SYN.STS_SCALE_PEND : Fld := ⟨0x130, 17, 17⟩
abbrev SYN.STS_ALIGNED : Fld := ⟨0x130, 16, 16⟩
abbrev SYN.STS_STATE : Fld := ⟨0x130, 2, 0⟩
abbrev SYN.PERR : Fld := ⟨0x138, 63, 0⟩
abbrev SYN.PERR_E : Fld := ⟨0x138, 63, 0⟩
abbrev SYN.NEFF : Fld := ⟨0x140, 63, 0⟩
abbrev SYN.NEFF_NINT : Fld := ⟨0x140, 50, 40⟩
abbrev SYN.NEFF_NFRAC : Fld := ⟨0x140, 39, 0⟩
abbrev SYN.CNTERR : Fld := ⟨0x148, 31, 0⟩
abbrev SYN.CNTERR_DIFF : Fld := ⟨0x148, 31, 0⟩
abbrev SYN.BAND (i : Nat) : Fld := ⟨0x400 + 4 * i, 31, 0⟩
abbrev SYN.BAND_FMAX (i : Nat) : Fld := ⟨0x400 + 4 * i, 31, 16⟩
abbrev SYN.BAND_FMIN (i : Nat) : Fld := ⟨0x400 + 4 * i, 15, 0⟩

abbrev CKO.CTL (i : Nat) : Fld := ⟨0x80 + 256 * i, 31, 0⟩
abbrev CKO.CTL_EN (i : Nat) : Fld := ⟨0x80 + 256 * i, 31, 31⟩
abbrev CKO.CTL_CLAIM (i : Nat) : Fld := ⟨0x80 + 256 * i, 30, 30⟩
abbrev CKO.CTL_STOP_LVL (i : Nat) : Fld := ⟨0x80 + 256 * i, 29, 28⟩
abbrev CKO.CTL_SRC (i : Nat) : Fld := ⟨0x80 + 256 * i, 25, 24⟩
abbrev CKO.CTL_FMT (i : Nat) : Fld := ⟨0x80 + 256 * i, 2, 0⟩
abbrev CKO.DIV (i : Nat) : Fld := ⟨0x84 + 256 * i, 31, 0⟩
abbrev CKO.DIV_DIV (i : Nat) : Fld := ⟨0x84 + 256 * i, 19, 0⟩
abbrev CKO.DRV (i : Nat) : Fld := ⟨0x88 + 256 * i, 31, 0⟩
abbrev CKO.DRV_SWING (i : Nat) : Fld := ⟨0x88 + 256 * i, 6, 4⟩
abbrev CKO.DRV_SLEW (i : Nat) : Fld := ⟨0x88 + 256 * i, 1, 0⟩
abbrev CKO.PHASE (i : Nat) : Fld := ⟨0x8C + 256 * i, 31, 0⟩
abbrev CKO.PHASE_PH (i : Nat) : Fld := ⟨0x8C + 256 * i, 19, 0⟩
abbrev CKO.DLY (i : Nat) : Fld := ⟨0x90 + 256 * i, 31, 0⟩
abbrev CKO.DLY_DLY (i : Nat) : Fld := ⟨0x90 + 256 * i, 31, 0⟩
abbrev CKO.STS (i : Nat) : Fld := ⟨0x94 + 256 * i, 31, 0⟩
abbrev CKO.STS_RUNNING (i : Nat) : Fld := ⟨0x94 + 256 * i, 31, 31⟩
abbrev CKO.STS_HELD (i : Nat) : Fld := ⟨0x94 + 256 * i, 30, 30⟩
abbrev CKO.STS_HELD_CAUSE (i : Nat) : Fld := ⟨0x94 + 256 * i, 29, 27⟩
abbrev CKO.STS_PH_CUR (i : Nat) : Fld := ⟨0x94 + 256 * i, 19, 0⟩

abbrev TDC.CTL : Fld := ⟨0x100, 31, 0⟩
abbrev TDC.CTL_EN : Fld := ⟨0x100, 31, 31⟩
abbrev TDC.CTL_TS : Fld := ⟨0x100, 30, 30⟩
abbrev TDC.CTL_DEST : Fld := ⟨0x100, 29, 28⟩
abbrev TDC.CTL_EDGE : Fld := ⟨0x100, 27, 26⟩
abbrev TDC.CTL_MODE : Fld := ⟨0x100, 25, 24⟩
abbrev TDC.CTL_DECIM : Fld := ⟨0x100, 15, 0⟩
abbrev TDC.MUX : Fld := ⟨0x104, 31, 0⟩
abbrev TDC.MUX_SRC : Fld := ⟨0x104, 6, 0⟩
abbrev TDC.CMD : Fld := ⟨0x108, 31, 0⟩
abbrev TDC.CMD_OP : Fld := ⟨0x108, 1, 0⟩
abbrev TDC.STS : Fld := ⟨0x10C, 31, 0⟩
abbrev TDC.STS_STATE : Fld := ⟨0x10C, 31, 30⟩
abbrev TDC.STS_DEGRADED : Fld := ⟨0x10C, 29, 29⟩
abbrev TDC.STS_FVALID : Fld := ⟨0x10C, 28, 28⟩
abbrev TDC.STS_ARMED : Fld := ⟨0x10C, 27, 27⟩
abbrev TDC.STS_Q_LVL : Fld := ⟨0x10C, 8, 0⟩
abbrev TDC.Q_TIME : Fld := ⟨0x110, 95, 0⟩
abbrev TDC.Q_TIME_TIME : Fld := ⟨0x110, 95, 0⟩
abbrev TDC.Q_TAG : Fld := ⟨0x11C, 31, 0⟩
abbrev TDC.Q_TAG_VALID : Fld := ⟨0x11C, 31, 31⟩
abbrev TDC.Q_TAG_GAP : Fld := ⟨0x11C, 30, 30⟩
abbrev TDC.Q_TAG_COLLIDE : Fld := ⟨0x11C, 29, 29⟩
abbrev TDC.Q_TAG_EDGE : Fld := ⟨0x11C, 28, 28⟩
abbrev TDC.Q_TAG_TS : Fld := ⟨0x11C, 27, 27⟩
abbrev TDC.Q_TAG_SRC : Fld := ⟨0x11C, 22, 16⟩
abbrev TDC.Q_TAG_BOUND : Fld := ⟨0x11C, 15, 0⟩
abbrev TDC.Q_POP : Fld := ⟨0x120, 31, 0⟩
abbrev TDC.Q_POP_POP : Fld := ⟨0x120, 0, 0⟩
abbrev TDC.NOM : Fld := ⟨0x124, 31, 0⟩
abbrev TDC.NOM_HZ : Fld := ⟨0x124, 31, 0⟩
abbrev TDC.OVF : Fld := ⟨0x128, 31, 0⟩
abbrev TDC.OVF_COUNT : Fld := ⟨0x128, 31, 0⟩
abbrev TDC.DEAD : Fld := ⟨0x12C, 31, 0⟩
abbrev TDC.DEAD_COUNT : Fld := ⟨0x12C, 31, 0⟩
abbrev TDC.COLL : Fld := ⟨0x130, 31, 0⟩
abbrev TDC.COLL_COUNT : Fld := ⟨0x130, 31, 0⟩
abbrev TDC.FREQ : Fld := ⟨0x138, 63, 0⟩
abbrev TDC.FREQ_Y : Fld := ⟨0x138, 63, 0⟩
abbrev TDC.EDGES : Fld := ⟨0x140, 31, 0⟩
abbrev TDC.EDGES_E : Fld := ⟨0x140, 31, 0⟩
abbrev TDC.SIGMA : Fld := ⟨0x144, 31, 0⟩
abbrev TDC.SIGMA_SIG : Fld := ⟨0x144, 31, 0⟩
abbrev TDC.ZERO : Fld := ⟨0x148, 31, 0⟩
abbrev TDC.ZERO_Z : Fld := ⟨0x148, 31, 0⟩
abbrev TDC.OVL_DIFF : Fld := ⟨0x14C, 31, 0⟩
abbrev TDC.OVL_DIFF_DIFF : Fld := ⟨0x14C, 31, 0⟩
abbrev TDC.CAL_AGE : Fld := ⟨0x150, 31, 0⟩
abbrev TDC.CAL_AGE_AGE : Fld := ⟨0x150, 31, 0⟩
abbrev TDC.STR_BASE : Fld := ⟨0x180, 63, 0⟩
abbrev TDC.STR_BASE_BASE : Fld := ⟨0x180, 63, 12⟩
abbrev TDC.STR_SIZE : Fld := ⟨0x188, 31, 0⟩
abbrev TDC.STR_SIZE_SZ : Fld := ⟨0x188, 4, 0⟩
abbrev TDC.STR_WP : Fld := ⟨0x18C, 31, 0⟩
abbrev TDC.STR_WP_WP : Fld := ⟨0x18C, 23, 0⟩
abbrev TDC.STR_RP : Fld := ⟨0x190, 31, 0⟩
abbrev TDC.STR_RP_RP : Fld := ⟨0x190, 23, 0⟩
abbrev TDC.STR_DROP : Fld := ⟨0x194, 31, 0⟩
abbrev TDC.STR_DROP_DISC : Fld := ⟨0x194, 31, 24⟩
abbrev TDC.STR_DROP_DROP : Fld := ⟨0x194, 23, 0⟩

abbrev TDCCAL.ROT_CTL : Fld := ⟨0x100, 31, 0⟩
abbrev TDCCAL.ROT_CTL_EN : Fld := ⟨0x100, 31, 31⟩
abbrev TDCCAL.ROT_CTL_TEMP_STEP : Fld := ⟨0x100, 23, 16⟩
abbrev TDCCAL.ROT_CTL_PERIOD : Fld := ⟨0x100, 15, 0⟩
abbrev TDCCAL.ROT_STS : Fld := ⟨0x104, 31, 0⟩
abbrev TDCCAL.ROT_STS_PERM : Fld := ⟨0x104, 12, 8⟩
abbrev TDCCAL.ROT_STS_PHASE : Fld := ⟨0x104, 7, 5⟩
abbrev TDCCAL.ROT_STS_CUR : Fld := ⟨0x104, 4, 0⟩
abbrev TDCCAL.CAL_CMD : Fld := ⟨0x108, 31, 0⟩
abbrev TDCCAL.CAL_CMD_UNIT : Fld := ⟨0x108, 12, 8⟩
abbrev TDCCAL.CAL_CMD_OP : Fld := ⟨0x108, 1, 0⟩
abbrev TDCCAL.CAL_LIM : Fld := ⟨0x10C, 31, 0⟩
abbrev TDCCAL.CAL_LIM_SIG_RET : Fld := ⟨0x10C, 31, 16⟩
abbrev TDCCAL.CAL_LIM_SIG_DEG : Fld := ⟨0x10C, 15, 0⟩
abbrev TDCCAL.CAL_IDX : Fld := ⟨0x110, 31, 0⟩
abbrev TDCCAL.CAL_IDX_UNIT : Fld := ⟨0x110, 20, 16⟩
abbrev TDCCAL.CAL_IDX_BIN : Fld := ⟨0x110, 9, 0⟩
abbrev TDCCAL.CAL_ENT : Fld := ⟨0x114, 31, 0⟩
abbrev TDCCAL.CAL_ENT_WIDTH : Fld := ⟨0x114, 31, 24⟩
abbrev TDCCAL.CAL_ENT_CENTRE : Fld := ⟨0x114, 23, 0⟩
abbrev TDCCAL.CAL_CNT : Fld := ⟨0x118, 31, 0⟩
abbrev TDCCAL.CAL_CNT_N : Fld := ⟨0x118, 31, 0⟩
abbrev TDCCAL.PROBE_CTL : Fld := ⟨0x11C, 31, 0⟩
abbrev TDCCAL.PROBE_CTL_DISC : Fld := ⟨0x11C, 31, 8⟩
abbrev TDCCAL.PROBE_CTL_CH : Fld := ⟨0x11C, 3, 0⟩
abbrev TDCCAL.MCLK_STS : Fld := ⟨0x120, 31, 0⟩
abbrev TDCCAL.MCLK_STS_LOCK : Fld := ⟨0x120, 31, 31⟩
abbrev TDCCAL.MCLK_STS_UNLOCKS : Fld := ⟨0x120, 30, 0⟩
abbrev TDCCAL.SPARE_SIGMA : Fld := ⟨0x124, 31, 0⟩
abbrev TDCCAL.SPARE_SIGMA_SIG : Fld := ⟨0x124, 31, 0⟩
abbrev TDCCAL.STR_STS : Fld := ⟨0x128, 31, 0⟩
abbrev TDCCAL.STR_STS_DROP : Fld := ⟨0x128, 31, 0⟩

abbrev EVO.CTL (i : Nat) : Fld := ⟨0x100 + 64 * i, 31, 0⟩
abbrev EVO.CTL_EN (i : Nat) : Fld := ⟨0x100 + 64 * i, 31, 31⟩
abbrev EVO.CTL_MODE (i : Nat) : Fld := ⟨0x100 + 64 * i, 30, 29⟩
abbrev EVO.CTL_POL (i : Nat) : Fld := ⟨0x100 + 64 * i, 28, 28⟩
abbrev EVO.CTL_CLAIM (i : Nat) : Fld := ⟨0x100 + 64 * i, 27, 27⟩
abbrev EVO.CTL_BUS (i : Nat) : Fld := ⟨0x100 + 64 * i, 26, 26⟩
abbrev EVO.CMD (i : Nat) : Fld := ⟨0x104 + 64 * i, 31, 0⟩
abbrev EVO.CMD_OP (i : Nat) : Fld := ⟨0x104 + 64 * i, 1, 0⟩
abbrev EVO.START (i : Nat) : Fld := ⟨0x108 + 64 * i, 95, 0⟩
abbrev EVO.START_TIME (i : Nat) : Fld := ⟨0x108 + 64 * i, 93, 0⟩
abbrev EVO.PERIOD (i : Nat) : Fld := ⟨0x118 + 64 * i, 63, 0⟩
abbrev EVO.PERIOD_PERIOD (i : Nat) : Fld := ⟨0x118 + 64 * i, 63, 0⟩
abbrev EVO.WIDTH (i : Nat) : Fld := ⟨0x120 + 64 * i, 63, 0⟩
abbrev EVO.WIDTH_WIDTH (i : Nat) : Fld := ⟨0x120 + 64 * i, 63, 0⟩
abbrev EVO.COUNT (i : Nat) : Fld := ⟨0x128 + 64 * i, 31, 0⟩
abbrev EVO.COUNT_COUNT (i : Nat) : Fld := ⟨0x128 + 64 * i, 31, 0⟩
abbrev EVO.DLY (i : Nat) : Fld := ⟨0x12C + 64 * i, 31, 0⟩
abbrev EVO.DLY_DLY (i : Nat) : Fld := ⟨0x12C + 64 * i, 31, 0⟩
abbrev EVO.STS (i : Nat) : Fld := ⟨0x130 + 64 * i, 31, 0⟩
abbrev EVO.STS_BOUND (i : Nat) : Fld := ⟨0x130 + 64 * i, 31, 16⟩
abbrev EVO.STS_DRIVEN (i : Nat) : Fld := ⟨0x130 + 64 * i, 11, 11⟩
abbrev EVO.STS_RESULT (i : Nat) : Fld := ⟨0x130 + 64 * i, 7, 4⟩
abbrev EVO.STS_STATE (i : Nat) : Fld := ⟨0x130 + 64 * i, 1, 0⟩
abbrev EVO.NEXT (i : Nat) : Fld := ⟨0x134 + 64 * i, 95, 0⟩
abbrev EVO.NEXT_TIME (i : Nat) : Fld := ⟨0x134 + 64 * i, 93, 0⟩
abbrev EVO.SKIP (i : Nat) : Fld := ⟨0x500 + 4 * i, 31, 0⟩
abbrev EVO.SKIP_COUNT (i : Nat) : Fld := ⟨0x500 + 4 * i, 31, 0⟩
abbrev EVO.LEFT (i : Nat) : Fld := ⟨0x540 + 4 * i, 31, 0⟩
abbrev EVO.LEFT_COUNT (i : Nat) : Fld := ⟨0x540 + 4 * i, 31, 0⟩
abbrev EVO.TRUNC (i : Nat) : Fld := ⟨0x580 + 4 * i, 31, 0⟩
abbrev EVO.TRUNC_COUNT (i : Nat) : Fld := ⟨0x580 + 4 * i, 31, 0⟩

abbrev EVI.CTL (i : Nat) : Fld := ⟨0x100 + 16 * i, 31, 0⟩
abbrev EVI.CTL_EN (i : Nat) : Fld := ⟨0x100 + 16 * i, 31, 31⟩
abbrev EVI.CTL_THR (i : Nat) : Fld := ⟨0x100 + 16 * i, 23, 16⟩
abbrev EVI.CTL_GLITCH (i : Nat) : Fld := ⟨0x100 + 16 * i, 15, 8⟩
abbrev EVI.CTL_HOLDOFF (i : Nat) : Fld := ⟨0x100 + 16 * i, 7, 0⟩
abbrev EVI.CNT (i : Nat) : Fld := ⟨0x104 + 16 * i, 31, 0⟩
abbrev EVI.CNT_COUNT (i : Nat) : Fld := ⟨0x104 + 16 * i, 31, 0⟩
abbrev EVI.REJ (i : Nat) : Fld := ⟨0x108 + 16 * i, 31, 0⟩
abbrev EVI.REJ_COUNT (i : Nat) : Fld := ⟨0x108 + 16 * i, 31, 0⟩
abbrev EVI.LAST (i : Nat) : Fld := ⟨0x400 + 8 * i, 63, 0⟩
abbrev EVI.LAST_MEC (i : Nat) : Fld := ⟨0x400 + 8 * i, 63, 0⟩

abbrev PORT.STAT (i : Nat) : Fld := ⟨0x800 + 8 * i, 63, 0⟩
abbrev PORT.STAT_WRAPPED (i : Nat) : Fld := ⟨0x800 + 8 * i, 63, 63⟩
abbrev PORT.STAT_COUNT (i : Nat) : Fld := ⟨0x800 + 8 * i, 47, 0⟩
abbrev PORT.CTL : Fld := ⟨0x100, 31, 0⟩
abbrev PORT.CTL_EN : Fld := ⟨0x100, 31, 31⟩
abbrev PORT.CTL_AN_EN : Fld := ⟨0x100, 30, 30⟩
abbrev PORT.CTL_TRAIN_EN : Fld := ⟨0x100, 29, 29⟩
abbrev PORT.CTL_RATE : Fld := ⟨0x100, 26, 24⟩
abbrev PORT.CTL_FEC : Fld := ⟨0x100, 21, 20⟩
abbrev PORT.CTL_TX_POL : Fld := ⟨0x100, 17, 17⟩
abbrev PORT.CTL_RX_POL : Fld := ⟨0x100, 16, 16⟩
abbrev PORT.CTL_RX_PAUSE : Fld := ⟨0x100, 15, 15⟩
abbrev PORT.AN_ADV : Fld := ⟨0x104, 31, 0⟩
abbrev PORT.AN_ADV_REQ_RS : Fld := ⟨0x104, 9, 9⟩
abbrev PORT.AN_ADV_REQ_BASER : Fld := ⟨0x104, 8, 8⟩
abbrev PORT.AN_ADV_ABIL : Fld := ⟨0x104, 4, 0⟩
abbrev PORT.TRAIN : Fld := ⟨0x108, 31, 0⟩
abbrev PORT.TRAIN_TMO : Fld := ⟨0x108, 31, 16⟩
abbrev PORT.CMD : Fld := ⟨0x10C, 31, 0⟩
abbrev PORT.CMD_OP : Fld := ⟨0x10C, 2, 0⟩
abbrev PORT.STS : Fld := ⟨0x110, 31, 0⟩
abbrev PORT.STS_STATE : Fld := ⟨0x110, 30, 28⟩
abbrev PORT.STS_CAUSE : Fld := ⟨0x110, 27, 24⟩
abbrev PORT.STS_RATE : Fld := ⟨0x110, 22, 20⟩
abbrev PORT.STS_FEC : Fld := ⟨0x110, 19, 18⟩
abbrev PORT.STS_LP_AN : Fld := ⟨0x110, 17, 17⟩
abbrev PORT.STS_FLAPS : Fld := ⟨0x110, 15, 0⟩
abbrev PORT.FRAME : Fld := ⟨0x114, 31, 0⟩
abbrev PORT.FRAME_MAX_LEN : Fld := ⟨0x114, 13, 0⟩
abbrev PORT.PRE_CTL : Fld := ⟨0x118, 31, 0⟩
abbrev PORT.PRE_CTL_EN : Fld := ⟨0x118, 31, 31⟩
abbrev PORT.PRE_CTL_VERIFY_DIS : Fld := ⟨0x118, 30, 30⟩
abbrev PORT.PRE_CTL_EXP_GEN : Fld := ⟨0x118, 29, 29⟩
abbrev PORT.PRE_CTL_ADD_FRAG : Fld := ⟨0x118, 25, 24⟩
abbrev PORT.PRE_CTL_VERIFY_TIME : Fld := ⟨0x118, 7, 0⟩
abbrev PORT.PRE_STS : Fld := ⟨0x11C, 31, 0⟩
abbrev PORT.PRE_STS_VERIFY : Fld := ⟨0x11C, 2, 0⟩
abbrev PORT.LPI_CTL : Fld := ⟨0x120, 31, 0⟩
abbrev PORT.LPI_CTL_EN : Fld := ⟨0x120, 31, 31⟩
abbrev PORT.LPI_CTL_IDLE : Fld := ⟨0x120, 23, 16⟩
abbrev PORT.LPI_CTL_TW : Fld := ⟨0x120, 15, 0⟩
abbrev PORT.LPI_STS : Fld := ⟨0x124, 31, 0⟩
abbrev PORT.LPI_STS_TX_LPI : Fld := ⟨0x124, 31, 31⟩
abbrev PORT.LPI_STS_RX_LPI : Fld := ⟨0x124, 30, 30⟩
abbrev PORT.LPI_STS_REFUSED : Fld := ⟨0x124, 29, 29⟩
abbrev PORT.VLAN_CTL : Fld := ⟨0x128, 31, 0⟩
abbrev PORT.VLAN_CTL_EG_TAGS : Fld := ⟨0x128, 31, 30⟩
abbrev PORT.VLAN_CTL_DROP_TAGGED : Fld := ⟨0x128, 29, 29⟩
abbrev PORT.VLAN_CTL_DROP_UNTAGGED : Fld := ⟨0x128, 28, 28⟩
abbrev PORT.VLAN_TCI : Fld := ⟨0x12C, 31, 0⟩
abbrev PORT.VLAN_TCI_S_TCI : Fld := ⟨0x12C, 31, 16⟩
abbrev PORT.VLAN_TCI_C_TCI : Fld := ⟨0x12C, 15, 0⟩
abbrev PORT.MAC_ADDR : Fld := ⟨0x130, 63, 0⟩
abbrev PORT.MAC_ADDR_ADDR : Fld := ⟨0x130, 47, 0⟩
abbrev PORT.HOLD_MAX : Fld := ⟨0x138, 31, 0⟩
abbrev PORT.HOLD_MAX_NS : Fld := ⟨0x138, 31, 0⟩
abbrev PORT.HRX_BASE : Fld := ⟨0x180, 63, 0⟩
abbrev PORT.HRX_BASE_BASE : Fld := ⟨0x180, 63, 12⟩
abbrev PORT.HRX_CFG : Fld := ⟨0x188, 31, 0⟩
abbrev PORT.HRX_CFG_SLOT : Fld := ⟨0x188, 20, 16⟩
abbrev PORT.HRX_CFG_SZ : Fld := ⟨0x188, 4, 0⟩
abbrev PORT.HRX_WP : Fld := ⟨0x18C, 31, 0⟩
abbrev PORT.HRX_WP_WP : Fld := ⟨0x18C, 15, 0⟩
abbrev PORT.HRX_RP : Fld := ⟨0x190, 31, 0⟩
abbrev PORT.HRX_RP_RP : Fld := ⟨0x190, 15, 0⟩
abbrev PORT.HTX_BASE : Fld := ⟨0x198, 63, 0⟩
abbrev PORT.HTX_BASE_BASE : Fld := ⟨0x198, 63, 12⟩
abbrev PORT.HTX_CFG : Fld := ⟨0x1A0, 31, 0⟩
abbrev PORT.HTX_CFG_SZ : Fld := ⟨0x1A0, 4, 0⟩
abbrev PORT.HTX_WP : Fld := ⟨0x1A4, 31, 0⟩
abbrev PORT.HTX_WP_WP : Fld := ⟨0x1A4, 15, 0⟩
abbrev PORT.HTX_RP : Fld := ⟨0x1A8, 31, 0⟩
abbrev PORT.HTX_RP_RP : Fld := ⟨0x1A8, 15, 0⟩
abbrev PORT.HOST_RATE : Fld := ⟨0x1AC, 31, 0⟩
abbrev PORT.HOST_RATE_RATE : Fld := ⟨0x1AC, 31, 16⟩
abbrev PORT.HOST_RATE_BURST : Fld := ⟨0x1AC, 15, 0⟩
abbrev PORT.STAT_HALF0 : Fld := ⟨0x700, 31, 0⟩
abbrev PORT.STAT_HALF0_HALF : Fld := ⟨0x700, 31, 0⟩
abbrev PORT.STAT_HALF1 : Fld := ⟨0x704, 31, 0⟩
abbrev PORT.STAT_HALF1_HALF : Fld := ⟨0x704, 31, 0⟩

abbrev PC.CMD : Fld := ⟨0x100, 31, 0⟩
abbrev PC.CMD_OP : Fld := ⟨0x100, 1, 0⟩
abbrev PC.STS : Fld := ⟨0x104, 31, 0⟩
abbrev PC.STS_GRANTED : Fld := ⟨0x104, 31, 31⟩
abbrev PC.STS_UP : Fld := ⟨0x104, 3, 0⟩

abbrev PTS.CTL : Fld := ⟨0x100, 31, 0⟩
abbrev PTS.CTL_SLOT_EN : Fld := ⟨0x100, 31, 31⟩
abbrev PTS.CTL_PROBE_EN : Fld := ⟨0x100, 30, 30⟩
abbrev PTS.CTL_TEMP_STEP : Fld := ⟨0x100, 23, 16⟩
abbrev PTS.CTL_PERIOD : Fld := ⟨0x100, 15, 0⟩
abbrev PTS.CAL_PHASE : Fld := ⟨0x104, 31, 0⟩
abbrev PTS.CAL_PHASE_PHASE : Fld := ⟨0x104, 19, 0⟩
abbrev PTS.CMD : Fld := ⟨0x108, 31, 0⟩
abbrev PTS.CMD_OP : Fld := ⟨0x108, 1, 0⟩
abbrev PTS.ASYM : Fld := ⟨0x110, 31, 0⟩
abbrev PTS.ASYM_ASYM : Fld := ⟨0x110, 31, 0⟩
abbrev PTS.EXT_TX : Fld := ⟨0x114, 31, 0⟩
abbrev PTS.EXT_TX_DLY : Fld := ⟨0x114, 31, 0⟩
abbrev PTS.EXT_RX : Fld := ⟨0x118, 31, 0⟩
abbrev PTS.EXT_RX_DLY : Fld := ⟨0x118, 31, 0⟩
abbrev PTS.ASYM_UNC : Fld := ⟨0x11C, 31, 0⟩
abbrev PTS.ASYM_UNC_CODE : Fld := ⟨0x11C, 15, 0⟩
abbrev PTS.STS : Fld := ⟨0x120, 31, 0⟩
abbrev PTS.STS_CAL : Fld := ⟨0x120, 31, 30⟩
abbrev PTS.STS_SLOT : Fld := ⟨0x120, 29, 29⟩
abbrev PTS.STS_RATE : Fld := ⟨0x120, 26, 24⟩
abbrev PTS.STS_BPORT : Fld := ⟨0x120, 15, 0⟩
abbrev PTS.DRIFT : Fld := ⟨0x124, 31, 0⟩
abbrev PTS.DRIFT_UDRIFT : Fld := ⟨0x124, 31, 16⟩
abbrev PTS.DRIFT_TREF : Fld := ⟨0x124, 15, 0⟩
abbrev PTS.EPS_TX : Fld := ⟨0x128, 63, 0⟩
abbrev PTS.EPS_TX_EPS : Fld := ⟨0x128, 63, 0⟩
abbrev PTS.ARX : Fld := ⟨0x130, 63, 0⟩
abbrev PTS.ARX_ARX : Fld := ⟨0x130, 63, 0⟩
abbrev PTS.CAL_AGE : Fld := ⟨0x138, 31, 0⟩
abbrev PTS.CAL_AGE_AGE : Fld := ⟨0x138, 31, 0⟩
abbrev PTS.PROBE_AGE : Fld := ⟨0x13C, 31, 0⟩
abbrev PTS.PROBE_AGE_AGE : Fld := ⟨0x13C, 31, 0⟩
abbrev PTS.CAL_LOST : Fld := ⟨0x140, 31, 0⟩
abbrev PTS.CAL_LOST_COUNT : Fld := ⟨0x140, 31, 0⟩
abbrev PTS.LATE_DROP : Fld := ⟨0x144, 31, 0⟩
abbrev PTS.LATE_DROP_COUNT : Fld := ⟨0x144, 31, 0⟩
abbrev PTS.SLOT_CNT : Fld := ⟨0x148, 31, 0⟩
abbrev PTS.SLOT_CNT_COUNT : Fld := ⟨0x148, 31, 0⟩
abbrev PTS.CAL_ATX (i : Nat) : Fld := ⟨0x200 + 16 * i, 31, 0⟩
abbrev PTS.CAL_ATX_DLY (i : Nat) : Fld := ⟨0x200 + 16 * i, 31, 0⟩
abbrev PTS.CAL_ARX_F (i : Nat) : Fld := ⟨0x204 + 16 * i, 31, 0⟩
abbrev PTS.CAL_ARX_F_DLY (i : Nat) : Fld := ⟨0x204 + 16 * i, 31, 0⟩
abbrev PTS.CAL_LOOP (i : Nat) : Fld := ⟨0x208 + 16 * i, 31, 0⟩
abbrev PTS.CAL_LOOP_DLY (i : Nat) : Fld := ⟨0x208 + 16 * i, 31, 0⟩
abbrev PTS.CAL_TCO (i : Nat) : Fld := ⟨0x20C + 16 * i, 31, 0⟩
abbrev PTS.CAL_TCO_TCO (i : Nat) : Fld := ⟨0x20C + 16 * i, 31, 16⟩
abbrev PTS.CAL_TCO_UCAL (i : Nat) : Fld := ⟨0x20C + 16 * i, 15, 0⟩
abbrev PTS.Q_CLS : Fld := ⟨0x300, 31, 0⟩
abbrev PTS.Q_CLS_TX : Fld := ⟨0x300, 31, 16⟩
abbrev PTS.Q_CLS_RX : Fld := ⟨0x300, 15, 0⟩
abbrev PTS.Q_TIME : Fld := ⟨0x310, 95, 0⟩
abbrev PTS.Q_TIME_TIME : Fld := ⟨0x310, 95, 0⟩
abbrev PTS.Q_TAG : Fld := ⟨0x31C, 31, 0⟩
abbrev PTS.Q_TAG_VALID : Fld := ⟨0x31C, 31, 31⟩
abbrev PTS.Q_TAG_GAP : Fld := ⟨0x31C, 30, 30⟩
abbrev PTS.Q_TAG_DIR : Fld := ⟨0x31C, 29, 29⟩
abbrev PTS.Q_TAG_CLASS : Fld := ⟨0x31C, 28, 25⟩
abbrev PTS.Q_TAG_BOUND : Fld := ⟨0x31C, 15, 0⟩
abbrev PTS.Q_SEQ : Fld := ⟨0x320, 31, 0⟩
abbrev PTS.Q_SEQ_SEQ : Fld := ⟨0x320, 15, 0⟩
abbrev PTS.Q_POP : Fld := ⟨0x324, 31, 0⟩
abbrev PTS.Q_POP_POP : Fld := ⟨0x324, 0, 0⟩
abbrev PTS.Q_OVF : Fld := ⟨0x328, 31, 0⟩
abbrev PTS.Q_OVF_COUNT : Fld := ⟨0x328, 31, 0⟩

abbrev RSP0.CTL : Fld := ⟨0x100, 31, 0⟩
abbrev RSP0.CTL_EN : Fld := ⟨0x100, 31, 31⟩
abbrev RSP0.CTL_NR_NTP : Fld := ⟨0x100, 30, 30⟩
abbrev RSP0.STS : Fld := ⟨0x104, 31, 0⟩
abbrev RSP0.STS_NTS_KEY : Fld := ⟨0x104, 31, 31⟩
abbrev RSP0.STS_LANES : Fld := ⟨0x104, 20, 16⟩
abbrev RSP0.STS_PIPES : Fld := ⟨0x104, 7, 4⟩
abbrev RSP0.STS_READY_B : Fld := ⟨0x104, 1, 1⟩
abbrev RSP0.STS_READY_A : Fld := ⟨0x104, 0, 0⟩
abbrev RSP0.CLOCK_ID : Fld := ⟨0x108, 63, 0⟩
abbrev RSP0.CLOCK_ID_ID : Fld := ⟨0x108, 63, 0⟩
abbrev RSP0.SCHED : Fld := ⟨0x110, 31, 0⟩
abbrev RSP0.SCHED_LEAD : Fld := ⟨0x110, 7, 0⟩
abbrev RSP0.CMD : Fld := ⟨0x114, 31, 0⟩
abbrev RSP0.CMD_OP : Fld := ⟨0x114, 1, 0⟩

abbrev RSP1.CAP_STS : Fld := ⟨0x100, 31, 0⟩
abbrev RSP1.CAP_STS_CP : Fld := ⟨0x100, 31, 16⟩
abbrev RSP1.CAP_STS_CC : Fld := ⟨0x100, 15, 0⟩
abbrev RSP1.RES_STS : Fld := ⟨0x104, 31, 0⟩
abbrev RSP1.RES_STS_QC : Fld := ⟨0x104, 31, 16⟩
abbrev RSP1.RES_STS_QP : Fld := ⟨0x104, 15, 0⟩
abbrev RSP1.GRANT_CTL : Fld := ⟨0x108, 31, 0⟩
abbrev RSP1.GRANT_CTL_DUR_MAX : Fld := ⟨0x108, 15, 0⟩
abbrev RSP1.FB_CTL : Fld := ⟨0x10C, 31, 0⟩
abbrev RSP1.FB_CTL_IDLE : Fld := ⟨0x10C, 23, 16⟩
abbrev RSP1.FB_CTL_DEPTH : Fld := ⟨0x10C, 15, 0⟩
abbrev RSP1.FB_IDX : Fld := ⟨0x110, 31, 0⟩
abbrev RSP1.FB_IDX_B : Fld := ⟨0x110, 11, 0⟩
abbrev RSP1.FB_TOK : Fld := ⟨0x114, 31, 0⟩
abbrev RSP1.FB_TOK_CRYPTO : Fld := ⟨0x114, 31, 16⟩
abbrev RSP1.FB_TOK_PIPE : Fld := ⟨0x114, 15, 0⟩
abbrev RSP1.FB_DROP : Fld := ⟨0x118, 31, 0⟩
abbrev RSP1.FB_DROP_COUNT : Fld := ⟨0x118, 31, 0⟩
abbrev RSP1.OVL_STS : Fld := ⟨0x11C, 31, 0⟩
abbrev RSP1.OVL_STS_OVERLOAD : Fld := ⟨0x11C, 31, 31⟩
abbrev RSP1.OVL_STS_THROTTLED : Fld := ⟨0x11C, 30, 30⟩
abbrev RSP1.OVL_STS_RUN : Fld := ⟨0x11C, 29, 0⟩
abbrev RSP1.POL (i : Nat) : Fld := ⟨0x400 + 16 * i, 31, 0⟩
abbrev RSP1.POL_RATE (i : Nat) : Fld := ⟨0x400 + 16 * i, 31, 12⟩
abbrev RSP1.POL_BURST (i : Nat) : Fld := ⟨0x400 + 16 * i, 11, 0⟩

abbrev RSP2.DOM_CTL (i : Nat) : Fld := ⟨0x100 + 64 * i, 31, 0⟩
abbrev RSP2.DOM_CTL_EN (i : Nat) : Fld := ⟨0x100 + 64 * i, 31, 31⟩
abbrev RSP2.DOM_CTL_MCAST (i : Nat) : Fld := ⟨0x100 + 64 * i, 30, 30⟩
abbrev RSP2.DOM_CTL_UCAST (i : Nat) : Fld := ⟨0x100 + 64 * i, 29, 29⟩
abbrev RSP2.DOM_CTL_TWO_STEP (i : Nat) : Fld := ⟨0x100 + 64 * i, 28, 28⟩
abbrev RSP2.DOM_CTL_AUTH_REQ (i : Nat) : Fld := ⟨0x100 + 64 * i, 27, 27⟩
abbrev RSP2.DOM_CTL_OPEN (i : Nat) : Fld := ⟨0x100 + 64 * i, 26, 26⟩
abbrev RSP2.DOM_CTL_PROFILE (i : Nat) : Fld := ⟨0x100 + 64 * i, 25, 24⟩
abbrev RSP2.DOM_CTL_DOMAIN (i : Nat) : Fld := ⟨0x100 + 64 * i, 23, 16⟩
abbrev RSP2.DOM_CTL_TRANS (i : Nat) : Fld := ⟨0x100 + 64 * i, 10, 8⟩
abbrev RSP2.DOM_CTL_KEY_SLOT (i : Nat) : Fld := ⟨0x100 + 64 * i, 7, 0⟩
abbrev RSP2.DOM_ANN (i : Nat) : Fld := ⟨0x104 + 64 * i, 31, 0⟩
abbrev RSP2.DOM_ANN_PRIO1 (i : Nat) : Fld := ⟨0x104 + 64 * i, 31, 24⟩
abbrev RSP2.DOM_ANN_PRIO2 (i : Nat) : Fld := ⟨0x104 + 64 * i, 23, 16⟩
abbrev RSP2.DOM_ANN_OSLV (i : Nat) : Fld := ⟨0x104 + 64 * i, 15, 0⟩
abbrev RSP2.DOM_MINT (i : Nat) : Fld := ⟨0x108 + 64 * i, 31, 0⟩
abbrev RSP2.DOM_MINT_LOG_SYNC (i : Nat) : Fld := ⟨0x108 + 64 * i, 31, 24⟩
abbrev RSP2.DOM_MINT_LOG_ANN (i : Nat) : Fld := ⟨0x108 + 64 * i, 23, 16⟩
abbrev RSP2.DOM_MINT_LOG_DREQ (i : Nat) : Fld := ⟨0x108 + 64 * i, 15, 8⟩
abbrev RSP2.DOM_ULIM (i : Nat) : Fld := ⟨0x10C + 64 * i, 31, 0⟩
abbrev RSP2.DOM_ULIM_LOG_SYNC_MIN (i : Nat) : Fld := ⟨0x10C + 64 * i, 31, 24⟩
abbrev RSP2.DOM_ULIM_LOG_ANN_MIN (i : Nat) : Fld := ⟨0x10C + 64 * i, 23, 16⟩
abbrev RSP2.DOM_ULIM_LOG_DRESP_MIN (i : Nat) : Fld := ⟨0x10C + 64 * i, 15, 8⟩
abbrev RSP2.DOM_TRC (i : Nat) : Fld := ⟨0x110 + 64 * i, 31, 0⟩
abbrev RSP2.DOM_TRC_THR (i : Nat) : Fld := ⟨0x110 + 64 * i, 15, 0⟩
abbrev RSP2.DOM_RESV (i : Nat) : Fld := ⟨0x114 + 64 * i, 31, 0⟩
abbrev RSP2.DOM_RESV_RESV (i : Nat) : Fld := ⟨0x114 + 64 * i, 31, 0⟩
abbrev RSP2.DOM_GRANTS (i : Nat) : Fld := ⟨0x118 + 64 * i, 31, 0⟩
abbrev RSP2.DOM_GRANTS_COUNT (i : Nat) : Fld := ⟨0x118 + 64 * i, 20, 0⟩

abbrev RSP3.NTP_CTL (i : Nat) : Fld := ⟨0x100 + 32 * i, 31, 0⟩
abbrev RSP3.NTP_CTL_EN (i : Nat) : Fld := ⟨0x100 + 32 * i, 31, 31⟩
abbrev RSP3.NTP_CTL_NTS (i : Nat) : Fld := ⟨0x100 + 32 * i, 30, 30⟩
abbrev RSP3.NTP_CTL_SMEAR (i : Nat) : Fld := ⟨0x100 + 32 * i, 29, 29⟩
abbrev RSP3.NTP_CTL_STRATUM (i : Nat) : Fld := ⟨0x100 + 32 * i, 27, 24⟩
abbrev RSP3.NTP_CTL_PREC (i : Nat) : Fld := ⟨0x100 + 32 * i, 23, 16⟩
abbrev RSP3.NTP_RDELAY (i : Nat) : Fld := ⟨0x104 + 32 * i, 31, 0⟩
abbrev RSP3.NTP_RDELAY_RDELAY (i : Nat) : Fld := ⟨0x104 + 32 * i, 31, 0⟩
abbrev RSP3.SMEAR (i : Nat) : Fld := ⟨0x200 + 8 * i, 63, 0⟩
abbrev RSP3.SMEAR_ACTIVE (i : Nat) : Fld := ⟨0x200 + 8 * i, 63, 63⟩
abbrev RSP3.SMEAR_SIGMA (i : Nat) : Fld := ⟨0x200 + 8 * i, 62, 0⟩

abbrev RSP4.ADDR_CTL (i : Nat) : Fld := ⟨0x100 + 32 * i, 31, 0⟩
abbrev RSP4.ADDR_CTL_EN (i : Nat) : Fld := ⟨0x100 + 32 * i, 31, 31⟩
abbrev RSP4.ADDR_CTL_V6 (i : Nat) : Fld := ⟨0x100 + 32 * i, 30, 30⟩
abbrev RSP4.ADDR_CTL_PTP (i : Nat) : Fld := ⟨0x100 + 32 * i, 29, 29⟩
abbrev RSP4.ADDR_CTL_NTP (i : Nat) : Fld := ⟨0x100 + 32 * i, 28, 28⟩
abbrev RSP4.ADDR_CTL_NTP_CLASS (i : Nat) : Fld := ⟨0x100 + 32 * i, 27, 26⟩
abbrev RSP4.ADDR_CTL_PORTS (i : Nat) : Fld := ⟨0x100 + 32 * i, 23, 0⟩
abbrev RSP4.ADDR_W (i : Nat) (j : Nat) : Fld := ⟨0x104 + 32 * i + 4 * j, 31, 0⟩
abbrev RSP4.ADDR_W_ADDR (i : Nat) (j : Nat) : Fld := ⟨0x104 + 32 * i + 4 * j, 31, 0⟩

abbrev RSP5.PORT_CTL (i : Nat) : Fld := ⟨0x100 + 64 * i, 31, 0⟩
abbrev RSP5.PORT_CTL_DOM (i : Nat) : Fld := ⟨0x100 + 64 * i, 31, 24⟩
abbrev RSP5.PORT_CTL_ESMC_EN (i : Nat) : Fld := ⟨0x100 + 64 * i, 15, 15⟩
abbrev RSP5.PORT_CTL_QL_AUTO (i : Nat) : Fld := ⟨0x100 + 64 * i, 14, 14⟩
abbrev RSP5.PORT_CTL_QL (i : Nat) : Fld := ⟨0x100 + 64 * i, 11, 8⟩
abbrev RSP5.PORT_STS (i : Nat) : Fld := ⟨0x104 + 64 * i, 31, 0⟩
abbrev RSP5.PORT_STS_READY (i : Nat) : Fld := ⟨0x104 + 64 * i, 31, 31⟩
abbrev RSP5.PORT_STS_GRANTS (i : Nat) : Fld := ⟨0x104 + 64 * i, 20, 0⟩

abbrev RSP7.PIPE_STS (i : Nat) : Fld := ⟨0x100 + 4 * i, 31, 0⟩
abbrev RSP7.PIPE_STS_ADMITTED (i : Nat) : Fld := ⟨0x100 + 4 * i, 31, 31⟩
abbrev RSP7.PIPE_STS_COUNTED (i : Nat) : Fld := ⟨0x100 + 4 * i, 30, 30⟩
abbrev RSP7.PIPE_STS_QLVL (i : Nat) : Fld := ⟨0x100 + 4 * i, 24, 16⟩
abbrev RSP7.SIG_STS : Fld := ⟨0x110, 31, 0⟩
abbrev RSP7.SIG_STS_QLVL : Fld := ⟨0x110, 10, 0⟩
abbrev RSP7.WHEEL_STS : Fld := ⟨0x120, 31, 0⟩
abbrev RSP7.WHEEL_STS_LAG : Fld := ⟨0x120, 31, 16⟩
abbrev RSP7.WHEEL_STS_SLOT : Fld := ⟨0x120, 15, 0⟩
abbrev RSP7.WHEEL_ENT : Fld := ⟨0x124, 31, 0⟩
abbrev RSP7.WHEEL_ENT_ENTRIES : Fld := ⟨0x124, 20, 0⟩
abbrev RSP7.LAST_DROP : Fld := ⟨0x130, 31, 0⟩
abbrev RSP7.LAST_DROP_COUNTER : Fld := ⟨0x130, 31, 24⟩
abbrev RSP7.LAST_DROP_CLASS : Fld := ⟨0x130, 23, 20⟩
abbrev RSP7.LAST_DROP_PORT : Fld := ⟨0x130, 4, 0⟩

abbrev CST.CTL : Fld := ⟨0x100, 31, 0⟩
abbrev CST.CTL_BRINE : Fld := ⟨0x100, 31, 31⟩
abbrev CST.CTL_CAVE_OFF : Fld := ⟨0x100, 30, 30⟩
abbrev CST.CTL_OBS_READ : Fld := ⟨0x100, 29, 29⟩
abbrev CST.STS : Fld := ⟨0x104, 31, 0⟩
abbrev CST.STS_PWR : Fld := ⟨0x104, 31, 30⟩
abbrev CST.STS_BRINE_REFUSED : Fld := ⟨0x104, 29, 29⟩
abbrev CST.STS_USED : Fld := ⟨0x104, 20, 0⟩
abbrev CST.CMD : Fld := ⟨0x108, 31, 0⟩
abbrev CST.CMD_OP : Fld := ⟨0x108, 1, 0⟩
abbrev CST.KEY_CTL : Fld := ⟨0x110, 31, 0⟩
abbrev CST.KEY_CTL_PORT_NUM : Fld := ⟨0x110, 31, 16⟩
abbrev CST.KEY_CTL_ATYPE : Fld := ⟨0x110, 9, 8⟩
abbrev CST.KEY_CTL_PORT : Fld := ⟨0x110, 4, 0⟩
abbrev CST.KEY_A (i : Nat) : Fld := ⟨0x114 + 4 * i, 31, 0⟩
abbrev CST.KEY_A_ADDR (i : Nat) : Fld := ⟨0x114 + 4 * i, 31, 0⟩
abbrev CST.KEY_CID : Fld := ⟨0x128, 63, 0⟩
abbrev CST.KEY_CID_CID : Fld := ⟨0x128, 63, 0⟩
abbrev CST.LKP_STS : Fld := ⟨0x130, 31, 0⟩
abbrev CST.LKP_STS_HIT : Fld := ⟨0x130, 31, 31⟩
abbrev CST.LKP_STS_INDEX : Fld := ⟨0x130, 19, 0⟩
abbrev CST.LKP_BKT : Fld := ⟨0x138, 63, 0⟩
abbrev CST.LKP_BKT_B2 : Fld := ⟨0x138, 49, 32⟩
abbrev CST.LKP_BKT_B1 : Fld := ⟨0x138, 17, 0⟩
abbrev CST.HASH_SEED : Fld := ⟨0x140, 31, 0⟩
abbrev CST.HASH_SEED_SEED : Fld := ⟨0x140, 31, 0⟩
abbrev CST.SCRUB : Fld := ⟨0x144, 31, 0⟩
abbrev CST.SCRUB_PASS : Fld := ⟨0x144, 15, 0⟩
abbrev CST.ECC_CE : Fld := ⟨0x148, 31, 0⟩
abbrev CST.ECC_CE_COUNT : Fld := ⟨0x148, 31, 0⟩
abbrev CST.ECC_UE : Fld := ⟨0x14C, 31, 0⟩
abbrev CST.ECC_UE_COUNT : Fld := ⟨0x14C, 31, 0⟩
abbrev CST.ECC_LAST : Fld := ⟨0x150, 31, 0⟩
abbrev CST.ECC_LAST_UE : Fld := ⟨0x150, 31, 31⟩
abbrev CST.ECC_LAST_WORD : Fld := ⟨0x150, 22, 20⟩
abbrev CST.ECC_LAST_INDEX : Fld := ⟨0x150, 19, 0⟩
abbrev CST.POISON : Fld := ⟨0x154, 31, 0⟩
abbrev CST.POISON_COUNT : Fld := ⟨0x154, 31, 0⟩
abbrev CST.HOST_DISC : Fld := ⟨0x158, 31, 0⟩
abbrev CST.HOST_DISC_COUNT : Fld := ⟨0x158, 31, 0⟩
abbrev CST.LOCK_HIT : Fld := ⟨0x15C, 31, 0⟩
abbrev CST.LOCK_HIT_COUNT : Fld := ⟨0x15C, 31, 0⟩
abbrev CST.STALL (i : Nat) : Fld := ⟨0x160 + 4 * i, 31, 0⟩
abbrev CST.STALL_COUNT (i : Nat) : Fld := ⟨0x160 + 4 * i, 31, 0⟩
abbrev CST.RPR_IDX : Fld := ⟨0x180, 31, 0⟩
abbrev CST.RPR_IDX_BANK : Fld := ⟨0x180, 5, 0⟩
abbrev CST.RPR_STS : Fld := ⟨0x184, 31, 0⟩
abbrev CST.RPR_STS_EXHAUSTED : Fld := ⟨0x184, 31, 31⟩
abbrev CST.RPR_STS_USED : Fld := ⟨0x184, 26, 0⟩
abbrev CST.BANK_CE : Fld := ⟨0x188, 31, 0⟩
abbrev CST.BANK_CE_COUNT : Fld := ⟨0x188, 31, 0⟩

abbrev CL.CTL : Fld := ⟨0x100, 31, 0⟩
abbrev CL.CTL_FENCE : Fld := ⟨0x100, 31, 31⟩
abbrev CL.CMD : Fld := ⟨0x104, 31, 0⟩
abbrev CL.CMD_OP : Fld := ⟨0x104, 1, 0⟩
abbrev CL.STS : Fld := ⟨0x108, 31, 0⟩
abbrev CL.STS_STATE : Fld := ⟨0x108, 31, 29⟩
abbrev CL.STS_COUNTED : Fld := ⟨0x108, 28, 28⟩
abbrev CL.STS_QLVL : Fld := ⟨0x108, 20, 16⟩
abbrev CL.STS_STALE_HELD : Fld := ⟨0x108, 8, 0⟩
abbrev CL.OPS : Fld := ⟨0x110, 63, 0⟩
abbrev CL.OPS_COUNT : Fld := ⟨0x110, 63, 0⟩
abbrev CL.ICV_FAIL : Fld := ⟨0x118, 31, 0⟩
abbrev CL.ICV_FAIL_COUNT : Fld := ⟨0x118, 31, 0⟩
abbrev CL.ERR : Fld := ⟨0x11C, 31, 0⟩
abbrev CL.ERR_COUNT : Fld := ⟨0x11C, 31, 0⟩
abbrev CL.STALE_FIN : Fld := ⟨0x120, 31, 0⟩
abbrev CL.STALE_FIN_COUNT : Fld := ⟨0x120, 31, 0⟩
abbrev CL.QIDX : Fld := ⟨0x130, 31, 0⟩
abbrev CL.QIDX_IDX : Fld := ⟨0x130, 3, 0⟩
abbrev CL.QENT : Fld := ⟨0x134, 31, 0⟩
abbrev CL.QENT_OP : Fld := ⟨0x134, 31, 28⟩
abbrev CL.QENT_SLOT : Fld := ⟨0x134, 27, 20⟩
abbrev CL.QENT_PORT : Fld := ⟨0x134, 19, 15⟩
abbrev CL.QEP : Fld := ⟨0x138, 31, 0⟩
abbrev CL.QEP_EPOCH : Fld := ⟨0x138, 23, 0⟩

abbrev KEY0.CMD : Fld := ⟨0x100, 31, 0⟩
abbrev KEY0.CMD_SLOT : Fld := ⟨0x100, 23, 16⟩
abbrev KEY0.CMD_OP : Fld := ⟨0x100, 3, 0⟩
abbrev KEY0.NEW_ATTR : Fld := ⟨0x104, 31, 0⟩
abbrev KEY0.NEW_ATTR_USAGE : Fld := ⟨0x104, 29, 26⟩
abbrev KEY0.NEW_ATTR_EXPORT : Fld := ⟨0x104, 25, 25⟩
abbrev KEY0.NEW_ATTR_PARENT : Fld := ⟨0x104, 20, 12⟩
abbrev KEY0.NEW_ATTR_DEST : Fld := ⟨0x104, 7, 0⟩
abbrev KEY0.NEW_EPOCH : Fld := ⟨0x108, 31, 0⟩
abbrev KEY0.NEW_EPOCH_EPOCH : Fld := ⟨0x108, 23, 0⟩
abbrev KEY0.NEW_ID : Fld := ⟨0x10C, 31, 0⟩
abbrev KEY0.NEW_ID_ID : Fld := ⟨0x10C, 31, 0⟩
abbrev KEY0.STAGE (i : Nat) : Fld := ⟨0x110 + 4 * i, 31, 0⟩
abbrev KEY0.STAGE_MAT (i : Nat) : Fld := ⟨0x110 + 4 * i, 31, 0⟩
abbrev KEY0.SALT (i : Nat) : Fld := ⟨0x130 + 4 * i, 31, 0⟩
abbrev KEY0.SALT_SALT (i : Nat) : Fld := ⟨0x130 + 4 * i, 31, 0⟩
abbrev KEY0.INFO (i : Nat) : Fld := ⟨0x150 + 4 * i, 31, 0⟩
abbrev KEY0.INFO_INFO (i : Nat) : Fld := ⟨0x150 + 4 * i, 31, 0⟩
abbrev KEY0.KDF_LEN : Fld := ⟨0x190, 31, 0⟩
abbrev KEY0.KDF_LEN_SALT_LEN : Fld := ⟨0x190, 13, 8⟩
abbrev KEY0.KDF_LEN_INFO_LEN : Fld := ⟨0x190, 6, 0⟩
abbrev KEY0.RES : Fld := ⟨0x1A0, 31, 0⟩
abbrev KEY0.RES_BUSY : Fld := ⟨0x1A0, 31, 31⟩
abbrev KEY0.RES_SLOT : Fld := ⟨0x1A0, 23, 16⟩
abbrev KEY0.RES_OP : Fld := ⟨0x1A0, 7, 4⟩
abbrev KEY0.RES_RESULT : Fld := ⟨0x1A0, 3, 0⟩
abbrev KEY0.WR_DISC : Fld := ⟨0x1A4, 31, 0⟩
abbrev KEY0.WR_DISC_COUNT : Fld := ⟨0x1A4, 31, 0⟩
abbrev KEY0.JRNL_STS : Fld := ⟨0x1A8, 31, 0⟩
abbrev KEY0.JRNL_STS_DISCARD : Fld := ⟨0x1A8, 31, 16⟩
abbrev KEY0.JRNL_STS_PHASE : Fld := ⟨0x1A8, 1, 0⟩
abbrev KEY0.LC_STS : Fld := ⟨0x1B0, 31, 0⟩
abbrev KEY0.LC_STS_OWNER : Fld := ⟨0x1B0, 16, 16⟩
abbrev KEY0.LC_STS_ROOT : Fld := ⟨0x1B0, 10, 8⟩
abbrev KEY0.LC_STS_LC : Fld := ⟨0x1B0, 2, 0⟩
abbrev KEY0.LC_NONCE (i : Nat) : Fld := ⟨0x1C0 + 4 * i, 31, 0⟩
abbrev KEY0.LC_NONCE_NONCE (i : Nat) : Fld := ⟨0x1C0 + 4 * i, 31, 0⟩
abbrev KEY0.LC_TOK (i : Nat) : Fld := ⟨0x200 + 4 * i, 31, 0⟩
abbrev KEY0.LC_TOK_TOK (i : Nat) : Fld := ⟨0x200 + 4 * i, 31, 0⟩
abbrev KEY0.LC_CMD : Fld := ⟨0x340, 31, 0⟩
abbrev KEY0.LC_CMD_SUBMIT : Fld := ⟨0x340, 0, 0⟩
abbrev KEY0.LC_RES : Fld := ⟨0x344, 31, 0⟩
abbrev KEY0.LC_RES_RESULT : Fld := ⟨0x344, 3, 0⟩

abbrev KEY1.ATTR0 (i : Nat) : Fld := ⟨0x100 + 16 * i, 31, 0⟩
abbrev KEY1.ATTR0_STATE (i : Nat) : Fld := ⟨0x100 + 16 * i, 31, 30⟩
abbrev KEY1.ATTR0_USAGE (i : Nat) : Fld := ⟨0x100 + 16 * i, 29, 26⟩
abbrev KEY1.ATTR0_EXPORT (i : Nat) : Fld := ⟨0x100 + 16 * i, 25, 25⟩
abbrev KEY1.ATTR0_DEPTH (i : Nat) : Fld := ⟨0x100 + 16 * i, 24, 22⟩
abbrev KEY1.ATTR0_PARENT (i : Nat) : Fld := ⟨0x100 + 16 * i, 20, 12⟩
abbrev KEY1.ATTR0_DEST (i : Nat) : Fld := ⟨0x100 + 16 * i, 7, 0⟩
abbrev KEY1.ATTR1 (i : Nat) : Fld := ⟨0x104 + 16 * i, 31, 0⟩
abbrev KEY1.ATTR1_EPOCH (i : Nat) : Fld := ⟨0x104 + 16 * i, 23, 0⟩
abbrev KEY1.ATTR2 (i : Nat) : Fld := ⟨0x108 + 16 * i, 31, 0⟩
abbrev KEY1.ATTR2_KEY_ID (i : Nat) : Fld := ⟨0x108 + 16 * i, 31, 0⟩
abbrev KEY1.ATTR3 (i : Nat) : Fld := ⟨0x10C + 16 * i, 31, 0⟩
abbrev KEY1.ATTR3_PEPOCH (i : Nat) : Fld := ⟨0x10C + 16 * i, 23, 0⟩

abbrev KEY3.UID : Fld := ⟨0x100, 63, 0⟩
abbrev KEY3.UID_UID : Fld := ⟨0x100, 63, 0⟩
abbrev KEY3.NTS_CUR : Fld := ⟨0x108, 31, 0⟩
abbrev KEY3.NTS_CUR_SLOT : Fld := ⟨0x108, 7, 0⟩
abbrev KEY3.SPP (i : Nat) : Fld := ⟨0x110 + 4 * i, 31, 0⟩
abbrev KEY3.SPP_SPP (i : Nat) : Fld := ⟨0x110 + 4 * i, 7, 0⟩
abbrev KEY3.ATT_CTL : Fld := ⟨0x130, 31, 0⟩
abbrev KEY3.ATT_CTL_SLOT : Fld := ⟨0x130, 7, 0⟩
abbrev KEY3.RCA_CTL : Fld := ⟨0x134, 31, 0⟩
abbrev KEY3.RCA_CTL_SLOT : Fld := ⟨0x134, 7, 0⟩
abbrev KEY3.ATT_CHAL (i : Nat) : Fld := ⟨0x140 + 4 * i, 31, 0⟩
abbrev KEY3.ATT_CHAL_CHAL (i : Nat) : Fld := ⟨0x140 + 4 * i, 31, 0⟩
abbrev KEY3.ATT_CMD : Fld := ⟨0x150, 31, 0⟩
abbrev KEY3.ATT_CMD_ATTEST : Fld := ⟨0x150, 0, 0⟩
abbrev KEY3.ATT_STS : Fld := ⟨0x154, 31, 0⟩
abbrev KEY3.ATT_STS_RESULT : Fld := ⟨0x154, 1, 0⟩
abbrev KEY3.ATT_RESP (i : Nat) : Fld := ⟨0x160 + 4 * i, 31, 0⟩
abbrev KEY3.ATT_RESP_RESP (i : Nat) : Fld := ⟨0x160 + 4 * i, 31, 0⟩
abbrev KEY3.ATT_DIG (i : Nat) : Fld := ⟨0x180 + 4 * i, 31, 0⟩
abbrev KEY3.ATT_DIG_DIG (i : Nat) : Fld := ⟨0x180 + 4 * i, 31, 0⟩
abbrev KEY3.ATT_MEC : Fld := ⟨0x1A0, 63, 0⟩
abbrev KEY3.ATT_MEC_MEC : Fld := ⟨0x1A0, 63, 0⟩
abbrev KEY3.IDX : Fld := ⟨0x1C0, 31, 0⟩
abbrev KEY3.IDX_SLOT : Fld := ⟨0x1C0, 7, 0⟩
abbrev KEY3.KCV : Fld := ⟨0x1C4, 31, 0⟩
abbrev KEY3.KCV_KCV : Fld := ⟨0x1C4, 31, 0⟩

abbrev AUD.CTL (i : Nat) : Fld := ⟨0x100 + 256 * i, 31, 0⟩
abbrev AUD.CTL_EN (i : Nat) : Fld := ⟨0x100 + 256 * i, 31, 31⟩
abbrev AUD.CTL_CLK (i : Nat) : Fld := ⟨0x100 + 256 * i, 30, 30⟩
abbrev AUD.CTL_FMT (i : Nat) : Fld := ⟨0x100 + 256 * i, 29, 28⟩
abbrev AUD.CTL_PACK (i : Nat) : Fld := ⟨0x100 + 256 * i, 27, 26⟩
abbrev AUD.CTL_SLOTW (i : Nat) : Fld := ⟨0x100 + 256 * i, 25, 25⟩
abbrev AUD.CTL_LINES (i : Nat) : Fld := ⟨0x100 + 256 * i, 24, 24⟩
abbrev AUD.CTL_CH2 (i : Nat) : Fld := ⟨0x100 + 256 * i, 23, 23⟩
abbrev AUD.CTL_SLOTS (i : Nat) : Fld := ⟨0x100 + 256 * i, 20, 16⟩
abbrev AUD.CTL_WSPOL (i : Nat) : Fld := ⟨0x100 + 256 * i, 15, 15⟩
abbrev AUD.CTL_BEDGE (i : Nat) : Fld := ⟨0x100 + 256 * i, 14, 14⟩
abbrev AUD.CTL_MCLK_EN (i : Nat) : Fld := ⟨0x100 + 256 * i, 13, 13⟩
abbrev AUD.CTL_MCLK_RATIO (i : Nat) : Fld := ⟨0x100 + 256 * i, 12, 12⟩
abbrev AUD.CTL_GRP_EN (i : Nat) : Fld := ⟨0x100 + 256 * i, 11, 11⟩
abbrev AUD.CTL_GROUP (i : Nat) : Fld := ⟨0x100 + 256 * i, 10, 9⟩
abbrev AUD.CTL_TRI (i : Nat) : Fld := ⟨0x100 + 256 * i, 8, 8⟩
abbrev AUD.FS (i : Nat) : Fld := ⟨0x104 + 256 * i, 31, 0⟩
abbrev AUD.FS_HZ (i : Nat) : Fld := ⟨0x104 + 256 * i, 24, 0⟩
abbrev AUD.MASK (i : Nat) : Fld := ⟨0x108 + 256 * i, 31, 0⟩
abbrev AUD.MASK_CUR (i : Nat) : Fld := ⟨0x108 + 256 * i, 31, 16⟩
abbrev AUD.MASK_MASK (i : Nat) : Fld := ⟨0x108 + 256 * i, 15, 0⟩
abbrev AUD.CMD (i : Nat) : Fld := ⟨0x10C + 256 * i, 31, 0⟩
abbrev AUD.CMD_OP (i : Nat) : Fld := ⟨0x10C + 256 * i, 1, 0⟩
abbrev AUD.PSLEW (i : Nat) : Fld := ⟨0x110 + 256 * i, 31, 0⟩
abbrev AUD.PSLEW_RATE (i : Nat) : Fld := ⟨0x110 + 256 * i, 16, 0⟩
abbrev AUD.STS (i : Nat) : Fld := ⟨0x114 + 256 * i, 31, 0⟩
abbrev AUD.STS_STATE (i : Nat) : Fld := ⟨0x114 + 256 * i, 31, 29⟩
abbrev AUD.STS_ALIGNED (i : Nat) : Fld := ⟨0x114 + 256 * i, 28, 28⟩
abbrev AUD.STS_SLIPPING (i : Nat) : Fld := ⟨0x114 + 256 * i, 27, 27⟩
abbrev AUD.STS_RATE_CHG (i : Nat) : Fld := ⟨0x114 + 256 * i, 26, 26⟩
abbrev AUD.STS_CAUSE (i : Nat) : Fld := ⟨0x114 + 256 * i, 25, 24⟩
abbrev AUD.FCNT (i : Nat) : Fld := ⟨0x118 + 256 * i, 63, 0⟩
abbrev AUD.FCNT_K (i : Nat) : Fld := ⟨0x118 + 256 * i, 62, 0⟩
abbrev AUD.OFS (i : Nat) : Fld := ⟨0x120 + 256 * i, 63, 0⟩
abbrev AUD.OFS_O (i : Nat) : Fld := ⟨0x120 + 256 * i, 63, 0⟩
abbrev AUD.PH_ERR (i : Nat) : Fld := ⟨0x128 + 256 * i, 31, 0⟩
abbrev AUD.PH_ERR_E (i : Nat) : Fld := ⟨0x128 + 256 * i, 31, 0⟩
abbrev AUD.RATE (i : Nat) : Fld := ⟨0x12C + 256 * i, 31, 0⟩
abbrev AUD.RATE_MHZ (i : Nat) : Fld := ⟨0x12C + 256 * i, 31, 0⟩
abbrev AUD.RATE_CTL (i : Nat) : Fld := ⟨0x130 + 256 * i, 31, 0⟩
abbrev AUD.RATE_CTL_TOL (i : Nat) : Fld := ⟨0x130 + 256 * i, 15, 0⟩
abbrev AUD.SLIPS (i : Nat) : Fld := ⟨0x134 + 256 * i, 31, 0⟩
abbrev AUD.SLIPS_COUNT (i : Nat) : Fld := ⟨0x134 + 256 * i, 31, 0⟩
abbrev AUD.LATE (i : Nat) : Fld := ⟨0x138 + 256 * i, 31, 0⟩
abbrev AUD.LATE_COUNT (i : Nat) : Fld := ⟨0x138 + 256 * i, 31, 0⟩
abbrev AUD.DISC (i : Nat) : Fld := ⟨0x13C + 256 * i, 31, 0⟩
abbrev AUD.DISC_COUNT (i : Nat) : Fld := ⟨0x13C + 256 * i, 31, 0⟩
abbrev AUD.RING_BASE (i : Nat) : Fld := ⟨0x140 + 256 * i, 63, 0⟩
abbrev AUD.RING_BASE_BASE (i : Nat) : Fld := ⟨0x140 + 256 * i, 63, 12⟩
abbrev AUD.RING_SZ (i : Nat) : Fld := ⟨0x148 + 256 * i, 31, 0⟩
abbrev AUD.RING_SZ_SZ (i : Nat) : Fld := ⟨0x148 + 256 * i, 4, 0⟩
abbrev AUD.WP (i : Nat) : Fld := ⟨0x14C + 256 * i, 31, 0⟩
abbrev AUD.WP_WP (i : Nat) : Fld := ⟨0x14C + 256 * i, 19, 0⟩
abbrev AUD.RP (i : Nat) : Fld := ⟨0x150 + 256 * i, 31, 0⟩
abbrev AUD.RP_RP (i : Nat) : Fld := ⟨0x150 + 256 * i, 19, 0⟩

abbrev AUD0.GRP_OFS (i : Nat) : Fld := ⟨0x400 + 8 * i, 63, 0⟩
abbrev AUD0.GRP_OFS_O (i : Nat) : Fld := ⟨0x400 + 8 * i, 63, 0⟩

abbrev SEQ.CTL : Fld := ⟨0x100, 31, 0⟩
abbrev SEQ.CTL_EN : Fld := ⟨0x100, 31, 31⟩
abbrev SEQ.CMD : Fld := ⟨0x104, 31, 0⟩
abbrev SEQ.CMD_OP : Fld := ⟨0x104, 1, 0⟩
abbrev SEQ.START : Fld := ⟨0x108, 31, 0⟩
abbrev SEQ.START_ENTRY : Fld := ⟨0x108, 8, 0⟩
abbrev SEQ.BUDGET : Fld := ⟨0x10C, 31, 0⟩
abbrev SEQ.BUDGET_MS : Fld := ⟨0x10C, 31, 0⟩
abbrev SEQ.STS : Fld := ⟨0x110, 31, 0⟩
abbrev SEQ.STS_STATE : Fld := ⟨0x110, 31, 29⟩
abbrev SEQ.STS_CAUSE : Fld := ⟨0x110, 28, 25⟩
abbrev SEQ.STS_DEPTH : Fld := ⟨0x110, 24, 22⟩
abbrev SEQ.STS_SRC : Fld := ⟨0x110, 21, 19⟩
abbrev SEQ.STS_PC : Fld := ⟨0x110, 8, 0⟩
abbrev SEQ.STACK : Fld := ⟨0x118, 63, 0⟩
abbrev SEQ.STACK_RET : Fld := ⟨0x118, 35, 0⟩
abbrev SEQ.TRIG (i : Nat) : Fld := ⟨0x120 + 4 * i, 31, 0⟩
abbrev SEQ.TRIG_EN (i : Nat) : Fld := ⟨0x120 + 4 * i, 31, 31⟩
abbrev SEQ.TRIG_EVT (i : Nat) : Fld := ⟨0x120 + 4 * i, 22, 16⟩
abbrev SEQ.TRIG_ENTRY (i : Nat) : Fld := ⟨0x120 + 4 * i, 8, 0⟩
abbrev SEQ.WIN (i : Nat) : Fld := ⟨0x140 + 4 * i, 31, 0⟩
abbrev SEQ.WIN_EN (i : Nat) : Fld := ⟨0x140 + 4 * i, 31, 31⟩
abbrev SEQ.WIN_BASE (i : Nat) : Fld := ⟨0x140 + 4 * i, 28, 16⟩
abbrev SEQ.WIN_COUNT (i : Nat) : Fld := ⟨0x140 + 4 * i, 13, 0⟩
abbrev SEQ.PERM_CTL : Fld := ⟨0x160, 31, 0⟩
abbrev SEQ.PERM_CTL_LOCK : Fld := ⟨0x160, 31, 31⟩
abbrev SEQ.PERM_CTL_BAR2_WR : Fld := ⟨0x160, 1, 1⟩
abbrev SEQ.PERM_CTL_BAR2_RD : Fld := ⟨0x160, 0, 0⟩
abbrev SEQ.V (i : Nat) : Fld := ⟨0x180 + 4 * i, 31, 0⟩
abbrev SEQ.V_V (i : Nat) : Fld := ⟨0x180 + 4 * i, 31, 0⟩
abbrev SEQ.EVT_PEND (i : Nat) : Fld := ⟨0x1A0 + 4 * i, 31, 0⟩
abbrev SEQ.EVT_PEND_PEND (i : Nat) : Fld := ⟨0x1A0 + 4 * i, 31, 0⟩
abbrev SEQ.DENY : Fld := ⟨0x1B0, 31, 0⟩
abbrev SEQ.DENY_COUNT : Fld := ⟨0x1B0, 31, 0⟩
abbrev SEQ.RUNS : Fld := ⟨0x1B4, 31, 0⟩
abbrev SEQ.RUNS_COUNT : Fld := ⟨0x1B4, 31, 0⟩
abbrev SEQ.TRIG_LOST : Fld := ⟨0x1B8, 31, 0⟩
abbrev SEQ.TRIG_LOST_COUNT : Fld := ⟨0x1B8, 31, 0⟩
abbrev SEQ.D (i : Nat) : Fld := ⟨0x400 + 4 * i, 31, 0⟩
abbrev SEQ.D_DATA (i : Nat) : Fld := ⟨0x400 + 4 * i, 31, 0⟩
abbrev SEQ.I (i : Nat) : Fld := ⟨0x800 + 4 * i, 31, 0⟩
abbrev SEQ.I_INSTR (i : Nat) : Fld := ⟨0x800 + 4 * i, 31, 0⟩

abbrev REC.CTL : Fld := ⟨0x100, 31, 0⟩
abbrev REC.CTL_SPILL : Fld := ⟨0x100, 31, 31⟩
abbrev REC.CTL_AUTO : Fld := ⟨0x100, 30, 30⟩
abbrev REC.HWM : Fld := ⟨0x104, 31, 0⟩
abbrev REC.HWM_HWM : Fld := ⟨0x104, 12, 0⟩
abbrev REC.RIND : Fld := ⟨0x108, 31, 0⟩
abbrev REC.RIND_SIZE : Fld := ⟨0x108, 17, 0⟩
abbrev REC.CMD : Fld := ⟨0x10C, 31, 0⟩
abbrev REC.CMD_LIST : Fld := ⟨0x10C, 5, 2⟩
abbrev REC.CMD_OP : Fld := ⟨0x10C, 1, 0⟩
abbrev REC.STS : Fld := ⟨0x110, 31, 0⟩
abbrev REC.STS_FLUSHING : Fld := ⟨0x110, 31, 31⟩
abbrev REC.STS_WT : Fld := ⟨0x110, 30, 30⟩
abbrev REC.STS_RIND_SIZE : Fld := ⟨0x110, 17, 0⟩
abbrev REC.LVL : Fld := ⟨0x114, 31, 0⟩
abbrev REC.LVL_RIND_USED : Fld := ⟨0x114, 17, 0⟩
abbrev REC.BUF_LVL : Fld := ⟨0x118, 31, 0⟩
abbrev REC.BUF_LVL_BUF_LVL : Fld := ⟨0x118, 12, 0⟩
abbrev REC.NEXT_SEQ : Fld := ⟨0x11C, 31, 0⟩
abbrev REC.NEXT_SEQ_SEQ : Fld := ⟨0x11C, 31, 0⟩
abbrev REC.OLDEST_SEQ : Fld := ⟨0x120, 31, 0⟩
abbrev REC.OLDEST_SEQ_SEQ : Fld := ⟨0x120, 31, 0⟩
abbrev REC.LOST : Fld := ⟨0x124, 31, 0⟩
abbrev REC.LOST_COUNT : Fld := ⟨0x124, 31, 0⟩
abbrev REC.SPILL_MISS : Fld := ⟨0x128, 31, 0⟩
abbrev REC.SPILL_MISS_COUNT : Fld := ⟨0x128, 31, 0⟩
abbrev REC.SNAP_LOST : Fld := ⟨0x12C, 31, 0⟩
abbrev REC.SNAP_LOST_COUNT : Fld := ⟨0x12C, 31, 0⟩
abbrev REC.CLR_RES : Fld := ⟨0x130, 31, 0⟩
abbrev REC.CLR_RES_DISC : Fld := ⟨0x130, 31, 16⟩
abbrev REC.CLR_RES_RESULT : Fld := ⟨0x130, 3, 0⟩
abbrev REC.CLR_NONCE (i : Nat) : Fld := ⟨0x140 + 4 * i, 31, 0⟩
abbrev REC.CLR_NONCE_NONCE (i : Nat) : Fld := ⟨0x140 + 4 * i, 31, 0⟩
abbrev REC.CLR_TOK (i : Nat) : Fld := ⟨0x150 + 4 * i, 31, 0⟩
abbrev REC.CLR_TOK_TOK (i : Nat) : Fld := ⟨0x150 + 4 * i, 31, 0⟩
abbrev REC.CURSOR : Fld := ⟨0x160, 31, 0⟩
abbrev REC.CURSOR_SEQ : Fld := ⟨0x160, 31, 0⟩
abbrev REC.WIN_STS : Fld := ⟨0x164, 31, 0⟩
abbrev REC.WIN_STS_PRESENT : Fld := ⟨0x164, 31, 31⟩
abbrev REC.WIN_STS_SKIP : Fld := ⟨0x164, 30, 30⟩
abbrev REC.WIN_STS_WHERE : Fld := ⟨0x164, 29, 28⟩
abbrev REC.WIN (i : Nat) : Fld := ⟨0x180 + 4 * i, 31, 0⟩
abbrev REC.WIN_DATA (i : Nat) : Fld := ⟨0x180 + 4 * i, 31, 0⟩
abbrev REC.SNAP_LIST (i : Nat) : Fld := ⟨0x200 + 4 * i, 31, 0⟩
abbrev REC.SNAP_LIST_EN (i : Nat) : Fld := ⟨0x200 + 4 * i, 31, 31⟩
abbrev REC.SNAP_LIST_LEN (i : Nat) : Fld := ⟨0x200 + 4 * i, 14, 8⟩
abbrev REC.SNAP_LIST_START (i : Nat) : Fld := ⟨0x200 + 4 * i, 7, 0⟩
abbrev REC.TRIG (i : Nat) : Fld := ⟨0x240 + 4 * i, 31, 0⟩
abbrev REC.TRIG_EN (i : Nat) : Fld := ⟨0x240 + 4 * i, 31, 31⟩
abbrev REC.TRIG_LIST (i : Nat) : Fld := ⟨0x240 + 4 * i, 3, 0⟩
abbrev REC.SNAP_STS : Fld := ⟨0x260, 31, 0⟩
abbrev REC.SNAP_STS_BUSY : Fld := ⟨0x260, 31, 31⟩
abbrev REC.SNAP_STS_QLVL : Fld := ⟨0x260, 2, 0⟩
abbrev REC.SNAP_ENT (i : Nat) : Fld := ⟨0x400 + 4 * i, 31, 0⟩
abbrev REC.SNAP_ENT_ADDR (i : Nat) : Fld := ⟨0x400 + 4 * i, 24, 2⟩
abbrev REC.SNAP_ENT_LATCH (i : Nat) : Fld := ⟨0x400 + 4 * i, 1, 1⟩
abbrev REC.SNAP_ENT_W64 (i : Nat) : Fld := ⟨0x400 + 4 * i, 0, 0⟩

abbrev HDR.FLT_STS : Fld := ⟨0x1C, 31, 0⟩
abbrev HDR.FLT_STS_CNT : Fld := ⟨0x1C, 31, 24⟩
abbrev HDR.FLT_STS_RAIL : Fld := ⟨0x1C, 16, 16⟩
abbrev HDR.FLT_STS_LIVE : Fld := ⟨0x1C, 12, 8⟩
abbrev HDR.FLT_STS_LAT : Fld := ⟨0x1C, 4, 0⟩
abbrev HDR.FLT_FORCE : Fld := ⟨0x20, 31, 0⟩
abbrev HDR.FLT_FORCE_FORCE : Fld := ⟨0x20, 4, 0⟩
abbrev HDR.FLT_CLR : Fld := ⟨0x24, 31, 0⟩
abbrev HDR.FLT_CLR_CLR : Fld := ⟨0x24, 4, 0⟩
abbrev HDR.PMC_SEL (i : Nat) : Fld := ⟨0x30 + 4 * i, 31, 0⟩
abbrev HDR.PMC_SEL_EN (i : Nat) : Fld := ⟨0x30 + 4 * i, 31, 31⟩
abbrev HDR.PMC_SEL_FILT (i : Nat) : Fld := ⟨0x30 + 4 * i, 30, 30⟩
abbrev HDR.PMC_SEL_CLR (i : Nat) : Fld := ⟨0x30 + 4 * i, 29, 29⟩
abbrev HDR.PMC_SEL_EVENT (i : Nat) : Fld := ⟨0x30 + 4 * i, 11, 0⟩
abbrev HDR.PMC_CNT (i : Nat) : Fld := ⟨0x40 + 8 * i, 63, 0⟩
abbrev HDR.PMC_CNT_WRAPPED (i : Nat) : Fld := ⟨0x40 + 8 * i, 63, 63⟩
abbrev HDR.PMC_CNT_COUNT (i : Nat) : Fld := ⟨0x40 + 8 * i, 47, 0⟩
abbrev HDR.PWR_REQ : Fld := ⟨0x28, 31, 0⟩
abbrev HDR.PWR_REQ_MODE : Fld := ⟨0x28, 1, 0⟩
abbrev HDR.PWR_STS : Fld := ⟨0x2C, 31, 0⟩
abbrev HDR.PWR_STS_GRANTED : Fld := ⟨0x2C, 31, 31⟩
abbrev HDR.PWR_STS_WAITING : Fld := ⟨0x2C, 30, 30⟩
abbrev HDR.PWR_STS_PREC : Fld := ⟨0x2C, 29, 27⟩
abbrev HDR.PWR_STS_REVOKES : Fld := ⟨0x2C, 15, 0⟩
abbrev HDR.PAGE_ID : Fld := ⟨0x0, 31, 0⟩
abbrev HDR.PAGE_ID_TYPE : Fld := ⟨0x0, 31, 20⟩
abbrev HDR.PAGE_ID_INST : Fld := ⟨0x0, 19, 12⟩
abbrev HDR.PAGE_ID_LAYOUT : Fld := ⟨0x0, 7, 0⟩
abbrev HDR.PAGE_REV : Fld := ⟨0x4, 31, 0⟩
abbrev HDR.PAGE_REV_REV : Fld := ⟨0x4, 15, 0⟩
abbrev HDR.PAGE_CTL : Fld := ⟨0x8, 31, 0⟩
abbrev HDR.PAGE_CTL_EN : Fld := ⟨0x8, 31, 31⟩
abbrev HDR.PAGE_CTL_FREEZE : Fld := ⟨0x8, 30, 30⟩
abbrev HDR.PAGE_CTL_SOFT_RST : Fld := ⟨0x8, 0, 0⟩
abbrev HDR.PAGE_STS : Fld := ⟨0xC, 31, 0⟩
abbrev HDR.PAGE_STS_PWR_ON : Fld := ⟨0xC, 31, 31⟩
abbrev HDR.PAGE_STS_CAVE_HELD : Fld := ⟨0xC, 30, 30⟩
abbrev HDR.PAGE_STS_WR_DISC : Fld := ⟨0xC, 15, 0⟩
abbrev HDR.INT_STS : Fld := ⟨0x10, 31, 0⟩
abbrev HDR.INT_STS_STS : Fld := ⟨0x10, 31, 0⟩
abbrev HDR.INT_EN : Fld := ⟨0x14, 31, 0⟩
abbrev HDR.INT_EN_EN : Fld := ⟨0x14, 31, 0⟩
abbrev HDR.INT_FORCE : Fld := ⟨0x18, 31, 0⟩
abbrev HDR.INT_FORCE_FORCE : Fld := ⟨0x18, 31, 0⟩
abbrev HDR.LAST_WR_MEC : Fld := ⟨0x60, 63, 0⟩
abbrev HDR.LAST_WR_MEC_MEC : Fld := ⟨0x60, 63, 0⟩
abbrev HDR.LAST_WR_MASTER : Fld := ⟨0x68, 31, 0⟩
abbrev HDR.LAST_WR_MASTER_OFS : Fld := ⟨0x68, 19, 8⟩
abbrev HDR.LAST_WR_MASTER_MASTER : Fld := ⟨0x68, 7, 0⟩
abbrev HDR.SNAP_CTL : Fld := ⟨0x70, 31, 0⟩
abbrev HDR.SNAP_CTL_JOINT : Fld := ⟨0x70, 1, 1⟩
abbrev HDR.SNAP_CTL_SNAP : Fld := ⟨0x70, 0, 0⟩
abbrev HDR.SNAP_STS : Fld := ⟨0x74, 31, 0⟩
abbrev HDR.SNAP_STS_VALID : Fld := ⟨0x74, 31, 31⟩
abbrev HDR.SNAP_STS_SEQ : Fld := ⟨0x74, 15, 0⟩
abbrev HDR.CMD_RB_OFS : Fld := ⟨0xC0, 31, 0⟩
abbrev HDR.CMD_RB_OFS_OFS : Fld := ⟨0xC0, 11, 0⟩
abbrev HDR.CMD_RB_VAL : Fld := ⟨0xC8, 63, 0⟩
abbrev HDR.CMD_RB_VAL_VAL : Fld := ⟨0xC8, 63, 0⟩
abbrev HDR.CMD_RB_MEC : Fld := ⟨0xD0, 63, 0⟩
abbrev HDR.CMD_RB_MEC_MEC : Fld := ⟨0xD0, 63, 0⟩
abbrev HDR.CMD_RB_MASTER : Fld := ⟨0xD8, 31, 0⟩
abbrev HDR.CMD_RB_MASTER_MASTER : Fld := ⟨0xD8, 7, 0⟩
abbrev HDR.INT_MEC : Fld := ⟨0xE0, 63, 0⟩
abbrev HDR.INT_MEC_MEC : Fld := ⟨0xE0, 63, 0⟩

abbrev FLT.CTL : Fld := ⟨0x100, 31, 0⟩
abbrev FLT.CTL_C4_FORCE : Fld := ⟨0x100, 31, 31⟩
abbrev FLT.CTL_LOCK : Fld := ⟨0x100, 30, 30⟩
abbrev FLT.CLR_ALL : Fld := ⟨0x104, 31, 0⟩
abbrev FLT.CLR_ALL_CLASSES : Fld := ⟨0x104, 4, 0⟩
abbrev FLT.CLASS_STS : Fld := ⟨0x108, 31, 0⟩
abbrev FLT.CLASS_STS_LIVE : Fld := ⟨0x108, 24, 20⟩
abbrev FLT.CLASS_STS_LAT : Fld := ⟨0x108, 4, 0⟩
abbrev FLT.LAST : Fld := ⟨0x110, 31, 0⟩
abbrev FLT.LAST_CLASS : Fld := ⟨0x110, 31, 29⟩
abbrev FLT.LAST_FORCED : Fld := ⟨0x110, 28, 28⟩
abbrev FLT.LAST_PAGE : Fld := ⟨0x110, 12, 0⟩
abbrev FLT.LAST_MEC : Fld := ⟨0x118, 63, 0⟩
abbrev FLT.LAST_MEC_MEC : Fld := ⟨0x118, 63, 0⟩
abbrev FLT.CLR_REFUSED : Fld := ⟨0x120, 31, 0⟩
abbrev FLT.CLR_REFUSED_COUNT : Fld := ⟨0x120, 31, 0⟩
abbrev FLT.WR_DISC : Fld := ⟨0x124, 31, 0⟩
abbrev FLT.WR_DISC_COUNT : Fld := ⟨0x124, 31, 0⟩
abbrev FLT.DIE_STS : Fld := ⟨0x128, 31, 0⟩
abbrev FLT.DIE_STS_PIN : Fld := ⟨0x128, 3, 0⟩
abbrev FLT.LINK_ERR (i : Nat) : Fld := ⟨0x130 + 4 * i, 31, 0⟩
abbrev FLT.LINK_ERR_COUNT (i : Nat) : Fld := ⟨0x130 + 4 * i, 31, 0⟩
abbrev FLT.WORD (i : Nat) : Fld := ⟨0x200 + 4 * i, 31, 0⟩
abbrev FLT.WORD_LAT (i : Nat) : Fld := ⟨0x200 + 4 * i, 31, 0⟩
abbrev FLT.PINBAD (i : Nat) : Fld := ⟨0x240 + 4 * i, 31, 0⟩
abbrev FLT.PINBAD_BAD (i : Nat) : Fld := ⟨0x240 + 4 * i, 31, 0⟩
abbrev FLT.SLOT (i : Nat) : Fld := ⟨0x400 + 4 * i, 31, 0⟩
abbrev FLT.SLOT_PAGE (i : Nat) : Fld := ⟨0x400 + 4 * i, 12, 0⟩

abbrev PMC.CTL : Fld := ⟨0x100, 31, 0⟩
abbrev PMC.CTL_OBS_EN : Fld := ⟨0x100, 31, 31⟩
abbrev PMC.CTL_AUTO : Fld := ⟨0x100, 30, 30⟩
abbrev PMC.CTL_PERIOD : Fld := ⟨0x100, 15, 0⟩
abbrev PMC.RD_CMD : Fld := ⟨0x104, 31, 0⟩
abbrev PMC.RD_CMD_LATCH : Fld := ⟨0x104, 0, 0⟩
abbrev PMC.FLT_MSTR : Fld := ⟨0x108, 31, 0⟩
abbrev PMC.FLT_MSTR_MASK : Fld := ⟨0x108, 15, 8⟩
abbrev PMC.FLT_MSTR_ID : Fld := ⟨0x108, 7, 0⟩
abbrev PMC.FLT_CLS : Fld := ⟨0x10C, 31, 0⟩
abbrev PMC.FLT_CLS_CLS : Fld := ⟨0x10C, 3, 0⟩
abbrev PMC.FLT_ALO : Fld := ⟨0x110, 31, 0⟩
abbrev PMC.FLT_ALO_ADDR : Fld := ⟨0x110, 24, 2⟩
abbrev PMC.FLT_AHI : Fld := ⟨0x114, 31, 0⟩
abbrev PMC.FLT_AHI_ADDR : Fld := ⟨0x114, 24, 2⟩
abbrev PMC.FLT_MCLS : Fld := ⟨0x118, 31, 0⟩
abbrev PMC.FLT_MCLS_MCLS : Fld := ⟨0x118, 15, 0⟩
abbrev PMC.RD_MEC : Fld := ⟨0x120, 63, 0⟩
abbrev PMC.RD_MEC_MEC : Fld := ⟨0x120, 63, 0⟩
abbrev PMC.RD_ENT (i : Nat) : Fld := ⟨0x200 + 4 * i, 31, 0⟩
abbrev PMC.RD_ENT_EN (i : Nat) : Fld := ⟨0x200 + 4 * i, 31, 31⟩
abbrev PMC.RD_ENT_PAGE (i : Nat) : Fld := ⟨0x200 + 4 * i, 28, 16⟩
abbrev PMC.RD_ENT_K (i : Nat) : Fld := ⟨0x200 + 4 * i, 1, 0⟩
abbrev PMC.WIN (i : Nat) : Fld := ⟨0x400 + 8 * i, 63, 0⟩
abbrev PMC.WIN_CNT (i : Nat) : Fld := ⟨0x400 + 8 * i, 63, 0⟩

abbrev PWR.CTL : Fld := ⟨0x100, 31, 0⟩
abbrev PWR.CTL_PFW_CAVE : Fld := ⟨0x100, 31, 31⟩
abbrev PWR.CTL_MON_CAVE : Fld := ⟨0x100, 30, 30⟩
abbrev PWR.CTL_AUTO_EXIT : Fld := ⟨0x100, 29, 29⟩
abbrev PWR.CTL_EXIT_HOLD : Fld := ⟨0x100, 15, 0⟩
abbrev PWR.CAP : Fld := ⟨0x104, 31, 0⟩
abbrev PWR.CAP_MW : Fld := ⟨0x104, 15, 0⟩
abbrev PWR.THERM : Fld := ⟨0x108, 31, 0⟩
abbrev PWR.THERM_T_ALARM : Fld := ⟨0x108, 31, 24⟩
abbrev PWR.THERM_T_THROT : Fld := ⟨0x108, 23, 16⟩
abbrev PWR.THERM_T_REL : Fld := ⟨0x108, 15, 8⟩
abbrev PWR.STEP : Fld := ⟨0x10C, 31, 0⟩
abbrev PWR.STEP_MW : Fld := ⟨0x10C, 15, 0⟩
abbrev PWR.CMD : Fld := ⟨0x110, 31, 0⟩
abbrev PWR.CMD_OP : Fld := ⟨0x110, 1, 0⟩
abbrev PWR.STS_MAIN : Fld := ⟨0x114, 31, 0⟩
abbrev PWR.STS_MAIN_STATE : Fld := ⟨0x114, 31, 29⟩
abbrev PWR.STS_MAIN_THROTTLED : Fld := ⟨0x114, 28, 28⟩
abbrev PWR.STS_MAIN_OVER_CAP : Fld := ⟨0x114, 27, 27⟩
abbrev PWR.STS_MAIN_HOT : Fld := ⟨0x114, 26, 26⟩
abbrev PWR.STS_MAIN_CAUSE : Fld := ⟨0x114, 25, 24⟩
abbrev PWR.STS_MAIN_TEMP : Fld := ⟨0x114, 23, 16⟩
abbrev PWR.EFF : Fld := ⟨0x118, 31, 0⟩
abbrev PWR.EFF_MEAS : Fld := ⟨0x118, 31, 16⟩
abbrev PWR.EFF_CAP_EFF : Fld := ⟨0x118, 15, 0⟩
abbrev PWR.COMMIT (i : Nat) : Fld := ⟨0x120 + 4 * i, 31, 0⟩
abbrev PWR.COMMIT_WAIT (i : Nat) : Fld := ⟨0x120 + 4 * i, 31, 16⟩
abbrev PWR.COMMIT_MW (i : Nat) : Fld := ⟨0x120 + 4 * i, 15, 0⟩
abbrev PWR.COST_IDX : Fld := ⟨0x140, 31, 0⟩
abbrev PWR.COST_IDX_KIND : Fld := ⟨0x140, 4, 0⟩
abbrev PWR.COST : Fld := ⟨0x144, 31, 0⟩
abbrev PWR.COST_MW : Fld := ⟨0x144, 15, 0⟩

abbrev CLKD.STS : Fld := ⟨0x100, 31, 0⟩
abbrev CLKD.STS_CAVE_CAL : Fld := ⟨0x100, 9, 9⟩
abbrev CLKD.STS_OSC_PRESENT : Fld := ⟨0x100, 8, 8⟩
abbrev CLKD.STS_LOCK : Fld := ⟨0x100, 5, 0⟩
abbrev CLKD.SS_CTL : Fld := ⟨0x104, 31, 0⟩
abbrev CLKD.SS_CTL_EN : Fld := ⟨0x104, 31, 31⟩
abbrev CLKD.SS_CTL_FMOD : Fld := ⟨0x104, 21, 16⟩
abbrev CLKD.SS_CTL_DEPTH : Fld := ⟨0x104, 5, 0⟩
abbrev CLKD.CAVE_CTL : Fld := ⟨0x108, 31, 0⟩
abbrev CLKD.CAVE_CTL_XTAL : Fld := ⟨0x108, 31, 31⟩
abbrev CLKD.CAVE_CTL_LOCK : Fld := ⟨0x108, 30, 30⟩
abbrev CLKD.EDGE : Fld := ⟨0x10C, 31, 0⟩
abbrev CLKD.EDGE_ATM : Fld := ⟨0x10C, 7, 6⟩
abbrev CLKD.EDGE_MGMT : Fld := ⟨0x10C, 5, 4⟩
abbrev CLKD.EDGE_FLASH : Fld := ⟨0x10C, 3, 2⟩
abbrev CLKD.EDGE_AUD : Fld := ⟨0x10C, 1, 0⟩
abbrev CLKD.INFILT : Fld := ⟨0x110, 31, 0⟩
abbrev CLKD.INFILT_RST_US : Fld := ⟨0x110, 13, 8⟩
abbrev CLKD.INFILT_PFW_US : Fld := ⟨0x110, 5, 0⟩
abbrev CLKD.OSC_LOSS : Fld := ⟨0x114, 31, 0⟩
abbrev CLKD.OSC_LOSS_COUNT : Fld := ⟨0x114, 31, 0⟩

abbrev PLK.CTL : Fld := ⟨0x100, 31, 0⟩
abbrev PLK.CTL_EN : Fld := ⟨0x100, 31, 31⟩
abbrev PLK.CTL_WIT_EN : Fld := ⟨0x100, 30, 30⟩
abbrev PLK.CTL_AUTO : Fld := ⟨0x100, 29, 29⟩
abbrev PLK.CTL_AUTO_REL : Fld := ⟨0x100, 28, 28⟩
abbrev PLK.CTL_PRIMARY : Fld := ⟨0x100, 27, 27⟩
abbrev PLK.CTL_NEED_B : Fld := ⟨0x100, 26, 26⟩
abbrev PLK.CTL_LOCK : Fld := ⟨0x100, 25, 25⟩
abbrev PLK.CMD : Fld := ⟨0x104, 31, 0⟩
abbrev PLK.CMD_FORCE : Fld := ⟨0x104, 2, 2⟩
abbrev PLK.CMD_OP : Fld := ⟨0x104, 1, 0⟩
abbrev PLK.STS : Fld := ⟨0x108, 31, 0⟩
abbrev PLK.STS_ROLE : Fld := ⟨0x108, 31, 29⟩
abbrev PLK.STS_LINK : Fld := ⟨0x108, 28, 26⟩
abbrev PLK.STS_FIT : Fld := ⟨0x108, 25, 25⟩
abbrev PLK.STS_SELFTEST : Fld := ⟨0x108, 24, 24⟩
abbrev PLK.STS_P_LOST : Fld := ⟨0x108, 23, 23⟩
abbrev PLK.STS_PINS : Fld := ⟨0x108, 22, 19⟩
abbrev PLK.CLAIM : Fld := ⟨0x10C, 31, 0⟩
abbrev PLK.CLAIM_NUM : Fld := ⟨0x10C, 31, 0⟩
abbrev PLK.PCLAIM : Fld := ⟨0x110, 31, 0⟩
abbrev PLK.PCLAIM_NUM : Fld := ⟨0x110, 31, 0⟩
abbrev PLK.TMO : Fld := ⟨0x114, 31, 0⟩
abbrev PLK.TMO_HB : Fld := ⟨0x114, 31, 24⟩
abbrev PLK.TMO_LINK : Fld := ⟨0x114, 23, 16⟩
abbrev PLK.TMO_FAIL : Fld := ⟨0x114, 15, 8⟩
abbrev PLK.TMO_CLAIM : Fld := ⟨0x114, 7, 4⟩
abbrev PLK.TMO_REQ : Fld := ⟨0x114, 3, 0⟩
abbrev PLK.START : Fld := ⟨0x118, 31, 0⟩
abbrev PLK.START_START : Fld := ⟨0x118, 15, 0⟩
abbrev PLK.KEY : Fld := ⟨0x11C, 31, 0⟩
abbrev PLK.KEY_SLOT : Fld := ⟨0x11C, 7, 0⟩
abbrev PLK.PUID : Fld := ⟨0x120, 63, 0⟩
abbrev PLK.PUID_UID : Fld := ⟨0x120, 63, 0⟩
abbrev PLK.MIR : Fld := ⟨0x128, 31, 0⟩
abbrev PLK.MIR_MIR : Fld := ⟨0x128, 2, 0⟩
abbrev PLK.FOLLOW : Fld := ⟨0x12C, 31, 0⟩
abbrev PLK.FOLLOW_EN : Fld := ⟨0x12C, 31, 31⟩
abbrev PLK.FOLLOW_SRC : Fld := ⟨0x12C, 1, 1⟩
abbrev PLK.FOLLOW_TS : Fld := ⟨0x12C, 0, 0⟩
abbrev PLK.ASYM : Fld := ⟨0x130, 31, 0⟩
abbrev PLK.ASYM_ASYM : Fld := ⟨0x130, 31, 0⟩
abbrev PLK.ASYM_UNC : Fld := ⟨0x134, 31, 0⟩
abbrev PLK.ASYM_UNC_CODE : Fld := ⟨0x134, 15, 0⟩
abbrev PLK.LANE_UNC : Fld := ⟨0x138, 31, 0⟩
abbrev PLK.LANE_UNC_CODE : Fld := ⟨0x138, 15, 0⟩
abbrev PLK.PMAP (i : Nat) : Fld := ⟨0x200 + 4 * i, 31, 0⟩
abbrev PLK.PMAP_PORT (i : Nat) : Fld := ⟨0x200 + 4 * i, 4, 0⟩
abbrev PLK.MEC_OFF : Fld := ⟨0x300, 63, 0⟩
abbrev PLK.MEC_OFF_OFF : Fld := ⟨0x300, 63, 0⟩
abbrev PLK.MEC_UNC : Fld := ⟨0x308, 31, 0⟩
abbrev PLK.MEC_UNC_CODE : Fld := ⟨0x308, 15, 0⟩
abbrev PLK.PX : Fld := ⟨0x310, 63, 0⟩
abbrev PLK.PX_X : Fld := ⟨0x310, 63, 0⟩
abbrev PLK.PHEALTH (i : Nat) : Fld := ⟨0x320 + 4 * i, 31, 0⟩
abbrev PLK.PHEALTH_HEALTH (i : Nat) : Fld := ⟨0x320 + 4 * i, 31, 0⟩
abbrev PLK.CNT (i : Nat) : Fld := ⟨0x380 + 4 * i, 31, 0⟩
abbrev PLK.CNT_COUNT (i : Nat) : Fld := ⟨0x380 + 4 * i, 31, 0⟩

abbrev LDR.POLICY : Fld := ⟨0x100, 31, 0⟩
abbrev LDR.POLICY_PARTNER : Fld := ⟨0x100, 31, 31⟩
abbrev LDR.POLICY_OWNER_ONLY : Fld := ⟨0x100, 30, 30⟩
abbrev LDR.POLICY_UNSIGNED_DATA : Fld := ⟨0x100, 29, 29⟩
abbrev LDR.POLICY_SELF_CONF : Fld := ⟨0x100, 28, 28⟩
abbrev LDR.POLICY_LOCK : Fld := ⟨0x100, 27, 27⟩
abbrev LDR.POLICY_CONF_TIME : Fld := ⟨0x100, 15, 0⟩
abbrev LDR.CMD : Fld := ⟨0x104, 31, 0⟩
abbrev LDR.CMD_OP : Fld := ⟨0x104, 3, 0⟩
abbrev LDR.DMA_ADDR : Fld := ⟨0x108, 63, 0⟩
abbrev LDR.DMA_ADDR_ADDR : Fld := ⟨0x108, 63, 0⟩
abbrev LDR.DMA_LEN : Fld := ⟨0x110, 31, 0⟩
abbrev LDR.DMA_LEN_LEN : Fld := ⟨0x110, 31, 0⟩
abbrev LDR.STS : Fld := ⟨0x120, 31, 0⟩
abbrev LDR.STS_PHASE : Fld := ⟨0x120, 31, 28⟩
abbrev LDR.STS_RESULT : Fld := ⟨0x120, 27, 24⟩
abbrev LDR.STS_OWNER : Fld := ⟨0x120, 23, 16⟩
abbrev LDR.STS_IMAGE : Fld := ⟨0x120, 15, 14⟩
abbrev LDR.STS_RET_VALID : Fld := ⟨0x120, 13, 13⟩
abbrev LDR.STS_CAL_ORIGIN : Fld := ⟨0x120, 12, 12⟩
abbrev LDR.STS_CAL_BAD : Fld := ⟨0x120, 11, 11⟩
abbrev LDR.STS_CFG_BAD : Fld := ⟨0x120, 10, 10⟩
abbrev LDR.STS_TRIAL : Fld := ⟨0x120, 9, 8⟩
abbrev LDR.STS_PROGRESS : Fld := ⟨0x120, 6, 0⟩
abbrev LDR.WDOG : Fld := ⟨0x128, 31, 0⟩
abbrev LDR.WDOG_EN : Fld := ⟨0x128, 31, 31⟩
abbrev LDR.WDOG_KICK : Fld := ⟨0x128, 30, 30⟩
abbrev LDR.WDOG_TMO : Fld := ⟨0x128, 15, 0⟩
abbrev LDR.RUN : Fld := ⟨0x130, 31, 0⟩
abbrev LDR.RUN_OTP_RB : Fld := ⟨0x130, 31, 24⟩
abbrev LDR.RUN_RUN_RB : Fld := ⟨0x130, 23, 16⟩
abbrev LDR.RUN_RET_RB : Fld := ⟨0x130, 15, 8⟩
abbrev LDR.RUN_VER : Fld := ⟨0x134, 31, 0⟩
abbrev LDR.RUN_VER_VERSION : Fld := ⟨0x134, 31, 0⟩
abbrev LDR.BOOTS : Fld := ⟨0x140, 31, 0⟩
abbrev LDR.BOOTS_FAILED : Fld := ⟨0x140, 31, 16⟩
abbrev LDR.BOOTS_COUNT : Fld := ⟨0x140, 15, 0⟩
abbrev LDR.REFUSED : Fld := ⟨0x144, 31, 0⟩
abbrev LDR.REFUSED_MSTR : Fld := ⟨0x144, 31, 16⟩
abbrev LDR.REFUSED_CFG : Fld := ⟨0x144, 15, 0⟩

abbrev HIF.STS : Fld := ⟨0x100, 31, 0⟩
abbrev HIF.STS_LINK_UP : Fld := ⟨0x100, 31, 31⟩
abbrev HIF.STS_WIDTH : Fld := ⟨0x100, 19, 16⟩
abbrev HIF.STS_SPEED : Fld := ⟨0x100, 3, 0⟩
abbrev HIF.MGMT_CTL : Fld := ⟨0x104, 31, 0⟩
abbrev HIF.MGMT_CTL_EN : Fld := ⟨0x104, 31, 31⟩
abbrev HIF.MGMT_CTL_CLASS : Fld := ⟨0x104, 30, 30⟩
abbrev HIF.MGMT_CTL_IBI : Fld := ⟨0x104, 29, 29⟩
abbrev HIF.MGMT_CTL_LOCK : Fld := ⟨0x104, 28, 28⟩
abbrev HIF.MGMT_CTL_ADDR : Fld := ⟨0x104, 6, 0⟩
abbrev HIF.HRX_CAP : Fld := ⟨0x108, 31, 0⟩
abbrev HIF.HRX_CAP_MBPS : Fld := ⟨0x108, 15, 0⟩
abbrev HIF.HRX_DROP : Fld := ⟨0x10C, 31, 0⟩
abbrev HIF.HRX_DROP_COUNT : Fld := ⟨0x10C, 31, 0⟩
abbrev HIF.IVEC (i : Nat) : Fld := ⟨0x400 + 4 * i, 31, 0⟩
abbrev HIF.IVEC_EN (i : Nat) : Fld := ⟨0x400 + 4 * i, 31, 31⟩
abbrev HIF.IVEC_MGMT (i : Nat) : Fld := ⟨0x400 + 4 * i, 30, 30⟩
abbrev HIF.IVEC_PF (i : Nat) : Fld := ⟨0x400 + 4 * i, 9, 8⟩
abbrev HIF.IVEC_VEC (i : Nat) : Fld := ⟨0x400 + 4 * i, 5, 0⟩

abbrev RSP6.CNT (i : Nat) : Fld := ⟨0x100 + 8 * i, 63, 0⟩
abbrev RSP6.CNT_WRAPPED (i : Nat) : Fld := ⟨0x100 + 8 * i, 63, 63⟩
abbrev RSP6.CNT_COUNT (i : Nat) : Fld := ⟨0x100 + 8 * i, 47, 0⟩
abbrev RSP6.CNT_HALF : Fld := ⟨0x300, 31, 0⟩
abbrev RSP6.CNT_HALF_HALF : Fld := ⟨0x300, 31, 0⟩

abbrev GNSS7.HT4_ID : Fld := ⟨0x100, 31, 0⟩
abbrev GNSS7.HT4_ID_V : Fld := ⟨0x100, 31, 0⟩
abbrev GNSS7.HT4_CTL : Fld := ⟨0x104, 31, 0⟩
abbrev GNSS7.HT4_CTL_V : Fld := ⟨0x104, 31, 0⟩
abbrev GNSS7.HT4_STS : Fld := ⟨0x108, 31, 0⟩
abbrev GNSS7.HT4_STS_V : Fld := ⟨0x108, 31, 0⟩
abbrev GNSS7.HT4_PPS_OFF : Fld := ⟨0x10C, 31, 0⟩
abbrev GNSS7.HT4_PPS_OFF_V : Fld := ⟨0x10C, 31, 0⟩
abbrev GNSS7.HT4_TOW : Fld := ⟨0x110, 31, 0⟩
abbrev GNSS7.HT4_TOW_V : Fld := ⟨0x110, 31, 0⟩
abbrev GNSS7.HT4_WEEK : Fld := ⟨0x114, 31, 0⟩
abbrev GNSS7.HT4_WEEK_V : Fld := ⟨0x114, 31, 0⟩
abbrev GNSS7.HT4_POS_X : Fld := ⟨0x118, 31, 0⟩
abbrev GNSS7.HT4_POS_X_V : Fld := ⟨0x118, 31, 0⟩
abbrev GNSS7.HT4_POS_Y : Fld := ⟨0x11C, 31, 0⟩
abbrev GNSS7.HT4_POS_Y_V : Fld := ⟨0x11C, 31, 0⟩
abbrev GNSS7.HT4_POS_Z : Fld := ⟨0x120, 31, 0⟩
abbrev GNSS7.HT4_POS_Z_V : Fld := ⟨0x120, 31, 0⟩
abbrev GNSS7.HT4_SURVEY : Fld := ⟨0x124, 31, 0⟩
abbrev GNSS7.HT4_SURVEY_V : Fld := ⟨0x124, 31, 0⟩
abbrev GNSS7.HT4_CN0_IDX : Fld := ⟨0x128, 31, 0⟩
abbrev GNSS7.HT4_CN0_IDX_V : Fld := ⟨0x128, 31, 0⟩
abbrev GNSS7.HT4_CN0 : Fld := ⟨0x12C, 31, 0⟩
abbrev GNSS7.HT4_CN0_V : Fld := ⟨0x12C, 31, 0⟩

end Sys2Proof.Machine
end

