-- ==== Sys2Proof/Machine/State.lean ====
section
/-! DEFINITION. The state of the block: the register file, the clock, the engines behind the registers, and the queue of waiting commands. -/

namespace Sys2Proof.Machine

/-- The clock of the block: the MEC (R40) and the accumulators of TSA and TSB, in 2^-48 ns since the PTP epoch (R38, R39, R62). -/
structure Clock where
  mec : Nat := 0
  acc : Vector Nat 2 := Vector.replicate 2 0
  deriving DecidableEq, Repr

/-- A change of a timescale that waits for its application tick (R64). -/
inductive TsChange where
  /-- An increment write (R63): the effective increment. -/
  | incr (v : Nat)
  /-- A change of writer mode (R66). -/
  | mode (v : Nat)
  /-- The start or the end of a slew (R68, R69): the signed amount in 2^-16 ns. -/
  | slew (a : Int)
  /-- A rebinding of consumer n to the other timescale (R76). -/
  | bind (n : Fin 48) (sel : Nat)
  /-- A write of TSA_XTS_CTL.RATE (R76). -/
  | xtsRate (r : Nat)
  deriving DecidableEq, Repr

/-- A step that waits for its application tick (R70, R72). -/
inductive StepOp where
  /-- Step by an amount in 2^-16 ns. -/
  | rel (a : Int)
  /-- Step to an engine time, in 2^-16 ns since the epoch. -/
  | abs (t : Nat)
  deriving DecidableEq, Repr

/-- The engine behind a timescale page: what R43 to R72 keep beyond the registers. -/
structure TsEng where
  /-- Slew still to be removed, in 2^-48 ns (R68). -/
  slewRem : Int := 0
  /-- Changes registered and not yet applied, each with its application tick, oldest first (R64). -/
  changes : List (Nat × TsChange) := []
  /-- Master that holds the arm and the MEC at which it expires (R70). -/
  arm : Option (Master × Nat) := none
  /-- Slew whose last tick this is: SLEW_COMPLETE of this tick adds the remainder (R68). -/
  ending : Bool := false
  /-- Step accepted and not yet applied, with its registration MEC and its AT_SEC choice (R72). -/
  step : Option (StepOp × Nat × Bool) := none
  /-- SEC at the registration of an AT_SEC step + 32 ticks, once that tick has come (R72). -/
  stepSec : Option Nat := none
  /-- Exact sum of all steps in 2^-48 ns, behind STEP_ACC (R43, R60), and their number (R61). -/
  stepSum : Int := 0
  steps : Nat := 0
  /-- A reference has been qualified for the timescale since package reset or Time region reset (R48). -/
  qualified : Bool := false
  /-- Bound held after a step, until the servo's first whole update (R54): the code, and the MEC of the step. -/
  stepHold : Option (Nat × Nat) := none
  /-- Step-free time in 2^-48 ns of the last write of TSA_MAN_UNC (R9, R67). -/
  manT0 : Int := 0
  /-- clockClass in force (R59); 0xF8 is the reset DEFAULT. -/
  cls : Nat := 0xF8
  /-- A lower clockClass that waits, and the step-free time in 2^-48 ns since which its match holds (R9, R59). -/
  clsBetter : Option (Nat × Int) := none
  /-- How the timescale has counted, newest first: from a MEC on, with its value at it, and what each tick adds, in 2^-48 ns (R221). -/
  law : List (Nat × Int × Int) := [(0, 0, 2 ^ 48)]
  /-- MECs of the latest steps, newest first (R61). -/
  stepMecs : List Nat := []
  /-- TSA_XTS_CTL.RATE in force since its application tick (R76). -/
  walkRate : Nat := 50
  /-- The replicas on PORTA and PORTB: difference from the timescale in 2^-48 ns (R28). -/
  replica : Vector Int 2 := Vector.replicate 2 0
  deriving DecidableEq, Repr

/-- A record of the event recorder (R339). -/
structure Record where
  typ : Nat
  link : Bool := false
  gap : Bool := false
  source : Nat
  rpt : Nat := 0
  lastDt : Nat := 0
  mec : Nat
  cal : Nat
  seqNo : Nat
  payload : List Nat
  deriving DecidableEq, Repr

/-- A line of the record memory, with its hidden clear epoch (R346). -/
structure RecLine where
  epoch : Nat
  row : Record
  deriving DecidableEq, Repr

/-- What asked for a recorder snapshot (R348). -/
structure SnapReq where
  list : Nat
  kind : Nat
  source : Nat
  deriving DecidableEq, Repr

/-- A snapshot in progress (R348): its request and starting MEC, the number of its entries, those not yet read as address, LATCH and W64, the step of the first of them (0 to begin, 1 latched, 2 read), the MEC of the engine's next action, and the (address, value) octets read. -/
structure SnapRun where
  req : SnapReq
  start : Nat
  count : Nat
  left : List (Nat × Bool × Bool)
  step : Nat := 0
  next : Nat
  pairs : List Nat := []
  deriving DecidableEq, Repr

/-- The recorder behind the REC page (R339 to R350). -/
structure RecEng where
  /-- The volatile buffer, oldest first, at most 4,096 records (R341). -/
  buf : List Record := []
  /-- Latest record of each tracked (type, source) pair by sequence number, most recently used first, at most 64 (R343). -/
  track : List (Nat × Nat × Nat) := []
  /-- The next record entered carries GAP (R344). -/
  gapNext : Bool := false
  /-- Number of buffered records a running flush copies (R341). -/
  flushing : Option Nat := none
  /-- A trigger arrived while a flush ran (R341). -/
  flushAgain : Bool := false
  /-- Record memory lines by line number (R346). -/
  lines : List (Nat × RecLine) := []
  /-- Line of the newest Wheel record (R347). -/
  wheelNewest : Option Nat := none
  /-- The overflow area of flash, newest last (R347). -/
  overflow : List Record := []
  /-- Current clear epoch (R346). -/
  epoch : Nat := 0
  /-- A clear waits for the flush: its authorising slot (R350). -/
  clearing : Option Nat := none
  /-- Token words written, by index (R350). -/
  token : List (Nat × Nat) := []
  /-- SEQ last shown through the window since the last cursor write (R349). -/
  shown : Option Nat := none
  /-- Step-free time of TSA in ns at which the running flush began (R342). -/
  flushAt : Nat := 0
  /-- The snapshot that runs (R348). -/
  snapRun : Option SnapRun := none
  /-- Snapshot requests that wait, oldest first, at most 4 (R348). -/
  snapQ : List SnapReq := []
  deriving DecidableEq, Repr

/-- The fault collector (R352 to R366). -/
structure FltEng where
  /-- Live causes: page, class and cause number (R356). -/
  live : List (Nat × Nat × Nat) := []
  /-- Regions being reset (R20, R361). -/
  resetting : List Region := []
  /-- Dies being reset: 0 PORTA, 1 PORTB (R17). -/
  dies : List (Fin 2) := []
  /-- Sources of pages whose error pin failed its test that wait for the next poll: page, class, FORCED and RAIL (R354). -/
  late : List (Nat × Nat × Bool × Bool) := []
  /-- Regions whose C4 reset waits for the flush and its snapshot (R361). -/
  c4Wait : List Region := []
  deriving DecidableEq, Repr

/-- What a sequencer waits for (R334): a bit of a register, an engine time in 2^-16 ns, a MEC, an event. -/
inductive SeqWait where
  | bit (sp : Bool) (b addr : Nat) (val : Bool)
  | time (ts : Fin 2) (t : Nat)
  | mec (t : Nat)
  | event (e : Nat)
  deriving DecidableEq, Repr

/-- One sequencer behind its page (R329 to R338). -/
structure SeqEng where
  /-- The instruction fetched and not yet issued. -/
  next : Option Instr := none
  /-- Step-free time of TSA in ns at which the run began, and the budget in ms taken then (R330, R338). -/
  runStart : Nat := 0
  budget : Nat := 0
  /-- What a WAIT waits for, and the MEC of its timeout (R334). -/
  wait : Option SeqWait := none
  deadline : Option Nat := none
  /-- CCLK is stopped in Cave (R333). -/
  frozen : Bool := false
  /-- Events that occurred while their pending bit was set, each with the CCLK cycle of its last such occurrence (R332). -/
  again : List (Nat × Nat) := []
  deriving DecidableEq, Repr

/-- The host interface (R436 to R453). -/
structure HifEng where
  /-- MSI-X table words that differ from reset, by 256 × function + word (R451). -/
  msix : List (Nat × Nat) := []
  /-- Pending bits: function and vector (R451). -/
  pba : List (Nat × Nat) := []
  /-- Messages held while the link is down (R453). -/
  held : List (Nat × Nat) := []
  /-- Host receive staging buffer (R452): octets × 1,000 that wait, the step-free time of TSA in ns at which that was so, and the frames whose turn has come while the link is down. -/
  staging : Nat := 0
  stagedAt : Nat := 0
  waiting : List Instr := []
  deriving DecidableEq, Repr

/-- A reference monitor behind its block of registers (R84 to R88, R99 to R112). Times are step-free TSA times (R60). -/
structure MonEng where
  /-- It has qualified since it left DISABLED (R84). -/
  seen : Bool := false
  /-- Step-free time in 2^-48 ns at which ACQUIRE or WTR was entered, and its length in seconds (R84, R85). -/
  began : Int := 0
  span : Nat := 0
  /-- Step-free time since which the condition behind a disqualification is false (R85). -/
  clear : Option Int := none
  /-- Latest PPS edge and last accepted pulse in 2^-16 ns; pulses missed in a row (R86). -/
  edge : Option Int := none
  last : Option Int := none
  missed : Nat := 0
  /-- Presence of the PPS, or of the reference's own signal, and of the frequency pin (R86). -/
  pps : Bool := false
  freq : Bool := false
  /-- A frequency pin: step-free time in 2^-16 ns of the first edge of a run of nominal periods that each had one, and the number of the latest (R86). -/
  runFrom : Option Int := none
  runTo : Nat := 0
  /-- The INTEGRITY, ALARM and UPSTREAM conditions (R92, R95, R97, R98). -/
  integ : Bool := false
  alarm : Bool := false
  upstream : Bool := false
  /-- Samples of x since the last second boundary: sum and count; the mean before; a mean was formed (R83). -/
  sumX : Int := 0
  numX : Nat := 0
  /-- Sum of TSB − TSA at those samples, and the mean x of the last second against TSB, in 2^-16 ns (R82). -/
  sumD : Int := 0
  xB : Int := 0
  prevX : Option Int := none
  freshX : Bool := false
  /-- A measured y waits for the second boundary (2^-56). -/
  newY : Option Int := none
  freshY : Bool := false
  /-- Uncertainty that came with the latest measurement in 2^-8 ps (G_t, R98); unbounded is none. -/
  gt : Option Nat := none
  /-- Mean x and y of each second, newest first (R100). -/
  hist : List (Option Int × Option Int) := []
  /-- Seconds since the reference entered the comparison of R100, and that of R112. -/
  age : Nat := 0
  ageJump : Nat := 0
  /-- Evaluations at which a DRIFT reference has agreed with every eligible source (R102). -/
  agreed : Nat := 0
  /-- Seconds for which the phase test with each other reference has passed (R112). -/
  pass : Vector Nat 19 := Vector.replicate 19 0
  /-- x_last has been set (R111). -/
  hasLast : Bool := false
  /-- Sum of the steps of each timescale, in 2^-48 ns, at the last mean x (R60, R82). -/
  steps : Vector Int 2 := Vector.replicate 2 0
  /-- WTR has expired and the return check waits for a mean x (R111). -/
  recheck : Bool := false
  deriving DecidableEq, Repr

/-- An atomic port (R91 to R93). -/
structure AtmEng where
  rx : List Nat := []
  /-- MECs at which the bytes of the transmit FIFO begin their transmission. -/
  tx : List Nat := []
  /-- Bytes collected after a delimiter (R92). -/
  group : Option (List Nat) := none
  /-- A steering word waits for the steering to become active (R93). -/
  held : Bool := false
  deriving DecidableEq, Repr

/-- An upstream PTP session (R94 to R96). Times in 2^-16 ns. -/
structure UsEng where
  /-- Time transmitters heard: identity, data set in comparison order, step-free time of TSA in 2^-48 ns of the last Announce. -/
  heard : List (Nat × List Nat × Int) := []
  followed : Option Nat := none
  gotSync : Bool := false
  gotAnn : Bool := false
  gotResp : Bool := false
  missed : Nat := 0
  /-- A Sync that waits for its Follow_Up: sequence, t2, correction. -/
  two : Option (Nat × Int × Int) := none
  /-- Latest t1 + c_s and t2. -/
  sync : Option (Int × Int) := none
  /-- Latest Delay_Req: sequence, t3. -/
  req : Option (Nat × Int) := none
  /-- Bounds from error-bound TLVs as codes, newest first, by the kind of message that carried them: 0 Sync and Follow_Up, 1 Delay_Resp, 2 Announce. A message of a kind without such a TLV takes its kind's out (R87). -/
  tlv : List (Nat × Nat) := []
  /-- sequenceId of the next message the session sends. -/
  txSeq : Nat := 0
  /-- The last 16 offsets, newest first. -/
  offs : List Int := []
  sumMpd : Int := 0
  /-- Granted durations in s of Announce, Sync and Delay_Resp. -/
  grants : Vector Nat 3 := Vector.replicate 3 0
  deriving DecidableEq, Repr

/-- The ensemble check: largest discrepancy of each reference in ps (R101). -/
structure EnsEng where
  dis : Vector Nat 19 := Vector.replicate 19 0
  deriving DecidableEq, Repr

/-- A selector (R105 to R113). -/
structure SelEng where
  /-- Seconds for which the lock condition has held (R108). -/
  lock : Nat := 0
  /-- The servo has made a measurement update against a selected reference (R113). -/
  updated : Bool := false
  /-- The slew of the switch or RELOCK in progress, in 2^-16 ns. -/
  amount : Int := 0
  /-- What was slewed of earlier slews of this RELOCK, ended by a step (R60, R123). -/
  done : Int := 0
  /-- A step fell into the running measurement interval, or into the last one: no update is formed, and no step decided, from it (R113, R115). -/
  stepped : Bool := false
  steppedLast : Bool := false
  /-- MEC at which the running measurement interval began; it lies wholly within the present state, and outside a slew of RELOCK (R108, R120). -/
  since : Nat := 0
  clean : Bool := false
  /-- The selected reference stopped being selectable within the switch: no further writes until its end (R109). -/
  lost : Bool := false
  /-- SETTLE of the switch in s, while its slew or step has still to end (R109). -/
  settle : Option Nat := none
  deriving DecidableEq, Repr

/-- A servo core (R114 to R117). -/
structure SvcEng where
  /-- RUN has been written since package reset. -/
  begun : Bool := false
  halted : Bool := false
  /-- RUN was written 1 since the halt. -/
  rearmed : Bool := false
  /-- The integrator in 2^-80 (log entry 23). -/
  yint : Int := 0
  /-- Step-free time in 2^-48 ns of the last update (R9, R49). -/
  updAt : Int := 0
  /-- x̂ in 2^-16 ns and y_int in 2^-56 of the last 64 updates, newest first. -/
  xs : List Int := []
  ys : List Int := []
  /-- Phase sum of aided holdover in 2^-56 s (R120). -/
  aidSum : Int := 0
  deriving DecidableEq, Repr

/-- One bin of the holdover unit (R118): valid, mean effective increment, mean y of both atomic ports, and the FUNC codes of the references selected. -/
structure Bin where
  valid : Bool
  incr : Nat
  y : Vector (Option Int) 2
  funcs : List Nat
  /-- The increment in force at the end of the bin, and the mean y of both ports in its last second (R118). -/
  last : Nat
  yLast : Vector (Option Int) 2
  deriving DecidableEq, Repr

/-- A holdover unit (R118 to R124). -/
structure HldEng where
  /-- Bins, newest first, and the increment in force when their record began. -/
  bins : List Bin := []
  base : Nat := 2 ^ 48
  /-- The running bin: increment × ticks so far, ticks, MEC of the last entry, still valid, sums and counts of y, FUNC codes. -/
  incSum : Nat := 0
  incTicks : Nat := 0
  incAt : Nat := 0
  whole : Bool := false
  ySum : Vector Int 2 := Vector.replicate 2 0
  yNum : Vector Nat 2 := Vector.replicate 2 0
  funcs : List Nat := []
  /-- Published codes of the last 14,400 s that no later one reaches, newest first, with their step-free times in 2^-48 ns (R9, R50). -/
  pub : List (Int × Nat) := []
  /-- The entry in force: step-free start in 2^-48 ns, B_entry in 2^-8 ps (none is unbounded), coefficient set, F and ȳ, trace instance (R119 to R121). -/
  start : Int := 0
  bEntry : Option Nat := none
  set : Nat := 0
  fEntry : Nat := 0xFFFFFFFF
  yAvg : Int := 0
  traceClass : Nat := 0xF
  /-- The atomic port that aids (R120). -/
  aid : Option (Fin 2) := none
  /-- The aid chosen at the original entry. -/
  aidFirst : Option (Fin 2) := none
  /-- I_avg of an entry whose write of the increment is 2 ticks away (R119). -/
  entryWrite : Option Nat := none
  /-- H_r of R123 as a code. -/
  hr : Nat := 0xFFFF
  /-- B_ph of R124 as a code, and its step-free time. -/
  phase : Option (Nat × Int) := none
  deriving DecidableEq, Repr

/-- What a frame to transmit is. -/
inductive TxKind where
  | syncOne | syncTwo | followUp | announce | delayResp | signaling | ntp | nts | esmc | host | delayReq | usSignaling
  deriving DecidableEq, Repr

/-- A frame that waits for transmission (R201, R230, R232). -/
structure TxFrame where
  kind : TxKind
  level : Nat
  /-- Message class, for the stamp queue (R233). -/
  cls : Nat
  len : Nat
  /-- MEC of its release, from which hold counts (R202). -/
  released : Nat
  /-- Scheduled launch edge in 2^-16 ns of MEC (R232, R244). -/
  sched : Option Nat := none
  /-- Fixed timescale of its entry; none follows the port's binding (R240). -/
  fixed : Option (Fin 2) := none
  /-- Its timescale, and the number of steps applied to it when its request was stamped (R61). -/
  step : Option (Fin 2 × Int) := none
  trans : Nat := 0
  dst : Nat := 0
  mcast : Bool := false
  sTci : Option Nat := none
  cTci : Option Nat := none
  dom : Nat := 0
  seq : Nat := 0
  /-- Key slot and material of its ICV, and the octets of its authentication TLV before the ICV (R306). -/
  auth : Option (Nat × List Nat) := none
  tlv : List Nat := []
  /-- The fields composed before its commit. -/
  fields : List Nat := []
  /-- The upstream session that sends it (R96). -/
  us : Option (Fin 4) := none
  deriving DecidableEq, Repr

/-- A stamp in a port's queue (R233). -/
structure PortStamp where
  time : Nat
  gap : Bool
  tx : Bool
  cls : Nat
  bound : Nat
  seq : Nat
  deriving DecidableEq, Repr

/-- What the stamps of a frame's timestamp point give: on the port's own view, on TSA and on TSB, each in 2^-16 ns with its bound code; and the timescale of its own view with the number of its steps applied by then (R61, R221, R240). -/
structure RxMark where
  own : Int × Nat
  a : Int × Nat
  b : Int × Nat
  ts : Fin 2
  steps : Nat
  deriving DecidableEq, Repr

/-- A preempted frame under reassembly (R208): its number, the count its next fragment carries, its octets so far, whether it is spoilt, and the stamps of its first fragment (R218). -/
structure Reasm where
  num : Fin 4
  frag : Fin 4
  len : Nat
  bad : Bool
  mark : Option RxMark
  deriving DecidableEq, Repr

/-- A frame between its commit and its launch: its launch edge, ε_tx in 2^-16 ns and the delays in ps in force at its commit, and its stamp where it carries one (R224, R230, R231). -/
structure Flight where
  f : TxFrame
  edge : Nat
  eps : Int
  ps : Int
  t : Option Int
  deriving DecidableEq, Repr

/-- A port behind its page (R199 to R213). -/
structure PortEng where
  /-- Transmit queues of levels 1, 2 and 3, oldest first (R201, R243). -/
  l1 : List TxFrame := []
  l2 : List TxFrame := []
  l3 : List TxFrame := []
  /-- The frame in progress, the MEC at which its current part began, octets of it sent before, and the MEC at which the part ends. -/
  cur : Option (TxFrame × Nat × Nat) := none
  busy : Nat := 0
  /-- A preempted frame and the octets of it already sent (R207). -/
  cut : Option (TxFrame × Nat) := none
  /-- MEC at which a received PAUSE ends (R205). -/
  paused : Option Nat := none
  /-- Frames committed and not yet launched, and the frame under reassembly (R208, R230). -/
  fly : List Flight := []
  reasm : Option Reasm := none
  /-- Verify mPackets sent (R206). -/
  tries : Nat := 0
  /-- Low-power idle in force: EN and TW (R211); the MEC at which a wake ends. -/
  lpiEn : Bool := false
  lpiTw : Nat := 0
  wake : Option Nat := none
  /-- Host receive bucket: octets in 2^-3 × 10^-3, and their step-free time of TSA in ns; none is full (R60, R212). -/
  tokens : Option (Nat × Nat) := none
  /-- The lane PLL is locked (R199). -/
  pll : Bool := false
  /-- Level 1 credits reserved at admission and not yet queued (R243). -/
  credits : Nat := 0
  deriving DecidableEq, Repr

/-- What an operation in a lane is for; an NTS request carries slot, epoch and material of the sealing key at its dispatch (R304). -/
inductive Job where
  | dreq (x : DreqIn)
  | sig (x : SigIn)
  | nts (x : NtpIn) (sk : Nat × Nat × List Nat)
  | send (f : TxFrame)
  deriving DecidableEq, Repr

/-- An operation in a lane (R290): operation code of CLn_QENT, slot, epoch and mirrored material of its key, port, and its purpose. -/
structure LaneOp where
  op : Nat
  slot : Nat
  epoch : Nat
  mat : List Nat
  port : Fin 24
  job : Job
  deriving DecidableEq, Repr

/-- A crypto lane (R290 to R292). -/
structure LaneEng where
  queue : List LaneOp := []
  /-- The queue drains before a commanded known-answer test (R292). -/
  draining : Bool := false
  /-- The known-answer test has passed, and the lane waits for FENCE = 0. -/
  passed : Bool := false
  deriving DecidableEq, Repr

/-- The image of a key slot in key memory: ATTR0 to ATTR3 and the material (R294, R300, R315). -/
structure KeyImage where
  a0 : Nat := 0x1FF000
  a1 : Nat := 0
  a2 : Nat := 0
  a3 : Nat := 0
  mat : List Nat := []
  deriving DecidableEq, Repr

/-- A command of the key store in progress: its code, slot, starting step-free time of TSA in ns, and the image it will leave (R300). -/
structure KeyRun where
  op : Nat
  slot : Nat
  start : Nat
  img : KeyImage
  deriving DecidableEq, Repr

/-- The key store (R294 to R313). -/
structure KeyEng where
  /-- Slot images in key memory, by slot; an EMPTY slot is not listed. -/
  nv : List (Nat × KeyImage) := []
  /-- Staged words written since the last command, by index (R298). -/
  staged : List (Nat × Nat) := []
  /-- The command in progress. -/
  run : Option KeyRun := none
  /-- Slots no longer loadable while a command that invalidates them runs (R300). -/
  blocked : List Nat := []
  /-- KEY_LC_STS as blown since the part was made; none is the fuse value (R311). -/
  lc : Option Nat := none
  /-- Life-cycle token octets written, by word (R311). -/
  token : List (Nat × Nat) := []
  /-- The owner key hash in OTP, as blown since the part was made; none is the fuse value (R311). -/
  owner : Option (List Nat) := none
  /-- Nonces drawn from the TRNG (R303, R312, R350). -/
  nonces : Nat := 0
  /-- Slot whose PREPARE found no COMMIT when a reset ended its command (R301). -/
  torn : Option Nat := none
  /-- Root areas of OTP that are spent without their OK bit, and a root that is being blown (R308). -/
  spent : Nat := 0
  rooting : Bool := false
  deriving DecidableEq, Repr

/-- A fairness bucket (R248): tokens in 2^-16 of a response, step-free time of TSA in ns of its latest request, its drops. -/
structure Bucket where
  pipe : Nat := 0
  crypto : Nat := 0
  last : Nat := 0
  drops : Nat := 0
  deriving DecidableEq, Repr

/-- Multicast origination of a domain on a port (R255): next due times in 2^-16 s of step-free time, next sequenceIds. -/
structure McastEng where
  dueSync : Nat := 0
  dueAnn : Nat := 0
  seqSync : Nat := 0
  seqAnn : Nat := 0
  deriving DecidableEq, Repr

/-- The responder (R235 to R264). -/
structure RspEng where
  /-- Port policers: tokens in 10^-6 of a frame and their step-free time of TSA in ns; none is full (R60, R247). -/
  pol : Vector (Option (Nat × Nat)) 24 := Vector.replicate 24 none
  buckets : List (Nat × Bucket) := []
  /-- Carry of the epoch, and reserved work of this epoch and the one before, in 2^-16 of a response or operation (R248). -/
  carryP : Nat := 0
  carryC : Nat := 0
  usedP : Nat := 0
  usedC : Nat := 0
  prevP : Nat := 0
  prevC : Nat := 0
  /-- Reserved work dropped in this epoch, and the reserved requests of this epoch by bucket, in the same units; the position of the ascending order, and the buckets whose reserved requests it sheds in this epoch (R248). -/
  lackP : Nat := 0
  lackC : Nat := 0
  asked : List (Nat × Nat × Nat) := []
  pos : Nat := 0
  shed : List Nat := []
  /-- Capacity of the epoch in tokens: a loss counts from the next one (R250, R264). -/
  epP : Nat := 0
  epC : Nat := 0
  /-- Responses of this second while NOT_READY (R239), and reserved multicast Delay_Req of this second by 8 × port + domain (R246). -/
  nr : Vector Nat 24 := Vector.replicate 24 0
  mcUsed : List (Nat × Nat) := []
  /-- Drops of this second by counter index (R251), and whether one makes it an overload second. -/
  drops : List (Nat × Nat) := []
  overload : Bool := false
  /-- Unicast reserved work in 1/128 messages per second (R246, R283). -/
  qp : Nat := 0
  qc : Nat := 0
  /-- Units counted in capacity: kind and instance (R250). -/
  counted : List (Nat × Nat) := []
  /-- Signaling messages that wait for the engine (R235, R252). -/
  sigQ : List (Fin 24 × SigIn) := []
  /-- Slot of step-free time last served by the wheel, in 2^-16 s (R255). -/
  slot : Option Nat := none
  /-- Multicast originations by 8 × port + domain. -/
  mc : List (Nat × McastEng) := []
  /-- QL last sent on each port (R263). -/
  ql : Vector (Option Nat) 24 := Vector.replicate 24 none
  /-- The last leap applied to each timescale: its kind, its second, and the second at which it applied (R260, R261). -/
  leap : Vector (Option (Nat × Nat × Nat)) 2 := Vector.replicate 2 none
  /-- σ of each timescale in 2^-16 ns as it walks back after a cancelled leap, with the insertion flag and the step-free time of the cancel in 2^-48 ns (R261). -/
  unsmear : Vector (Option (Nat × Bool × Int)) 2 := Vector.replicate 2 none
  deriving DecidableEq, Repr

/-- The client store beyond its words (R282 to R287). -/
structure CstEng where
  poison : List Nat := []
  /-- Poisoned entries whose W0 or W4 cannot be read (R282). -/
  bad : List Nat := []
  /-- A pass has met an uncorrectable W0 or W4 (R283). -/
  lost : Bool := false
  /-- Step-free time in 2^-48 ns at which Brine was entered (R286). -/
  brineAt : Int := 0
  bankCe : List (Nat × Nat) := []
  deriving DecidableEq, Repr

/-- One direction of an audio port (R317 to R327). Times of V in 2^-48 ns. -/
structure AudEng where
  /-- The oscillator of a master is locked (R327). -/
  osc : Bool := false
  /-- The epoch offset in force, and the start point (R319, R320). -/
  o : Int := 0
  startAt : Option Int := none
  /-- MEC at which frame 0 began, while the direction runs at its nominal rate (R327). -/
  free : Option Nat := none
  /-- Count of the start still shown while the phase is walked to the epoch: what to add to the count of R319 (R327). -/
  ahead : Int := 0
  /-- Offset of the frame boundaries from the epoch at a step-free time of TSA, and the steps applied to the timescale in use then, with that timescale (R317, R323). -/
  off : Int := 0
  offAt : Int := 0
  steps : Int := 0
  ts : Fin 2 := 0
  /-- Count of the last frame served; a boundary of a slave waits to be served. -/
  last : Option Nat := none
  edge : Bool := false
  /-- The last frame emitted: samples in slot order (R322). -/
  frame : List Nat := []
  /-- RX frames have been dropped since the last record (R321). -/
  gap : Bool := false
  /-- Consecutive frame starts since the input was last lost; the input is present (R324). -/
  seen : Nat := 0
  present : Bool := false
  /-- Frame starts of this second of V: first, last and number (R325). -/
  first : Int := 0
  final : Int := 0
  starts : Nat := 0
  /-- Rate reported when RATE_CHG was last set, in mHz (R325). -/
  base : Nat := 0
  /-- Records that wait for the PCIe link (R453). -/
  held : List (List Nat) := []
  deriving DecidableEq, Repr

/-- The redundant pair (R397 to R415). Times are ns of step-free TSA (R9) where no MEC is named. -/
structure PlkEng where
  /-- B_ref of the partner as reference 19, as a code (R409). -/
  bref : Nat := 0xFFFF
  /-- An exchange has completed since the last second boundary (R410). -/
  freshX : Bool := false
  /-- The last offsets, newest first, in 2^-16 ns (R409). -/
  offs : List Int := []
  /-- Consecutive messages that failed their tag; the highest MEC accepted from the partner (R398, R399). -/
  fails : Nat := 0
  lastMec : Nat := 0
  /-- Time of the last valid message and of the last HB_IN edge, or of the enabling (R400). -/
  lastMsg : Nat := 0
  hbAt : Nat := 0
  /-- Level of HB_OUT (R400). -/
  hbOut : Bool := false
  /-- The partner's UID, and its last report (R398, R408). -/
  uid : Nat := 0
  report : Option Health := none
  /-- FIT of the report that PLK_PHEALTH holds (R414). -/
  pfit : Bool := false
  /-- An ACTIVE report has come since STANDBY was entered; since when the second and third cases of R407, and the AUTO_REL case of R404, have held. -/
  active : Bool := false
  unfit : Option Nat := none
  start : Option Nat := none
  rel : Option Nat := none
  /-- The request was forced; its cause; when the grant came (R404). -/
  force : Bool := false
  cause : Nat := 0
  grantAt : Option Nat := none
  /-- The claim number in the record memory control area (R401). -/
  claimNv : Nat := 0
  /-- Entries written by the mirror path, still locked (R411). -/
  mirrored : List Nat := []
  /-- Mirroring was broken off when the link left UP (R413). -/
  gap : Bool := false
  /-- ε_tx of the lane in 2^-16 ns, from its probe dwells (R225, R410). -/
  eps : Int := 0
  /-- A calibration slot of the lane falls due; the one that runs, with its start and its end; what it has measured; the A_rx installed in 2^-16 ns, and whether a slot has been accepted since ALIGN was entered (R226 to R228, R410). -/
  due : Bool := false
  slot : Option (Nat × Nat) := none
  meas : Option LoopMeas := none
  arx : Int := 0
  cal : Bool := false
  /-- The last SYNC sent: its MEC as its message carries it, and its stamp (R410). -/
  sync : Option (Nat × LaneStamp) := none
  /-- When the gated EVO stages were last checked (R406). -/
  evoAt : Nat := 0
  /-- The store as last sent to the standby (R411). -/
  sent : List (Nat × BitVec 64) := []
  deriving DecidableEq, Repr

/-- The timestamp unit of a port (R219 to R234). -/
structure PtsEng where
  /-- B_port in use, in 2^-8 ps; unbounded is none (R229). -/
  bport : Option Nat := none
  /-- The stamp queue of 64, oldest first (R233). -/
  queue : List PortStamp := []
  gap : Bool := false
  /-- Step-free times of TSA, in 2^-48 ns, of the last dwell and the last accepted slot; temperatures in 0.1 °C at them (R229). -/
  probeAt : Option Int := none
  slotAt : Option Int := none
  probeT : Int := 0
  slotT : Int := 0
  /-- Step-free time of TSA of the last slot of any result; a slot is called for by CAL_NOW (R226). -/
  lastSlot : Int := 0
  called : Bool := false
  /-- The running slot: it began in ALIGN, and its starting and ending MEC (R227). -/
  slot : Option (Bool × Nat × Nat) := none
  /-- Window of the latest slot, in MEC, within which received frames are lost (R227). -/
  win : Nat × Nat := (0, 0)
  /-- A slot waits: that of an entry into ALIGN, or one that fell due while another ran (R226). -/
  due : Bool := false
  /-- What the running slot has measured (R227, R228). -/
  meas : Option LoopMeas := none
  /-- A dwell's ε_tx that waits for the launch of a scheduled frame (R225). -/
  eps : Option Int := none
  deriving DecidableEq, Repr

/-- The GNSS receiver (R126 to R148). -/
structure GnssEng where
  /-- Words of GNSS_CH_STS of the channels that are not idle, and as latched (R147). -/
  ch : List (Nat × Nat) := []
  chLat : List (Nat × Nat) := []
  /-- The band A signal of each channel that is not GPS L1 C/A: 1 Galileo E1, 2 BeiDou B1C, 3 GPS L1C (R126, R127). -/
  sig : List (Nat × Nat) := []
  /-- Signals that wait for an engine, and each engine's signal with its untested dwells and the step-free time of TSA in 2^-48 ns at which the running one ends (R129). -/
  queue : List GnssSig := []
  /-- Signals of a warm or cold start that wait for the first GPS time solution (R130), and whether the start is still under way (R145). -/
  later : List GnssSig := []
  starting : Bool := false
  eng : Vector (Option (GnssSig × Nat × Int)) 8 := Vector.replicate 8 none
  /-- Whole TREF second of the last internal pulse, counted from the PTP epoch (R133). -/
  sec : Option Nat := none
  /-- Stamp of the internal pulse by the channel that names it, in 2^-16 ns of step-free TSA (R60, R133, R171). -/
  stamp : Option Int := none
  /-- A measurement that is to be delivered: x in 2^-16 ns, G_t in 2^-8 ps, and its stamp, in step-free terms (R133, R134, R138). -/
  meas : Option (Int × Option Nat × Int) := none
  /-- Satellites excluded by RAIM, by 64 × system + number (R136). -/
  excl : List Nat := []
  /-- Seconds in a row with low gain on each band, and seconds in a row each alarm's test has passed (R137, R139). -/
  low : Vector Nat 2 := Vector.replicate 2 0
  pass : Vector Nat 4 := Vector.replicate 4 0
  /-- TREF second whose clock-jump test failed last; delivered measurements and their stamps in step-free terms (R137, R138). -/
  jump : Option Nat := none
  hist : List (Int × Int) := []
  /-- The survey: solutions, step-free time of TSA of the last in 2^-48 ns, sums of the coordinates and of their squares in cm (R9, R135). -/
  surN : Nat := 0
  surAt : Int := 0
  surX : Int := 0
  surY : Int := 0
  surZ : Int := 0
  surSq : Nat := 0
  /-- Step-free time of TSA, in seconds, of the newest ephemeris of each satellite, by 64 × system + number (R130, R141). -/
  eph : List (Nat × Nat) := []
  /-- No measurement has come since the wake (R142). -/
  woke : Bool := false
  /-- Bias current of GNB is out of window (R127). -/
  biasB : Bool := false
  deriving DecidableEq, Repr

/-- A unit that requests power (R378 to R380): kind of R379 and instance, precedence, arrival, and the MEC of its grant. -/
structure PwrUnit where
  kind : Nat
  inst : Nat
  prec : Nat
  arrival : Nat
  granted : Option Nat := none
  /-- Step-free time of TSA, in ns, since which the grant holds (R9, R250). -/
  held : Nat := 0
  deriving DecidableEq, Repr

/-- The scheduler (R378 to R385). -/
structure PwrEng where
  /-- Units that request, granted or waiting. -/
  units : List PwrUnit := []
  /-- Temperatures of CORE, ANALOG, PORTA and PORTB in 0.1 °C, as last sampled (R384). -/
  dieT : Vector Int 4 := Vector.replicate 4 0
  /-- PFW is asserted behind its filter (R394). -/
  pfw : Bool := false
  /-- The internal power-fail monitor has tripped (R395). -/
  trip : Bool := false
  /-- POWER_CAP in force since an admission cycle, in mW (R383). -/
  cap : Nat := 10000
  /-- Consecutive samples above CAP_EFF; samples of this second, and whether every one was COOL (R384). -/
  above : Nat := 0
  samples : Nat := 0
  cool : Bool := true
  /-- An exit was requested while Cave was being entered (R390). -/
  exit : Bool := false
  /-- MEC at which the exit from Cave began, until STATE is RUN (R390). -/
  left : Option Nat := none
  /-- Step-free time of TSA, in ns, at which OSC was lost (R376). -/
  oscLost : Option Nat := none
  /-- PKG_RST_N waits for the flush of a power failure (R392). -/
  rst : Bool := false
  /-- A C4 region reset that waits for Cave to be left (R390). -/
  held : List Region := []
  deriving DecidableEq, Repr

/-- The update journal (R420, R429): phase, lock owner, trial count, blocks of a copy done, a trial watchdog expiry, and a restore that ended. -/
structure Journal where
  phase : Nat := 0
  owner : Nat := 0xFF
  trial : Nat := 0
  done : Nat := 0
  expired : Bool := false
  restored : Bool := false
  deriving DecidableEq, Repr

/-- A boot in progress (R416): what it meets, the next of its stages, and the step-free time of TSA in ns at which that is due. -/
structure BootRun where
  x : BootIn
  stage : Nat
  due : Nat
  deriving DecidableEq, Repr

/-- The loader (R416 to R435). -/
structure LdrEng where
  /-- The flash, and the journal in it (R419, R420). -/
  flash : Flash := ⟨none, none, none, none, none⟩
  jnl : Journal := {}
  /-- OTP rollback count as blown since the part was made; none is the fuse value (R422). -/
  otp : Option Nat := none
  /-- Boots counted in the record memory, and boot watchdog expiries (R345, R417). -/
  boots : Nat := 0
  failed : Nat := 0
  /-- Body hash of the running Sivon image (R309). -/
  imageHash : List Nat := []
  /-- The calibration set as held in flash (R309, R423). -/
  calBody : List Nat := []
  /-- The words and tables of the calibration set loaded at boot (R16, R423). -/
  cal : List (Nat × Nat) := []
  tabs : List TdcTab := []
  /-- Sessions by master: the container whose header has been fetched (R427). -/
  sess : List (Nat × Container) := []
  /-- The container that a slot write or CAL_COMMIT writes (R425). -/
  slot : Option Container := none
  /-- Generation of the governing slots (R420). -/
  gen : Nat := 0
  /-- Step-free time of TSA, in ns, at which the running copy began, and from which the conditions of R432 have held. -/
  began : Nat := 0
  confFrom : Nat := 0
  /-- The boot in progress (R416). -/
  boot : Option BootRun := none
  deriving DecidableEq, Repr

/-- A synthesizer (R149 to R158). N_eff in 2^-40, phases in 2^-16 ns. -/
structure SynEng where
  /-- The next entry into LOCKED is the first since START (R155). -/
  first : Bool := true
  /-- Consecutive gates in lock; gates since LOCKING was entered (R155). -/
  inLock : Nat := 0
  tried : Nat := 0
  /-- SCALE in force (R156). -/
  scale : Nat := 0
  /-- Tuning word at the end of the latest gate, and those of the last 16 gates, newest first (R155). -/
  tune : Nat := 0
  tunes : List Nat := []
  /-- N_eff in force, and at the start of the running gate (R153). -/
  neff : Nat := 0
  neffGate : Nat := 0
  /-- MEC at which the running gate began, or the first after the VCO calibration begins, and the word of SYNn_LOCK_CTL that it uses (R155). -/
  gateAt : Nat := 0
  lockWord : Nat := 0x04080210
  /-- Integrator of the phase loop in 2^-80 (R151). -/
  yint : Int := 0
  /-- Consecutive gates over which neither condition of R154 held. -/
  good : Nat := 0
  /-- Step-free time of TSA, in ns, at which FREEZE was entered (R155). -/
  frozeAt : Nat := 0
  /-- MEC at which the outputs held by ALIGN start again (R155). -/
  alignAt : Option Nat := none
  /-- The spread in force: centre, FMOD in kHz, DEPTH; and the MEC at which it began (R158). -/
  spread : Option (Bool × Nat × Nat) := none
  spreadAt : Nat := 0
  /-- Sum and count of e over the running modulation period (R158). -/
  eSum : Int := 0
  eNum : Nat := 0
  /-- Number of that modulation period. -/
  ePer : Nat := 0
  /-- It was enabled when a C4 reset its region, and passes START again once the fault is cleared (R156). -/
  again : Bool := false
  deriving DecidableEq, Repr

/-- A clock output (R161): format in force; PHASE walks from a value it had at a MEC. -/
structure CkoEng where
  fmt : Nat := 0
  /-- MEC of the grid edge at which it starts, or of the end of the cycle after which it is held; a held cycle begins anew at once (R155, R161). -/
  due : Option (Nat × Bool) := none
  redo : Bool := false
  phBase : Nat := 0
  phAt : Nat := 0
  deriving DecidableEq, Repr

/-- A stamp of the measurement array (R170 to R176): engine time in 2^-16 ns, its timescale and tags. -/
structure Stamp where
  time : Nat
  ts : Nat
  gap : Bool := false
  collide : Bool := false
  falling : Bool
  src : Nat
  lane : Nat
  bound : Nat
  deriving DecidableEq, Repr

/-- A measurement channel (R166 to R176). -/
structure TdcEng where
  /-- The queue of 256 and the stream FIFO of 4,096, oldest first. -/
  queue : List Stamp := []
  fifo : List Stamp := []
  gapQ : Bool := false
  gapS : Bool := false
  /-- Input of the latest stamped edge of a group. -/
  lane : Nat := 0
  /-- Edges since the last stamped one, for decimation. -/
  decim : Nat := 0
  /-- A stamp of an EVI group in the dead time it opened: its arrival in 2^-16 ns of MEC, DEST when it was taken, and the stamp (R168). -/
  held : Option (Nat × Nat × Stamp) := none
  /-- The tick of the latest write of CTL or MUX, with CTL and the source still in force in it (R169). -/
  old : Option (Nat × Nat × Nat) := none
  /-- Edges of the pin since the last one the prescaler passed (R89). -/
  presc : Nat := 0
  /-- The running gate: first and last stamp, stamps, edges since the first, edges up to the last (R173). -/
  gFirst : Int := 0
  gLast : Int := 0
  gStamps : Nat := 0
  gCount : Nat := 0
  gE : Nat := 0
  /-- The last overlap differed by more than 3 ps (R179). -/
  ovlBad : Bool := false
  deriving DecidableEq, Repr

/-- One of the 17 interpolator units: TDC0 to TDC15 and TDCS (R178 to R183). -/
structure TdcUnit where
  /-- Table entries written by the host since the table was installed, by bin. -/
  ents : List (Nat × Nat) := []
  /-- Counts of the installed calibration, or of the calibration set. -/
  table : Option (List Nat) := none
  /-- Counts of the last calibration, installed or not. -/
  counts : List Nat := []
  /-- Arrival of the latest stamped edge, in 2^-16 ns of MEC. -/
  last : Option Nat := none
  rejects : Nat := 0
  retired : Bool := false
  /-- It has stopped stamping (R181). -/
  stopped : Bool := false
  /-- Step-free time of TSA, in ns, of the table (R185). -/
  calAt : Option Nat := none
  /-- Die temperature in 0.1 °C at the last calibration. -/
  temp : Option Int := none
  deriving DecidableEq, Repr

/-- Rotation and the stream arbiter (R176, R179). -/
structure TdcsEng where
  next : Nat := 0
  /-- Units called to the front of the order, first first. -/
  front : List Nat := []
  /-- MEC until which a link measurement keeps TDCS out of its rotation (R26). -/
  linkUntil : Nat := 0
  /-- The channel that the calibration unit holds at its own source, and the source TDCS took from it (R167, R179). -/
  cal : Option (Fin 16) := none
  src : Nat := 0
  /-- Step-free time of TSA at which the overlap began, and at which the switch took place (R179). -/
  origin : Int := 0
  began : Int := 0
  /-- Common edges of the overlap, and the sum of their differences, channel minus TDCS, in 2^-16 ns. -/
  common : Nat := 0
  diff : Int := 0
  /-- The table of this calibration has been checked. -/
  checked : Bool := false
  /-- A RESTORE runs. -/
  restoring : Bool := false
  /-- The table checked in this calibration was installed. -/
  passed : Bool := false
  /-- Step-free time of TSA in 2^-48 ns before which no further calibration slot begins (R226). -/
  slotFree : Int := 0
  /-- The probe tap last dwelt on, P0 to P23 and 24 for the Kwager lane, and the step-free time of TSA at which the running dwell began (R225). -/
  probeLast : Nat := 24
  probeFrom : Int := 0
  /-- Channel last served by the arbiter. -/
  rr : Nat := 15
  deriving DecidableEq, Repr

/-- A pulse generator (R186 to R192): the latched sequence in 2^-16 ns, the next index, the view time at which the pulse in progress ends. -/
structure EvoEng where
  start : Nat := 0
  period : Nat := 0
  width : Nat := 0
  /-- Number of indices; none is periodic. -/
  count : Option Nat := some 0
  next : Nat := 0
  /-- An index of the latched sequence has been emitted. -/
  emitted : Bool := false
  pulse : Option Int := none
  deriving DecidableEq, Repr

/-- A capture input (R193, R194): filtered level, MEC and step-free time of TSA of the latest accepted edge of each direction, the tick of the latest write of CTL with the word in force in it. -/
structure EviEng where
  old : Option (Nat × Nat) := none
  low : Option Bool := none
  rise : Option (Nat × Int) := none
  fall : Option (Nat × Int) := none
  deriving DecidableEq, Repr

/-- How a consumer's view was formed until a change of its binding or of its walk: the MEC of the change, the timescale in use, the correction at that MEC and what each tick walked off it, in 2^-48 ns (R76, R221). -/
structure ViewPast where
  cons : Fin 48
  mec : Nat
  cur : Fin 2
  corr : Int
  walk : Int
  deriving DecidableEq, Repr

/-- What leaves the block; log entry 4. -/
inductive Output where
  | msix (pf vec : Nat)
  | ibi (octets : List Nat)
  | hostMem (addr : Nat) (octets : List Nat)
  | uart (n : Fin 2) (octet : Nat)
  | spi (n : Fin 2) (len word : Nat)
  | message (kind : String) (args : List Nat)
  deriving DecidableEq, Repr

/-- A die link (R25, R26): its stored correction in 2^-16 ns, and the step-free time of TSA in 2^-48 ns of its last attempts. -/
structure LinkEng where
  corr : Int := 0
  tried : Int := 0
  deriving DecidableEq, Repr

/-- An event stamp: MEC and calendar word (R32). -/
structure EventStamp where
  mec : Nat
  cal : Nat
  deriving DecidableEq, Repr

/-- The block but for the client store and the queue. -/
structure Dev where
  clk : Clock := {}
  /-- Live register values that differ from reset, by BAR0 byte address. -/
  regs : List (Nat × Word) := []
  /-- Snapshot values of the latched registers that differ from reset (R445). -/
  lat : List (Nat × Word) := []
  /-- Lower words held until the upper word completes a wide write (R12). -/
  half : List (Nat × Nat) := []
  /-- Pages whose snapshot is not yet complete, and the values it took, by BAR0 byte address (R445). -/
  snapping : List Nat := []
  shadow : List (Nat × Word) := []
  /-- Local counters that count cycles (R368): 4 × page + counter, MEC from which they count, cycles already in the counter. -/
  cyc : List (Nat × Nat × Nat) := []
  /-- Commands that become due, each with its MEC (log entry 2). -/
  agenda : List (Nat × Instr) := []
  /-- Commands that become due after an interval of engine time: the timescale, its step-free time in 2^-48 ns, the command (R9, R60). -/
  alarms : List (Ts × Int × Instr) := []
  /-- Event stamps of each page's last register write, interrupt cause, fault latch and counter snapshot, by 4 × page + 0 to 3 (R32). -/
  events : List (Nat × Option EventStamp) := []
  /-- Bits that hardware set in write-1-to-clear registers, by BAR0 byte address: the CCLK cycle and the bits set in it (R14). -/
  hwSet : List (Nat × Nat × Nat) := []
  /-- What has left the block, oldest first (log entry 4). -/
  out : List Output := []
  /-- The engines behind the pages, by instance. -/
  ts : Vector TsEng 2 := Vector.replicate 2 {}
  /-- Changes of bindings and walks that stamps of the past may need, newest first (R221). -/
  views : List ViewPast := []
  /-- Binding corrections in 2^-48 ns (R76). -/
  corr : Vector Int 48 := Vector.replicate 48 0
  /-- The die links in the order of FLT_LINK_ERRn (R25, R26). -/
  links : Vector LinkEng 5 := Vector.replicate 5 {}
  /-- Outputs are held by a C4 not yet cleared (R361). -/
  c4Held : Bool := false
  mon : Vector MonEng 19 := Vector.replicate 19 {}
  atm : Vector AtmEng 2 := Vector.replicate 2 {}
  us : Vector UsEng 4 := Vector.replicate 4 {}
  ens : EnsEng := {}
  sel : Vector SelEng 2 := Vector.replicate 2 {}
  svc : Vector SvcEng 2 := Vector.replicate 2 {}
  hld : Vector HldEng 2 := Vector.replicate 2 {}
  gnss : GnssEng := {}
  pwr : PwrEng := {}
  syn : Vector SynEng 4 := Vector.replicate 4 {}
  cko : Vector CkoEng 16 := Vector.replicate 16 {}
  tdc : Vector TdcEng 16 := Vector.replicate 16 {}
  unit : Vector TdcUnit 17 := Vector.replicate 17 {}
  tdcs : TdcsEng := {}
  evo : Vector EvoEng 16 := Vector.replicate 16 {}
  evi : Vector EviEng 16 := Vector.replicate 16 {}
  aud : Vector AudEng 8 := Vector.replicate 8 {}
  plk : PlkEng := {}
  ldr : LdrEng := {}
  pts : Vector PtsEng 24 := Vector.replicate 24 {}
  port : Vector PortEng 24 := Vector.replicate 24 {}
  lane : Vector LaneEng 16 := Vector.replicate 16 {}
  key : KeyEng := {}
  rsp : RspEng := {}
  cst : CstEng := {}
  rcd : RecEng := {}
  flt : FltEng := {}
  seq : Vector SeqEng 8 := Vector.replicate 8 {}
  hif : HifEng := {}
  deriving DecidableEq, Repr

/-- No command ends in a fault: the spec gives every error an effect on the state. -/
inductive Fault where
  /-- Raised by no meaning of this model. Safe. -/
  | none
  deriving DecidableEq, Repr

/-- Why a command is not carried out. -/
inductive Refusal where
  /-- The command has no meaning yet; raised by the dispatch alone. Safe. -/
  | notModelled (mnemonic : String)
  deriving DecidableEq, Repr

/-- The state of the block: the device, the client store (R273) as words by entry × 8 + word, and the waiting commands. -/
structure State where
  dev : Dev
  store : List (Nat × BitVec 64)
  pending : List Instr
  deriving DecidableEq, Repr

/-- The block after package reset, with nothing stored and nothing waiting. -/
def State.reset : State := ⟨{}, [], []⟩

end Sys2Proof.Machine
end

