-- ==== Sys2Proof/Machine/Ops.lean ====
section
/-! DEFINITION. The named operations on the device that every meaning is built from: registers, time, records, interrupts, events, faults, counters and timers. -/

namespace Sys2Proof.Machine

/-! Running a command's effect. -/

/-- A command that changes the device but neither its clock, nor the client store, nor the queue (R18, R27, R40). -/
def State.run (s : State) (f : Dev → Dev) : Host.Outcome State Fault Refusal :=
  .next { s with dev := { f s.dev with clk := s.dev.clk } }

/-- A command that may also move a timescale: a step or the last tick of a slew (R27). The MEC stays (R40). -/
def State.runTime (s : State) (f : Dev → Dev) : Host.Outcome State Fault Refusal :=
  let d := f s.dev
  .next { s with dev := { d with clk := { d.clk with mec := s.dev.clk.mec } } }

/-- A command that may also change the client store. -/
def State.runStore (s : State) (f : List (Nat × BitVec 64) → Dev → List (Nat × BitVec 64) × Dev) :
    Host.Outcome State Fault Refusal :=
  let r := f s.store s.dev
  .next { s with dev := { r.2 with clk := s.dev.clk }, store := r.1 }

/-- A command that may make a package reset, which alone clears the clock (R18, R40); where it makes none the clock stays. -/
def State.runReset (s : State) (f : List (Nat × BitVec 64) → Dev → List (Nat × BitVec 64) × Dev) :
    Host.Outcome State Fault Refusal :=
  let r := f s.store s.dev
  .next { s with dev := { r.2 with clk := if r.2.clk = {} then {} else s.dev.clk }, store := r.1 }

/-! Registers. -/

/-- The live value of the register that starts at an offset of a page. -/
def Dev.reg (d : Dev) (pg off : Nat) : Word := sget resetWord d.regs (4096 * pg + off)

/-- Write a whole register. -/
def Dev.setReg (d : Dev) (pg off : Nat) (w : Word) : Dev :=
  { d with regs := sset resetWord d.regs (4096 * pg + off) w }

/-- Read a field. -/
def Dev.get (d : Dev) (pg : Nat) (f : Fld) : Nat := f.get (d.reg pg f.off)

/-- Write a field. -/
def Dev.put (d : Dev) (pg : Nat) (f : Fld) (v : Nat) : Dev := d.setReg pg f.off (f.put v (d.reg pg f.off))

/-- Read a two's complement field. -/
def Dev.geti (d : Dev) (pg : Nat) (f : Fld) : Int := sgn (f.hi + 1 - f.lo) (d.get pg f)

/-- Write a two's complement field. -/
def Dev.puti (d : Dev) (pg : Nat) (f : Fld) (v : Int) : Dev := d.put pg f (unsgn (f.hi + 1 - f.lo) v)

/-- A field is not zero. -/
def Dev.on (d : Dev) (pg : Nat) (f : Fld) : Bool := d.get pg f != 0

/-- Write a one-bit field. -/
def Dev.putb (d : Dev) (pg : Nat) (f : Fld) (b : Bool) : Dev := d.put pg f (b2n b)

/-! Conditional and repeated effects. -/

/-- Apply an effect under a condition. -/
def Dev.when (d : Dev) (c : Bool) (f : Dev → Dev) : Dev := if c then f d else d

/-- Apply an effect for each element in order. -/
def Dev.each {α : Type} (d : Dev) (l : List α) (f : α → Dev → Dev) : Dev := l.foldl (fun d x => f x d) d

/-! Time. -/

/-- The current MEC. -/
def Dev.now (d : Dev) : Nat := d.clk.mec

/-- Ticks in a second, a millisecond and a microsecond (TCLK is 1 GHz, R40). -/
abbrev second : Nat := 1000000000
abbrev milli : Nat := 1000000
abbrev micro : Nat := 1000

/-- Accumulator units in a second: 2^-48 ns. -/
abbrev accSecond : Nat := second * 2 ^ 48

/-- The accumulator of a timescale. -/
def Dev.acc (d : Dev) (n : Ts) : Nat := d.clk.acc[n]

/-- Engine time in 2^-16 ns, truncated as in R39. -/
def Dev.time16 (d : Dev) (n : Ts) : Nat := d.acc n / 2 ^ 32

/-- Engine second of a timescale. -/
def Dev.sec (d : Dev) (n : Ts) : Nat := d.acc n / accSecond

/-- The 96-bit form of an engine time given in 2^-16 ns (R38). -/
def time96 (t : Nat) : Nat :=
  let s := t / (second * 2 ^ 16)
  let r := t % (second * 2 ^ 16)
  r % 2 ^ 16 + (r / 2 ^ 16) <<< 16 + (s % 2 ^ 48) <<< 46

/-- The engine time in 2^-16 ns that a 96-bit form names (R38). -/
def untime96 (w : Nat) : Nat :=
  (w >>> 46 % 2 ^ 48) * (second * 2 ^ 16) + (w >>> 16 % 2 ^ 30) * 2 ^ 16 + w % 2 ^ 16

/-- Step-free time in 2^-48 ns: engine time minus the steps applied (R60). -/
def Dev.stepFree (d : Dev) (n : Ts) : Int := d.acc n - d.ts[n].stepSum

/-- Step-free time of TSA in ns (R9, R60). -/
def Dev.freeNs (d : Dev) : Nat := ((d.stepFree 0).fdiv (2 ^ 48)).toNat

/-- Year, month and day of a day counted from 1970-01-01, in the proleptic Gregorian calendar (R42). -/
def civil (days : Int) : Nat × Nat × Nat :=
  let z := days + 719468
  let era := z.fdiv 146097
  let doe := (z - era * 146097).toNat
  let yoe := (doe - doe / 1460 + doe / 36524 - doe / 146096) / 365
  let doy := doe - (365 * yoe + yoe / 4 - yoe / 100)
  let mp := (5 * doy + 2) / 153
  let day := doy - (153 * mp + 2) / 5 + 1
  let month := if mp < 10 then mp + 3 else mp - 9
  let year := (yoe : Int) + era * 400 + (if month ≤ 2 then 1 else 0)
  ((year % 16384).toNat, month, day)

/-- The calendar word of R41 for an engine time of TSA, under R42 and the leap rule of R44. -/
def Dev.calAt (d : Dev) (acc : Nat) : Nat :=
  let valid := d.get (Pg.ts 0) TS.UTC_OFFSET_VALID
  let ofs : Int := if valid = 1 then d.geti (Pg.ts 0) TS.UTC_OFFSET_OFFSET else 0
  let sec := acc / accSecond
  let ns := acc % accSecond / 2 ^ 48
  let ins := d.get (Pg.ts 0) TS.LEAP_CTL_PENDING = 1 ∧ sec + 1 = d.get (Pg.ts 0) TS.LEAP_AT_SEC
  let utc : Int := sec - ofs - (if ins then 1 else 0)
  let day := utc.fdiv 86400
  let tod := (utc - day * 86400).toNat
  let (y, m, dd) := civil day
  let s := if ins then 60 else tod % 60
  let cal1 := m <<< 22 + dd <<< 17 + (tod / 3600) <<< 12 + (tod / 60 % 60) <<< 6 + s
  (ns + valid <<< 31) + cal1 <<< 32 + y <<< 64

/-- The calendar word of now. -/
def Dev.cal (d : Dev) : Nat := d.calAt (d.acc 0)

/-! Timers: commands that become due at a later MEC (log entry 2). -/

/-- Enter a command into the agenda, due a number of ticks from now. -/
def Dev.after (d : Dev) (dt : Nat) (i : Instr) : Dev := { d with agenda := d.agenda ++ [(d.now + dt, i)] }

/-- Enter a command that is due a number of ns of engine time from now, steps not counted (R9, R60). -/
def Dev.afterTime (d : Dev) (n : Ts) (ns : Nat) (i : Instr) : Dev :=
  { d with alarms := d.alarms ++ [(n, d.stepFree n + ns * 2 ^ 48, i)] }

/-- Take a command out of the agenda and the alarms. -/
def Dev.cancel (d : Dev) (i : Instr) : Dev :=
  { d with agenda := d.agenda.filter fun e => e.2 ≠ i, alarms := d.alarms.filter fun e => e.2.2 ≠ i }

/-- Start a timer anew, in ticks. -/
def Dev.timer (d : Dev) (dt : Nat) (i : Instr) : Dev := (d.cancel i).after dt i

/-- Start a timer of an interval of engine time anew (R9). -/
def Dev.timerTime (d : Dev) (n : Ts) (ns : Nat) (i : Instr) : Dev := (d.cancel i).afterTime n ns i

/-- Whether a command waits in the agenda or the alarms. -/
def Dev.waiting (d : Dev) (i : Instr) : Bool := (d.agenda.any fun e => e.2 = i) || d.alarms.any fun e => e.2.2 = i

/-- The ticks or ns left before a waiting command is due, 0 when it does not wait. -/
def Dev.left (d : Dev) (i : Instr) : Nat :=
  match d.agenda.find? fun e => e.2 = i with
  | some e => e.1 - d.now
  | none => ((d.alarms.find? fun e => e.2.2 = i).map fun e => cdiv (e.2.1 - d.stepFree e.1).toNat (2 ^ 48)).getD 0

/-! Event stamps, and bits that hardware sets (R14, R32). -/

/-- The calendar word of a tick at or after this one, at the increment in force. -/
def Dev.calOf (d : Dev) (mec : Nat) : Nat := d.calAt (d.acc 0 + (mec - d.now) * d.get (Pg.ts 0) TS.INCR_EFF_EFF)

/-- The event stamp a page keeps of its last event of a kind: 0 register write, 1 interrupt cause, 2 fault latch, 3 counter snapshot (R32). -/
def Dev.stampOf (d : Dev) (pg kind : Nat) : Option EventStamp := sget (fun _ => none) d.events (4 * pg + kind)

/-- Keep the event stamp of an event registered at a MEC (R32). -/
def Dev.stampAs (d : Dev) (pg kind mec : Nat) : Dev :=
  { d with events := sset (fun _ => none) d.events (4 * pg + kind) (some ⟨mec, d.calOf mec⟩) }

/-- Bits of the register at an address that hardware set in this CCLK cycle (R14). -/
def Dev.justSet (d : Dev) (a : Nat) : Nat :=
  let e := sget (fun _ => (0, 0)) d.hwSet a
  if e.1 = d.now / 2 then e.2 else 0

/-- Hardware sets bits of a write-1-to-clear field, and they are remembered through this CCLK cycle (R14). -/
def Dev.raiseBits (d : Dev) (pg : Nat) (f : Fld) (m : Nat) : Dev :=
  let a := 4096 * pg + f.off
  let d := { d with hwSet := sset (fun _ => (0, 0)) d.hwSet a (d.now / 2, d.justSet a ||| m <<< f.lo) }
  d.put pg f (d.get pg f ||| m)

/-! Output. -/

/-- Something leaves the block (log entry 4). -/
def Dev.emit (d : Dev) (o : Output) : Dev := { d with out := d.out ++ [o] }

/-! Masters and classes (R436, R437). -/

/-- The identifier of a master. -/
def masterId : Master → Nat
  | .pf0 => 0x00 | .pf1 => 0x01 | .pf2 => 0x02 | .mgmt => 0x03
  | .svc n => 0x10 + n | .seq n => 0x20 + n
  | .kwager => 0x30 | .loader => 0x31 | .snapshot => 0x32 | .collector => 0x40

/-- The access classes of R436; the bit numbers are those of PMC_FLT_CLS (R369). -/
inductive Access where
  | admin | operator | observer | internal
  deriving DecidableEq, Repr

/-- The access class of a master. -/
def Dev.access (d : Dev) : Master → Access
  | .pf0 => .admin
  | .pf1 => .operator
  | .pf2 => .observer
  | .mgmt => if d.on Pg.hif HIF.MGMT_CTL_CLASS then .operator else .observer
  | _ => .internal

/-- The bit of an access class in PMC_FLT_CLS. -/
def Access.num : Access → Nat
  | .admin => 0 | .operator => 1 | .observer => 2 | .internal => 3

/-! Performance counters (R368 to R370). -/

/-- The attributes an event may carry (R369). -/
structure Attr where
  master : Option Master := none
  addr : Option Nat := none
  mcls : Option Nat := none

/-- Whether an event passes the filter of the PMC page (R369). -/
def Dev.passes (d : Dev) (a : Attr) : Bool :=
  (match a.master with
   | none => true
   | some m =>
     let k := d.get Pg.pmc PMC.FLT_MSTR_MASK
     (masterId m &&& k == d.get Pg.pmc PMC.FLT_MSTR_ID &&& k) && bit (d.get Pg.pmc PMC.FLT_CLS_CLS) (d.access m).num) &&
  (match a.addr with
   | none => true
   | some x => d.get Pg.pmc PMC.FLT_ALO_ADDR ≤ x / 4 && x / 4 ≤ d.get Pg.pmc PMC.FLT_AHI_ADDR) &&
  (match a.mcls with
   | none => true
   | some c => bit (d.get Pg.pmc PMC.FLT_MCLS_MCLS) c)

/-- The block is in Cave. -/
def Dev.inCave (d : Dev) : Bool := d.get Pg.pwr PWR.STS_MAIN_STATE == 2

/-- The power domain of a page is on: all are, but in Cave only those of the pages R454 names (log entry 20). -/
def Dev.domainOn (d : Dev) (pg : Nat) : Bool := !d.inCave || ((pageRow pg).map (·.cave)).getD false

/-- Advance local counter k of a page by one (R370). -/
def Dev.pmcStep (d : Dev) (pg k : Nat) : Dev :=
  let c := d.get pg (HDR.PMC_CNT_COUNT k)
  if c + 1 = 2 ^ 48 then (d.put pg (HDR.PMC_CNT_COUNT k) 0).put pg (HDR.PMC_CNT_WRAPPED k) 1
  else d.put pg (HDR.PMC_CNT_COUNT k) (c + 1)

/-- An event of a page, counted by every local counter that selects it (R368); FREEZE stops them (R443). -/
def Dev.pmc (d : Dev) (pg ev : Nat) (a : Attr := {}) : Dev :=
  if d.on pg HDR.PAGE_CTL_FREEZE || !d.domainOn pg then d else
  d.each [0, 1, 2, 3] fun k d =>
    d.when (d.on pg (HDR.PMC_SEL_EN k) && d.get pg (HDR.PMC_SEL_EVENT k) == ev &&
      (!d.on pg (HDR.PMC_SEL_FILT k) || d.passes a)) fun d => d.pmcStep pg k

/-- Advance a COUNT field, saturating, unless FREEZE stops it (R368, R443). -/
def Dev.count (d : Dev) (pg : Nat) (f : Fld) (a : Attr := {}) : Dev :=
  if d.on pg HDR.PAGE_CTL_FREEZE then d else
  let v := d.get pg f
  (d.put pg f (min (v + 1) (2 ^ (f.hi + 1 - f.lo) - 1))).pmc pg (0x400 + f.off / 4) a

/-- Advance a COUNT field by more than one occurrence, and the local counters that select it with it. -/
def Dev.countN (d : Dev) (pg : Nat) (f : Fld) (n : Nat) : Dev :=
  if n = 0 ∨ d.on pg HDR.PAGE_CTL_FREEZE then d else
  let d := d.put pg f (min (d.get pg f + n) (2 ^ (f.hi + 1 - f.lo) - 1))
  if !d.domainOn pg then d else
  d.each [0, 1, 2, 3] fun k d =>
    d.when (d.on pg (HDR.PMC_SEL_EN k) && d.get pg (HDR.PMC_SEL_EVENT k) == 0x400 + f.off / 4) fun d =>
      let c := d.get pg (HDR.PMC_CNT_COUNT k) + n
      if 2 ^ 48 ≤ c then (d.put pg (HDR.PMC_CNT_COUNT k) (c % 2 ^ 48)).put pg (HDR.PMC_CNT_WRAPPED k) 1 else d.put pg (HDR.PMC_CNT_COUNT k) c

/-! Interrupts (R442, R449, R451). -/

/-- The summary bit of a page as its registers give it (R449). -/
def Dev.sumOf (d : Dev) (pg : Nat) : Bool :=
  d.on pg HDR.PAGE_CTL_EN && (d.get pg HDR.INT_STS_STS &&& d.get pg HDR.INT_EN_EN) != 0

/-- The summary bit of slot k. -/
def Dev.sum (d : Dev) (k : Nat) : Bool := bit (d.get Pg.glb (GLB.INT_SUM_SUM (k / 32))) (k % 32)

/-- The function and vector a slot is routed to (R450). -/
def Dev.route (d : Dev) (k : Nat) : Option (Nat × Nat) :=
  if d.on Pg.hif (HIF.IVEC_EN k) then
    let f := d.get Pg.hif (HIF.IVEC_PF k)
    some (if f = 3 then 0 else f, d.get Pg.hif (HIF.IVEC_VEC k))
  else none

/-- Vector v of function f is asserted (R451). -/
def Dev.asserted (d : Dev) (fv : Nat × Nat) : Bool := (List.range 156).any fun k => d.sum k && d.route k == some fv

/-- The mask bit of a vector: bit 0 of the fourth word of its table entry, 1 at reset (log entry 10). -/
def Dev.masked (d : Dev) (fv : Nat × Nat) : Bool := bit (sget (fun k => if k % 4 = 3 then 1 else 0) d.hif.msix (256 * fv.1 + 4 * fv.2 + 3)) 0

/-- Send the message of a vector, or pend it when it is masked, or hold it while the link is down (R451, R453). -/
def Dev.sendMsix (d : Dev) (fv : Nat × Nat) : Dev :=
  if d.masked fv then
    { d with hif := { d.hif with pba := if fv ∈ d.hif.pba then d.hif.pba else d.hif.pba ++ [fv] } }
  else if d.on Pg.hif HIF.STS_LINK_UP then d.emit (.msix fv.1 fv.2)
  else { d with hif := { d.hif with held := if fv ∈ d.hif.held then d.hif.held else d.hif.held ++ [fv] } }

/-- An in-band interrupt of the management target (R438). -/
def Dev.ibi (d : Dev) (octets : List Nat) : Dev := d.when (d.on Pg.hif HIF.MGMT_CTL_IBI) fun d => d.emit (.ibi octets)

/-- Bring the summary bit of a page up to date, and send what its rise asserts (R449, R451). -/
def Dev.resum (d : Dev) (pg : Nat) : Dev :=
  let k := slotOf pg
  let new := d.sumOf pg
  let old := d.sum k
  if new = old then d else
  let f := GLB.INT_SUM_SUM (k / 32)
  let was := (d.route k).map d.asserted
  let d1 := d.put Pg.glb f (if new then d.get Pg.glb f ||| 1 <<< (k % 32) else d.get Pg.glb f - 1 <<< (k % 32))
  if new then
    let d2 := match d1.route k, was with
      | some fv, some false => d1.sendMsix fv
      | _, _ => d1
    d2.when (d2.on Pg.hif (HIF.IVEC_MGMT k)) fun d => d.ibi [0x01]
  else d1

/-- Bits of INT_STS of a page are set (R32, R442). -/
def Dev.intBits (d : Dev) (pg m : Nat) : Dev :=
  (((((d.raiseBits pg HDR.INT_STS_STS m).put pg HDR.INT_MEC_MEC d.now)).stampAs pg 1 d.now).pmc pg 5).resum pg

/-- Hardware sets bit b of INT_STS of a page. -/
def Dev.int (d : Dev) (pg b : Nat) : Dev := d.intBits pg (1 <<< b)

/-! Events (R331, R332). -/

/-- What an occurrence means to one sequencer: an idle one with a trigger on it starts 2 CCLK cycles later, one that waits for it goes on (R330, R332, R336). -/
def Dev.seqNotice (d : Dev) (n : Fin 8) (e : Nat) (trig : Bool) : Dev :=
  let st := d.get (Pg.seq n) SEQ.STS_STATE
  if st = 1 ∧ trig ∧ !d.waiting (.triggerStart n) then d.after 4 (.triggerStart n)
  else if st = 3 ∧ d.seq[n].wait = some (.event e) then d.after 2 (.seqWaitEnd n)
  else d

/-- A pending bit of event e that is set already is set again in this CCLK cycle (R331). -/
def Dev.setAgain (d : Dev) (n : Fin 8) (e : Nat) : Dev :=
  { d with seq := d.seq.set n { d.seq[n] with again := (e, d.now / 2) :: d.seq[n].again.filter fun x => x.1 != e } }

/-- An occurrence of event e: its pending bit is set in every sequencer, and a trigger that finds it set already is counted (R330, R331, R338). -/
def Dev.event (d : Dev) (e : Nat) : Dev :=
  d.each (List.finRange 8) fun (n : Fin 8) d =>
    let f := SEQ.EVT_PEND_PEND (e / 32)
    let was := bit (d.get (Pg.seq n) f) (e % 32)
    let trig := [0, 1, 2, 3].any fun k => d.on (Pg.seq n) (SEQ.TRIG_EN k) && d.get (Pg.seq n) (SEQ.TRIG_EVT k) == e
    let d := d.raiseBits (Pg.seq n) f (1 <<< (e % 32))
    let d := d.when was fun d => d.setAgain n e
    let d := d.when (was && trig) fun d => (d.count (Pg.seq n) SEQ.TRIG_LOST_COUNT).int (Pg.seq n) 2
    d.seqNotice n e trig

/-- A bit of CLKD_STS.LOCK changes: interrupt (R395). -/
def Dev.clkLock (d : Dev) (i : Nat) (v : Bool) : Dev :=
  let w := d.get Pg.clkd CLKD.STS_LOCK
  if bit w i = v then d else (d.put Pg.clkd CLKD.STS_LOCK (w - (w &&& 1 <<< i) + (if v then 1 <<< i else 0))).int Pg.clkd 1

/-! Records (R339 to R345). -/

/-- The SOURCE of a record made by a block: its page index (R339). -/
def srcPage (pg : Nat) : Nat := 0x8000 + pg

/-- The SOURCE of a record made for a master (R339). -/
def srcMaster (m : Master) : Nat := masterId m

/-- The valid lines of the record memory hold this record at line k under the current epoch. -/
def RecEng.valid (r : RecEng) (l : RecLine) : Bool := l.epoch == r.epoch

/-- The Rind size in force (R346). -/
def Dev.rind (d : Dev) : Nat := d.get Pg.rec REC.STS_RIND_SIZE

/-- The line the next record of a flush takes: the lowest free Rind line, else the line after the newest Wheel record (R347). -/
def Dev.nextLine (d : Dev) : Nat :=
  let s := d.rind
  let used := (d.rcd.lines.filter fun e => e.1 < s ∧ d.rcd.valid e.2).length
  if used < s then used else
  match d.rcd.wheelNewest with
  | some k => if k + 1 < 131072 then k + 1 else s
  | none => s

/-- A record enters the overflow area, which holds 184,320 lines and is circular (R347, R419). -/
def RecEng.spilled (e : RecEng) (o : Record) : RecEng := { e with overflow := e.overflow.drop (e.overflow.length + 1 - 184320) ++ [o] }

/-- Spill an overwritten Wheel record into the overflow area when SPILL asks for it; missed in Cave and while PFW is asserted (R347). -/
def Dev.spill (d : Dev) (old : Option Record) : Dev :=
  match old with
  | some o =>
    if !d.on Pg.rec REC.CTL_SPILL then d
    else if d.get Pg.pwr PWR.STS_MAIN_STATE != 2 && !d.pwr.pfw then { d with rcd := d.rcd.spilled o }
    else d.count Pg.rec REC.SPILL_MISS_COUNT
  | none => d

/-- Write a record to the record memory, spilling the Wheel line it overwrites (R347). -/
def Dev.writeLine (d : Dev) (w : Record) : Dev :=
  let k := d.nextLine
  let d := d.spill ((d.rcd.lines.find? fun e => e.1 = k ∧ d.rcd.valid e.2).map (·.2.row))
  let lines := sins (sdel d.rcd.lines k) k { epoch := d.rcd.epoch, row := w }
  let d := { d with rcd := { d.rcd with lines := lines, wheelNewest := if k < d.rind then d.rcd.wheelNewest else some k } }
  d.put Pg.rec REC.LVL_RIND_USED ((d.rcd.lines.filter fun e => e.1 < d.rind ∧ d.rcd.valid e.2).length)

/-- Start a flush, or note that one more is due when one runs (R341); 20 µs and 190 ns for each record (R342). -/
def Dev.flush (d : Dev) : Dev :=
  match d.rcd.flushing with
  | some _ => { d with rcd := { d.rcd with flushAgain := true } }
  | none =>
    let n := d.rcd.buf.length
    (({ d with rcd := { d.rcd with flushing := some n, flushAt := d.freeNs, track := [] } }).put Pg.rec REC.STS_FLUSHING 1).afterTime 0
      (20000 + 190 * n) .flushComplete

/-- A reset cuts a flush off: the lines it has written by then stay (R342). -/
def Dev.flushCut (d : Dev) : Dev :=
  match d.rcd.flushing with
  | some n => d.each (d.rcd.buf.take (min n ((d.freeNs - d.rcd.flushAt - 20000) / 190))) fun w d => d.writeLine w
  | none => d

/-- Count a lost record: REC_LOST, its interrupt at the first, and GAP on the next record (R344, R351). -/
def Dev.lose (d : Dev) : Dev :=
  let first := d.get Pg.rec REC.LOST_COUNT = 0
  let d := { (d.count Pg.rec REC.LOST_COUNT) with rcd := { d.rcd with gapNext := true } }
  d.when first fun d => d.int Pg.rec 1

/-- Show the buffer level, and act on the high-water mark (R331, R341). -/
def Dev.levelUp (d : Dev) : Dev :=
  let n := d.rcd.buf.length
  let mark := clampN 256 4095 (d.get Pg.rec REC.HWM_HWM)
  let d := d.put Pg.rec REC.BUF_LVL_BUF_LVL n
  d.when (n == mark || (decide (mark < n) && d.rcd.flushing.isNone)) fun d => (d.event 15).flush

/-- The mark has been written: a buffer that stands at it or above it starts a flush (R341; log entry 60). -/
def Dev.markMoved (d : Dev) : Dev :=
  d.when (decide (clampN 256 4095 (d.get Pg.rec REC.HWM_HWM) ≤ d.rcd.buf.length) && d.rcd.flushing.isNone) fun d => (d.event 15).flush

/-- The rank of a source among the records of one MEC: the home die of its region, CORE, ANALOG, PORTA, PORTB, then masters ascending, then pages (R22, R33). -/
def srcRank (src : Nat) : Nat :=
  let die := if src < 0x8000 then 0 else match (pageRow (src - 0x8000)).map (·.region) with
    | some .measurement | some .synthesis | some .gnss | some .audio => 1
    | some .portA => 2
    | some .portB => 3
    | _ => 0
  die * 2 ^ 16 + src

/-- A record takes a sequence number; a SNAPSHOT record names the one after it as the first of its chain (R348). -/
def Record.numbered (w : Record) (q : Nat) : Record :=
  { w with seqNo := q % 2 ^ 32, payload := if w.typ = 0x04 ∧ unoct ((w.payload.drop 2).take 2) ≠ 0 then
      w.payload.take 4 ++ oct 4 ((q + 1) % 2 ^ 32) ++ w.payload.drop 8 else w.payload }

/-- How many of the newest buffered records, made at this MEC and in no running flush, a record of a source precedes (R33). -/
def Dev.behind (d : Dev) (src : Nat) : Nat :=
  ((d.rcd.buf.drop (d.rcd.flushing.getD 0)).reverse.takeWhile fun x => decide (x.mec = d.now ∧ srcRank src < srcRank x.source)).length

/-- Enter a record: into the buffer at its place among the records of this MEC (R33), or straight to the record memory while write-through holds (R341, R342, R344, R345). -/
def Dev.enter (d : Dev) (typ source : Nat) (payload : List Nat) (link : Bool := false) : Dev :=
  if d.rcd.buf.length ≥ 4096 then d.lose else
  let next := d.get Pg.rec REC.NEXT_SEQ_SEQ
  let wt := d.on Pg.rec REC.STS_WT
  let g := if wt then 0 else d.behind source
  let k := d.rcd.buf.length - g
  let q := (next + 2 ^ 32 - g) % 2 ^ 32
  let later := d.rcd.buf.drop k
  let w : Record := Record.numbered { typ := typ, link := link, gap := d.rcd.gapNext, source := source, mec := d.now, cal := d.cal, seqNo := q, payload := payload } q
  let moved := d.rcd.track.map fun t => if later.any fun x => x.seqNo = t.2.2 then (t.1, t.2.1, (t.2.2 + 1) % 2 ^ 32) else t
  let d := { d with rcd := { d.rcd with gapNext := false, track := ((typ, source, q) :: moved.filter fun t => ¬ (t.1 = typ ∧ t.2.1 = source)).take 64 } }
  let d := d.put Pg.rec REC.NEXT_SEQ_SEQ (next + 1)
  if wt then d.writeLine w
  else { d with rcd := { d.rcd with buf := d.rcd.buf.take k ++ [w] ++ later.map fun (x : Record) => x.numbered (x.seqNo + 1) } }.levelUp

/-- A new record, or a repeat of the tracked one of its type and source (R343). `named` says the type's own rule calls it a repeat of a record whose first `key` payload octets agree. -/
def Dev.record (d : Dev) (typ source : Nat) (payload : List Nat) (named : Bool := false) (key : Nat := 0) : Dev :=
  let old := (d.rcd.track.find? fun t => t.1 = typ ∧ t.2.1 = source).bind fun t => d.rcd.buf.find? fun w => w.seqNo = t.2.2
  match old with
  | some w =>
    let dt := cdiv (d.now - w.mec) (2 ^ 24)
    if (named && w.payload.take key = payload.take key || w.payload = payload) && w.rpt < 65535 && dt ≤ 65535 then
      { d with rcd := { d.rcd with
          buf := d.rcd.buf.map fun x => if x.seqNo = w.seqNo then { x with rpt := x.rpt + 1, lastDt := dt } else x,
          track := (typ, source, w.seqNo) :: d.rcd.track.filter fun t => ¬ (t.1 = typ ∧ t.2.1 = source) } }
    else d.enter typ source payload
  | none => d.enter typ source payload

/-- The entries of a snapshot list: address, LATCH, W64 (R348, R351). -/
def Dev.snapEntries (d : Dev) (l : Nat) : List (Nat × Bool × Bool) :=
  let pg := Pg.rec
  if !d.on pg (REC.SNAP_LIST_EN l) then [] else
  let st := d.get pg (REC.SNAP_LIST_START l)
  (List.range (min 64 (d.get pg (REC.SNAP_LIST_LEN l)))).filterMap fun i =>
    let j := st + i
    if 256 ≤ j then none else some (4 * d.get pg (REC.SNAP_ENT_ADDR j), d.on pg (REC.SNAP_ENT_LATCH j), d.on pg (REC.SNAP_ENT_W64 j))

/-- A snapshot starts (R348). -/
def Dev.snapBegin (d : Dev) (r : SnapReq) : Dev :=
  let es := d.snapEntries r.list
  { d with rcd := { d.rcd with snapRun := some { req := r, start := d.now, count := es.length, left := es, next := d.now + 2 } } }.put Pg.rec REC.SNAP_STS_BUSY 1

/-- Ask for a recorder snapshot: it starts, or waits, or is dropped when four wait (R348). -/
def Dev.askSnap (d : Dev) (r : SnapReq) : Dev :=
  match d.rcd.snapRun with
  | none => d.snapBegin r
  | some _ =>
    if d.rcd.snapQ.length < 4 then
      { d with rcd := { d.rcd with snapQ := d.rcd.snapQ ++ [r] } }.put Pg.rec REC.SNAP_STS_QLVL (d.rcd.snapQ.length + 1)
    else (d.count Pg.rec REC.SNAP_LOST_COUNT).int Pg.rec 3

/-! Faults (R352 to R361). -/

/-- The timescales a C3 on a page affects (R359). -/
def affected (pg : Nat) : List Ts := if pg = Pg.ts 0 then [0] else if pg = Pg.ts 1 then [1] else [0, 1]

/-- A page has class c latched. -/
def Dev.latched (d : Dev) (pg c : Nat) : Bool := bit (d.get pg HDR.FLT_STS_LAT) c

/-- Some latched C3 affects a timescale (R48, R360). -/
def Dev.c3 (d : Dev) (n : Ts) : Bool := allPages.any fun pg => d.latched pg 3 && (affected pg).contains n

/-- The class of a timescale changes, with its CLOCK_CLASS record (R59). -/
def Dev.newClass (d : Dev) (n : Ts) (c acc : Nat) : Dev :=
  let old := d.ts[n].cls
  let d := d.cancel (.clockClassHoldExpiry n)
  { d with ts := d.ts.set n { d.ts[n] with cls := c, clsBetter := none } }.record 0x13 (srcPage (Pg.ts n)) [n.val, old, c, acc]

/-- The bound of a timescale is forced unbounded at once (R359): DEFAULT is its class, at once where that is higher (R58, R59). -/
def Dev.forceBound (d : Dev) (n : Ts) : Dev :=
  let d := (d.put (Pg.ts n) TS.BOUND_STS_CODE 0xFFFF).put (Pg.ts n) TS.BOUND_STS_STATE 3
  let c := d.get (Pg.ts n) TS.CC_CTL_DEFAULT
  d.when (decide (d.ts[n].cls < c)) fun d => d.newClass n c 0xFE

/-- Outputs held by a C4: CKO outputs, EVO drivers and AUD TX directions (R361); an enabled CKO that was not held shows the change (R163). -/
def Dev.holdOutputs (d : Dev) : Dev :=
  let d := d.each (List.range 16) fun m d =>
    let d := (d.put Pg.cko (CKO.STS_RUNNING m) 0).put Pg.evo (EVO.STS_DRIVEN m) 0
    d.when (d.on Pg.cko (CKO.CTL_EN m)) fun d =>
      let was := d.on Pg.cko (CKO.STS_HELD m)
      ((d.put Pg.cko (CKO.STS_HELD m) 1).put Pg.cko (CKO.STS_HELD_CAUSE m) 3).when (!was) fun d => d.int Pg.cko m
  { d with c4Held := true }

/-- Bring LIVE of a source up to date with its causes and its force bit (R356). -/
def Dev.relive (d : Dev) (pg c : Nat) : Dev :=
  let live := d.flt.live.any (fun e => e.1 = pg ∧ e.2.1 = c) || bit (d.get pg HDR.FLT_FORCE_FORCE) c
  let v := d.get pg HDR.FLT_STS_LIVE
  d.put pg HDR.FLT_STS_LIVE (if live then v ||| 1 <<< c else v &&& (0x1F - 1 <<< c))

/-- Recompute the collector's view of a page: its FLT_WORDn bit and FLT_CLASS_STS (R366). -/
def Dev.fltView (d : Dev) (pg : Nat) : Dev :=
  let k := slotOf pg
  let f := FLT.WORD_LAT (k / 32)
  let w := d.get Pg.flt f
  let d := d.put Pg.flt f (if d.get pg HDR.FLT_STS_LAT != 0 then w ||| 1 <<< (k % 32) else w &&& (0xFFFFFFFF - 1 <<< (k % 32)))
  let orAll (g : Fld) := allPages.foldl (fun a p => a ||| d.get p g) 0
  (d.put Pg.flt FLT.CLASS_STS_LAT (orAll HDR.FLT_STS_LAT)).put Pg.flt FLT.CLASS_STS_LIVE (orAll HDR.FLT_STS_LIVE)

/-- The fixed reaction of class c on a page, begun after its latch, and then its event (R358, R359, R361). -/
def Dev.react (d : Dev) (pg c : Nat) : Dev :=
  let d := d.int Pg.flt c
  let d := d.when (c == 3) fun d => d.each (affected pg) fun n d => d.forceBound n
  let d := d.when (c == 4) Dev.holdOutputs
  let d := d.when (c ≥ 3) fun d => d.after 0 .takeCondition
  let d := d.when (c ≥ 2) Dev.flush
  let d := d.event c
  let d := d.when (d.on Pg.rec (REC.TRIG_EN c)) fun d => d.askSnap ⟨d.get Pg.rec (REC.TRIG_LIST c), 1, srcPage pg⟩
  d.when (c == 4) fun d => match (pageRow pg).map (·.region) with
    | some r => { d with flt := { d.flt with c4Wait := if r ∈ d.flt.c4Wait then d.flt.c4Wait else d.flt.c4Wait ++ [r] } }.timerTime 0 (2 * milli) (.c4RegionReset r)
    | none => d

/-- A page whose pin failed its test (R354). -/
def Dev.pinBad (d : Dev) (pg : Nat) : Bool := bit (d.get Pg.flt (FLT.PINBAD_BAD (slotOf pg / 32))) (slotOf pg % 32)

/-- The collector takes up a source that has become live: it latches and reacts, or is counted and recorded again (R356). What it sets is remembered through the CCLK cycle, for a clear of the same cycle (R357). -/
def Dev.takeUp (d : Dev) (pg c : Nat) (forced rail : Bool) : Dev :=
  let first := !d.latched pg c
  let d := d.put pg HDR.FLT_STS_CNT (min (d.get pg HDR.FLT_STS_CNT + 1) 255)
  let d := d.when first fun d =>
    let d := (d.raiseBits pg HDR.FLT_STS_LAT (1 <<< c)).put pg HDR.FLT_STS_RAIL 0
    let d := ((d.put Pg.flt FLT.LAST_CLASS c).putb Pg.flt FLT.LAST_FORCED forced).put Pg.flt FLT.LAST_PAGE pg
    (d.put Pg.flt FLT.LAST_MEC_MEC d.now).stampAs pg 2 d.now
  let d := ((d.pmc pg 6).fltView pg).when rail fun d => d.put pg HDR.FLT_STS_RAIL 1
  let d := d.record 0x90 (srcPage pg) (oct 2 pg ++ [c, b2n forced + 2 * b2n rail] ++ oct 4 (d.get pg HDR.FLT_STS)) (!first) 3
  if first then d.react pg c else d

/-- A source that was not live becomes live: the collector sees it at once, on a page whose pin failed its test at its next poll (R354, R356). -/
def Dev.becameLive (d : Dev) (pg c : Nat) (forced rail : Bool) : Dev :=
  let a := 4096 * pg + HDR.FLT_STS_LIVE.off
  let d := { d with hwSet := sset (fun _ => (0, 0)) d.hwSet a (d.now / 2, d.justSet a ||| 256 <<< c) }
  if d.pinBad pg then { d with flt := { d.flt with late := d.flt.late ++ [(pg, c, forced, rail)] } } else d.takeUp pg c forced rail

/-- The cause number of a force bit or force pulse. -/
abbrev causeForce : Nat := 0xFFFF

/-- A block reports a cause of class c on a page (R352, R356). -/
def Dev.raise (d : Dev) (pg c cause : Nat) (rail : Bool := false) : Dev :=
  let was := bit (d.get pg HDR.FLT_STS_LIVE) c
  let d := { d with flt := { d.flt with live := if (pg, c, cause) ∈ d.flt.live then d.flt.live else d.flt.live ++ [(pg, c, cause)] } }
  let d := d.relive pg c
  if was then (d.fltView pg).when rail fun d => d.put pg HDR.FLT_STS_RAIL 1 else d.becameLive pg c (cause == causeForce) rail

/-- A cause has gone: the source stays latched (R356). -/
def Dev.lower (d : Dev) (pg c cause : Nat) : Dev :=
  ({ d with flt := { d.flt with live := d.flt.live.filter fun e => e ≠ (pg, c, cause) } }.relive pg c).fltView pg

/-- A cause that lasts one cycle. -/
def Dev.fault (d : Dev) (pg c cause : Nat) : Dev := (d.raise pg c cause).lower pg c cause

/-! Die links (R24 to R26). -/

/-- Cause number of the C3 of an UNCALIBRATED link. -/
def causeLinkUncal (n : Fin 5) : Nat := 0x20 + n.val

/-- Link n of FLT_LINK_ERRn is UNCALIBRATED. -/
def Dev.uncal (d : Dev) (l : Nat) : Bool := bit (d.get Pg.glb GLB.LINK_STS_UNCAL) l

/-- The links of the die of port p: its message link to CORE, and its clock link to ANALOG (R24). -/
def portLinks (p : Nat) : List Nat := if p < 12 then [1, 3] else [2, 4]

/-- Stamps of a timescale cross a link (R24, R26): TDC results come over CORE–ANALOG for both; a link of a port die is crossed by the stamps of its ports, on the timescale each is bound to. -/
def Dev.crosses (d : Dev) (n : Ts) (l : Nat) : Bool :=
  l == 0 || (List.range 24).any fun p => (portLinks p).contains l && d.get (Pg.ts 0) (TSA.BIND_CUR p) == n.val

/-- Some link that the stamps of a timescale cross is UNCALIBRATED (R48). -/
def Dev.linkForced (d : Dev) (n : Ts) : Bool := (List.range 5).any fun l => d.uncal l && d.crosses n l

/-- The C3 of UNCALIBRATED links follows which timescales' stamps cross them (R26). -/
def Dev.linkFaults (d : Dev) : Dev :=
  d.each (List.finRange 5) fun l d => d.each [(0 : Ts), 1] fun n d =>
    let is := (Pg.ts n.val, 3, causeLinkUncal l) ∈ d.flt.live
    if d.uncal l.val && d.crosses n l.val then (if is then d else d.raise (Pg.ts n.val) 3 (causeLinkUncal l))
    else if is then d.lower (Pg.ts n.val) 3 (causeLinkUncal l) else d

/-- A measurement of a link: its residual delay against the nominal in 2^-16 ns, and how well it is known in ps. The first of at most three attempts that lies within 5 ps counts (R25, R26). -/
def linkBest (l : List (Int × Nat)) : Option Int := ((l.take 3).find? fun e => e.2 ≤ 5).map (·.1)

/-- The correction of a link is installed; the mark of an UNCALIBRATED one goes, with the cause of its C3 (R25, R26). -/
def Dev.linkGood (d : Dev) (l : Fin 5) (delay : Int) : Dev :=
  let d := { d with links := d.links.set l { d.links[l] with corr := delay } }
  if !d.uncal l.val then d
  else
    let w := d.get Pg.glb GLB.LINK_STS_UNCAL
    ((d.put Pg.glb GLB.LINK_STS_UNCAL (w - 1 <<< l.val)).int Pg.glb 1).linkFaults

/-- The stored correction of a link, in 2^-16 ns: a time value that has crossed it is that much later than the moment at its source (R25). -/
def Dev.linkCorr (d : Dev) (l : Fin 5) : Int := d.links[l].corr

/-! Wide counters with a half-range mark (R214, R270). -/

/-- Advance a 48-bit counter; its half-range bit is set at 2^47, it wraps at 2^48 (R214). -/
def Dev.count48 (d : Dev) (pg : Nat) (cnt wrapped half : Fld) (hbit ibit : Nat) (a : Attr := {}) : Dev :=
  if d.on pg HDR.PAGE_CTL_FREEZE then d else
  let v := d.get pg cnt + 1
  let d := (if v = 2 ^ 48 then (d.put pg cnt 0).put pg wrapped 1 else d.put pg cnt v).pmc pg (0x400 + cnt.off / 4) a
  d.when (v == 2 ^ 47) fun d => (d.raiseBits pg half (1 <<< hbit)).int pg ibit

end Sys2Proof.Machine
end

