-- ==== Sys2Proof/Machine/Fabric.lean ====
section
/-! DEFINITION. The register fabric: which writes are served, discarded and counted (R34, R437, R440, R441, R454, R476), what a served write leaves behind (R35, R444), and what a read returns. -/

namespace Sys2Proof.Machine

/-- How the fabric takes a write. -/
inductive Gate where
  | served
  /-- Before BOOT_DONE (R441). -/
  | preboot
  /-- Not reachable in Cave (R454). -/
  | cave
  /-- No register at the address (R440). -/
  | unimpl
  /-- Refused by access class (R437). -/
  | refused
  /-- The link of an external function is down in Cave: the write never arrives (log entry 20). -/
  | lost
  deriving DecidableEq, Repr

/-- What the access class of an external master may write (R437, R297, R351, R364). -/
def Dev.mayWrite (d : Dev) (m : Master) (pg off : Nat) : Bool :=
  let oper := ((pageRow pg).map (·.oper)).getD false
  match d.access m with
  | .internal => true
  | c =>
    if off = 0x70 then true
    else if off = 0x10 ∨ off = 0x14 then c != .observer
    else if off = 0x08 ∨ off = 0x18 then c == .admin || (c == .operator && oper)
    else if off = 0x20 ∨ off = 0x24 then true
    else if 0x30 ≤ off ∧ off < 0x40 then c != .observer
    else if off < 0x100 ∧ ¬(pg = Pg.cko ∧ 0x80 ≤ off ∧ off < 0x98) then c == .admin
    else if pg = Pg.rec ∧ 0x160 ≤ off ∧ off < 0x164 then true
    else if Pg.key 0 ≤ pg ∧ pg ≤ Pg.key 3 then
      c == .admin || (c == .operator && pg == Pg.key 3 && 0x140 ≤ off && off < 0x154)
    else c == .admin || (c == .operator && oper)

/-- The verdict of the fabric on a write to an offset of a page. -/
def Dev.gate (d : Dev) (m : Master) (pg off : Nat) : Gate :=
  let cave := d.inCave
  let reach := ((pageRow pg).map (·.cave)).getD false
  if cave && (m == .pf0 || m == .pf1 || m == .pf2) then .lost
  else if (pageRow pg).isNone then .unimpl
  else if !d.on Pg.glb GLB.BOOT_STS_BOOT_DONE && pg != Pg.glb && !(m == .loader || m == .collector) then .preboot
  else if cave && !reach && m == .mgmt then .cave
  else if (regAt pg off).isNone then .unimpl
  else if d.mayWrite m pg off then .served
  else .refused

/-- Count a discarded write where its reason says (R437, R440, R441, R454); it leaves LAST_WR and the readback group alone (R34). -/
def Dev.discard (d : Dev) (g : Gate) (pg : Nat) : Dev :=
  match g with
  | .served | .lost => d
  | .preboot => (d.count Pg.glb GLB.PREBOOT_DISC_COUNT).pmc pg 4
  | .cave => (d.count Pg.glb GLB.CAVE_DISC_COUNT).pmc pg 4
  | .unimpl => d.count Pg.glb GLB.UNIMPL_DISC_COUNT
  | .refused => (d.count pg HDR.PAGE_STS_WR_DISC).pmc pg 4

/-- Count a write that a rule of its block discards in the block's own counter (R65, R337). -/
def Dev.discardIn (d : Dev) (pg : Nat) (f : Fld) : Dev := (d.count pg f).pmc pg 4

/-- Registers that never enter the readback group (R444). -/
def noReadback (pg off : Nat) : Bool :=
  off == 0x70 || (pg == Pg.key 0 && ((0x110 ≤ off && off < 0x130) || (0x200 ≤ off && off < 0x340))) ||
  (pg == Pg.rec && 0x150 ≤ off && off < 0x160)

/-- Whether an accepted write enters the readback group: a register all WO, or a 1 written to some WO field beside RW fields (R444). -/
def isCommand (r : RegDesc) (v : Nat) : Bool :=
  r.wo != 0 && ((r.rw ||| r.w1c ||| r.w1s ||| r.rwl) == 0 || (v &&& r.wo) != 0)

/-- The MEC a write to a page carries: this one, or 2 ticks after the page's last write where one was served less than a CCLK cycle before (R35). -/
def Dev.serveMec (d : Dev) (pg : Nat) : Nat :=
  match d.stampOf pg 0 with
  | some e => max d.now (e.mec + 2)
  | none => d.now

/-- What a served write leaves in the common header (R32, R35, R444): its event stamp, LAST_WR, the readback group, and the counted event. -/
def Dev.served (d : Dev) (m : Master) (pg off v : Nat) : Dev :=
  let d := d.pmc pg 3 { master := some m, addr := some (4096 * pg + off) }
  if off = 0x70 then d else
  let t := d.serveMec pg
  let d := (((d.put pg HDR.LAST_WR_MEC_MEC t).put pg HDR.LAST_WR_MASTER_OFS off).put pg HDR.LAST_WR_MASTER_MASTER (masterId m)).stampAs pg 0 t
  match regAt pg off with
  | some r =>
    d.when (isCommand r v && !noReadback pg off) fun d =>
      (((d.put pg HDR.CMD_RB_OFS_OFS off).put pg HDR.CMD_RB_VAL_VAL v).put pg HDR.CMD_RB_MEC_MEC t).put pg HDR.CMD_RB_MASTER_MASTER (masterId m)
  | none => d

/-- The lock bit that guards the RWL fields of a register's block (R476). -/
def Dev.locked (d : Dev) (pg : Nat) : Bool :=
  if pg = Pg.flt then d.on pg FLT.CTL_LOCK else if pg = Pg.clkd then d.on pg CLKD.CAVE_CTL_LOCK
  else if pg = Pg.plk then d.on pg PLK.CTL_LOCK else if pg = Pg.ldr then d.on pg LDR.POLICY_LOCK
  else if pg = Pg.hif then d.on pg HIF.MGMT_CTL_LOCK
  else if Pg.seq 0 ≤ pg ∧ pg ≤ Pg.seq 7 then d.on pg SEQ.PERM_CTL_LOCK else false

/-- The register at an offset holds RWL fields alone, and they are locked (R476). -/
def Dev.lockedWhole (d : Dev) (pg off : Nat) : Bool :=
  d.locked pg && (regAt pg off).any fun r => r.rwl != 0 && (r.rw ||| r.w1c ||| r.w1s ||| r.wo) == 0

/-- A write whose value differs from what locked RWL fields hold is counted (R476). -/
def Dev.lockMiss (d : Dev) (pg off v : Nat) : Dev :=
  match regAt pg off with
  | some r => d.when (d.locked pg && ((v ^^^ (d.reg pg (r.start off)).toNat) &&& r.rwl) != 0) fun d => (d.count pg HDR.PAGE_STS_WR_DISC).pmc pg 4
  | none => d

/-- A write through the fabric: served with its effect, or discarded and counted (R34, R476). -/
def Dev.write (d : Dev) (m : Master) (pg off v : Nat) (eff : Dev → Dev) : Dev :=
  match d.gate m pg off with
  | .served => if d.lockedWhole pg off then d.lockMiss pg off v else eff ((d.lockMiss pg off v).served m pg off v)
  | g => d.discard g pg

/-- A write that a further rule of its block may discard after the class rule: counted in the block's own field, and leaving LAST_WR and the readback group alone (R34, R65). -/
def Dev.writeIf (d : Dev) (m : Master) (pg off v : Nat) (ok : Bool) (cnt : Fld) (eff : Dev → Dev) : Dev :=
  match d.gate m pg off with
  | .served => if ok then eff (d.served m pg off v) else d.discardIn pg cnt
  | g => d.discard g pg

/-- As `writeIf`, for a rule that counts the discarded write elsewhere. -/
def Dev.writeOr (d : Dev) (m : Master) (pg off v : Nat) (ok : Bool) (no : Dev → Dev) (eff : Dev → Dev) : Dev :=
  match d.gate m pg off with
  | .served => if ok then eff (d.served m pg off v) else (no d).pmc pg 4
  | g => d.discard g pg

/-- The RW fields of the register of an array at an offset: SVCn_BW6 is RO (R116), and SEL_PRIk.ROLE is RO but for k = 1 and 2 (R110). -/
def RegDesc.rwAt (r : RegDesc) (o : Nat) : Nat :=
  match r.kind, r.index o with
  | .svcBw, some i => if i = 6 then 0 else r.rw
  | .selPri, some i => if i = 1 ∨ i = 2 then r.rw else r.rw &&& 0xFFFF
  | _, _ => r.rw

/-- The plain effect of a write on the register at an offset by its access types (R13): RWL fields only while unlocked (R476), and W1C bits that hardware has just set stay set (R14). -/
def RegDesc.store (r : RegDesc) (o : Nat) (locked : Bool) (just v : Nat) (w : Word) : Word :=
  let m (x : Nat) : Word := BitVec.ofNat 96 x
  let rw := m (r.rwAt o ||| (if locked then 0 else r.rwl))
  let val := m v
  ((w &&& ~~~ rw) ||| (val &&& rw)) &&& ~~~ (val &&& m r.w1c &&& ~~~ m just) ||| (val &&& m r.w1s)

/-- Store a written value into its register by the access types alone. -/
def Dev.storeReg (d : Dev) (pg off v : Nat) : Dev :=
  match regAt pg off with
  | some r =>
    let o := r.start off
    d.setReg pg o (r.store o (d.locked pg) (d.justSet (4096 * pg + o)) v (d.reg pg o))
  | none => d

/-- Write the fields of a register that holds RW fields, after the gate. -/
def Dev.writeStore (d : Dev) (m : Master) (pg off v : Nat) (eff : Dev → Dev := id) : Dev :=
  d.write m pg off v fun d => eff (d.storeReg pg off v)

/-! Scopes of a reset that runs (R18, R20). -/

/-- The number of a region. -/
def Region.num : Region → Nat
  | .time => 0 | .measurement => 1 | .synthesis => 2 | .gnss => 3 | .portA => 4 | .portB => 5
  | .service => 6 | .store => 7 | .audio => 8 | .control => 9 | .host => 10

/-- The pages a region reset returns: EVO goes on in a reset of the Time region (R19), and PD0 is spared in one of the Control region (R362). -/
def resetPages (r : Region) : List Nat :=
  match r with
  | .time => [Pg.ts 0, Pg.ts 1]
  | .control => Pg.clkd :: ((List.range 8).map Pg.seq) ++ [Pg.pmc, Pg.plk]
  | r => regionPages r

/-- A request that a running reset of the same or a larger scope absorbs (R20). -/
def Dev.absorb (d : Dev) (r : Region) : Dev := (d.count Pg.glb GLB.RST_ABSORBED_COUNT).record 0x06 (srcPage Pg.glb) [r.num]

/-- The region whose running reset, its own or its die's, contains a page and absorbs a reset of the page or its cluster (R20). -/
def Dev.within (d : Dev) (pg : Nat) : Option Region :=
  ((pageRow pg).map (·.region)).bind fun r => if r ∈ d.flt.resetting ∧ pg ∈ resetPages r then some r else none

/-- A value latched by a page's snapshot. -/
def Dev.latReg (d : Dev) (pg off : Nat) : Word := sget resetWord d.lat (4096 * pg + off)

/-- The factory costs of R379 in mW, by kind. -/
def factoryCost : List Nat := [3800, 80, 190, 320, 480, 617, 4000, 450, 200, 600, 350, 50, 250, 200, 400, 1500, 0]

/-- The declared cost of a kind: the factory's while CAL_BAD = 1, else that of the calibration set, all-ones where its section is missing (R379, R423, R424); the spec gives none for a code that is no kind (log entry 7). -/
def Dev.cost (d : Dev) (k : Nat) : Nat :=
  if 16 < k then Config.cost k
  else if d.on Pg.ldr LDR.STS_CAL_BAD then factoryCost.getD k 0
  else ((d.ldr.cal.filter fun e => e.1 = 4096 * Pg.pwr + 0x144).map (·.2)).getD k 0xFFFF

/-- Time left on the arm of a timescale in ms, rounded down (R70, R74). -/
def Dev.armLeft (d : Dev) (n : Ts) : Nat :=
  match d.ts[n].arm with
  | some (_, t) => (t - d.now) / milli
  | none => 0

/-- A register that no snapshot latches, as a read finds it: PWR_COST shows the kind selected, and TSA_STEP_STS the time left on the arm (R74, R394). -/
def Dev.live (d : Dev) (pg off : Nat) : Word :=
  let w := d.reg pg off
  if pg = Pg.pwr ∧ off = 0x144 then PWR.COST_MW.put (d.cost (d.get pg PWR.COST_IDX_KIND)) w
  else if pg = Pg.ts 0 ∧ off = 0x18C then TS.STEP_STS_ARM_LEFT.put (d.armLeft 0) w
  else if pg = Pg.ts 1 ∧ off = 0x18C then TS.STEP_STS_ARM_LEFT.put (d.armLeft 1) w
  else w

/-- Word k (32 bits) of what a read by a master returns from an offset of a page (R371, R440, R441, R445, R454). -/
def Dev.readWord (d : Dev) (m : Master) (pg off : Nat) : Nat :=
  let obs := match d.access m with | .observer => true | _ => false
  if !d.on Pg.glb GLB.BOOT_STS_BOOT_DONE && pg != Pg.glb && !(m == .loader || m == .collector) then 0xFFFFFFFF
  else if d.inCave && m == .mgmt && !((pageRow pg).map (·.cave)).getD false then 0xFFFFFFFF
  else match regAt pg off with
    | none => 0
    | some r =>
      let o := r.start off
      let cnt := decide (off < 0x60 ∧ 0x40 ≤ off) || (pg == Pg.pmc && (decide (0x400 ≤ off) || decide (0x120 ≤ off ∧ off < 0x128)))
      if pg == Pg.gnss 7 && 0x100 ≤ off && d.get (Pg.gnss 0) GNSS0.CTL_MODE != 1 then 0 else
      if obs && cnt && !d.on Pg.pmc PMC.CTL_OBS_EN then 0xFFFFFFFF else
      let w := if r.latched then d.latReg pg o else d.live pg o
      (w.toNat >>> (8 * (off - o))) % 2 ^ 32 &&& (0xFFFFFFFF - (r.wo >>> (8 * (off - o))) % 2 ^ 32)

/-- A register read of 32 bits: counted as a read of the page (R368). -/
def Dev.read32 (d : Dev) (m : Master) (a : Nat) : Nat × Dev :=
  (d.readWord m (a / 4096) (a % 4096), d.pmc (a / 4096) 2 { master := some m, addr := some a })

end Sys2Proof.Machine
end

