-- ==== Sys2Proof/Machine/Flags.lean ====
section
/-! DEFINITION. The computed status values: bound codes and their sums (R46, R52), frequency codes, clockAccuracy (R58), root dispersion (R56), and the time-dependent terms of R49, R50 and R124.
A bound is a number of 2^-8 ps; none is unbounded. -/

namespace Sys2Proof.Machine

/-- A bound in 2^-8 ps, or unbounded. -/
abbrev Bound := Option Nat

/-- The largest sum of the 48-bit integer-picosecond accumulator, in 2^-8 ps (R52). -/
def boundSat : Nat := (2 ^ 48 - 1) * 256

/-- Decode a bound code: e = 31 is unbounded whatever m holds (R46). -/
def decodeBound (c : Nat) : Bound :=
  if c % 2 ^ 16 / 2048 = 31 then none else some (c % 2048 * 2 ^ (c % 2 ^ 16 / 2048) * 256)

/-- Encode a bound: the smallest e that leaves at most 2,047 units, never below 0x0001; 0xFFFF where none does (R46). -/
def encodeBound : Bound → Nat
  | none => 0xFFFF
  | some b =>
    match (List.range 31).find? fun e => cdiv b (2 ^ (e + 8)) ≤ 2047 with
    | some e => e * 2048 + max 1 (cdiv b (2 ^ (e + 8)))
    | none => 0xFFFF

/-- A term that is shown as 0x0000 when it is zero (R55). -/
def encodeTerm (b : Bound) : Nat := if b = some 0 then 0 else encodeBound b

/-- Add two bounds with saturation (R52). -/
def addBound : Bound → Bound → Bound
  | some a, some b => some (min (a + b) boundSat)
  | _, _ => none

/-- Add a list of terms; none is combined in quadrature, none is subtracted (R52). -/
def sumBound (l : List Bound) : Bound := l.foldl addBound (some 0)

/-- The larger of two bounds. -/
def maxBound : Bound → Bound → Bound
  | some a, some b => some (max a b)
  | _, _ => none

/-- Whole picoseconds as a bound. -/
def psBound (n : Nat) : Bound := some (n * 256)

/-- The magnitude of a time in 2^-16 ns as a bound, rounded up: 1 unit is 1000 × 2^-16 ps = 125/32 of 2^-8 ps. -/
def timeBound (t : Int) : Bound := some (cdiv (t.natAbs * 125) 32)

/-- A frequency code in units of 10^-15 (R83). -/
def decodeFunc (c : Nat) : Option Nat :=
  if c % 2 ^ 16 / 2048 = 31 then none else some (c % 2048 * 2 ^ (c % 2 ^ 16 / 2048))

/-- A coefficient of R121; all-ones is unbounded. -/
def coef (w : Nat) : Option Nat := if w = 0xFFFFFFFF then none else some w

/-- Square root, rounded down, of a number below 2^128. -/
def isqrt (n : Nat) : Nat :=
  ((List.range 64).reverse).foldl (fun r i => if (r + 2 ^ i) * (r + 2 ^ i) ≤ n then r + 2 ^ i else r) 0

/-- Square root, rounded up. -/
def isqrtUp (n : Nat) : Nat := if isqrt n * isqrt n = n then isqrt n else isqrt n + 1

/-- A fractional frequency in 10^-15 over a time in ns, as a bound (F t and u_y τ). -/
def freqTerm (f : Option Nat) (t : Nat) : Bound := f.map fun f => cdiv (f * t * 256) (10 ^ 12)

/-- D t²/2 with D in 10^-21 per second and t in ns (R50, R121). -/
def driftTerm (d : Option Nat) (t : Nat) : Bound := d.map fun d => cdiv (d * t * t * 256) (2 * 10 ^ 27)

/-- W √t with W in 2^-8 ps per root second and t in ns (R50, R121). -/
def walkTerm (w : Option Nat) (t : Nat) : Bound := w.map fun w => isqrtUp (cdiv (w * w * t) (10 ^ 9))

/-- F t + D t²/2 + W √t (R50). -/
def growth (f d w : Option Nat) (t : Nat) : Bound := sumBound [freqTerm f t, driftTerm d t, walkTerm w t]

/-- The limits of clockAccuracy 0x17 to 0x30 in 2^-8 ps (R58): 1, 2.5, 10, 25, ... ps to 1 s, and 10 s. -/
def accuracyLimit (i : Nat) : Nat := if i = 25 then 256 * 10 ^ 13 else if i % 2 = 0 then 256 * 10 ^ (i / 2) else 640 * 10 ^ (i / 2)

/-- clockAccuracy of a published bound under a floor (R58). -/
def accuracyOf (floor : Nat) : Bound → Nat
  | none => 0xFE
  | some b => max floor (0x17 + ((List.range 26).find? fun i => b ≤ accuracyLimit i).getD 26)

/-- The limit of a received clockAccuracy; any other value is unbounded (R87). -/
def accuracyBound (a : Nat) : Bound := if 0x17 ≤ a ∧ a ≤ 0x30 then some (accuracyLimit (a - 0x17)) else none

/-- Root dispersion of a stamp bound in 2^-16 s: ⌈B / 15,258,789.0625 ps⌉ and at least 1; 16 s when unbounded (R56). -/
def rootDispersion : Bound → Nat
  | none => 0x100000
  | some b => max 1 (cdiv b 3906250000)

/-- The root mean square of the values, times a factor, rounded up. -/
def rmsUp (k num den : Nat) (l : List Int) : Nat :=
  if l.isEmpty then 0 else isqrtUp (cdiv (k * k * num * num * (l.foldl (fun a x => a + x.natAbs * x.natAbs) 0)) (den * den * l.length))

/-- The trace identifier of reference k (R47, R81); k = 19 is the partner, whose instance is its timescale. -/
def traceOf (k partnerTs : Nat) : Nat :=
  if k = 0 then 0 else if k ≤ 2 then 0x10 + (k - 1) else if k ≤ 10 then 0x20 + (k - 3)
  else if k ≤ 14 then 0x30 + (k - 11) else if k ≤ 18 then 0x40 + (k - 15) else 0x70 + partnerTs

end Sys2Proof.Machine
end

