-- ==== Sys2Proof/Machine/TimeOps.lean ====
section
/-! DEFINITION. Operations on the timescales that several blocks share: published bounds (R48 to R55), stamp bounds (R51), clockClass (R59), increments, slews and views (R62 to R79). -/

namespace Sys2Proof.Machine

/-! Engine updates. -/

def Dev.upTs (d : Dev) (n : Ts) (f : TsEng → TsEng) : Dev := { d with ts := d.ts.set n (f d.ts[n]) }
def Dev.upMon (d : Dev) (k : Fin 19) (f : MonEng → MonEng) : Dev := { d with mon := d.mon.set k (f d.mon[k]) }
def Dev.upSel (d : Dev) (n : Ts) (f : SelEng → SelEng) : Dev := { d with sel := d.sel.set n (f d.sel[n]) }
def Dev.upSvc (d : Dev) (n : Ts) (f : SvcEng → SvcEng) : Dev := { d with svc := d.svc.set n (f d.svc[n]) }
def Dev.upHld (d : Dev) (n : Ts) (f : HldEng → HldEng) : Dev := { d with hld := d.hld.set n (f d.hld[n]) }

/-! The monitor block of a reference (R81). -/

/-- Page of the monitor of reference k. -/
def monPg (k : Nat) : Nat :=
  if k = 0 then Pg.gnss 0 else if k ≤ 2 then Pg.atm (k - 1) else if k ≤ 10 then Pg.ref (k - 3)
  else if k ≤ 14 then Pg.us (k - 11) else Pg.us (k - 15)

/-- Base of the monitor block of reference k. -/
def monBase (k : Nat) : Nat := if k < 15 then 0x100 else 0x800

/-- A field of the monitor of reference k. -/
def Dev.mget (d : Dev) (k : Nat) (f : Nat → Fld) : Nat := d.get (monPg k) (f (monBase k))
def Dev.mgeti (d : Dev) (k : Nat) (f : Nat → Fld) : Int := d.geti (monPg k) (f (monBase k))
def Dev.mput (d : Dev) (k : Nat) (f : Nat → Fld) (v : Nat) : Dev := d.put (monPg k) (f (monBase k)) v
def Dev.mputi (d : Dev) (k : Nat) (f : Nat → Fld) (v : Int) : Dev := d.puti (monPg k) (f (monBase k)) v

/-- Reference k carries phase (R81): all but the SyncE slots and a REF pin whose FORMAT is not PPS; the partner does. -/
def Dev.carries (d : Dev) (k : Nat) : Bool :=
  if 3 ≤ k ∧ k ≤ 10 then d.get (Pg.ref (k - 3)) REF.IN_CTL_FORMAT == 0 else k < 15 || k == 19

/-- B_ref of a reference, decoded from its published code (R49, R409). -/
def Dev.bref (d : Dev) (k : Nat) : Bound := decodeBound (if k = 19 then d.plk.bref else d.mget k MON.BREF_BREF)

/-- FUNC of a reference in 10^-15 (R88); the partner declares none. -/
def Dev.func (d : Dev) (k : Nat) : Option Nat := if k = 19 then some 0 else decodeFunc (d.mget k MON.BREF_FUNC)

/-! Views and bindings (R75 to R79). -/

/-- The exact difference TSB − TSA in 2^-48 ns (R76). -/
def Dev.xts (d : Dev) : Int := (d.acc 1 : Int) - d.acc 0

/-- The timescale in use by consumer i. -/
def Dev.cur (d : Dev) (i : Fin 48) : Ts := if d.on (Pg.ts 0) (TSA.BIND_CUR i) then 1 else 0

/-- A consumer's view V = T_cur + c in 2^-48 ns (R76). -/
def Dev.view (d : Dev) (i : Fin 48) : Int := (d.acc (d.cur i) : Int) + d.corr[i]

/-- The slew adjustment of one tick in 2^-48 ns at a rate in ns/s held to 1–1,000 (R68). -/
def slewAdj (rate : Nat) : Nat := clampN 1 1000 rate * 2 ^ 48 / second

/-- One tick of a correction or slew: at most `adj` toward zero; a remainder of at most `adj` waits for its last tick. -/
def walkTick (adj : Nat) (r : Int) : Int :=
  if r.natAbs ≤ adj then 0 else if r > 0 then adj else - (adj : Int)

/-- What a timescale adds in one tick: its effective increment and its slew adjustment (R62). -/
def Dev.tickAdd (d : Dev) (n : Ts) : Int :=
  d.get (Pg.ts n) TS.INCR_EFF_EFF + walkTick (slewAdj (d.get (Pg.ts n) TS.SLEW_MAX_RATE)) d.ts[n].slewRem

/-- A consumer's correction is being walked (R76). -/
def Dev.walks (d : Dev) (n : Fin 48) : Bool := d.corr[n] != 0 && !d.on (Pg.ts 0) (TSA.BIND_HOLD n)

/-- What each tick takes off a consumer's correction (R76). -/
def Dev.walkRate (d : Dev) (i : Fin 48) : Int := if d.walks i then walkTick (slewAdj d.ts[0].walkRate) d.corr[i] else 0

/-- What each tick has taken off a consumer's correction until now (R76). -/
def Dev.walked (d : Dev) (i : Fin 48) : Int := if d.walks i then (if d.corr[i] > 0 then (1 : Int) else -1) * slewAdj d.ts[0].walkRate else 0

/-- The change of a consumer's view in one tick, in 2^-48 ns (R62, R76). -/
def Dev.viewRate (d : Dev) (i : Fin 48) : Int := d.tickAdd (d.cur i) - d.walkRate i

/-- How far back the stamps of a frame may reach, in ticks: the longest frame at 1 Gb/s with its path to the PCS. -/
abbrev pastTicks : Nat := 131072

/-- A consumer's binding or walk is about to change: keep how its view was formed until now (R221). -/
def Dev.viewKeep (d : Dev) (i : Fin 48) : Dev :=
  { d with views := ⟨i, d.now, d.cur i, d.corr[i], d.walked i⟩ :: d.views.filter fun e => d.now < e.mec + pastTicks }

/-- B_xts of a consumer: ⌈|c|⌉ ps while its correction is not zero (R78). -/
def Dev.bxts (d : Dev) (i : Fin 48) : Bound :=
  psBound (cdiv (d.corr[i].natAbs * 1000) (2 ^ 48))

/-! The published bound (R53). -/

/-- The published code of a timescale. -/
def Dev.btsCode (d : Dev) (n : Ts) : Nat := d.get (Pg.ts n) TS.BOUND_STS_CODE

/-- The published bound of a timescale. -/
def Dev.bts (d : Dev) (n : Ts) : Bound := decodeBound (d.btsCode n)

/-- The stamp bound of R51 for a timescale: a port term, die crossings, and a consumer's B_xts. -/
def Dev.stampBound (d : Dev) (n : Ts) (port : Bound) (cross : Nat) (xts : Bound) : Bound :=
  sumBound [d.bts n, port, psBound (5 * cross), xts, psBound 1]

/-- The stamp bound for a consumer through its binding (R78). -/
def Dev.bindBound (d : Dev) (i : Fin 48) (port : Bound) (cross : Nat) : Bound :=
  d.stampBound (d.cur i) port cross (d.bxts i)

/-- The trace identifier of a timescale. -/
def Dev.trace (d : Dev) (n : Ts) : Nat := d.get (Pg.ts n) TS.BOUND_STS_TRACE

/-- Host mode is in force (R65). -/
def Dev.hostMode (d : Dev) (n : Ts) : Bool := d.on (Pg.ts n) TS.STS_MODE

/-- The selector state (R108), by its code in SEL_STSn.STATE. -/
def Dev.selState (d : Dev) (n : Ts) : Nat := d.get Pg.sel (SEL.STS_STATE n)

abbrev selFreerun : Nat := 0
abbrev selAcquire : Nat := 1
abbrev selLocked : Nat := 2
abbrev selSwitching : Nat := 3
abbrev selHoldover : Nat := 4
abbrev selRelock : Nat := 5
abbrev selHost : Nat := 6

/-- The selected reference, 0x1F for none. -/
def Dev.selK (d : Dev) (n : Ts) : Nat := d.get Pg.sel (SEL.STS_SEL_K n)

/-- Engine time, in ns rounded up, from a step-free time of a timescale to the end of the coming publication interval of 1,024 ticks, at the increment in force (R9, R53, R60). -/
def Dev.elapsed (d : Dev) (n : Ts) (t0 : Int) : Nat :=
  cdiv ((d.stepFree n - t0).toNat + 1024 * d.get (Pg.ts n) TS.INCR_EFF_EFF) (2 ^ 48)

/-- B_servo = |x̂| + 3 σ_x + u_y τ, each term rounded up, τ at the end of the coming interval; σ_x from the history of updates, or after a halt as last formed (R49, R52, R53, R115, R117). -/
def Dev.bServo (d : Dev) (n : Ts) : Bound :=
  let h := d.svc[n].xs
  let sig := if h.isEmpty then (coef (d.get (Pg.svc n) SVC.SIGX_SIGX)).map (3 * ·) else some (rmsUp 3 125 32 h)
  sumBound [timeBound (d.geti (Pg.svc n) SVC.XHAT_X), sig,
    freqTerm (coef (d.get (Pg.svc n) SVC.UY_UY)) (d.elapsed n d.svc[n].updAt)]

/-- B_dis of a timescale: the largest discrepancy of its selected reference in ps (R101). -/
def Dev.bDis (d : Dev) (k : Nat) : Bound :=
  if h : k < 19 then (if d.mget k MON.STS_DISAGREE = 1 then psBound d.ens.dis[k] else some 0) else some 0

/-- The tracking bound against reference k (R49, R124): terms, and the sum. A frequency-only reference has the bound of R124. -/
def Dev.bTrack (d : Dev) (n : Ts) (k : Nat) : Bound :=
  if d.carries k then sumBound [d.bref k, d.bServo n, d.bDis k]
  else match d.hld[n].phase with
    | none => none
    | some (c, t0) =>
      let t := d.elapsed n t0
      sumBound [decodeBound c, freqTerm (d.func k) t, walkTerm (coef (d.get Pg.hld (HLD.W_W 0))) t]

/-- The growth terms over t ns with the coefficients of set s and frequency uncertainty f (R50, R121). -/
def Dev.hldGrowth (d : Dev) (s f t : Nat) : Bound :=
  growth (coef f) (coef (d.get Pg.hld (HLD.D_D s))) (coef (d.get Pg.hld (HLD.W_W s))) t

/-- Time since holdover began, at the end of the coming interval, in ns (R50, R53). -/
def Dev.hldTime (d : Dev) (n : Ts) : Nat := d.elapsed n d.hld[n].start

/-- The growth of the holdover in force. F formed at entry stands; after a soft reset of its page an unset coefficient makes it unbounded (R477). -/
def Dev.hldTerms (d : Dev) (n : Ts) : Bound :=
  let e := d.hld[n]
  let f := if d.get Pg.hld (HLD.F0_F0 e.set) = 0xFFFFFFFF then 0xFFFFFFFF else e.fEntry
  d.hldGrowth e.set f (d.hldTime n)

/-- The holdover bound (R50). -/
def Dev.bHold (d : Dev) (n : Ts) : Bound := addBound d.hld[n].bEntry (d.hldTerms n)

/-- The coefficient set of an aid, or of the system oscillator (R121). -/
def aidSet : Option (Fin 2) → Nat
  | some j => 1 + j.val
  | none => 0

/-- The aid that HLD_CTLn.AID names, when it is QUALIFIED (R120). -/
def Dev.chooseAid (d : Dev) (n : Ts) : Option (Fin 2) :=
  let q (j : Fin 2) := d.mget (1 + j) MON.STS_STATE == 4
  match d.get Pg.hld (HLD.CTL_AID n) with
  | 1 => if q 0 then some 0 else none
  | 2 => if q 1 then some 1 else none
  | 3 => if q 0 then some 0 else if q 1 then some 1 else none
  | _ => none

/-- The host-mode bound (R67), with the coefficients the holdover unit holds; its t is engine time (R9). -/
def Dev.bHost (d : Dev) (n : Ts) : Bound :=
  addBound (decodeBound (d.get (Pg.ts n) TS.MAN_UNC_CODE))
    (d.hldGrowth (aidSet (d.chooseAid n)) (d.get Pg.hld (HLD.F_F n)) (d.elapsed n d.ts[n].manT0))

/-- The conditions of R48 that force a qualified bound: a latched C3, MCLK unlocked, a link that its stamps cross UNCALIBRATED. -/
def Dev.forced (d : Dev) (n : Ts) : Bool :=
  d.c3 n || !d.on Pg.tdcCal TDCCAL.MCLK_STS_LOCK || d.linkForced n

/-- Bound and state of a timescale before the forcing conditions: the formula of the selector state (R49, R50, R67, R108, R123). -/
def Dev.formula (d : Dev) (n : Ts) : Bound × Nat :=
  let s := d.selState n
  let k := d.selK n
  if d.hostMode n then (d.bHost n, if (decodeBound (d.get (Pg.ts n) TS.MAN_UNC_CODE)).isSome then 1 else 0)
  else if s = selFreerun ∨ s = selHost then (none, 0)
  else if s = selHoldover then (d.bHold n, 2)
  else if s = selRelock then (maxBound (decodeBound d.hld[n].hr) (d.bTrack n k), 2)
  else (d.bTrack n k, 1)

/-- Trace identifier by the selector state (R47, R65, R119). With no reference selected outside holdover and host mode the table of R47 gives no code; the register then holds 0x00, its reset value (DESIGN CHOICE, log entry 40). -/
def Dev.traceNow (d : Dev) (n : Ts) : Nat :=
  let s := d.selState n
  if d.hostMode n then 0x60
  else if s = selHoldover ∨ s = selRelock then 0x50 + d.hld[n].traceClass
  else if d.selK n ≤ 19 then traceOf (d.selK n) (d.get Pg.plk PLK.FOLLOW_SRC) else 0

/-- clockClass of a timescale: the first matching entry, else DEFAULT (R59). -/
def Dev.classNow (d : Dev) (n : Ts) : Nat :=
  let pg := Pg.ts n
  let dflt := d.get pg TS.CC_CTL_DEFAULT
  match d.bts n with
  | none => dflt
  | some b =>
    let hit := [0, 1, 2, 3].find? fun i =>
      d.on pg (TS.CC_MAP_EN i) &&
      (d.get pg (TS.CC_MAP_STATE i) == 0 || d.get pg (TS.CC_MAP_STATE i) == d.get pg TS.BOUND_STS_STATE) &&
      d.get pg (TS.CC_MAP_STATE i) != 3 &&
      (match decodeBound (d.get pg (TS.CC_MAP_THR i)) with
       | none => true
       | some t => b ≤ t)
    (hit.map fun i => d.get pg (TS.CC_MAP_CLASS i)).getD dflt

/-- clockAccuracy of a timescale (R58). -/
def Dev.accNow (d : Dev) (n : Ts) : Nat := accuracyOf (d.get (Pg.ts n) TS.CC_CTL_ACC_FLOOR) (d.bts n)

/-- The class changes and is recorded (R59). -/
def Dev.setClass (d : Dev) (n : Ts) (c : Nat) : Dev := d.newClass n c (d.accNow n)

/-- Engine time of HOLD that a lower class still has to match, in ns (R9, R59). -/
def Dev.holdLeft (d : Dev) (n : Ts) (t0 : Int) : Nat :=
  cdiv ((t0 + d.get (Pg.ts n) TS.CC_CTL_HOLD * accSecond) - d.stepFree n).toNat (2 ^ 48)

/-- Judge the class: a higher one takes effect at once, a lower one after HOLD seconds without interruption (R59). -/
def Dev.judgeClass (d : Dev) (n : Ts) : Dev :=
  let c := d.classNow n
  let e := d.ts[n]
  let t0 := match e.clsBetter with
    | some (b, t) => if b = c then t else d.stepFree n
    | none => d.stepFree n
  if c = e.cls then (d.cancel (.clockClassHoldExpiry n)).upTs n fun e => { e with clsBetter := none }
  else if c > e.cls ∨ d.holdLeft n t0 = 0 then d.setClass n c
  else
    let d := d.upTs n fun e => { e with clsBetter := some (c, t0) }
    if d.alarms.any fun x => x.2.2 = .clockClassHoldExpiry n ∧ x.2.1 = t0 + d.get (Pg.ts n) TS.CC_CTL_HOLD * accSecond then d
    else d.timerTime n (d.holdLeft n t0) (.clockClassHoldExpiry n)

/-- Drop the codes a new one reaches, and those older than the longest guard interval (R50, R122); `now` is step-free time in 2^-48 ns. -/
def pushPub (now : Int) (code : Nat) (l : List (Int × Nat)) : List (Int × Nat) :=
  (now, code) :: (l.dropWhile fun e => e.2 ≤ code).filter fun e => now ≤ e.1 + 14400 * accSecond

/-- B_entry: the largest code published during the guard interval, which is engine time in whole bins (R9, R50, R118). -/
def Dev.entryCode (d : Dev) (n : Ts) : Nat :=
  let g := 10 * cdiv (clampN 1 14400 (d.get Pg.hld (HLD.GUARD_GUARD n))) 10
  (d.hld[n].pub.filter fun e => d.stepFree n ≤ e.1 + g * accSecond).foldl (fun a e => max a e.2) (d.btsCode n)

/-- Publish the bound of a timescale: the formula, the hold after a step (R54), the forcing conditions (R48), and the registers of R55. -/
def Dev.publish (d : Dev) (n : Ts) : Dev :=
  let pg := Pg.ts n
  let (b0, s0) := d.formula n
  let b1 := match d.ts[n].stepHold with
    | some (c, _) => if s0 = 0 then b0 else maxBound b0 (decodeBound c)
    | none => b0
  let ok := d.ts[n].qualified && s0 != 0
  let force := d.c3 n || (ok && (d.forced n || (encodeBound b1 == 0xFFFF && !d.hostMode n)))
  let code := if ok && !force then encodeBound b1 else 0xFFFF
  let k := d.selK n
  let track := !d.hostMode n && (s0 == 1 || d.selState n == selRelock)
  let flags := track && k < 19
  let d := ((d.put pg TS.BOUND_STS_CODE code).put pg TS.BOUND_STS_STATE (if force then 3 else if ok then s0 else 0)).put pg TS.BOUND_STS_TRACE (d.traceNow n)
  let d := d.putb pg TS.BOUND_STS_UNCONFIRMED (flags && d.mget k MON.STS_UNCONFIRMED == 1)
  let d := d.putb pg TS.BOUND_STS_DISAGREE (flags && d.mget k MON.STS_DISAGREE == 1)
  let d := (d.put pg TS.BOUND_T0_REF (if track then encodeBound (d.bref k) else 0xFFFF)).put pg TS.BOUND_T0_SERVO
    (if track then encodeBound (d.bServo n) else 0xFFFF)
  let d := (d.put pg TS.BOUND_T1_DIS (if track then encodeTerm (d.bDis k) else 0)).put pg TS.BOUND_T1_GROWTH
    (if s0 = 2 then encodeTerm (d.hldTerms n) else 0)
  let d := d.put pg TS.BOUND_T2_ENTRY (encodeBound d.hld[n].bEntry)
  let d := d.upHld n fun e => { e with
    pub := pushPub (d.stepFree n) code e.pub
    phase := if s0 = 1 ∧ ¬ d.hostMode n ∧ d.carries k then some (code, d.stepFree n) else e.phase }
  d.judgeClass n

/-! Changes of a timescale (R63 to R69). -/

/-- The limits of TSA_INCR (R63). -/
abbrev incrMin : Nat := 0x0000FFF972474539
abbrev incrMax : Nat := 0x000100068DB8BAC7

/-- The nominal increment. -/
abbrev incrNom : Nat := 2 ^ 48

/-- Cause number of the C1 of R63. -/
abbrev causeClamp : Nat := 1

/-- Register a change: it applies 32 ticks later (R64). -/
def Dev.register (d : Dev) (n : Ts) (c : TsChange) : Dev :=
  (d.upTs n fun e => { e with changes := e.changes ++ [(d.now + 32, c)] }).after 32 (.applicationTick n)

/-- The amount of a step operand at this tick, in 2^-48 ns (R70). -/
def Dev.stepDelta (d : Dev) (n : Ts) : StepOp → Int
  | .rel a => a * 2 ^ 32
  | .abs t => (t : Int) * 2 ^ 32 - d.acc n

/-- A step of a timescale applies at this tick: 32 ticks after its registration, or with AT_SEC at the first tick after that with a greater SEC and NS = 0 (R64, R72). -/
def Dev.stepDue (d : Dev) (n : Ts) : Bool :=
  match d.ts[n].step with
  | some (_, t, false) => decide (t + 32 ≤ d.now)
  | some (_, _, true) => d.ts[n].stepSec.any fun q => decide (q < d.sec n ∧ d.acc n % accSecond < 2 ^ 48)
  | none => false

/-- The masters that may write TSA_INCR and TSA_SLEW_AMT in the mode in force (R65). -/
def Dev.mayIncr (d : Dev) (n : Ts) (m : Master) : Bool :=
  match m with
  | .pf0 => d.hostMode n
  | .seq _ => d.hostMode n
  | .svc k => !d.hostMode n && k == n
  | _ => false

/-- Unaided holdover discards servo writes (R119). -/
def Dev.hldBlocks (d : Dev) (n : Ts) : Bool :=
  (d.selState n == selHoldover) && d.hld[n].aid.isNone && !d.hostMode n

/-- The effect of an accepted write of TSA_INCR (R63, R64): outside the limits it sets CLAMPED and raises C1, and an in-range value ends that cause. -/
def Dev.putIncr (d : Dev) (n : Ts) (v : Nat) : Dev :=
  let out := v < incrMin ∨ incrMax < v
  let d := (d.put (Pg.ts n) TS.INCR_INCR v).putb (Pg.ts n) TS.STS_CLAMPED (decide out)
  (if out then d.raise (Pg.ts n) 1 causeClamp else d.lower (Pg.ts n) 1 causeClamp).register n (.incr v)

/-- A write of TSA_INCR by a master; `unit` marks the holdover unit's own write through the servo's port (R119). -/
def Dev.writeIncr (d : Dev) (n : Ts) (m : Master) (v : Nat) (unit : Bool := false) : Dev :=
  match m with
  | .svc _ =>
    if !unit && d.hldBlocks n && d.mayIncr n m then d.count Pg.hld (HLD.BLOCK_BLOCK n)
    else d.writeIf m (Pg.ts n) 0x120 v (d.mayIncr n m) TS.WR_DISC_COUNT fun d => d.putIncr n v
  | _ => d.writeIf m (Pg.ts n) 0x120 v (d.mayIncr n m) TS.WR_DISC_COUNT fun d => d.putIncr n v

/-- The effect of an accepted write of TSA_SLEW_AMT (R68, R69): 2^-16 ns. -/
def Dev.putSlew (d : Dev) (n : Ts) (a : Int) : Dev :=
  if a.natAbs > second * 2 ^ 16 then d.put (Pg.ts n) TS.STS_SLEW_RES 1
  else (d.put (Pg.ts n) TS.STS_SLEW_RES 0).register n (.slew a)

/-- A write of TSA_SLEW_AMT by a master (R65, R69, R119). -/
def Dev.writeSlew (d : Dev) (n : Ts) (m : Master) (a : Int) (unit : Bool := false) : Dev :=
  let go (d : Dev) := d.writeIf m (Pg.ts n) 0x140 (unsgn 64 a) (d.mayIncr n m) TS.WR_DISC_COUNT fun d => d.putSlew n a
  match m with
  | .svc _ => if !unit && d.hldBlocks n && d.mayIncr n m then d.count Pg.hld (HLD.BLOCK_BLOCK n) else go d
  | _ => go d

/-- The holdover unit follows the effective increment through its bin (R118): account the ticks since the last entry. -/
def Dev.accrue (d : Dev) (n : Ts) : Dev :=
  let dt := d.now - d.hld[n].incAt
  d.upHld n fun e => { e with incSum := e.incSum + dt * d.get (Pg.ts n) TS.INCR_EFF_EFF, incTicks := e.incTicks + dt, incAt := d.now }

/-- An increment comes into force, held within its limits (R63). -/
def Dev.applyIncr (d : Dev) (n : Ts) (v : Nat) : Dev :=
  (d.accrue n).put (Pg.ts n) TS.INCR_EFF_EFF (clampN incrMin incrMax v)

/-- Ticks to the next second boundary of a timescale at its present rate. -/
def Dev.toSecond (d : Dev) (n : Ts) : Nat := cdiv (accSecond - d.acc n % accSecond) (max 1 (d.get (Pg.ts n) TS.INCR_EFF_EFF))

/-- Show the slew that remains, truncated toward zero (R74). -/
def Dev.showSlew (d : Dev) (n : Ts) : Dev :=
  (d.puti (Pg.ts n) TS.SLEW_REM_REM (tdiv d.ts[n].slewRem (2 ^ 32))).putb (Pg.ts n) TS.STS_SLEWING (d.ts[n].slewRem != 0)

/-- A slew comes into force, replacing what remains (R68, R69). -/
def Dev.applySlew (d : Dev) (n : Ts) (a : Int) : Dev :=
  (d.upTs n fun e => { e with slewRem := a * 2 ^ 32, ending := false }).showSlew n

/-- The slew still to be made, in 2^-16 ns: one registered and not yet applied replaces what remains (R64, R69, R109). -/
def Dev.slewLeft (d : Dev) (n : Ts) : Int :=
  d.ts[n].changes.foldl (fun r c => match c.2 with
    | .slew a => a
    | _ => r) (tdiv d.ts[n].slewRem (2 ^ 32))

/-- Cancel a slew in progress with its outcome (R66, R69); what a RELOCK slewed until then stays counted (R123). -/
def Dev.cancelSlew (d : Dev) (n : Ts) (res : Nat) : Dev :=
  if d.ts[n].slewRem = 0 then d
  else
    let left := d.slewLeft n
    let d := ((d.upTs n fun e => { e with slewRem := 0, ending := false }).showSlew n).put (Pg.ts n) TS.STS_SLEW_RES res
    let rest := d.slewLeft n
    d.upSel n fun e => { e with done := e.done + e.amount - left, amount := rest }

/-- Show a consumer's correction, truncated toward zero (R75). -/
def Dev.showCorr (d : Dev) (i : Fin 48) : Dev :=
  (d.puti (Pg.ts 0) (TSA.BIND_CORR_CORR i) (tdiv d.corr[i] (2 ^ 32))).putb (Pg.ts 0) (TSA.BIND_WALKING i) (d.corr[i] != 0)

/-- A rebinding comes into force: c becomes V − T_new, truncated toward zero to 2^-16 ns (R76). -/
def Dev.applyBind (d : Dev) (i : Fin 48) (sel : Nat) : Dev :=
  let old := d.cur i
  let new : Ts := if sel = 1 then 1 else 0
  if new = old then d else
  let c := tdiv (d.view i - d.acc new) (2 ^ 32)
  let d := d.viewKeep i
  let d := (({ d with corr := d.corr.set i (c * 2 ^ 32) }.put (Pg.ts 0) (TSA.BIND_CUR i) new.val).showCorr i).linkFaults
  d.record 0x14 (srcPage (Pg.ts 0)) ([i.val, old.val, new.val] ++ oct 8 (unsgn 64 c))

/-- Ticks of a slew of a units at the rate in force, ⌈|A| × 2^32 / ADJ⌉ (R109). -/
def Dev.slewTicks (d : Dev) (n : Ts) (a : Int) : Nat :=
  cdiv (a.natAbs * 2 ^ 32) (clampN 1 1000 (d.get (Pg.ts n) TS.SLEW_MAX_RATE) * 2 ^ 48 / second)

end Sys2Proof.Machine
end

