-- ==== Sys2Proof/Machine/SelOps.lean ====
section
/-! DEFINITION. Operations of the selector, the servo core and the holdover unit (R105 to R124), and the registration of steps (R70 to R72). -/

namespace Sys2Proof.Machine

/-! Steps (R70 to R72). -/

/-- Accept a step with its operand: it applies 32 ticks later, or at the first second after that (R70, R72). -/
def Dev.acceptStep (d : Dev) (n : Ts) (op : StepOp) (atSec : Bool) : Dev :=
  let d := (d.upTs n fun e => { e with step := some (op, d.now, atSec), stepSec := none }).put (Pg.ts n) TS.STEP_STS_PENDING 1
  if atSec then d else d.after 32 (.stepApply n)

/-! What may be selected (R105, R106, R409). -/

/-- The monitor state codes of MON_STS.STATE (R83). -/
abbrev monDisabled : Nat := 0
abbrev monLost : Nat := 1
abbrev monAcquire : Nat := 2
abbrev monWtr : Nat := 3
abbrev monQualified : Nat := 4
abbrev monDisqualified : Nat := 5

def Dev.mstate (d : Dev) (k : Nat) : Nat := d.mget k MON.STS_STATE
def Dev.mcause (d : Dev) (k : Nat) : Nat := d.mget k MON.STS_CAUSE

/-- Priority of reference k for timescale n (R110). -/
def Dev.pri (d : Dev) (n : Ts) (k : Nat) : Nat :=
  if n = 0 then d.get Pg.sel (SEL.PRI_PRI_A k) else d.get Pg.sel (SEL.PRI_PRI_B k)

/-- Reference k serves as a holdover aid: its ROLE, or a steered ATM port (R105). -/
def Dev.isAid (d : Dev) (k : Nat) : Bool :=
  d.on Pg.sel (SEL.PRI_ROLE k) || ((k == 1 || k == 2) && d.on (Pg.atm (k - 1)) ATM.STEER_CTL_EN)

/-- Selection mode: forced holdover is 2, manual 1, everything else auto (R110). -/
def Dev.selMode (d : Dev) (n : Ts) : Nat := d.get Pg.sel (SEL.CTL_MODE n)

/-- The partner is selectable as reference 19 (R409). -/
def Dev.partnerSelectable (d : Dev) (n : Ts) : Bool :=
  d.on Pg.plk PLK.FOLLOW_EN && (d.get Pg.plk PLK.STS_ROLE == 1 || d.get Pg.plk PLK.STS_ROLE == 2) &&
  d.get Pg.plk PLK.STS_LINK == 3 && d.get Pg.plk PLK.FOLLOW_TS == n.val

/-- Reference k is selectable for timescale n (R105, R409). -/
def Dev.selectable (d : Dev) (n : Ts) (k : Nat) : Bool :=
  let m := d.selMode n
  if k = 19 then d.partnerSelectable n && m != 2 else
  k < 19 && d.mstate k == monQualified && d.pri n k != 0 && !d.isAid k &&
  (m == 0 || m == 3 || (m == 1 && d.get Pg.sel (SEL.CTL_MAN_K n) == k))

/-- The order of R106 as one number: priority, DISAGREE, B_ref code with frequency-only references at 0xFFFF, index. -/
def Dev.rank (d : Dev) (n : Ts) (k : Nat) : Nat :=
  ((d.pri n k * 2 + d.mget k MON.STS_DISAGREE) * 65536 + (if d.carries k then d.mget k MON.BREF_BREF else 0xFFFF)) * 32 + k

/-- The best selectable reference (R106); the partner comes before every priority (R409). -/
def Dev.best (d : Dev) (n : Ts) : Option Nat :=
  if d.selectable n 19 then some 19 else
  (List.range 19).foldl (fun b k =>
    if d.selectable n k then (match b with
      | none => some k
      | some j => if d.rank n k < d.rank n j then some k else some j) else b) none

/-- Phase of reference k against timescale n, in 2^-16 ns: against TSB with the exact TSB − TSA difference of each measurement tick taken off (R82), and the steps of the timescale since the mean was formed taken off as well (R60); 0 for a frequency-only reference. -/
def Dev.xRef (d : Dev) (k : Nat) (n : Ts) : Int :=
  if h : k < 19 then
    if !d.carries k then 0
    else (if n = 1 then d.mon[k].xB else d.mgeti k MON.PHASE_X) - tdiv (d.ts[n].stepSum - d.mon[k].steps[n]) (2 ^ 32)
  else d.geti Pg.plk PLK.PX_X

/-- A frequency y against TSA in 2^-56 as one against timescale n: carried over to TSB by the increments in force (R82). -/
def Dev.yOn (d : Dev) (y : Int) (n : Ts) : Int :=
  if n = 0 then y
  else ((2 ^ 56 + y) * d.get (Pg.ts 0) TS.INCR_EFF_EFF).tdiv (d.get (Pg.ts 1) TS.INCR_EFF_EFF) - 2 ^ 56

/-- Frequency of reference k against timescale n in 2^-56 (R82). -/
def Dev.yRef (d : Dev) (k : Nat) (n : Ts) : Int := d.yOn (d.mgeti k MON.FREQ_Y) n

/-- A measurement of reference k was formed in the last second. -/
def Dev.measured (d : Dev) (k : Nat) : Bool :=
  if h : k < 19 then (if d.carries k then d.mon[k].freshX else d.mon[k].freshY) else d.plk.freshX

/-- Reference k is corroborated (R112). -/
def Dev.corroborated (d : Dev) (k : Nat) : Bool :=
  if h : k < 19 then
    d.carries k && (List.finRange 19).any fun j =>
      j.val != k && d.carries j && !d.on (monPg j) (MON.STS_STEERED (monBase j)) &&
      (d.mstate j == monQualified || (d.mstate j == monDisqualified && d.mcause j == 3)) &&
      decide (max 1 (d.get Pg.sel SEL.CORR_TIME) ≤ d.mon[k].pass[j])
  else false

/-! Servo core (R114 to R117). -/

/-- The core runs its firmware (R116, R117). -/
def Dev.coreRuns (d : Dev) (n : Ts) : Bool := d.on (Pg.svc n) SVC.CTL_RUN && d.svc[n].begun && !d.svc[n].halted

/-- Bandwidth type of reference k (R114). -/
def Dev.bwType (d : Dev) (k : Nat) : Nat :=
  if k = 0 then 0 else if k ≤ 2 then 1 else if k ≤ 10 then (if d.carries k then 2 else 3)
  else if k ≤ 14 then 4 else if k ≤ 18 then 5 else 6

/-- The range of a bandwidth in microhertz (R114). -/
def bwRange (t : Nat) : Nat × Nat :=
  [(1000, 100000), (10, 10000), (1000, 1000000), (10000, 10000000), (100, 50000), (100000, 10000000), (100000, 100000)].getD t (0, 0)

/-- The bandwidth in use, at the nearer limit of its range (R114). -/
def Dev.bandwidth (d : Dev) (n : Ts) : Nat :=
  let t := d.get (Pg.svc n) SVC.STS_BW_T
  clampN (bwRange t).1 (bwRange t).2 (d.get (Pg.svc n) (SVC.BW_BW t))

/-- Show what the core does (R116): halted, idle, acquire, frequency only, track or aided holdover. -/
def Dev.showLoop (d : Dev) (n : Ts) : Dev :=
  let s := d.selState n
  let v := if d.svc[n].halted then 5 else if !d.coreRuns n then 0
    else if s = selAcquire then 1
    else if s = selLocked ∨ s = selSwitching ∨ s = selRelock then (if d.carries (d.selK n) then 2 else 3)
    else if s = selHoldover ∧ d.hld[n].aid.isSome then 4 else 0
  d.put (Pg.svc n) SVC.STS_LOOP v

/-! Selector state (R108, R125). -/

/-- Show whether the selected reference is corroborated (R110). -/
def Dev.showCorroboration (d : Dev) (n : Ts) : Dev := d.putb Pg.sel (SEL.STS_CORR n) (d.corroborated (d.selK n))

/-- Enter a selector state: record, interrupt, event; a bin is whole only while LOCKED (R118, R125, R331). -/
def Dev.selEnter (d : Dev) (n : Ts) (s : Nat) : Dev :=
  let old := d.selState n
  let d := (d.put Pg.sel (SEL.STS_STATE n) s).upSel n fun e => { e with lock := 0, clean := e.since == d.now }
  let d := d.when (s != selLocked || old != selLocked) fun d => d.upHld n fun e => { e with whole := false }
  let d := (d.putb Pg.hld (HLD.STS_ACTIVE n) (s == selHoldover || s == selRelock)).putb Pg.hld (HLD.STS_AIDED n) (s == selHoldover && d.hld[n].aid.isSome)
  let d := d.showLoop n
  if old = s then d
  else ((d.record 0x22 (srcPage Pg.sel) [n.val, old, s, d.selK n]).int Pg.sel n).event (11 + n)

/-- Select reference k: its bandwidth is loaded, x̂ is now against it, and it qualifies the timescale (R48, R109, R114). -/
def Dev.select (d : Dev) (n : Ts) (k : Nat) : Dev :=
  let d := (d.put Pg.sel (SEL.STS_SEL_K n) k).showCorroboration n
  let d := ((d.put (Pg.svc n) SVC.STS_BW_T (d.bwType k)).put (Pg.svc n) SVC.STS_REF_K k).puti (Pg.svc n) SVC.XHAT_X (d.xRef k n)
  let d := d.upTs n fun e => { e with qualified := true }
  d.upHld n fun e => { e with funcs := (if k < 19 then d.mget k MON.DECL_FUNC else 0) :: e.funcs }

/-- No reference is selected. -/
def Dev.unselect (d : Dev) (n : Ts) : Dev :=
  (((d.put Pg.sel (SEL.STS_SEL_K n) 0x1F).put Pg.sel (SEL.STS_PEND_K n) 0x1F).put (Pg.svc n) SVC.STS_REF_K 0x1F).putb Pg.sel (SEL.STS_CORR n) false

/-! Holdover values (R118, R121). -/

/-- The Ripening window and the guard interval in bins (R118, R122). -/
def Dev.ripenBins (d : Dev) (n : Ts) : Nat := cdiv (clampN 60 86400 (d.get Pg.hld (HLD.RIPEN_WIN n))) 10
def Dev.guardBins (d : Dev) (n : Ts) : Nat := cdiv (clampN 1 14400 (d.get Pg.hld (HLD.GUARD_GUARD n))) 10

/-- The bins of the window that ends one guard interval before the present (R118). -/
def Dev.window (d : Dev) (n : Ts) : List Bin := (d.hld[n].bins.drop (d.guardBins n)).take (d.ripenBins n)

/-- The fill in percent (R118). -/
def Dev.fill (d : Dev) (n : Ts) : Nat := ((d.window n).filter (·.valid)).length * 100 / d.ripenBins n

/-- The mean of a list of integers, rounded toward zero. -/
def meanI (l : List Int) : Int := if l.isEmpty then 0 else tdiv (l.foldl (· + ·) 0) l.length

/-- Three standard errors of the mean of values whose unit is 1/den, in 10^-15, rounded up (R121). -/
def sigma3 (l : List Int) (den : Nat) : Nat :=
  let m := meanI l
  isqrtUp (cdiv (9 * 10 ^ 30 * l.foldl (fun a x => a + (x - m).natAbs ^ 2) 0) (l.length * (l.length - 1) * den * den))

/-- The largest declared frequency uncertainty of a list of codes; none when one of them is unbounded (R121). -/
def maxFunc (l : List Nat) : Option Nat :=
  l.foldl (fun a c => match a, decodeFunc c with
    | some x, some y => some (max x y)
    | _, _ => none) (some 0)

/-- What the unit holds as though holdover began now: I_avg, the aid's mean y, 3σ in 10^-15, F, fill (R118, R121). -/
structure HldValues where
  avg : Nat
  yAvg : Int
  sig : Nat
  f : Nat
  fill : Nat

/-- F of R121 for set s, saturating; unbounded terms give all-ones. -/
def Dev.formF (d : Dev) (n : Ts) (s sig : Nat) (func : Option Nat) : Nat :=
  match coef (d.get Pg.hld (HLD.F0_F0 s)), coef (d.get Pg.hld (HLD.D_D s)), func, coef sig with
  | some f0, some ds, some fu, some sg =>
    min 0xFFFFFFFF (f0 + fu + sg + cdiv (ds * (10 * d.ripenBins n + 20 * d.guardBins n)) (2 * 10 ^ 6))
  | _, _, _, _ => 0xFFFFFFFF

/-- The holdover values for an aid or none (R118, R120, R121). With no valid bin in the window the fallback applies even where FILL_MIN is 0, (DESIGN CHOICE, log entry 82); the mean y of an aid without a y in any valid bin is free (log entry 8). -/
def Dev.hldValues (d : Dev) (n : Ts) (aid : Option (Fin 2)) : HldValues :=
  let w := d.window n
  let good := w.filter (·.valid)
  let fill := d.fill n
  let fallback := fill < d.get Pg.hld (HLD.CTL_FILL_MIN n) ∨ good.isEmpty
  let avg := if fallback then ((w.head?.map (·.last)).getD d.hld[n].base)
    else (good.foldl (fun a b => a + b.incr) 0 + good.length / 2) / good.length
  let ys (j : Fin 2) := good.filterMap fun b => b.y[j]
  let yAvg := match aid with
    | some j => if fallback then ((w.head?.bind fun b => b.yLast[j]).getD (d.yRef (1 + j) n)) else if (ys j).isEmpty then Config.aidMean j else meanI (ys j)
    | none => 0
  let vals := match aid with
    | some j => ys j
    | none => good.map fun b => (b.incr : Int) - avg
  let nofill := d.get Pg.hld HLD.FNOFILL_FNOFILL
  let sig := if fallback ∨ vals.length < 2 then nofill
    else min 0xFFFFFFFE (sigma3 vals (match aid with
      | some _ => 2 ^ 56
      | none => avg))
  let span := if fallback then d.hld[n].funcs ++ ((d.hld[n].bins.take (d.guardBins n + d.ripenBins n)).flatMap (·.funcs)) else good.flatMap (·.funcs)
  ⟨avg, yAvg, sig, d.formF n (aidSet aid) sig (maxFunc span), fill⟩

/-- Show I_avg, F and 3σ in force (R122). -/
def Dev.showHld (d : Dev) (n : Ts) (v : HldValues) : Dev :=
  ((d.put Pg.hld (HLD.AVG_AVG n) v.avg).put Pg.hld (HLD.F_F n) v.f).put Pg.hld (HLD.SIG_SIG n) v.sig

/-- Bring the unit's values up to date: the fill, and outside holdover what it would hold if holdover began now (R118, R125). -/
def Dev.hldFollow (d : Dev) (n : Ts) : Dev :=
  let before := d.get Pg.hld (HLD.STS_FILL n)
  let f := d.fill n
  let m := d.get Pg.hld (HLD.CTL_FILL_MIN n)
  let d := d.put Pg.hld (HLD.STS_FILL n) f
  let d := d.when (decide (m ≤ before ∧ f < m)) fun d => d.int Pg.hld n
  if d.selState n = selHoldover ∨ d.selState n = selRelock then d else d.showHld n (d.hldValues n (d.chooseAid n))

/-- The HOLDOVER record (R125). -/
def Dev.recordHld (d : Dev) (n : Ts) (v : HldValues) (aid : Option (Fin 2)) : Dev :=
  d.record 0x24 (srcPage Pg.hld) ([n.val] ++ oct 8 v.avg ++ oct 4 v.f ++ [v.fill, aidSet aid])

/-- The holdover unit's write of I_avg through the port of the servo core: it is made 2 ticks after the entry, and so is in force 34 ticks after it (R64, R119). -/
def Dev.unitWrite (d : Dev) (n : Ts) (v : Nat) : Dev :=
  (d.upHld n fun e => { e with entryWrite := some v }).after 2 (.incrWrite (.svc n) n v)

/-- Begin a holdover entry with given values, aid and B_entry (R119, R120). -/
def Dev.beginHld (d : Dev) (n : Ts) (v : HldValues) (aid : Option (Fin 2)) (b : Bound) : Dev :=
  let d := d.upHld n fun e => { e with
    start := d.stepFree n, bEntry := b, fEntry := v.f, yAvg := v.yAvg, aid := aid,
    set := aidSet aid }
  let d := ((d.showHld n v).put Pg.hld (HLD.T0_T0 n) d.now).putb Pg.hld (HLD.STS_AIDED n) aid.isSome
  let d := (d.upSvc n fun e => { e with aidSum := 0 }).recordHld n v aid
  (d.unitWrite n v.avg).showLoop n

/-- Entry into HOLDOVER (R119): from HOST the last host-mode bound serves as B_entry (R108). -/
def Dev.enterHld (d : Dev) (n : Ts) (hw : Bool) : Dev :=
  let k := d.selK n
  let fromHost := d.selState n == selHost
  let aid := d.chooseAid n
  let v := d.hldValues n aid
  let b := decodeBound (if fromHost then d.btsCode n else d.entryCode n)
  let d := d.upHld n fun e => { e with traceClass := if k ≤ 19 then traceOf k 0 / 16 else 0xF, aidFirst := aid }
  let d := (d.unselect n).putb Pg.hld (HLD.STS_HW_ENTRY n) hw
  (d.selEnter n selHoldover).beginHld n v aid b

/-- The aid is lost: holdover continues unaided as a new entry, which has no aid to come back to (R120). -/
def Dev.loseAid (d : Dev) (n : Ts) : Dev :=
  let v := d.hldValues n none
  let nofill := d.get Pg.hld HLD.FNOFILL_FNOFILL
  let span := d.hld[n].funcs ++ ((d.hld[n].bins.take (d.guardBins n + d.ripenBins n)).flatMap (·.funcs))
  let d := d.upHld n fun e => { e with aidFirst := none }
  d.beginHld n { v with avg := d.get (Pg.ts n) TS.INCR_EFF_EFF, sig := nofill, f := d.formF n 0 nofill (maxFunc span) } none (d.bts n)

/-- The values a holdover that resumes still holds, for its HOLDOVER record (R123, R125). -/
def Dev.hldHeld (d : Dev) (n : Ts) : HldValues :=
  ⟨d.get Pg.hld (HLD.AVG_AVG n), d.hld[n].yAvg, d.get Pg.hld (HLD.SIG_SIG n), d.get Pg.hld (HLD.F_F n), d.fill n⟩

/-- Return from RELOCK to HOLDOVER (R123): the slew ends, and holdover resumes from its original start with its record (R125); its aid serves again, or is lost (R120). -/
def Dev.resumeHld (d : Dev) (n : Ts) (hw : Bool) : Dev :=
  let slewed := d.sel[n].done + d.sel[n].amount - d.slewLeft n
  let d := d.writeSlew n (.svc n) 0 true
  let d := (d.unselect n).putb Pg.hld (HLD.STS_HW_ENTRY n) hw
  let d := (d.selEnter n selHoldover).upHld n fun e => { e with bEntry := addBound e.bEntry (timeBound slewed) }
  let v := d.hldHeld n
  match d.hld[n].aidFirst with
  | some j =>
    if d.mstate (1 + j) = monQualified then
      ((((d.upHld n fun e => { e with aid := some j }).putb Pg.hld (HLD.STS_AIDED n) true).upSvc n fun e => { e with aidSum := 0 }).recordHld n v (some j)).unitWrite n v.avg
    else if d.hld[n].aid.isSome then d.loseAid n
    else (d.recordHld n v none).unitWrite n v.avg
  | none => (d.recordHld n v none).unitWrite n v.avg

/-! Switches (R109, R113). -/

/-- An automatic step is permitted for an offset in 2^-16 ns outside first acquisition (R71, R113). -/
def Dev.mayAutoStep (d : Dev) (n : Ts) (x : Int) : Bool :=
  d.on (Pg.ts n) TS.STEP_CTL_PERMIT && decide (d.get (Pg.ts n) TS.STEP_THR_THR * 2 ^ 16 < x.natAbs) && !d.hostMode n

/-- The masters that may write TSA_STEP_CMD (R65). A servo core may only for an automatic step: STEP_CTL.PERMIT, an offset |x̂| above STEP_THR, and a corroborated reference (R71). -/
def Dev.mayStep (d : Dev) (n : Ts) (m : Master) : Bool :=
  match m with
  | .pf0 => true
  | .seq _ => true
  | .svc k => k == n && d.mayAutoStep n (d.geti (Pg.svc n) SVC.XHAT_X) && d.corroborated (d.selK n)
  | _ => false

/-- The servo core makes an automatic step (R71): no arm is needed, and a step already pending stands. -/
def Dev.autoStep (d : Dev) (n : Ts) (x : Int) : Dev :=
  if d.ts[n].step.isSome then d else d.acceptStep n (.rel x) false

/-- Begin a switch or RELOCK to reference k: slew x̂, or step under R113; the end of a switch is fixed now (R109). A slew above 1 s is refused (R69) and makes nothing. -/
def Dev.beginSwitch (d : Dev) (n : Ts) (k state : Nat) : Dev :=
  let old := d.selK n
  let fromLocked := d.selState n == selLocked
  let d := d.select n k
  let a := d.xRef k n
  let step := d.mayAutoStep n a && d.corroborated k && (fromLocked || state == selRelock) && !d.sel[n].stepped && !d.sel[n].steppedLast
  let slew := if step ∨ second * 2 ^ 16 < a.natAbs then 0 else a
  let settle := d.get Pg.sel (SEL.CTL_SETTLE n)
  let d := d.selEnter n state
  let d := d.upSel n fun e => { e with amount := slew, done := 0, lost := false, clean := e.clean && slew == 0, settle := some settle }
  let d := if step then d.autoStep n a else d.writeSlew n (.svc n) a true
  if state = selSwitching then
    (d.record 0x23 (srcPage Pg.sel) ([n.val, old, k] ++ oct 8 (unsgn 64 (if step then 0 else a)))).timer (32 + d.slewTicks n slew) (.switchEnd n)
  else d

/-- Begin RELOCK (R108, R123): H_r is the bound published in the interval in which it begins. -/
def Dev.beginRelock (d : Dev) (n : Ts) (k : Nat) : Dev :=
  (d.upHld n fun e => { e with hr := d.btsCode n }).beginSwitch n k selRelock

/-- Evaluate the selector of a timescale (R107, R108). -/
def Dev.selEval (d : Dev) (n : Ts) : Dev :=
  let d := d.showCorroboration n
  let s := d.selState n
  let k := d.selK n
  let b := d.best n
  let halted := d.svc[n].halted
  let forcedHo := d.selMode n == 2
  if d.hostMode n then d
  else if s = selFreerun then
    if halted then d.enterHld n true
    else match b with
      | some j => if d.coreRuns n then (d.select n j).selEnter n selAcquire else d
      | none => d
  else if s = selAcquire then
    if halted then d.enterHld n true
    else if forcedHo then d.enterHld n false
    else if d.selectable n k then d
    else match b with
      | some j => ((d.select n j).upSel n fun e => { e with lock := 0, clean := e.since == d.now }).showLoop n
      | none => d.enterHld n false
  else if s = selLocked then
    if halted then d.enterHld n true
    else if forcedHo then d.enterHld n false
    else match b with
      | some j =>
        if j = k then d
        else if !d.selectable n k || d.on Pg.sel (SEL.CTL_REVERT n) then d.beginSwitch n j selSwitching else d
      | none => d.enterHld n false
  else if s = selSwitching then
    (d.when (!d.selectable n k) fun d => d.upSel n fun e => { e with lost := true }).put Pg.sel (SEL.STS_PEND_K n) (match b with
      | some j => if j = k then 0x1F else j
      | none => 0x1F)
  else if s = selHoldover then
    match b with
    | some j => if !forcedHo && d.coreRuns n then d.beginRelock n j else d
    | none => d
  else if s = selRelock then
    if halted then d.resumeHld n true
    else if forcedHo || !d.selectable n k then d.resumeHld n false else d
  else d

/-- The tick begins a second of TSA: its evaluation of the selectors is still to come (R107). -/
def Dev.atSecond (d : Dev) : Bool := decide (d.acc 0 % accSecond < d.get (Pg.ts 0) TS.INCR_EFF_EFF)

/-- The selected reference of a timescale stopped being selectable. Where that leads to HOLDOVER it is entered in this cycle (R119); another reference is taken in the next cycle (R107); at a second boundary the evaluation of that boundary decides (log entry 82). -/
def Dev.loseSelected (d : Dev) (n : Ts) : Dev :=
  if !d.atSecond && ((d.best n).isNone || d.selState n == selRelock) then d.selEval n else d.after 2 (.selectorEval n)

/-- What is selected may have stopped being selectable (R107). -/
def Dev.selectLost (d : Dev) : Dev :=
  d.each [0, 1] fun n d => d.when (d.selK n ≤ 19 && !d.selectable n (d.selK n)) fun d => d.loseSelected n

/-- The end of a switch (R108, R109). -/
def Dev.endSwitch (d : Dev) (n : Ts) : Dev :=
  if d.selState n ≠ selSwitching then d else
  let d := d.put Pg.sel (SEL.STS_PEND_K n) 0x1F
  let halted := d.svc[n].halted
  match d.best n with
  | some j =>
    if halted || d.selMode n == 2 then d.enterHld n halted
    else if j = d.selK n then d.selEnter n selLocked
    else d.beginSwitch n j selSwitching
  | none => d.enterHld n halted

/-- The writer mode changes at its application tick (R66, R108). -/
def Dev.applyMode (d : Dev) (n : Ts) (v : Nat) : Dev :=
  if d.get (Pg.ts n) TS.STS_MODE = v then d else
  let d := d.cancelSlew n 3
  if v = 1 then
    let d := (d.put (Pg.ts n) TS.STS_MODE 1).cancel (.switchEnd n)
    ((d.unselect n).upHld n fun e => { e with aid := none }).selEnter n selHost
  else
    let d := d.put (Pg.ts n) TS.STS_MODE 0
    match d.best n with
    | some j => d.beginSwitch n j selSwitching
    | none => d.enterHld n false

/-! Core halt (R117). -/

/-- Cause number of the C2 of a halted core. -/
abbrev causeHalt : Nat := 1

/-- The core halts: C2 on its page, histories cleared, and the selector reacts in the next cycle (R115, R117). -/
def Dev.coreHalt (d : Dev) (n : Ts) (wdog : Bool) : Dev :=
  let d := d.upSvc n fun e => { e with halted := true, rearmed := false, xs := [], ys := [] }
  let d := (d.cancel (.svcWatchdogExpiry n)).showLoop n
  let d := d.when wdog fun d => d.put (Pg.svc n) SVC.STS_WDOG 1
  ((d.raise (Pg.svc n) 2 causeHalt).int (Pg.svc n) 0).after 2 (.selectorEval n)

/-- The watchdog time in ns (R116). -/
def Dev.wdogTime (d : Dev) (n : Ts) : Nat := max 1 (d.get (Pg.svc n) SVC.WDOG_TMO) * second

/-- The watchdog restarts (R116, R117). -/
def Dev.wdogRestart (d : Dev) (n : Ts) : Dev := d.timerTime 0 (d.wdogTime n) (.svcWatchdogExpiry n)

/-- RUN is written: 1 starts the core, or ends the cause of a halt; 0 halts a core that runs, and one about to resume again (R117). -/
def Dev.coreRun (d : Dev) (n : Ts) (run : Bool) : Dev :=
  let e := d.svc[n]
  if run then
    let d := d.upSvc n fun e => { e with begun := true, rearmed := e.halted }
    let d := (d.lower (Pg.svc n) 2 causeHalt).put (Pg.svc n) SVC.STS_WDOG 0
    (d.wdogRestart n).showLoop n
  else if e.begun && !e.halted then d.coreHalt n false
  else if e.rearmed then ((d.upSvc n fun e => { e with rearmed := false }).cancel (.svcWatchdogExpiry n)).raise (Pg.svc n) 2 causeHalt
  else d

/-- The core resumes at the accepted clear of its C2; its watchdog runs on, or starts anew (R117). -/
def Dev.coreResume (d : Dev) (n : Ts) : Dev :=
  if d.svc[n].halted && d.svc[n].rearmed then
    let d := (d.upSvc n fun e => { e with halted := false, rearmed := false }).showLoop n
    if d.waiting (.svcWatchdogExpiry n) then d else d.wdogRestart n
  else d

/-- The page of the core is reset: RUN reads 0, which halts a core that ran and leaves a halted one halted (R117, R443). -/
def Dev.coreReset (d : Dev) (n : Ts) : Dev :=
  let e := d.svc[n]
  if !e.begun then d
  else if e.halted then (d.raise (Pg.svc n) 2 causeHalt).showLoop n
  else d.coreHalt n false

/-! The control law (R115). -/

/-- π and π², to 30 digits. -/
abbrev pi30 : Nat := 3141592653589793238462643383280
abbrev piSq30 : Nat := 9869604401089358618834490999876

/-- Rounded division of an integer by a positive number. -/
def rdiv (a : Int) (b : Nat) : Int := (2 * a + b).fdiv (2 * (b : Int))

/-- The integrator's increment ω² x̂ Δ for an x̂ in 2^-16 ns, a bandwidth in µHz and Δ = 1 s, in 2^-80. -/
def loopInt (x : Int) (bw : Nat) : Int := rdiv (x * (4 * piSq30 * bw * bw * 2 ^ 64 : Nat)) (10 ^ 51)

/-- The phase term 2ζω x̂ in 2^-80, with ζ in 2^-8. -/
def loopProp (x : Int) (bw damp : Nat) : Int := rdiv (x * (4 * damp * pi30 * bw * 2 ^ 56 : Nat)) (10 ^ 45)

/-- One update from an x̂ in 2^-16 ns: the new integrator, the increment to write, and whether a limit acted (R115). -/
def servoLaw (yint x : Int) (bw damp rate : Nat) : Int × Nat × Bool :=
  let ylim : Int := 28147497671 * 2 ^ 32
  let lim : Int := (clampN 1 1000 rate * 2 ^ 80 / 10 ^ 9 : Nat)
  let y0 := yint + loopInt x bw
  let y := clampI (-ylim) ylim y0
  let p := loopProp x bw (max 0x20 damp)
  let pc := clampI (-lim) lim p
  let i : Int := 2 ^ 48 + rdiv (y + pc) (2 ^ 32)
  let ic := clampI incrMin incrMax i
  (y, ic.toNat, p != pc || y != y0 || i != ic)

/-- Enter an update into the histories and write the servo registers (R115, R116). -/
def Dev.servoRecord (d : Dev) (n : Ts) (x yOld yNew : Int) (clamp : Bool) (func : Option Nat) : Dev :=
  let d := d.upSvc n fun e => { e with yint := yNew, updAt := d.stepFree n, xs := (x :: e.xs).take 64, ys := ((tdiv yNew (2 ^ 24) - tdiv yOld (2 ^ 24)) :: e.ys).take 64 }
  let e := d.svc[n]
  let uy := match func with
    | some f => min 0xFFFFFFFF (f + rmsUp 3 (10 ^ 15) (2 ^ 56) e.ys)
    | none => 0xFFFFFFFF
  let pg := Pg.svc n
  let d := ((d.puti pg SVC.XHAT_X x).puti pg SVC.YINT_Y (tdiv yNew (2 ^ 24))).put pg SVC.SIGX_SIGX (min 0xFFFFFFFF (rmsUp 1 125 32 e.xs))
  let d := ((d.put pg SVC.UY_UY uy).put pg SVC.LAST_MEC d.now).putb pg SVC.STS_CLAMP clamp
  d.upTs n fun e => { e with stepHold := none }

/-- The lock condition of an update (R108): TIME seconds of updates within THR lead to LOCKED. It counts the intervals that lie wholly within the state and, in RELOCK, after the end of the slew (DESIGN CHOICE, log entry 82). -/
def Dev.lockCheck (d : Dev) (n : Ts) (x : Int) (clean : Bool) : Dev :=
  let s := d.selState n
  let within := match decodeBound (d.get Pg.sel (SEL.LOCK_THR n)), timeBound x with
    | some t, some b => decide (b ≤ t)
    | none, _ => true
    | _, _ => false
  if s = selRelock ∧ d.slewLeft n ≠ 0 then d.upSel n fun e => { e with lock := 0 }
  else if s ≠ selAcquire ∧ s ≠ selRelock ∨ !clean then d
  else
    let c := if within then d.sel[n].lock + 1 else 0
    let d := d.upSel n fun e => { e with lock := c }
    d.when (decide (max 1 (d.get Pg.sel (SEL.LOCK_TIME n)) ≤ c)) fun d => d.after 0 (.lockAchieved n)

/-- The update against a phase reference (R109, R113, R115). A step is made in place of the increment write: R113 says so of the first acquisition, and the model does so wherever the core steps (DESIGN CHOICE, log entry 82). -/
def Dev.servoPhase (d : Dev) (n : Ts) (k : Nat) (clean : Bool) : Dev :=
  let x := d.xRef k n
  let s := d.selState n
  let first := s == selAcquire && !d.sel[n].updated && d.mayAutoStep n x
  let later := (s == selLocked || s == selRelock) && d.mayAutoStep n x && d.corroborated k
  let fed := if s = selSwitching ∨ s = selRelock then x - d.slewLeft n else x
  let old := d.svc[n].yint
  let r := servoLaw old fed (d.bandwidth n) (d.get (Pg.svc n) SVC.CTL_DAMP) (d.get (Pg.ts n) TS.SLEW_MAX_RATE)
  let d := (d.servoRecord n x old r.1 r.2.2 (d.func k)).upSel n fun e => { e with updated := true }
  (if first || later then d.autoStep n x else d.writeIncr n (.svc n) r.2.1).lockCheck n x clean

/-- The share of a measured frequency offset that one update of 1 s takes out, in 10^-36: ω × 1 s, at most 1 (R114; DESIGN CHOICE, log entry 82). -/
def freqGain (bw : Nat) : Nat := min (10 ^ 36) (2 * pi30 * bw)

/-- The update against a frequency-only reference: x̂ = 0, and y_int follows the measured y with the bandwidth of its type (R114, R115). The target is the increment that cancels the offset, the effective increment times 1 + y (R80, where y has the other sign). R115 gives no law for the following; the model takes a first-order one (DESIGN CHOICE, log entry 82). -/
def Dev.servoFreq (d : Dev) (n : Ts) (k : Nat) (clean : Bool) : Dev :=
  let old := d.svc[n].yint
  let inc : Int := d.get (Pg.ts n) TS.INCR_EFF_EFF
  let cur := (inc - 2 ^ 48) * 2 ^ 32
  let goal := tdiv (inc * (2 ^ 56 + d.yRef k n)) (2 ^ 24) - 2 ^ 80
  let ylim : Int := 28147497671 * 2 ^ 32
  let want := cur + rdiv ((goal - cur) * freqGain (d.bandwidth n)) (10 ^ 36)
  let new := clampI (-ylim) ylim want
  let i := clampI incrMin incrMax (2 ^ 48 + rdiv new (2 ^ 32))
  let d := (d.servoRecord n 0 old new (new != want) (d.func k)).upSel n fun e => { e with updated := true }
  (d.writeIncr n (.svc n) i.toNat).lockCheck n 0 clean

/-- The update of aided holdover: the loop is fed the phase accumulated from the aid's frequency against its mean, from the first interval that lies wholly within the entry (R120; log entry 82). -/
def Dev.servoAided (d : Dev) (n : Ts) (j : Fin 2) : Dev :=
  let sum := d.svc[n].aidSum + (d.yRef (1 + j) n - d.hld[n].yAvg)
  let x := tdiv (sum * (10 ^ 9 : Nat)) (2 ^ 40)
  let d := d.upSvc n fun e => { e with aidSum := sum }
  let old := d.svc[n].yint
  let d := d.put (Pg.svc n) SVC.STS_BW_T 1
  let r := servoLaw old x (d.bandwidth n) (d.get (Pg.svc n) SVC.CTL_DAMP) (d.get (Pg.ts n) TS.SLEW_MAX_RATE)
  (d.servoRecord n x old r.1 r.2.2 (d.func (1 + j))).writeIncr n (.svc n) r.2.1

/-- The end of a measurement interval (R115): no update from an interval that contains a step, without a measurement, or by a core that does not run. -/
def Dev.servoUpdate (d : Dev) (n : Ts) : Dev :=
  let stepped := d.sel[n].stepped
  let s := d.selState n
  let k := d.selK n
  let clean := d.sel[n].clean
  let d := d.upSel n fun e => { e with stepped := false, steppedLast := stepped, since := d.now, clean := !(s == selRelock && d.slewLeft n != 0) }
  if stepped || !d.coreRuns n || d.hostMode n then d
  else if s = selHoldover then
    match d.hld[n].aid with
    | some j => if d.mon[1 + j.val].freshY && clean then d.servoAided n j else d
    | none => d
  else if s = selAcquire ∨ s = selLocked ∨ s = selSwitching ∨ s = selRelock then
    if d.measured k && d.selectable n k && !(s == selSwitching && d.sel[n].lost) then (if d.carries k then d.servoPhase n k clean else d.servoFreq n k clean) else d
  else d

/-! Bins (R118). -/

/-- Close the running bin, bring the unit's values up to date, and begin the next (R118, R125). -/
def Dev.closeBin (d : Dev) (n : Ts) : Dev :=
  let d := d.accrue n
  let e := d.hld[n]
  let y (j : Fin 2) : Option Int := if e.yNum[j] = 0 then none else some (tdiv e.ySum[j] e.yNum[j])
  let k := d.selK n
  let b : Bin := { valid := e.whole && e.incTicks != 0, incr := if e.incTicks = 0 then 0 else e.incSum / e.incTicks,
                   y := Vector.ofFn y, funcs := e.funcs, last := d.get (Pg.ts n) TS.INCR_EFF_EFF,
                   yLast := Vector.ofFn fun j => if d.mon[1 + j.val].freshY then some (d.yRef (1 + j) n) else none }
  let d := d.upHld n fun e => { e with
    bins := (b :: e.bins).take 10080, incSum := 0, incTicks := 0, whole := d.selState n == selLocked,
    ySum := Vector.replicate 2 0, yNum := Vector.replicate 2 0,
    funcs := if k < 19 then [d.mget k MON.DECL_FUNC] else [] }
  d.hldFollow n

end Sys2Proof.Machine
end

