-- ==== Sys2Proof/Machine/RefOps.lean ====
section
/-! DEFINITION. Operations of the reference monitors (R82 to R98, R111), of the atomic ports and of the ensemble check (R100 to R102, R112). -/

namespace Sys2Proof.Machine

def Dev.upAtm (d : Dev) (n : Fin 2) (f : AtmEng → AtmEng) : Dev := { d with atm := d.atm.set n (f d.atm[n]) }
def Dev.upUs (d : Dev) (n : Fin 4) (f : UsEng → UsEng) : Dev := { d with us := d.us.set n (f d.us[n]) }

/-- Index of the monitor of an upstream session, a SyncE slot, an atomic port. -/
def usK (n : Fin 4) : Fin 19 := ⟨11 + n.val, by omega⟩
def synceK (n : Fin 4) : Fin 19 := ⟨15 + n.val, by omega⟩
def atmK (n : Fin 2) : Fin 19 := ⟨1 + n.val, by omega⟩

/-! Configuration, presence and loss (R86, R90, R94, R97). -/

/-- The configuration of a monitor is invalid (R90, R94, R97). -/
def Dev.badConfig (d : Dev) (k : Fin 19) : Bool :=
  let pg := monPg k
  if 3 ≤ k.val ∧ k.val ≤ 10 then
    d.get pg REF.IN_CTL_FORMAT == 1 &&
    (let hz := d.get pg REF.FREQ_NOM_HZ
     let gl := d.get pg REF.IN_CTL_GLITCH
     decide (250000000 * 2 ^ d.get pg REF.IN_CTL_PRESC < hz) || decide (hz < 1000) || decide (1500000000 < hz) ||
     decide (gl ≠ 0 ∧ 5000000000 ≤ gl * hz))
  else if 11 ≤ k.val ∧ k.val ≤ 14 then
    decide (24 ≤ d.get pg US.CFG_PORT) || d.get pg US.CFG_TRANSPORT == 3 || d.get pg US.CFG_MODE == 3 || d.get pg US.CFG_PROFILE == 3
  else if 15 ≤ k.val then decide (24 ≤ d.get pg US.SYNCE_CFG_PORT)
  else if k = 0 then
    d.get pg GNSS0.CTL_MODE != 1 && (d.get pg GNSS0.CTL_SYS == 0 || !bit (d.get pg GNSS0.CTL_SYS) (d.get pg GNSS0.CTL_TREF % 3))
  else false

/-- The presence condition of R86. -/
def Dev.present (d : Dev) (k : Fin 19) : Bool :=
  let e := d.mon[k]
  if 3 ≤ k.val ∧ k.val ≤ 10 then
    (match d.get (monPg k) REF.IN_CTL_FORMAT with
     | 0 => e.pps
     | 1 => e.freq
     | _ => false)
  else if k.val = 1 ∨ k.val = 2 then e.pps && e.freq
  else if 11 ≤ k.val ∧ k.val ≤ 14 then e.pps
  else if 15 ≤ k.val then
    e.pps && d.on (monPg k) US.SYNCE_STS_LINK && (if h : d.get (monPg k) US.SYNCE_CFG_PORT < 24 then !d.port[d.get (monPg k) US.SYNCE_CFG_PORT].lpiEn else false)
  else e.pps

/-- Presence must be declared afresh (R86). -/
def Dev.dropPresence (d : Dev) (k : Fin 19) : Dev :=
  let d := d.upMon k fun e => { e with pps := false, freq := false, last := none, missed := 0, runFrom := none, runTo := 0 }
  let d := (d.cancel (.pulseMissed k)).cancel (.refFreqTimeout k)
  if h : 11 ≤ k.val ∧ k.val ≤ 14 then
    d.upUs ⟨k.val - 11, by omega⟩ fun e => { e with gotSync := false, gotAnn := false, gotResp := false, missed := 0 }
  else d

/-! Transitions (R84, R104). -/

/-- The owner timescale of a reference (R111). -/
def Dev.owner (d : Dev) (k : Nat) : Ts := if d.pri 0 k = 0 ∧ d.pri 1 k ≠ 0 then 1 else 0

/-- A source is eligible (R100). -/
def Dev.eligible (d : Dev) (k : Nat) : Bool :=
  d.mstate k == monQualified && d.mget k MON.CTL_ENS == 1 && d.mget k MON.STS_STEERED == 0

/-- A reference is compared: eligible, in WTR, or disqualified for DRIFT (R100). -/
def Dev.compared (d : Dev) (k : Nat) : Bool :=
  d.eligible k || d.mstate k == monWtr || (d.mstate k == monDisqualified && d.mcause k == 2)

/-- Disqualified by a phase jump (R112). -/
def Dev.jumped (d : Dev) (k : Nat) : Bool := d.mstate k == monDisqualified && d.mcause k == 3

/-- Set a flag of a monitor; a change is recorded (R104). -/
def Dev.setFlag (d : Dev) (k : Fin 19) (f : Nat → Fld) (v : Bool) : Dev :=
  if d.mget k f = b2n v then d else
  let d := d.mput k f (b2n v)
  (d.record 0x21 (srcPage (monPg k)) [k.val, d.mget k MON.STS_DISAGREE, d.mget k MON.STS_UNCONFIRMED, d.mget k MON.STS_MODEL_DEV]).int (monPg k)
    (if k.val < 15 then 1 else 9)

/-- Clear the flags of a monitor. -/
def Dev.clearFlags (d : Dev) (k : Fin 19) : Dev :=
  ((d.setFlag k MON.STS_DISAGREE false).setFlag k MON.STS_UNCONFIRMED false).setFlag k MON.STS_MODEL_DEV false

/-- What follows when a reference leaves QUALIFIED: x_last (R111), the selectors that use it (R107), a holdover that it aids (R120). -/
def Dev.leaveQualified (d : Dev) (k : Fin 19) : Dev :=
  let d := if d.carries k then
      (d.puti Pg.sel (SEL.XLAST_X k) (d.xRef k (d.owner k))).upMon k fun e => { e with hasLast := true }
    else d
  d.each [0, 1] fun n d =>
    let d := d.when (d.selK n == k.val) fun d => d.loseSelected n
    d.when (d.selState n == selHoldover && d.hld[n].aid.any fun j => 1 + j.val == k.val) fun d => d.loseAid n

/-- Enter a monitor state (R84): timer, comparison times, record and interrupt. -/
def Dev.monEnter (d : Dev) (k : Fin 19) (s cause : Nat) : Dev :=
  let old := d.mstate k
  let wasCmp := d.compared k
  let span := if s = monAcquire then max 1 (d.mget k MON.CTL_QUAL) else if s = monWtr then min 86400 (d.mget k MON.WTR_WTR) else 0
  let d := ((d.mput k MON.STS_STATE s).mput k MON.STS_CAUSE cause).mput k MON.STS_TIMER span
  let isCmp := d.compared k
  let d := d.upMon k fun e => { e with
    began := d.stepFree 0, span := span, clear := none, recheck := false,
    seen := if s = monQualified then true else if s = monDisabled then false else e.seen,
    age := if isCmp && !wasCmp then 0 else e.age,
    ageJump := if s = monQualified ∨ (s = monDisqualified ∧ cause = 3) then 0 else e.ageJump,
    agreed := 0 }
  let d := d.when (old == monQualified && s != monQualified) fun d => d.leaveQualified k
  if old = s then d
  else (d.record 0x20 (srcPage (monPg k)) [k.val, old, s, cause]).int (monPg k) (if k.val < 15 then 0 else 8)

/-- Cause number of the C1 of an invalid configuration (R84). -/
abbrev causeConfig : Nat := 2

/-- In LOST: an invalid configuration is shown and raises C1; presence with a valid one leads to ACQUIRE (R84). -/
def Dev.monTry (d : Dev) (k : Fin 19) : Dev :=
  if d.mstate k ≠ monLost then d
  else if d.badConfig k then (d.mput k MON.STS_CAUSE 0xA).raise (monPg k) 1 (causeConfig + monBase k)
  else
    let d := d.lower (monPg k) 1 (causeConfig + monBase k)
    if d.present k then d.monEnter k monAcquire (d.mcause k) else d

/-- A loss (R84, R86). -/
def Dev.monLose (d : Dev) (k : Fin 19) : Dev :=
  let d := d.dropPresence k
  if d.mstate k ≤ monLost then d
  else (d.count (monPg k) (MON.LOSS_CNT_COUNT (monBase k))).monEnter k monLost 1

/-- Return to LOST with a cause that is no loss (RESTART, a configuration write; R84, R90, R94). -/
def Dev.monReturn (d : Dev) (k : Fin 19) (cause : Nat) : Dev :=
  if d.mstate k = monDisabled then d else ((d.dropPresence k).monEnter k monLost cause).monTry k

/-- |y| > FLIM × 10^-8 (R84). -/
def Dev.freqBad (d : Dev) (k : Fin 19) : Bool :=
  decide (max 1 (d.mget k MON.CTL_FLIM) * 2 ^ 56 < (d.mgeti k MON.FREQ_Y).natAbs * 10 ^ 8)

/-- The condition behind a level cause (R84). -/
def Dev.dqCond (d : Dev) (k : Fin 19) (cause : Nat) : Bool :=
  let e := d.mon[k]
  if cause = 4 then d.freqBad k else if cause = 5 then e.integ else if cause = 6 then e.alarm else if cause = 8 then e.upstream else false

/-- A cause that ends by a hold of QUAL seconds (R85). -/
def heldCause (c : Nat) : Bool := c == 4 || c == 5 || c == 6 || c == 8

/-- In QUALIFIED: the conditions of R84 that disqualify, in the order of the table. -/
def Dev.qualCheck (d : Dev) (k : Fin 19) : Dev :=
  if d.mstate k ≠ monQualified then d
  else if d.mget k MON.CTL_FORCE_DQ = 1 then d.monEnter k monDisqualified 7
  else match [4, 5, 6, 8].find? fun c => d.dqCond k c with
    | some c => d.monEnter k monDisqualified c
    | none => d

/-- Enter QUALIFIED; FORCE_DQ prevails (R84, R103). -/
def Dev.qualify (d : Dev) (k : Fin 19) : Dev :=
  if d.mget k MON.CTL_FORCE_DQ = 1 then (d.upMon k fun e => { e with seen := true }).monEnter k monDisqualified 7
  else (d.monEnter k monQualified (d.mcause k)).qualCheck k

/-- Follow a condition while it holds a disqualification: note since when it is false (R85). -/
def Dev.noteCond (d : Dev) (k : Fin 19) : Dev :=
  let c := d.mcause k
  if d.mstate k = monDisqualified ∧ heldCause c then
    d.upMon k fun e => { e with clear := if d.dqCond k c then none else some (e.clear.getD (d.stepFree 0)) }
  else d.qualCheck k

/-- Whole seconds of step-free TSA time since a moment. -/
def Dev.secsSince (d : Dev) (t : Int) : Nat := (d.stepFree 0 - t).toNat / accSecond

/-- Seconds left in ACQUIRE or WTR, rounded up (R83, R85). -/
def Dev.timerLeft (d : Dev) (k : Fin 19) : Nat :=
  let s := d.mstate k
  if s = monAcquire ∨ s = monWtr then cdiv (d.mon[k].span * accSecond - (d.stepFree 0 - d.mon[k].began).toNat) accSecond else 0

/-! The return check (R111). -/

/-- |y − y_model| ≤ F + FMARGIN against the holdover values of timescale n, formed exactly (R101, R111, R118). -/
def Dev.modelOk (d : Dev) (k : Nat) (n : Ts) : Bool :=
  let i : Int := d.get (Pg.ts n) TS.INCR_EFF_EFF
  let a : Int := d.get Pg.hld (HLD.AVG_AVG n)
  match coef (d.get Pg.hld (HLD.F_F n)), decodeFunc (d.get Pg.sel SEL.ENS_MARGIN_FMARGIN) with
  | some f, some m => Nat.ble ((d.yRef k n * i - (a - i) * (2 ^ 56 : Int)).natAbs * 10 ^ 15) ((f + m) * 2 ^ 56 * i.natAbs)
  | _, _ => true

/-- The return check: passed, failed, or waiting for a mean of the last second (R111). -/
def Dev.returnCheck (d : Dev) (k : Fin 19) : Option Bool :=
  let n := d.owner k
  let e := d.mon[k]
  if d.carries k then
    if !e.freshX then none
    else if !e.hasLast then some true
    else match d.bts n, d.bref k with
      | some b, some r =>
        some (decide ((d.xRef k n - d.geti Pg.sel (SEL.XLAST_X k)).natAbs * 125 ≤ 32 * (max 1 (d.get Pg.sel (SEL.CTL_ACC_MULT n)) * (b + r))))
      | _, _ => some true
  else if e.freshY then some (d.modelOk k n) else none

/-- WTR ends (R84, R111). -/
def Dev.endWtr (d : Dev) (k : Fin 19) : Dev :=
  if d.mstate k ≠ monWtr then d else
  match d.returnCheck k with
  | some true => d.qualify k
  | some false => d.monEnter k monDisqualified 3
  | none => d.upMon k fun e => { e with recheck := true }

/-! Measurements. -/

/-- A sample of x in 2^-16 ns, TSA-referred, with the exact TSB − TSA difference of its tick (R82). -/
def Dev.sampleX (d : Dev) (k : Fin 19) (x : Int) : Dev :=
  d.upMon k fun e => { e with sumX := e.sumX + x, numX := e.numX + 1, sumD := e.sumD + tdiv d.xts (2 ^ 32) }

/-- A frequency against TCLK in 2^-56 as a frequency against TSA (R82): TSA advances by its increment each tick. -/
def Dev.yTsa (d : Dev) (y : Int) : Int := ((2 ^ 56 + y) * 2 ^ 48).tdiv (d.get (Pg.ts 0) TS.INCR_EFF_EFF) - 2 ^ 56

/-- The source a channel measures: the one its MUX names, or what TDCS took from it while the calibration unit holds its MUX (R167, R179). -/
def Dev.muxSrc (d : Dev) (c : Nat) : Nat := if d.tdcs.cal.any fun n => n.val == c then d.tdcs.src else d.get (Pg.tdc c) TDC.MUX_SRC

/-- The channel that feeds an input: the lowest-numbered enabled one whose SRC names it (R169). -/
def Dev.feeds (d : Dev) (src : Nat) : Option Nat :=
  (List.range 16).find? fun c => d.on (Pg.tdc c) TDC.CTL_EN && d.muxSrc c == src

/-- 3 σ_t of the channel that measures an input, of the spare while it stands in, or the larger of both during an overlap (R87, R181, R183). -/
def Dev.sigma3Of (d : Dev) (src : Nat) : Bound :=
  match d.feeds src with
  | some c =>
    let ph := d.get Pg.tdcCal TDCCAL.ROT_STS_PHASE
    let both := (ph = 1 ∨ ph = 3) ∧ d.get Pg.tdcCal TDCCAL.ROT_STS_CUR = c
    let own := d.get (Pg.tdc c) TDC.SIGMA_SIG
    let sp := d.get Pg.tdcCal TDCCAL.SPARE_SIGMA_SIG
    let s := if d.get Pg.tdcCal TDCCAL.ROT_STS_PERM = c then sp else if both then max own sp
      else if d.get (Pg.tdc c) TDC.STS_STATE = 2 then sp else own
    if s = 0xFFFFFFFF then none else some (3 * s)
  | none => none

/-- The upstream bound of a session: the newest error-bound TLV that the latest message of its kind carried, else the limit of the received clockAccuracy (R87). -/
def Dev.bUp (d : Dev) (n : Fin 4) : Bound :=
  match d.us[n].tlv with
  | (_, c) :: _ => decodeBound c
  | [] => accuracyBound (d.get (Pg.us n) US.STS_UP_ACC)

/-- B_port of a port in use (R229). -/
def Dev.bPort (d : Dev) (p : Nat) : Bound := if h : p < 24 then d.pts[p].bport else none

/-- B_ref of a reference that carries phase (R87). -/
def Dev.formBref (d : Dev) (k : Fin 19) : Bound :=
  let pd := decodeBound (d.mget k MON.DECL_PUNC)
  if d.mget k MON.DECL_FUNC = 0xFFFF then none
  else if k = 0 then sumBound [pd, d.mon[k].gt, psBound 5]
  else if k.val ≤ 2 then sumBound [pd, some (Config.calib 0 k), d.sigma3Of (8 + k.val), psBound 5]
  else if k.val ≤ 10 then sumBound [pd, some (Config.calib 0 k), d.sigma3Of (k.val - 2), psBound 5]
  else if h : k.val - 11 < 4 then
    let bp := d.bPort (d.get (monPg k) US.CFG_PORT)
    sumBound [pd, d.bUp ⟨k.val - 11, h⟩, bp, bp, some (rmsUp 3 125 32 d.us[k.val - 11].offs)]
  else none

/-- The second boundary of a monitor: means, B_ref, history (R83, R87, R100); in the ensemble a phase reference takes y from the slope of its x. -/
def Dev.monMeans (d : Dev) (k : Fin 19) : Dev :=
  let e := d.mon[k]
  let fx := d.carries k && e.numX != 0
  let x := if e.numX = 0 then 0 else tdiv e.sumX e.numX
  let xb := if e.numX = 0 then 0 else tdiv (e.sumX - e.sumD) e.numX
  let slope := match e.prevX with
    | some p => if fx then some (tdiv ((x - p) * 2 ^ 40) (10 ^ 9)) else none
    | none => none
  let y := match e.newY with
    | some y => some y
    | none => if d.carries k then slope else none
  let d := if fx then d.mputi k MON.PHASE_X x else if d.carries k then d else d.mputi k MON.PHASE_X 0
  let d := match y with
    | some v => d.mputi k MON.FREQ_Y v
    | none => d
  let d := d.upMon k fun e => { e with
    sumX := 0, numX := 0, sumD := 0, steps := Vector.ofFn fun n : Fin 2 => d.ts[n].stepSum, xB := if fx then xb else e.xB, prevX := if fx then some x else none, freshX := fx, newY := none, freshY := y.isSome,
    hist := ((if fx then some x else none, if d.carries k then slope else y) :: e.hist).take 86400 }
  let d := d.mput k MON.BREF_BREF (if d.carries k then encodeBound (d.formBref k) else 0xFFFF)
  let d := d.mput k MON.BREF_FUNC (d.mget k MON.DECL_FUNC)
  match y with
  | some v =>
    if h : 1 ≤ k.val ∧ k.val ≤ 2 then
      let j : Fin 2 := ⟨k.val - 1, by omega⟩
      d.each [0, 1] fun n d => d.upHld n fun e => { e with ySum := e.ySum.set j (e.ySum[j] + d.yOn v n), yNum := e.yNum.set j (e.yNum[j] + 1) }
    else d
  | none => d

/-- The transitions a monitor takes at a second boundary (R84, R85). -/
def Dev.monBoundary (d : Dev) (k : Fin 19) : Dev :=
  let d := d.monTry k
  let d := d.mput k MON.STS_TIMER (d.timerLeft k)
  let s := d.mstate k
  let e := d.mon[k]
  if s = monAcquire then
    if d.freqBad k && e.freshY then d.monEnter k monDisqualified 4
    else d.when (d.timerLeft k == 0) fun d => d.after 0 (.acquireExpiry k)
  else if s = monWtr then d.when (d.timerLeft k == 0 || e.recheck) fun d => d.after 0 (.wtrExpiry k)
  else if s = monQualified then d.qualCheck k
  else if s = monDisqualified ∧ heldCause (d.mcause k) then
    let d := d.noteCond k
    match d.mon[k].clear with
    | some t => d.when (decide (max 1 (d.mget k MON.CTL_QUAL) ≤ d.secsSince t)) fun d => d.after 0 (.dqHoldExpiry k)
    | none => d
  else d

/-! PPS windows (R86). -/

/-- Offsets of the delay and the window registers, and their fields, for a pin (R89, R91). -/
def Dev.pinDelay (d : Dev) (k : Fin 19) : Int := d.geti (monPg k) REF.DELAY_DELAY
def Dev.pinWin (d : Dev) (k : Fin 19) : Nat := clampN 100 100000 (d.get (monPg k) REF.PPS_WIN_WIN) * 2 ^ 16

/-- One second in 2^-16 ns. -/
abbrev sec16 : Nat := second * 2 ^ 16

/-- The next window closes: centre one second after the last accepted pulse and each missed one (R86). -/
def Dev.armWindow (d : Dev) (k : Fin 19) : Dev :=
  match d.mon[k].last with
  | some t =>
    let close : Int := t + sec16 * (d.mon[k].missed + 1) + d.pinWin k
    let now : Int := tdiv (d.stepFree 0) (2 ^ 32)
    d.timerTime 0 (cdiv (close - now).toNat (2 ^ 16)) (.pulseMissed k)
  | none => d

/-- The phase a PPS edge shows: the nearest whole second minus its TSA time (R82). -/
def ppsPhase (t : Int) : Int :=
  let r := t % sec16
  if 2 * r ≤ sec16 then -r else sec16 - r

/-- A PPS edge with its delays removed, in 2^-16 ns of TSA (R82, R86). -/
def Dev.ppsEdge (d : Dev) (k : Fin 19) (t : Int) : Dev :=
  let t0 := t - tdiv d.ts[0].stepSum (2 ^ 32)
  let e := d.mon[k]
  if e.pps then
    let c : Int := e.last.getD t0 + sec16 * (e.missed + 1)
    if (t0 - c).natAbs ≤ d.pinWin k then
      ((d.upMon k fun e => { e with last := some t0, edge := some t0, missed := 0 }).sampleX k (ppsPhase t)).armWindow k
    else (d.count (monPg k) (MON.STRAY_CNT_COUNT (monBase k))).upMon k fun e => { e with edge := some t0 }
  else
    let ok := match e.edge with
      | some p => decide ((t0 - p - sec16).natAbs ≤ max 1 (d.mget k MON.CTL_FLIM) * 10 * 2 ^ 16)
      | none => false
    let d := d.upMon k fun e => { e with edge := some t0 }
    if ok then (((d.upMon k fun e => { e with pps := true, last := some t0, missed := 0 }).sampleX k (ppsPhase t)).armWindow k).monTry k
    else d

/-- The frequency pin shows edges in 8 consecutive periods (R86). -/
def Dev.freqSeen (d : Dev) (k : Fin 19) : Dev := (d.upMon k fun e => { e with freq := true }).monTry k

/-- An edge of a REF pin after its prescaler, at a step-free time in 2^-16 ns: the run of nominal periods with an edge in each grows or begins anew, 8 declare presence, and the loss after 8 periods without one waits afresh (R86). A run's periods are centred on the multiples of the period from its first edge (DESIGN CHOICE, log entry 81). -/
def Dev.refEdge (d : Dev) (k : Fin 19) (t : Int) : Dev :=
  let hz : Nat := max 1 (d.get (monPg k) REF.FREQ_NOM_HZ)
  let div : Nat := 2 ^ d.get (monPg k) REF.IN_CTL_PRESC
  let e := d.mon[k]
  let at_ (t0 : Int) : Int := ((t - t0) * (2 * hz) + sec16 * div).fdiv (2 * sec16 * div)
  let run : Option Int × Nat := match e.runFrom with
    | none => (some t, 0)
    | some t0 => if at_ t0 = e.runTo ∨ at_ t0 = e.runTo + 1 then (some t0, (at_ t0).toNat) else (some t, 0)
  let d := (d.upMon k fun e => { e with runFrom := run.1, runTo := run.2 }).timerTime 0 (cdiv (8 * div * second) hz) (.refFreqTimeout k)
  if 7 ≤ run.2 ∧ !e.freq then d.freqSeen k else d

/-! Steering of an atomic port (R93). -/

/-- Steering is active: enabled, and the timescale tracks a reference other than this port. -/
def Dev.steering (d : Dev) (n : Fin 2) : Bool :=
  let ts := d.get (Pg.atm n) ATM.STEER_CTL_TS
  d.on (Pg.atm n) ATM.STEER_CTL_EN && d.get (Pg.ts ts) TS.BOUND_STS_STATE == 1 && d.get (Pg.ts ts) TS.BOUND_STS_TRACE != 0x10 + n.val

/-- Send the steering word. -/
def Dev.steerSend (d : Dev) (n : Fin 2) : Dev :=
  let w := d.get (Pg.atm n) ATM.STEER_VAL_VAL
  let len := clampN 8 32 (d.get (Pg.atm n) ATM.STEER_CTL_LEN)
  ((d.put (Pg.atm n) ATM.STEER_SENT_SENT w).upAtm n fun e => { e with held := false }).emit (.spi n len (w % 2 ^ len))

/-- Bring STEERED up to date; when steering becomes active again a held word is sent (R93). -/
def Dev.steerShow (d : Dev) (n : Fin 2) : Dev :=
  let was := d.mget (1 + n.val) MON.STS_STEERED
  let now := d.steering n
  (d.mput (1 + n.val) MON.STS_STEERED (b2n now)).when (now && was == 0 && d.atm[n].held) fun d => d.steerSend n

/-! The ensemble check (R100 to R102). -/

/-- The comparison window in seconds (R99). -/
def Dev.ensWin (d : Dev) : Nat := clampN 10 86400 (d.get Pg.sel SEL.ENS_CTL_WIN)

/-- Sum and count of the means present in a list. -/
def sumSome (l : List (Option Int)) : Int × Nat := l.foldl (fun a x => match x with
  | some v => (a.1 + v, a.2 + 1)
  | none => a) (0, 0)

/-- The outcome of comparing a pair: no data, or the discrepancy in ps and whether it exceeds the tolerance (R100). -/
structure PairTest where
  delta : Nat
  bad : Bool

/-- Difference of two means as a numerator over a denominator. -/
def meanDiff (a b : Int × Nat) : Option (Nat × Nat) :=
  if a.2 = 0 ∨ b.2 = 0 then none else some ((a.1 * b.2 - b.1 * a.2).natAbs, a.2 * b.2)

/-- Compare a pair over a window of w seconds (R100). -/
def Dev.pairTest (d : Dev) (k j : Fin 19) (w : Nat) : Option PairTest :=
  let hk := d.mon[k].hist.take w
  let hj := d.mon[j].hist.take w
  if d.carries k && d.carries j then
    (meanDiff (sumSome (hk.map (·.1))) (sumSome (hj.map (·.1)))).map fun (num, den) =>
      { delta := cdiv (num * 1000) (den * 2 ^ 16),
        bad := match sumBound [d.bref k, d.bref j, decodeBound (d.get Pg.sel SEL.ENS_MARGIN_PMARGIN)] with
          | some t => decide (32 * t * den < num * 125)
          | none => false }
  else
    (meanDiff (sumSome (hk.map (·.2))) (sumSome (hj.map (·.2)))).map fun (num, den) =>
      { delta := cdiv (num * d.ensWin * 10 ^ 12) (den * 2 ^ 56),
        bad := match d.func k, d.func j, decodeFunc (d.get Pg.sel SEL.ENS_MARGIN_FMARGIN) with
          | some a, some b, some m => decide ((a + b + m) * 2 ^ 56 * den < num * 10 ^ 15)
          | _, _, _ => false }

/-- The test of a pair in the ensemble: over WIN, or since the later of the two entered (R100). -/
def Dev.ensTest (d : Dev) (k j : Fin 19) : Option PairTest :=
  d.pairTest k j (max 1 (min d.ensWin (min d.mon[k].age d.mon[j].age)))

/-- The test of a pair for corroboration (R112). -/
def Dev.jumpTest (d : Dev) (k j : Fin 19) : Option PairTest :=
  if d.jumped k || d.jumped j then d.pairTest k j (max 1 (min d.ensWin (min d.mon[k].ageJump d.mon[j].ageJump))) else d.ensTest k j

/-- Every set of sources that agree pairwise. -/
def cliques (bad : Fin 19 → Fin 19 → Bool) : List (Fin 19) → List (List (Fin 19))
  | [] => [[]]
  | k :: l =>
    let r := cliques bad l
    r ++ ((r.filter fun s => s.all fun j => !bad k j).map (k :: ·))

/-- The unique largest set of agreeing sources, when its size is above half (R101). -/
def majority (bad : Fin 19 → Fin 19 → Bool) (l : List (Fin 19)) : Option (List (Fin 19)) :=
  let c := cliques bad l
  let m := c.foldl (fun a s => max a s.length) 0
  match c.filter fun s => s.length = m with
  | [s] => if l.length < 2 * m then some s else none
  | _ => none

end Sys2Proof.Machine
end

