-- ==== Sys2Proof/Machine/RecOps.lean ====
section
/-! DEFINITION. The recorder's window: which record it shows, and how a record is laid out (R339, R345, R349); and the snapshot engine (R348). -/

namespace Sys2Proof.Machine

/-- The 64 octets of a record (R339). -/
def Record.octets (w : Record) : List Nat :=
  [w.typ, b2n w.link + 2 * b2n w.gap] ++ oct 2 w.source ++ oct 2 w.rpt ++ oct 2 (if w.rpt = 0 then 0 else w.lastDt) ++ oct 8 w.mec ++ oct 12 w.cal ++ oct 4 w.seqNo ++
  (w.payload ++ List.replicate 32 0).take 32

/-- The records held and where: 0 the buffer, 1 the Rind, 2 the Wheel, 3 the overflow area (R349). -/
def Dev.heldRecords (d : Dev) : List (Nat × Record) :=
  d.rcd.buf.map (fun w => (0, w)) ++
  (d.rcd.lines.filter fun e => d.rcd.valid e.2).map (fun e => (if e.1 < d.rind then 1 else 2, e.2.row)) ++
  (if d.on Pg.rec REC.CTL_SPILL then d.rcd.overflow.map fun w => (3, w) else [])

/-- How long before the next sequence number a record was numbered. -/
def Dev.age (d : Dev) (q : Nat) : Nat := (d.get Pg.rec REC.NEXT_SEQ_SEQ + 2 ^ 32 - q) % 2 ^ 32

/-- The oldest SEQ held, the next one when none is. -/
def Dev.oldestSeq (d : Dev) : Nat :=
  match d.heldRecords.map (·.2.seqNo) with
  | [] => d.get Pg.rec REC.NEXT_SEQ_SEQ
  | x :: l => l.foldl (fun a b => if d.age a < d.age b then b else a) x

/-- The highest SEQ in the record memory (R345). -/
def Dev.highestSeq (d : Dev) : Option Nat :=
  match (d.rcd.lines.filter fun e => d.rcd.valid e.2).map (·.2.row.seqNo) with
  | [] => none
  | x :: l => some (l.foldl (fun a b => if d.age b < d.age a then b else a) x)

/-- Latch the window: the record with the lowest SEQ at or above the cursor (R349). -/
def Dev.recWindow (d : Dev) : Dev :=
  let pg := Pg.rec
  let d : Dev := if d.on pg REC.CTL_AUTO then (match d.rcd.shown with
      | some q => d.put pg REC.CURSOR_SEQ ((q + 1) % 2 ^ 32)
      | none => d)
    else d
  let old := d.oldestSeq
  let d := d.put pg REC.OLDEST_SEQ_SEQ old
  let cur := d.get pg REC.CURSOR_SEQ
  let dist (q : Nat) := (q + 2 ^ 32 - old) % 2 ^ 32
  let want := if 2 ^ 31 ≤ dist cur then 0 else dist cur
  let found := d.heldRecords.foldl (fun (a : Option (Nat × Record)) w =>
    if dist w.2.seqNo < want then a else match a with
      | some x => if dist w.2.seqNo < dist x.2.seqNo then some w else a
      | none => some w) none
  match found with
  | some (wh, w) =>
    let d := ((d.put pg REC.WIN_STS_PRESENT 1).putb pg REC.WIN_STS_SKIP (w.seqNo != cur)).put pg REC.WIN_STS_WHERE wh
    let l := w.octets
    let d := d.each (List.range 16) fun k d => d.put pg (REC.WIN_DATA k) (unoct ((l.drop (4 * k)).take 4))
    { d with rcd := { d.rcd with shown := some w.seqNo } }
  | none =>
    let d := ((d.put pg REC.WIN_STS_PRESENT 0).put pg REC.WIN_STS_SKIP 0).put pg REC.WIN_STS_WHERE 0
    d.each (List.range 16) fun k d => d.put pg (REC.WIN_DATA k) 0

/-- The snapshot engine goes on: the page of a LATCH entry is latched, which takes 18 ticks, and every word is read, 16 CCLK cycles each (R348; log entry 9). -/
def Dev.snapStep (d : Dev) : Dev :=
  match d.rcd.snapRun with
  | none => d
  | some r =>
    if d.now < r.next then d else
    let go (d : Dev) (r : SnapRun) : Dev := { d with rcd := { d.rcd with snapRun := some r } }
    match r.left with
    | [] => d.after 0 .snapshotComplete
    | (a, lat, wide) :: rest =>
      let as := if wide then [a, a + 4] else [a]
      if r.step = 0 ∧ lat then go (d.after 0 (.snap .snapshot (Fin.ofNat 1024 (a / 4096)) 1)) { r with step := 1, next := d.now + 18 }
      else if r.step < 2 then go d { r with step := 2, next := d.now + 32 * as.length }
      else
        let q := as.foldl (fun (x : List Nat × Dev) y => let w := x.2.read32 .snapshot y; (x.1 ++ oct 4 y ++ oct 4 w.1, w.2)) (r.pairs, d)
        let d := go q.2 { r with left := rest, step := 0, next := d.now, pairs := q.1 }
        d.when rest.isEmpty fun d => d.after 0 .snapshotComplete

/-- A C4 region reset goes ahead once the flush and its snapshot are complete (R361). -/
def Dev.c4Go (d : Dev) : Dev :=
  if d.rcd.flushing.isNone && d.rcd.snapRun.isNone then d.each d.flt.c4Wait fun r d => d.timer 0 (.c4RegionReset r) else d

end Sys2Proof.Machine
end

