-- ==== Sys2Proof/Machine/GridOps.lean ====
section
/-! DEFINITION. The alignment grid of a synthesizer and the clock outputs on it (R149 to R152, R161 to R163), and the question whether a unit holds its power grant (R380). -/

namespace Sys2Proof.Machine

/-! Power grants (R380). -/

/-- Kinds of R379; the pair link and the central reader have no declared cost and take the numbers after the table's. -/
abbrev kindPort : Nat := 1
abbrev kindStore : Nat := 6
abbrev kindPipe : Nat := 7
abbrev kindSignal : Nat := 8
abbrev kindCrypto : Nat := 9
abbrev kindSyn : Nat := 10
abbrev kindCko : Nat := 11
abbrev kindTdc : Nat := 12
abbrev kindTdcs : Nat := 13
abbrev kindGnss : Nat := 14
abbrev kindSearch : Nat := 15
abbrev kindAudio : Nat := 16
abbrev kindPair : Nat := 17
abbrev kindReader : Nat := 18

/-- A unit is granted. -/
def Dev.granted (d : Dev) (kind inst : Nat) : Bool := d.pwr.units.any fun u => u.kind == kind && u.inst == inst && u.granted.isSome

/-! Synthesizers. -/

def Dev.upSyn (d : Dev) (n : Fin 4) (f : SynEng → SynEng) : Dev := { d with syn := d.syn.set n (f d.syn[n]) }
def Dev.upCko (d : Dev) (m : Fin 16) (f : CkoEng → CkoEng) : Dev := { d with cko := d.cko.set m (f d.cko[m]) }

/-- States of SYNn_STS.STATE (R160). -/
abbrev synOff : Nat := 0
abbrev synStart : Nat := 1
abbrev synLocking : Nat := 2
abbrev synLocked : Nat := 3
abbrev synCoast : Nat := 4
abbrev synFreeze : Nat := 5
abbrev synTest : Nat := 6

def Dev.synState (d : Dev) (n : Fin 4) : Nat := d.get (Pg.syn n) SYN.STS_STATE

/-- The binding consumer of a synthesizer (R75). -/
def synConsumer (n : Fin 4) : Fin 48 := ⟨24 + n.val, by omega⟩

/-- The source is OSC or TCLK ÷ 10, which is never lost (R154). -/
def Dev.synOsc (d : Dev) (n : Fin 4) : Bool := d.get (Pg.syn n) SYN.REF_CTL_SRC ≤ 1 || 12 ≤ d.get (Pg.syn n) SYN.REF_CTL_SRC

/-- Nominal source frequency in 2^-16 Hz (R150); that of OSC is a fact of the appliance (log entry 7). -/
def Dev.synSource (d : Dev) (n : Fin 4) : Nat :=
  let src := d.get (Pg.syn n) SYN.REF_CTL_SRC
  if src = 1 then 100000000 * 2 ^ 16
  else if 2 ≤ src ∧ src ≤ 9 then d.get (Pg.ref (src - 2)) REF.FREQ_NOM_HZ * 2 ^ 16 / 2 ^ d.get (Pg.ref (src - 2)) REF.IN_CTL_PRESC
  else if src = 10 ∨ src = 11 then 10000000 * 2 ^ 16
  else Config.calib 20 0 * 2 ^ 16

/-- f_pd in 2^-17 Hz under a scale (R149). -/
def Dev.synPd (d : Dev) (n : Fin 4) (scale : Nat) : Nat :=
  if scale = 1 then d.synSource n * 4 else if scale = 2 then d.synSource n else d.synSource n * 2

/-- N_nom in 2^-40 (R151). -/
def Dev.synNom (d : Dev) (n : Fin 4) : Nat :=
  d.get (Pg.syn n) SYN.FREQ_INT_NINT * 2 ^ 40 + d.get (Pg.syn n) SYN.FREQ_FRAC_NFRAC

/-- Nominal f_vco in 2^-57 Hz under a scale. -/
def Dev.synVco (d : Dev) (n : Fin 4) (scale : Nat) : Nat := d.synPd n scale * d.synNom n

/-- The configuration is valid under a scale (R150). -/
def Dev.synValid (d : Dev) (n : Fin 4) (scale : Nat) : Bool :=
  let src := d.get (Pg.syn n) SYN.REF_CTL_SRC
  let pd := d.synPd n scale
  let v := d.synVco n scale
  decide (10000000 * 2 ^ 17 ≤ pd) && decide (pd ≤ 100000000 * 2 ^ 17) &&
  Nat.ble (9600000000 * 2 ^ 57) v && Nat.ble v (12000000000 * 2 ^ 57) &&
  (!(2 ≤ src && src ≤ 9) || d.get (Pg.ref (src - 2)) REF.IN_CTL_FORMAT == 1)

/-- The band R157 selects for the nominal f_vco. -/
def Dev.synBand (d : Dev) (n : Fin 4) : Option Nat :=
  let v := d.synVco n d.syn[n].scale
  let mhz := 1000000 * 2 ^ 57
  (List.range 32).find? fun b =>
    let lo := d.get (Pg.syn n) (SYN.BAND_FMIN b)
    let hi := d.get (Pg.syn n) (SYN.BAND_FMAX b)
    lo != 0xFFFF && Nat.ble ((lo + 20) * mhz) v && Nat.ble (v + 20 * mhz) (hi * mhz)

/-- Causes of SYNn_STS.CAUSE, also the cause numbers of the synthesizer's faults. -/
abbrev synRefLossCause : Nat := 1
abbrev synUnlock : Nat := 2
abbrev synBandCause : Nat := 3
abbrev synConfig : Nat := 4

/-! Clock outputs (R161). -/

/-- The claim gate of a pad (R402): the claim is held, in role ACTIVE or RELEASING, and the witness grants it where it is in use. -/
def Dev.claimHeld (d : Dev) : Bool :=
  (d.get Pg.plk PLK.STS_ROLE == 3 || d.get Pg.plk PLK.STS_ROLE == 4) && (!d.on Pg.plk PLK.CTL_WIT_EN || bit (d.get Pg.plk PLK.STS_PINS) 2)

/-- The largest frequency of a format in Hz (R162); 0 for off. -/
def fmtLimit (f : Nat) : Nat := [0, 1500000000, 400000000, 1500000000, 250000000, 200000000].getD f 0

/-- The divider of an output (R163). -/
def Dev.ckoDiv (d : Dev) (m : Nat) : Nat := max 8 (d.get Pg.cko (CKO.DIV_DIV m))

/-- The synthesizer of an output. -/
def Dev.ckoSyn (d : Dev) (m : Nat) : Fin 4 := ⟨d.get Pg.cko (CKO.CTL_SRC m) % 4, by omega⟩

/-- Nominal f_vco of an output's synthesizer in 2^-57 Hz. -/
def Dev.ckoVco (d : Dev) (m : Nat) : Nat := d.synVco (d.ckoSyn m) d.syn[d.ckoSyn m].scale

/-- The output's bank has its 3.3 V supply: a fact of the appliance (log entry 7). -/
def bankSupply (m : Nat) : Bool := Config.calib 21 m != 0

/-- The output cannot run in its configuration (R161, R162). -/
def Dev.ckoBad (d : Dev) (m : Fin 16) : Bool :=
  let f := d.cko[m].fmt
  decide (fmtLimit f * d.ckoDiv m * 2 ^ 57 < d.ckoVco m) || (f == 5 && !bankSupply m)

/-- Why an enabled output is held (R155, R161), 0 for none. An output that runs goes on through LOCKING, COAST and FREEZE. -/
def Dev.ckoCause (d : Dev) (m : Fin 16) : Nat :=
  let n := d.ckoSyn m
  let st := d.synState n
  let runs := d.on Pg.cko (CKO.STS_RUNNING m)
  if d.c4Held || (d.on Pg.cko (CKO.CTL_CLAIM m) && !d.claimHeld) then 3
  else if d.ckoBad m then 4
  else if st = synFreeze ∧ d.get (Pg.syn n) SYN.CTL_UNLOCK_ACT = 1 then 2
  else if st = synLocked then (if d.syn[n].alignAt.isSome then 1 else 0)
  else if runs && (st == synLocking || st == synCoast || st == synFreeze) then 0
  else 1

/-- The offset in force: one VCO cycle per output period toward PHASE (R161). -/
def Dev.ckoPhase (d : Dev) (m : Fin 16) : Nat :=
  let e := d.cko[m]
  let div := d.ckoDiv m
  let goal := d.get Pg.cko (CKO.PHASE_PH m) % div
  let moved := (d.now - e.phAt) * d.ckoVco m / (div * 2 ^ 57 * second)
  if e.phBase ≤ goal then min goal (e.phBase + moved) else max goal (e.phBase - moved)

/-! The alignment grid (R152). -/

/-- VCO cycles of an output's grid since second 0 of V: an output of integer or of rational frequency has a rising edge there, and with it at each second that R152 names. DLY and the phase error of the grid are taken off, so that the edge falls at the ball. -/
def Dev.ckoCycles (d : Dev) (m : Fin 16) : Int :=
  let n := d.ckoSyn m
  ((d.view (synConsumer n) - d.geti (Pg.syn n) SYN.PERR_E * 2 ^ 32) * 1000 + d.geti Pg.cko (CKO.DLY_DLY m) * 2 ^ 48) * d.ckoVco m / (10 ^ 12 * 2 ^ 105)

/-- Ticks to the next rising edge of an output on its grid, at an offset of ph VCO cycles: the end of its running cycle, and its first grid edge (R155, R161). -/
def Dev.ckoEdge (d : Dev) (m : Fin 16) (ph : Nat) : Nat :=
  let div := d.ckoDiv m
  max 1 (cdiv ((div - ((d.ckoCycles m - ph) % div).toNat) * 2 ^ 57 * second) (max 1 (d.ckoVco m)))

/-- The level of an output's ball: a running one is high for half its cycle, (DIV + 1) / 2 VCO cycles of an odd DIV; any other is at STOP_LVL, none for high impedance (R161, R163). -/
def Dev.ckoLevel (d : Dev) (m : Fin 16) : Option Bool :=
  if d.on Pg.cko (CKO.STS_RUNNING m) then some (decide ((d.ckoCycles m - d.ckoPhase m) % d.ckoDiv m < ((d.ckoDiv m + 1) / 2 : Nat)))
  else match d.get Pg.cko (CKO.CTL_STOP_LVL m) with
    | 1 => some true
    | 2 => none
    | _ => some false

/-- The swing of an output in mV, or its drive in mA for the LVCMOS formats (R162). -/
def Dev.ckoSwing (d : Dev) (m : Fin 16) : Nat :=
  let k := d.get Pg.cko (CKO.DRV_SWING m)
  match d.cko[m].fmt with
  | 1 => 250 + 50 * k
  | 2 => 600 + 50 * k
  | 3 => 400 + 50 * k
  | 4 | 5 => 2 + 2 * k
  | _ => 0

/-- Bring an output up to date: it starts at its first grid edge and stops at the end of its cycle (R155, R161); HELD and its cause, with INT_STS at a change of HELD (R163). A format waits for the output to be held. -/
def Dev.ckoEval (d : Dev) (m : Fin 16) : Dev :=
  let en := d.on Pg.cko (CKO.CTL_EN m)
  let fmt := d.get Pg.cko (CKO.CTL_FMT m)
  let runs := d.on Pg.cko (CKO.STS_RUNNING m)
  let d := d.when (!runs) fun d => d.upCko m fun e => { e with fmt := if fmt ≤ 5 then fmt else 0 }
  let off := d.cko[m].fmt = 0
  let cause := if !en ∨ off then 0 else d.ckoCause m
  let want := en && !off && cause == 0
  let edge := d.now + d.ckoEdge m (if runs then d.ckoPhase m else d.get Pg.cko (CKO.PHASE_PH m) % d.ckoDiv m)
  let d := d.upCko m fun e => { e with due :=
    if want == runs && !e.redo then none
    else match e.due with
      | some (t, b) => if b = want ∨ e.redo then some (t, b) else some (edge, want)
      | none => some (edge, want) }
  let held := en && !off && !runs
  let was := d.on Pg.cko (CKO.STS_HELD m)
  let d := (d.putb Pg.cko (CKO.STS_HELD m) held).put Pg.cko (CKO.STS_HELD_CAUSE m) (if held then cause else 0)
  d.when (was != held) fun d => d.int Pg.cko m

/-- The edge that an output waited for comes: it runs, or its cycle has ended and it is held (R155, R161). -/
def Dev.ckoTurn (d : Dev) (m : Fin 16) : Dev :=
  match d.cko[m].due with
  | some (t, b) =>
    if d.now < t then d else
    let run := b && d.ckoCause m == 0
    let d := d.upCko m fun e => { e with
      due := none, redo := false, phBase := if run then d.get Pg.cko (CKO.PHASE_PH m) % d.ckoDiv m else e.phBase, phAt := if run then d.now else e.phAt }
    (d.putb Pg.cko (CKO.STS_RUNNING m) run).ckoEval m
  | none => d

/-- Bring every output of a synthesizer up to date. -/
def Dev.ckoFollow (d : Dev) (n : Fin 4) : Dev := d.each (List.finRange 16) fun m d => d.when (d.ckoSyn m.val == n) fun d => d.ckoEval m

/-- Bring every output up to date: the claim or a C4 hold has changed. -/
def Dev.ckoAll (d : Dev) : Dev := d.each (List.finRange 16) fun m d => d.ckoEval m

/-- Hold a running output at the end of a cycle, t ticks from now, for its restart at the next grid edge (R161). -/
def Dev.ckoRestart (d : Dev) (m : Fin 16) (t : Nat) : Dev :=
  if d.on Pg.cko (CKO.STS_RUNNING m) then (d.upCko m fun e => { e with due := some (d.now + t, false), redo := true }).ckoEval m else d.ckoEval m

/-! Phase (R152). -/

/-- ALIGNED changes (R160). -/
def Dev.setAligned (d : Dev) (n : Fin 4) (v : Bool) : Dev :=
  if d.get (Pg.syn n) SYN.STS_ALIGNED = b2n v then d else (d.putb (Pg.syn n) SYN.STS_ALIGNED v).int (Pg.syn n) 1

/-- A phase set: the grid jumps to e = 0 (R152). -/
def Dev.phaseSet (d : Dev) (n : Fin 4) : Dev :=
  ((d.puti (Pg.syn n) SYN.PERR_E 0).upSyn n fun e => { e with eSum := 0, eNum := 0 }).setAligned n (d.syn[n].spread.isNone)

/-- An ALIGN that waits for its output period ends: the phase is set and the outputs start (R152, R155). -/
def Dev.alignEnd (d : Dev) (n : Fin 4) : Dev :=
  match d.syn[n].alignAt with
  | some t => if t ≤ d.now ∧ d.synState n = synLocked then ((d.upSyn n fun e => { e with alignAt := none }).phaseSet n).ckoFollow n else d
  | none => d

/-- What the tick brings to the synthesizers: the end of an ALIGN, and the grid edges that outputs wait for. -/
def Dev.gridTick (d : Dev) : Dev :=
  let d := d.each (List.finRange 4) fun n d => d.alignEnd n
  d.each (List.finRange 16) fun m d => d.ckoTurn m

end Sys2Proof.Machine
end

