-- ==== Sys2Proof/Machine/StampOps.lean ====
section
/-! DEFINITION. What becomes of a stamp once it is taken: the queue and the stream of its channel (R168, R174 to R176). -/

namespace Sys2Proof.Machine

def Dev.upTdc (d : Dev) (n : Fin 16) (f : TdcEng → TdcEng) : Dev := { d with tdc := d.tdc.set n (f d.tdc[n]) }
def Dev.upUnit (d : Dev) (u : Fin 17) (f : TdcUnit → TdcUnit) : Dev := { d with unit := d.unit.set u (f d.unit[u]) }
def Dev.upTdcs (d : Dev) (f : TdcsEng → TdcsEng) : Dev := { d with tdcs := f d.tdcs }


/-- Show the head of a queue and its level. -/
def Dev.tdcShow (d : Dev) (n : Fin 16) : Dev :=
  let pg := Pg.tdc n
  let q := d.tdc[n].queue
  let d := d.put pg TDC.STS_Q_LVL q.length
  match q with
  | [] => (d.put pg TDC.Q_TIME_TIME 0).put pg TDC.Q_TAG 0xFFFF
  | s :: _ =>
    (d.put pg TDC.Q_TIME_TIME (time96 s.time)).put pg TDC.Q_TAG (2 ^ 31 + b2n s.gap <<< 30 + b2n s.collide <<< 29 + b2n s.falling <<< 28 +
      s.ts <<< 27 + s.src <<< 16 + s.bound)

/-- Set an interrupt bit that marks only the first occurrence since it was cleared. -/
def Dev.intOnce (d : Dev) (pg b : Nat) : Dev := d.when (!bit (d.get pg HDR.INT_STS_STS) b) fun d => d.int pg b

/-- A stamp enters the queue, or is dropped and counted (R175). -/
def Dev.toQueue (d : Dev) (n : Fin 16) (s : Stamp) : Dev :=
  let e := d.tdc[n]
  if 256 ≤ e.queue.length then ((d.count (Pg.tdc n) TDC.OVF_COUNT).upTdc n fun e => { e with gapQ := true }).intOnce (Pg.tdc n) 1
  else
    let d := (d.upTdc n fun e => { e with queue := e.queue ++ [{ s with gap := e.gapQ }], gapQ := false }).tdcShow n
    d.when e.queue.isEmpty fun d => d.int (Pg.tdc n) 0

/-- A stream drop (R176). -/
def Dev.dropStream (d : Dev) (n : Fin 16) : Dev :=
  (((d.count (Pg.tdc n) TDC.STR_DROP_DROP).count Pg.tdcCal TDCCAL.STR_STS_DROP).upTdc n fun e => { e with gapS := true }).intOnce (Pg.tdc n) 2

/-- The arbiter serves one stamp in a tick while any waits: 1 G stamps/s in total (R176). -/
def Dev.streamKick (d : Dev) : Dev := d.when (d.tdc.any (fun e => !e.fifo.isEmpty) && !d.waiting .streamWrite) fun d => d.after 1 .streamWrite

/-- A stamp enters the stream FIFO. -/
def Dev.toStream (d : Dev) (n : Fin 16) (s : Stamp) : Dev :=
  if 4096 ≤ d.tdc[n].fifo.length then d.dropStream n
  else (d.upTdc n fun e => { e with fifo := e.fifo ++ [s] }).streamKick

/-- A taken stamp goes where DEST said: 0 the queue, 1 the stream, 2 both (R174, R176). -/
def Dev.deliver (d : Dev) (n : Fin 16) (dst : Nat) (s : Stamp) : Dev :=
  (d.when (dst == 0 || dst == 2) fun d => d.toQueue n s).when (dst == 1 || dst == 2) fun d => d.toStream n s

/-- The held stamp of a group goes on. -/
def Dev.stampOut (d : Dev) (n : Fin 16) : Dev :=
  match d.tdc[n].held with
  | some (_, dst, s) => (d.upTdc n fun e => { e with held := none }).deliver n dst s
  | none => d

/-- The stamps of groups whose dead time is over (R168). -/
def Dev.stampTick (d : Dev) : Dev :=
  d.each (List.finRange 16) fun n d => d.when (d.tdc[n].held.any fun h => decide (h.1 + 4 * 65536 < d.now * 65536)) fun d => d.stampOut n

end Sys2Proof.Machine
end

