-- ==== Sys2Proof/Machine/Tick.lean ====
section
/-! DEFINITION. The idle tick: what one TCLK tick does when no command waits (log entry 1). -/

namespace Sys2Proof.Machine

/-- The clock after one tick: the MEC counts 1 (R40), and each accumulator adds its increment and slew adjustment (R62). -/
def Dev.tickClk (d : Dev) : Clock := { mec := d.clk.mec + 1, acc := #v[(d.acc 0 + d.tickAdd 0).toNat, (d.acc 1 + d.tickAdd 1).toNat] }

/-- Keep of how a timescale has counted what stamps of the past may need: all up to the first part that began before it (R221). -/
def keepLaw (now : Nat) : List (Nat × Int × Int) → List (Nat × Int × Int)
  | [] => []
  | e :: l => if e.1 + pastTicks ≤ now then [e] else e :: keepLaw now l

/-- A tick passes: where the timescale has been set or its rate has changed since the tick before, a new part of its history begins. `old` is the device before the tick (R221). -/
def Dev.lawTick (old : Dev) (n : Ts) (d : Dev) : Dev :=
  let a := old.tickAdd n
  let goes : Bool := match old.ts[n].law with
    | (m, v, b) :: _ => a == b && v + ((old.now - m : Nat) : Int) * b == (old.acc n : Int)
    | [] => false
  d.when (!goes) fun d => d.upTs n fun e => { e with law := (old.now, ((old.acc n : Nat) : Int), a) :: keepLaw old.now e.law }

/-- A timescale at this tick once a step that is due has been applied (R60). -/
def Dev.stepped (d : Dev) (n : Ts) : Int :=
  match d.ts[n].step with
  | some (op, _, _) => if d.stepDue n then d.acc n + d.stepDelta n op else d.acc n
  | none => d.acc n

/-- A timescale counts into a new second at this tick, the last tick of a slew included, and no step of the tick takes it back (R60, R68). -/
def Dev.newSecond (d : Dev) (n : Ts) (before : Nat) : Bool :=
  let sec (x : Int) : Nat := x.toNat / accSecond
  decide (before < sec (d.acc n + if d.ts[n].ending then d.ts[n].slewRem else 0)) && decide (before < sec (d.stepped n))

/-- An AT_SEC step notes the SEC of its registration + 32 ticks, when that tick comes (R72). -/
def Dev.noteSec (d : Dev) (n : Ts) : Dev :=
  match d.ts[n].step, d.ts[n].stepSec with
  | some (_, t, true), none => if t + 32 ≤ d.now then { d with ts := d.ts.set n { d.ts[n] with stepSec := some (d.sec n) } } else d
  | _, _ => d

/-- The tick of one timescale (R62, R68): its accumulator has advanced, the slew shrinks, and its last tick is due as SLEW_COMPLETE; a new second brings what waits for one. `old` is the device before the tick. -/
def Dev.tickTs (old : Dev) (n : Ts) (d : Dev) : Dev :=
  let adj := slewAdj (old.get (Pg.ts n) TS.SLEW_MAX_RATE)
  let r := old.ts[n].slewRem
  let w := walkTick adj r
  let last := r != 0 && w == 0
  let d := { d with ts := d.ts.set n { d.ts[n] with slewRem := r - w, ending := last } }
  let d := d.when last fun d => d.after 0 (.slewComplete n)
  let due := d.stepDue n
  let d := d.when (due && (d.ts[n].step.any fun x => x.2.2)) fun d => d.after 0 (.stepApply n)
  let d := d.noteSec n
  if !d.newSecond n (old.sec n) then d
  else
    let d := d.event (9 + n)
    let d := d.when (d.get (Pg.ts n) TS.LEAP_CTL_PENDING != 0) fun d => d.after 0 (.leapApply n)
    d.each (List.finRange 16) fun c d =>
      d.when (d.on (Pg.tdc c) TDC.CTL_EN && d.get (Pg.tdc c) TDC.CTL_TS == n.val) fun d => d.after 0 (.tdcFreqGate c)

/-- The bins of R118 that end at this tick: 10 s of step-free time of a timescale. -/
def Dev.binsEnd (old d : Dev) : List Instr :=
  ([0, 1].filter fun (n : Ts) => (d.stepFree n).fdiv (10 * accSecond) != (old.stepFree n).fdiv (10 * accSecond)).map Instr.holdoverBin

/-- The commands of a TSA second boundary, in the order the rules give: monitors, the bins that end (a bin takes in the y of its last second), ensemble check, servo cores with what was selected through the interval, selectors (R84, R99, R107, R115, R118; log entry 82), and the comparison of the replicas (R28). -/
def Dev.secondCommands (d : Dev) (bins : List Instr) : List Instr :=
  (((List.finRange 19).filter fun k => d.get (monPg k.val) (MON.STS_STATE (monBase k.val)) != 0).map fun k => Instr.monitorSecond k none) ++ bins ++
  [.ensembleEval, .servoUpdate 0, .servoUpdate 1, .selectorEval 0, .selectorEval 1,
   .replicaCheck 0 0 0, .replicaCheck 0 1 0, .replicaCheck 1 0 0, .replicaCheck 1 1 0]

/-- The view of a pulse generator in 2^-16 ns (R186). -/
def Dev.evoView (d : Dev) (n : Fin 16) : Int := (d.view ⟨28 + n.val, by omega⟩).fdiv (2 ^ 32)

/-- An edge of a generator is due: the trailing edge of its pulse, or its next leading edge. -/
def Dev.evoDue (d : Dev) (n : Fin 16) : Bool :=
  let e := d.evo[n]
  let v := d.evoView n
  let st := d.get Pg.evo (EVO.STS_STATE n)
  (e.pulse.any fun t => t ≤ v) || ((st == 1 || st == 2) && (e.count.all fun c => e.next < c) && decide (((e.start + e.next * e.period : Nat) : Int) ≤ v))

/-- The slot points of this TSA second, at which the calibration slots of the ports that are UP are judged: PHASE µs after it (R226). -/
def Dev.slotPoints (d : Dev) : Dev :=
  d.each (List.finRange 24) fun p d =>
    d.when (d.get (Pg.port p.val) PORT.STS_STATE == 5) fun d => d.afterTime 0 (min 999999 (d.get (Pg.pts p.val) PTS.CAL_PHASE_PHASE) * micro) (.calSlotStart p.castSucc)

/-- The wheel slot of the step-free time of TSA, in 2^-16 s (R255). -/
def Dev.wheelNow (d : Dev) : Nat := ((d.stepFree 0) * 65536 / accSecond).toNat

/-- The microsecond of the step-free time of TSA, in which the admission epochs run (R9, R248). -/
def Dev.microNow (d : Dev) : Int := (d.stepFree 0).fdiv (micro * 2 ^ 48 : Nat)

/-- The admission cycle of the scheduler: 100 µs of the step-free time of TSA (R9, R380). -/
def Dev.cycleNow (d : Dev) : Int := (d.stepFree 0).fdiv (100 * micro * 2 ^ 48 : Nat)

/-- A sequencer waits for an engine time that has come, a step of this tick included (R334). -/
def Dev.seqTimeDue (d : Dev) (n : Fin 8) : Bool :=
  match d.seq[n].wait with
  | some (.time ts t) => decide ((t : Int) ≤ (d.stepped ts).fdiv (2 ^ 32)) && !d.seq[n].frozen
  | _ => false

/-- The enabled directions of the audio ports whose view has come to a new second (R325). -/
def Dev.audSeconds (old d : Dev) : List Instr :=
  (List.finRange 4).flatMap fun p =>
    let v (x : Dev) : Int := (x.view ⟨44 + p.val, by omega⟩).fdiv accSecond
    if v d ≤ v old then [] else
    ([false, true].filter fun rx => d.get (Pg.aud p.val) (AUD.STS_STATE (b2n rx)) != 0).map fun rx => Instr.audRateMeasure p rx

/-! The order of what is due at one tick (log entry 2). -/

/-- The place of a command among those of its tick: a step, which takes effect at the start of its tick (R60); the last tick of a slew; a leap, before any record of its tick (R42, R44, R45); changes of a timescale (R64, R79); everything else; posted writes, the fault collector's first and the others by master (R35). Edges of a pulse generator that fell due before a step of this tick are its first (R190). -/
def tickRank (stepping : Bool) : Instr → Nat
  | .evoEdge _ => if stepping then 0 else 5
  | .stepApply _ => 1
  | .slewComplete _ => 2
  | .leapApply _ => 3
  | .applicationTick _ | .walkComplete _ => 4
  | .registerWrite m _ _ _ | .cstWrite m _ _ _ | .cstSetWrite m _ _ _ | .cstClearWrite m _ _ _ | .snap m _ _
  | .utcOffsetWrite m _ _ | .leapAtWrite m _ _ | .leapPendingWrite m _ _ => if m = .collector then 6 else 7 + masterId m
  | _ => 5

/-- The commands of a tick in the order of their places, those of one place as they came. -/
def inOrder (stepping : Bool) (l : List Instr) : List Instr :=
  (List.range 72).flatMap fun r => l.filter fun i => tickRank stepping i == r

/-- The tick of the block: the MEC advances by 1 (R40), both timescales advance (R62), corrections walk (R76), and what is due joins the queue. -/
def tick (s : State) : State :=
  let c := s.dev.tickClk
  let d := { s.dev with clk := c }
  let d := d.when (d.now % 1024 == 0) fun d => (d.after 0 (.boundPublish 0)).after 0 (.boundPublish 1)
  let d := d.when (d.cycleNow != s.dev.cycleNow) fun d => d.after 0 .admissionCycle
  let d := d.when (d.microNow != s.dev.microNow) fun d => d.after 0 .admissionEpoch
  let d := d.each [0, 1] fun n d => s.dev.tickTs n (s.dev.lawTick n d)
  let bins := Dev.binsEnd s.dev d
  let second := d.newSecond 0 (s.dev.sec 0)
  let d := if second then ((d.each (d.secondCommands bins) fun c d => d.after 0 c).after 0 .overloadSecond).slotPoints else d.each bins fun c d => d.after 0 c
  let d := d.when (d.wheelNow != s.dev.wheelNow) fun d => d.after 0 .wheelSlot
  let adj := slewAdj d.ts[0].walkRate
  let d := d.each (List.finRange 48) fun n d =>
    if d.walks n then
      let w := walkTick adj d.corr[n]
      if w = 0 then d.after 0 (.walkComplete n) else { d with corr := d.corr.set n (d.corr[n] - w) }
    else d
  let d := d.each (List.finRange 16) fun n d => d.when (d.evoDue n) fun d => d.after 0 (.evoEdge n)
  let d := d.each (List.finRange 8) fun n d => d.when (d.seqTimeDue n) fun d => d.after 0 (.seqWaitEnd n)
  let d := d.each (Dev.audSeconds s.dev d) fun c d => d.after 0 c
  let d := d.gridTick.stampTick.snapStep
  let rung := d.alarms.filter fun e => e.2.1 ≤ d.stepFree e.1
  let due := rung.map (·.2.2) ++ (d.agenda.filter fun e => e.1 ≤ d.clk.mec).map (·.2)
  { s with
    dev := { d with clk := c, agenda := d.agenda.filter fun e => ¬ e.1 ≤ d.clk.mec, alarms := d.alarms.filter fun e => ¬ e.2.1 ≤ d.stepFree e.1 },
    pending := inOrder (due.any fun i => i = .stepApply 0 ∨ i = .stepApply 1) due }

end Sys2Proof.Machine
end

