-- ==== Sys2Proof/Machine/SynOps.lean ====
section
/-! DEFINITION. Operations of the synthesizers and clock outputs that several commands share (R149 to R163), with the state machine of a synthesizer. -/

namespace Sys2Proof.Machine

/-! The state machine (R155). -/

/-- Enter a state: record, interrupt and event, and the outputs follow (R160, R331). -/
def Dev.synEnter (d : Dev) (n : Fin 4) (s : Nat) : Dev :=
  let old := d.synState n
  let pg := Pg.syn n
  let d := (d.put pg SYN.STS_STATE s).upSyn n fun e => { e with inLock := 0, tried := 0, alignAt := none }
  let d := d.when (s == synOff || s == synStart || s == synTest) fun d => d.setAligned n false
  let d := d.when (old != s) fun d => ((d.record 0x30 (srcPage pg) [n.val, old, s, d.get pg SYN.STS_CAUSE]).int pg 0).event (72 + n.val)
  d.ckoFollow n

/-- A held SCALE is applied (R156). -/
def Dev.synScale (d : Dev) (n : Fin 4) : Dev :=
  (d.upSyn n fun e => { e with scale := d.get (Pg.syn n) SYN.REF_CTL_SCALE }).put (Pg.syn n) SYN.STS_SCALE_PEND 0

/-- Show N_eff. -/
def Dev.setNeff (d : Dev) (n : Fin 4) (v : Nat) : Dev :=
  ((d.upSyn n fun e => { e with neff := v, neffGate := if d.now ≤ e.gateAt then v else e.neffGate }).put (Pg.syn n) SYN.NEFF_NINT (v / 2 ^ 40)).put (Pg.syn n) SYN.NEFF_NFRAC (v % 2 ^ 40)

/-- START: the pending SCALE is applied, and the VCO is calibrated in 20 µs (R155). -/
def Dev.synBegin (d : Dev) (n : Fin 4) : Dev :=
  let d := (d.synScale n).upSyn n fun e => { e with first := true, tunes := [], good := 0, yint := 0 }
  let d := (d.upSyn n fun e => { e with gateAt := d.now + 220000, lockWord := d.get (Pg.syn n) SYN.LOCK_CTL }).setNeff n (d.synNom n)
  ((d.cancel (.freezeTimeout n)).synEnter n synStart).timer 20000 (.vcoCalDone n)

/-- OFF: outputs held, tuning released (R155), a pending SCALE applied (R156). -/
def Dev.synRelease (d : Dev) (n : Fin 4) : Dev :=
  let d := (d.cancel (.vcoCalDone n)).cancel (.freezeTimeout n)
  let d := d.each [synRefLossCause, synUnlock, synBandCause, synConfig] fun c d => (d.lower (Pg.syn n) 1 c).lower (Pg.syn n) 2 c
  ((d.synScale n).upSyn n fun e => { e with tunes := [], good := 0, again := false }).synEnter n synOff

/-- From OFF with EN = 1: START when PD2 is granted and the configuration valid, else OFF with CAUSE CONFIG (R155). -/
def Dev.synTryStart (d : Dev) (n : Fin 4) : Dev :=
  let pg := Pg.syn n
  if d.synState n ≠ synOff ∨ !d.on pg SYN.CTL_EN ∨ (d.syn[n].again && d.c4Held) then d
  else if !d.synValid n (d.get pg SYN.REF_CTL_SCALE) then (d.put pg SYN.STS_CAUSE synConfig).raise pg 1 synConfig
  else if d.granted kindSyn n then (d.lower pg 1 synConfig).synBegin n
  else d

/-- A failed start or an unlock in LOCKING returns to START with a cause and a C1 (R155). -/
def Dev.synFail (d : Dev) (n : Fin 4) (cause : Nat) : Dev :=
  ((d.put (Pg.syn n) SYN.STS_CAUSE cause).raise (Pg.syn n) 1 cause)

/-- Enter LOCKING (R155); SCALE applies on entry from COAST and FREEZE (R156). -/
def Dev.synLock (d : Dev) (n : Fin 4) : Dev := ((d.cancel (.freezeTimeout n)).lower (Pg.syn n) 1 synRefLossCause).synEnter n synLocking

/-- A field of SYNn_LOCK_CTL as the running gate uses it: a write takes effect at the next gate (R155). -/
def Dev.lockFld (d : Dev) (n : Fin 4) (f : Fld) : Nat := f.get (BitVec.ofNat 96 d.syn[n].lockWord)

/-- The reference is present (R154). -/
def Dev.synPresent (d : Dev) (n : Fin 4) : Bool := d.synOsc n || max 1 (d.lockFld n SYN.LOCK_CTL_LOCK_N) ≤ d.syn[n].good

/-- COAST: the tuning word is held at its mean over the last 16 gates, or the current word in LOCKING (R155). -/
def Dev.synLose (d : Dev) (n : Fin 4) : Dev :=
  let st := d.synState n
  let d := d.upSyn n fun e => { e with good := 0 }
  if st = synLocking ∨ st = synLocked then
    let d := d.upSyn n fun e => { e with
      tune := if st = synLocked ∧ e.tunes ≠ [] then e.tunes.foldl (· + ·) 0 / e.tunes.length else e.tune }
    ((d.put (Pg.syn n) SYN.STS_CAUSE synRefLossCause).raise (Pg.syn n) 1 synRefLossCause).synEnter n synCoast
  else d

/-- The effective lock gate exponent and tolerances (R160). -/
def Dev.synGate (d : Dev) (n : Fin 4) : Nat := clampN 10 24 (d.lockFld n SYN.LOCK_CTL_GATE)

/-- A step of the bound timescale shifts e by the step (R152). -/
def Dev.synStep (d : Dev) (n : Ts) (delta : Int) : Dev :=
  d.each (List.finRange 4) fun k d =>
    let on := d.get (Pg.syn k) SYN.CTL_MODE != 1 && d.cur (synConsumer k) == n &&
      (d.synState k == synLocking || d.synState k == synLocked || d.synState k == synFreeze || d.synState k == synCoast)
    d.when on fun d =>
      let e := d.geti (Pg.syn k) SYN.PERR_E + tdiv delta (2 ^ 32)
      let d := d.puti (Pg.syn k) SYN.PERR_E e
      d.when (decide (10 * 65536 < e.natAbs * 1000)) fun d => d.setAligned k false

end Sys2Proof.Machine
end

