-- ==== Sys2Proof/Machine/KeyOps.lean ====
section
/-! DEFINITION. Key slots and crypto lanes: which key an engine may load, dispatch to a lane, and the changes of a lane's state (R289 to R305). -/

namespace Sys2Proof.Machine

def Dev.upKey (d : Dev) (f : KeyEng → KeyEng) : Dev := { d with key := f d.key }
def Dev.upLane (d : Dev) (n : Fin 16) (f : LaneEng → LaneEng) : Dev := { d with lane := d.lane.set n (f d.lane[n]) }
def Dev.upRsp (d : Dev) (f : RspEng → RspEng) : Dev := { d with rsp := f d.rsp }

/-! Functions of outside standards, by their number in Config.standard (log entry 6). -/

abbrev fnHmac : Nat := 1
abbrev fnSivSeal : Nat := 2
abbrev fnSivOpen : Nat := 3
abbrev fnSivCheck : Nat := 4
abbrev fnHkdf : Nat := 5
abbrev fnSha256 : Nat := 6
abbrev fnSha384 : Nat := 7
abbrev fnEcdsaCheck : Nat := 8
abbrev fnGcmSeal : Nat := 9
abbrev fnGcmOpen : Nat := 10
abbrev fnGcmCheck : Nat := 11
abbrev fnRoot : Nat := 12
abbrev fnTrng : Nat := 13

/-- The octets a standard function gives, as numbers. -/
def stdOctets (fn : Nat) (args : List Nat) : List Nat := (Config.standard fn args).map BitVec.toNat

/-- The verdict of a standard check: its first octet is 1. -/
def stdCheck (fn : Nat) (args : List Nat) : Bool := (stdOctets fn args).headD 0 == 1

/-! Slots (R294, R315). -/

/-- The page of a slot's attributes, and its index there. -/
def keyPg (s : Nat) : Nat := Pg.key (1 + s % 256 / 128)

abbrev keyEmpty : Nat := 0
abbrev keyActive : Nat := 1
abbrev keyStale : Nat := 2
abbrev keyDestroyed : Nat := 3

def Dev.keyState (d : Dev) (s : Nat) : Nat := d.get (keyPg s) (KEY1.ATTR0_STATE (s % 128))
def Dev.keyDest (d : Dev) (s : Nat) : Nat := d.get (keyPg s) (KEY1.ATTR0_DEST (s % 128))
def Dev.keyUsage (d : Dev) (s : Nat) : Nat := d.get (keyPg s) (KEY1.ATTR0_USAGE (s % 128))
def Dev.keyEpoch (d : Dev) (s : Nat) : Nat := d.get (keyPg s) (KEY1.ATTR1_EPOCH (s % 128))
def Dev.keyId (d : Dev) (s : Nat) : Nat := d.get (keyPg s) (KEY1.ATTR2_KEY_ID (s % 128))
def Dev.keyParent (d : Dev) (s : Nat) : Nat := d.get (keyPg s) (KEY1.ATTR0_PARENT (s % 128))

/-- The material of a slot. -/
def Dev.keyMat (d : Dev) (s : Nat) : List Nat := (sget (fun _ => ({} : KeyImage)) d.key.nv s).mat

/-- Destination bits (R294). -/
abbrev destNts : Nat := 2
abbrev destPtp : Nat := 3
abbrev destLoader : Nat := 4
abbrev destWrap : Nat := 5
abbrev destClear : Nat := 6
abbrev destAttest : Nat := 7
/-- Usage bits (R294). -/
abbrev useEncrypt : Nat := 0
abbrev useDecrypt : Nat := 1
abbrev useMac : Nat := 2
abbrev useDerive : Nat := 3

/-- Life-cycle state (R311). -/
def Dev.lifeCycle (d : Dev) : Nat := d.get (Pg.key 0) KEY0.LC_STS_LC

/-- An engine may load a key: the slot is ACTIVE and not being invalidated, DEST names the engine, USAGE permits the operation, and the life cycle lets that engine load keys (R294, R300, R313). -/
def Dev.loadable (d : Dev) (s dest use : Nat) : Bool :=
  d.keyState s == keyActive && !d.key.blocked.contains s && bit (d.keyDest s) dest && bit (d.keyUsage s) use &&
  (d.lifeCycle == 2 || (decide (d.lifeCycle < 2) && (dest == destAttest || dest == destLoader)))

/-- The slot names a lane group. -/
def Dev.keyGroup (d : Dev) (s : Nat) : Bool := d.keyDest s % 4 != 0

/-- The cookie sealing slot can seal (R304). -/
def Dev.ntsSealable (d : Dev) : Bool :=
  let s := d.get (Pg.key 3) KEY3.NTS_CUR_SLOT
  d.keyState s == keyActive && !d.key.blocked.contains s && bit (d.keyDest s) destNts && d.keyGroup s && bit (d.keyUsage s) useEncrypt

/-- Bring RSP_STS.NTS_KEY up to date (R304, R316). -/
def Dev.ntsShow (d : Dev) : Dev :=
  if d.ntsSealable == d.on (Pg.rsp 0) RSP0.STS_NTS_KEY then d
  else (d.putb (Pg.rsp 0) RSP0.STS_NTS_KEY d.ntsSealable).int (Pg.key 3) 1

/-! Lanes (R290 to R293). -/

abbrev laneOff : Nat := 0
abbrev laneLoad : Nat := 1
abbrev laneRun : Nat := 2
abbrev laneFenced : Nat := 3
abbrev laneFault : Nat := 4

def Dev.laneState (d : Dev) (n : Fin 16) : Nat := d.get (Pg.cl n) CL.STS_STATE

/-- The copy an operation uses is no longer that of an ACTIVE slot (R291). -/
def Dev.staleOp (d : Dev) (o : LaneOp) : Bool := d.keyState o.slot != keyActive || d.keyEpoch o.slot != o.epoch

/-- Show QLVL and STALE_HELD (R293). -/
def Dev.laneShow (d : Dev) (n : Fin 16) : Dev :=
  let q := d.lane[n].queue
  let held := ((q.filter d.staleOp).map fun o => (o.slot, o.epoch)).eraseDups.length
  (d.put (Pg.cl n) CL.STS_QLVL (min 16 q.length)).put (Pg.cl n) CL.STS_STALE_HELD held

/-- The cluster of a lane is counted in capacity (R250). -/
def Dev.unitCounted (d : Dev) (kind inst : Nat) : Bool := (kind, inst) ∈ d.rsp.counted

/-- The lanes counted in C_c, and the pipelines counted in C_p (R245, R250). -/
def Dev.lanesCounted (d : Dev) : List (Fin 16) := (List.finRange 16).filter fun n => d.laneState n == laneRun && d.unitCounted kindCrypto (n.val / 4)
def Dev.pipesCounted (d : Dev) : List Nat := [0, 1, 2, 3].filter fun q => d.unitCounted kindPipe q

/-- Fewer pipelines and clusters are admitted than were requested (R250), or CAP_EFF is below POWER_CAP (R384). -/
def Dev.throttled (d : Dev) : Bool := d.on Pg.pwr PWR.STS_MAIN_THROTTLED || d.pwr.units.any fun u => (u.kind == kindPipe || u.kind == kindCrypto) && u.granted.isNone

/-- C_p in responses and C_c in operations, per second (R245). -/
def Dev.capP (d : Dev) : Nat := d.pipesCounted.length * 128000000
def Dev.capC (d : Dev) : Nat := d.lanesCounted.length * 16000000

/-- A share in units of 0.01 %, saturating. -/
def share (q c : Nat) : Nat := if c = 0 then (if q = 0 then 0 else 0xFFFF) else min 0xFFFF (q * 10000 / c)

/-- Show the capacity and what is counted in it (R245, R250, R265, R266, R271). -/
def Dev.capShow (d : Dev) : Dev :=
  let lanes := d.lanesCounted
  let pipes := d.pipesCounted
  let d := (d.put (Pg.rsp 0) RSP0.STS_LANES lanes.length).put (Pg.rsp 0) RSP0.STS_PIPES (pipes.foldl (fun a q => a ||| 1 <<< q) 0)
  let d := (d.put (Pg.rsp 1) RSP1.CAP_STS_CP (pipes.length * 128)).put (Pg.rsp 1) RSP1.CAP_STS_CC (lanes.length * 16)
  let d := d.each (List.finRange 16) fun (n : Fin 16) d => d.putb (Pg.cl n) CL.STS_COUNTED (lanes.contains n)
  let d := d.each [0, 1, 2, 3] fun q d =>
    (d.putb (Pg.rsp 7) (RSP7.PIPE_STS_ADMITTED q) (d.granted kindPipe q)).putb (Pg.rsp 7) (RSP7.PIPE_STS_COUNTED q) (pipes.contains q)
  if d.throttled == d.on (Pg.rsp 1) RSP1.OVL_STS_THROTTLED then d
  else (d.putb (Pg.rsp 1) RSP1.OVL_STS_THROTTLED d.throttled).int (Pg.rsp 0) 2

/-- A lane changes state: its record and interrupt (R293). -/
def Dev.laneEnter (d : Dev) (n : Fin 16) (s : Nat) : Dev :=
  let old := d.laneState n
  if old = s then d else
  let d := (((d.put (Pg.cl n) CL.STS_STATE s).int (Pg.cl n) 0).record 0x54 (srcPage (Pg.cl n)) [n.val, old, s]).capShow
  if old = laneFault then d.lower (Pg.cl n) 2 1 else d

/-- The known-answer test begins; it ends 12 µs later, the longest that the rule allows (R292, log entry 89). -/
def Dev.laneTest (d : Dev) (n : Fin 16) : Dev :=
  (d.upLane n fun e => { e with draining := false, passed := false }).timerTime 0 (12 * micro) (.katDone n true)

/-- The lane enters LOAD (R292). -/
def Dev.laneWake (d : Dev) (n : Fin 16) : Dev :=
  if d.lane[n].queue.isEmpty then (d.laneEnter n laneLoad).laneTest n
  else (d.laneEnter n laneLoad).upLane n fun e => { e with draining := true, passed := false }

/-- The group of a lane is named in the destination mask of a slot (R290). -/
def Dev.laneNamed (d : Dev) (n : Fin 16) (s : Nat) : Bool := bit (d.keyDest s) (n.val / 8)

/-- The lane an operation of a slot goes to: in RUN, group named, fewest queued operations, lowest n on a tie; none when all are full (R290). -/
inductive Lane where
  | none | full | lane (n : Fin 16)
  deriving DecidableEq, Repr

def Dev.pickLane (d : Dev) (s : Nat) : Lane :=
  let l := (List.finRange 16).filter fun n => d.laneState n == laneRun && d.laneNamed n s
  match l with
  | [] => .none
  | x :: r =>
    let n := r.foldl (fun (a n : Fin 16) => if d.lane[n].queue.length < d.lane[a].queue.length then n else a) x
    if d.lane[n].queue.length < 16 then .lane n else .full

/-- Ticks of an operation (R241): the request and response checks of an authenticated message, or the four SIV operations of an NTS request with its placeholders. Log entry 9. -/
def opTicks (o : LaneOp) : Nat :=
  match o.job with
  | .nts x _ => cdiv ((65 + 12 * ((x.msg.nts.map (·.placeholders)).getD 0)) * 4) 5
  | .send _ => 12
  | _ => cdiv (34 * 4) 5

/-- The head of a lane's queue is worked on (R289). -/
def Dev.laneNext (d : Dev) (n : Fin 16) : Dev :=
  match d.lane[n].queue with
  | o :: _ => d.timer (opTicks o) (.cryptoOp n true)
  | [] => d

/-- Enter an operation into a lane's queue. -/
def Dev.lanePush (d : Dev) (n : Fin 16) (o : LaneOp) : Dev :=
  let idle := d.lane[n].queue.isEmpty
  ((d.upLane n fun e => { e with queue := e.queue ++ [o] }).laneShow n).when idle fun d => d.laneNext n

/-- A key change is followed by every lane's view of the copies it holds, and by NTS_KEY. -/
def Dev.keyFollow (d : Dev) : Dev := (d.each (List.finRange 16) fun n d => d.laneShow n).ntsShow

end Sys2Proof.Machine
end

