-- ==== Sys2Proof/Machine/TdcOps.lean ====
section
/-! DEFINITION. Operations of the measurement array: units and tables, stamps, queues, streams, rotation and retirement (R164 to R185). -/

namespace Sys2Proof.Machine

/-- The unit of a channel, and TDCS. -/
def chanUnit (n : Fin 16) : Fin 17 := ⟨n.val, by omega⟩
abbrev spare : Fin 17 := 16

/-- States of TDCn_STS.STATE and phases of TDC_ROT_STS.PHASE (R184, R185). -/
abbrev tdcOff : Nat := 0
abbrev tdcRun : Nat := 1
abbrev tdcCal : Nat := 2
abbrev tdcRetired : Nat := 3
abbrev rotIdle : Nat := 0
abbrev rotIn : Nat := 1
abbrev rotCal : Nat := 2
abbrev rotOut : Nat := 3
abbrev rotSelf : Nat := 4

def Dev.rotPhase (d : Dev) : Nat := d.get Pg.tdcCal TDCCAL.ROT_STS_PHASE
def Dev.rotPerm (d : Dev) : Nat := d.get Pg.tdcCal TDCCAL.ROT_STS_PERM
/-- The unit in calibration, 0 to 16. -/
def Dev.rotCur (d : Dev) : Fin 17 := ⟨d.get Pg.tdcCal TDCCAL.ROT_STS_CUR % 17, by omega⟩

/-! Tables (R178, R180). -/

/-- The table entry of R178 from the counts of a calibration: WIDTH and CENTRE. -/
def countEntry (n : List Nat) (b : Nat) : Nat :=
  let c := n.getD b 0
  min 255 (cdiv c 256) * 2 ^ 24 + ((n.take b).foldl (· + ·) 0 + c / 2) % 2 ^ 24

/-- A calibration is rejected: a bin above 65,536, or more than 16 empty bins (R178). -/
def tableRejected (n : List Nat) : Bool := n.any (fun c => 65536 < c) || decide (16 < (n.filter (· == 0)).length + (1024 - n.length))

/-- An entry of a unit's table: a host entry, the installed calibration, or the calibration set; all-ones while none is loaded. -/
def Dev.tableEntry (d : Dev) (u : Fin 17) (b : Nat) : Nat :=
  let e := d.unit[u]
  match e.ents.find? fun x => x.1 = b with
  | some x => x.2
  | none => match e.table with
    | some n => countEntry n b
    | none => 0xFFFFFFFF

/-- The bin centre truncated to 2^-16 ns (R170). -/
def Dev.centre (d : Dev) (u : Fin 17) (b : Nat) : Nat := d.tableEntry u b % 2 ^ 24 / 256

/-- Show the indexed table entry (R185). -/
def Dev.tdcWindow (d : Dev) : Dev :=
  let u : Fin 17 := ⟨min 16 (d.get Pg.tdcCal TDCCAL.CAL_IDX_UNIT), by omega⟩
  let b := d.get Pg.tdcCal TDCCAL.CAL_IDX_BIN
  d.put Pg.tdcCal TDCCAL.CAL_ENT (d.tableEntry u b)

/-- What the calibration page and a channel page show of the past: N of the indexed bin, and the age of the table. -/
def Dev.tdcRefresh (d : Dev) (pg : Nat) : Dev :=
  if pg = Pg.tdcCal then
    let u : Fin 17 := ⟨min 16 (d.get pg TDCCAL.CAL_IDX_UNIT), by omega⟩
    d.put pg TDCCAL.CAL_CNT_N (d.unit[u].counts.getD (d.get pg TDCCAL.CAL_IDX_BIN) 0)
  else d.each (List.finRange 16) fun (n : Fin 16) d => d.when (Pg.tdc n == pg) fun d =>
    d.put pg TDC.CAL_AGE_AGE (match d.unit[chanUnit n].calAt with
      | some t => min 0xFFFFFFFF ((d.freeNs - t) / second)
      | none => 0xFFFFFFFF)

/-! Which unit stamps (R164, R179, R181). -/

/-- TDCS delivers the stamps of a channel: it stands in, or holds the channel permanently. -/
def Dev.covered (d : Dev) (n : Fin 16) : Bool := d.get (Pg.tdc n) TDC.STS_STATE == tdcCal || d.rotPerm == n

/-- The unit that stamps a channel's source. -/
def Dev.unitOf (d : Dev) (n : Fin 16) : Fin 17 := if d.covered n then spare else chanUnit n

/-- A field of CTL as it is in force in this tick (R169). -/
def Dev.tdcCtl (d : Dev) (n : Fin 16) (f : Fld) : Nat :=
  match d.tdc[n].old with
  | some (t, ctl, _) => if t = d.now then f.get (BitVec.ofNat 96 ctl) else d.get (Pg.tdc n) f
  | none => d.get (Pg.tdc n) f

/-- The source a channel measures in this tick (R169). -/
def Dev.srcNow (d : Dev) (n : Fin 16) : Nat :=
  match d.tdc[n].old with
  | some (t, _, src) => if t = d.now then src else d.muxSrc n
  | none => d.muxSrc n

/-- A unit is within the dead time of its last stamped edge (R166). -/
def Dev.deadAt (d : Dev) (u : Fin 17) (arrival : Nat) : Bool := d.unit[u].last.any fun l => decide (arrival < l + 4 * 65536)

/-- A channel stamps: enabled, its cluster (and TDCS when it stands in) admitted, its unit not stopped. -/
def Dev.stamps (d : Dev) (n : Fin 16) : Bool :=
  d.tdcCtl n TDC.CTL_EN != 0 && d.granted kindTdc (n.val / 4) && (!d.covered n || d.granted kindTdcs 0) && !d.unit[d.unitOf n].stopped

/-- Show a channel's state (R184). -/
def Dev.tdcState (d : Dev) (n : Fin 16) : Dev :=
  let pg := Pg.tdc n
  let st := if !d.on pg TDC.CTL_EN then tdcOff
    else if d.unit[chanUnit n].retired then tdcRetired
    else if (d.rotPhase = rotCal ∨ d.rotPhase = rotOut) ∧ d.rotCur.val = n.val then tdcCal else tdcRun
  d.put pg TDC.STS_STATE st

/-- Whether a source code gives edges (R167). -/
def tdcSource (c : Nat) : Bool :=
  (1 ≤ c && c ≤ 0x0E) || (0x10 ≤ c && c ≤ 0x23) || (0x28 ≤ c && c ≤ 0x2B) || (0x30 ≤ c && c ≤ 0x48) || (0x50 ≤ c && c ≤ 0x5F) || c == 0x7F

/-- The path from a ball passes an edge whose new level lasts `ps` picoseconds to the multiplexer: a REF pin of FORMAT 0 or 1 and an atomic port's pins reject what is shorter than GLITCH × 100 ps (R89, R91); a capture input passes the edge that it has accepted in this tick (R193, R195); the GNSS pulse has the edges that the receiver emits (R133); the test pulse reaches only the unit under test, which stamps nothing then (R182). -/
def Dev.pinPasses (d : Dev) (src lane : Nat) (falling : Bool) (ps : Nat) : Bool :=
  if 1 ≤ src ∧ src ≤ 8 then
    decide (d.get (Pg.ref (src - 1)) REF.IN_CTL_FORMAT < 2 ∧ 100 * d.get (Pg.ref (src - 1)) REF.IN_CTL_GLITCH ≤ ps)
  else if 9 ≤ src ∧ src ≤ 12 then decide (100 * d.get (Pg.atm ((src - 9) % 2)) REF.IN_CTL_GLITCH ≤ ps)
  else if 0x10 ≤ src ∧ src ≤ 0x23 then
    let e := d.evi[Fin.ofNat 16 (if src < 0x20 then src - 0x10 else 4 * (src - 0x20) + lane)]
    (if falling then e.fall else e.rise).any fun t => t.1 == d.now
  else if src = 0x0D then d.gnss.sec.isSome
  else src != 0x0E

/-- POL of a source's pin: the edge it names is the rising edge of the path to the multiplexer (R89, R91; DESIGN CHOICE, log entry 81). -/
def Dev.pinPol (d : Dev) (src : Nat) : Bool :=
  if 1 ≤ src ∧ src ≤ 8 then d.on (Pg.ref (src - 1)) REF.IN_CTL_POL
  else if 9 ≤ src ∧ src ≤ 12 then d.on (Pg.atm ((src - 9) % 2)) REF.IN_CTL_POL else false

/-- Edges of the stamped polarity that the prescaler of a source takes for one of its own: that of a REF pin with FORMAT frequency (R89). -/
def Dev.pinPresc (d : Dev) (src : Nat) : Nat :=
  if 1 ≤ src ∧ src ≤ 8 ∧ d.get (Pg.ref (src - 1)) REF.IN_CTL_FORMAT = 1 then 2 ^ d.get (Pg.ref (src - 1)) REF.IN_CTL_PRESC else 1

/-- What the multiplexer of a channel sees of an edge at the ball: nothing, or an edge that falls or rises. A prescaler's output rises with the last edge of its count and falls with the middle one. -/
def Dev.muxEdge (d : Dev) (n : Fin 16) (lane : Nat) (falling : Bool) (ps : Nat) : Option Bool × Dev :=
  let src := d.srcNow n
  let f := falling != d.pinPol src
  let k := d.pinPresc src
  if !d.pinPasses src lane falling ps then (none, d)
  else if k = 1 then (some f, d)
  else if f then (none, d)
  else
    let c := (d.tdc[n].presc + 1) % k
    (if c = 0 then some false else if c = k / 2 then some true else none, d.upTdc n fun e => { e with presc := c })

/-- The monitors a channel feeds (R169). -/
def Dev.fedBy (d : Dev) (n : Fin 16) : List (Fin 19) :=
  (List.finRange 19).filter fun (k : Fin 19) =>
    k.val ≤ 10 && d.feeds (if k = 0 then 0x0D else if k.val ≤ 2 then 0x08 + k.val else k.val - 2) == some n.val

/-- The record of a stamp, 12 octets (R176). -/
def streamRecord (s : Stamp) (gap : Bool) : List Nat :=
  let ns := s.time / 2 ^ 16
  oct 12 (s.time % 2 ^ 16 + (ns % second) <<< 16 + (ns / second % 2 ^ 29) <<< 46 + b2n s.collide <<< 75 + s.lane <<< 76 + s.bound <<< 78 +
    b2n s.falling <<< 94 + b2n gap <<< 95)

/-- A second input of the group fired: the held stamp is a collision of the lowest input that fired, and the edge is counted (R168). -/
def Dev.collide (d : Dev) (n : Fin 16) (lane : Nat) : Dev :=
  let low := min lane d.tdc[n].lane
  (d.count (Pg.tdc n) TDC.COLL_COUNT).upTdc n fun e => { e with
    lane := low
    held := e.held.map fun h => (h.1, h.2.1, { h.2.2 with collide := true, lane := low, src := h.2.2.src / 4 * 4 + low }) }

/-! A stamp (R170 to R172). -/

/-- Input delay Z of a unit in 2^-16 ns: TDCn_ZERO, or the calibration item of TDCS. -/
def Dev.unitZero (d : Dev) (u : Fin 17) : Int := if u.val < 16 then d.geti (Pg.tdc u.val) TDC.ZERO_Z else sgn 32 (Config.calib 24 0)

/-- The delay of the glitch filter of a capture input in 100 ps, which its stamps do not contain (R193); 0 for any other source. -/
def Dev.glitchDelay (d : Dev) (src : Nat) : Nat := if 0x10 ≤ src ∧ src ≤ 0x1F then d.get Pg.evi (EVI.CTL_GLITCH (src - 0x10)) else 0

/-- The stamp of an edge in this tick, in 2^-16 ns of a timescale, formed exactly in a tenth of the unit; the TSB value is the TSA value plus the exact difference (R82, R170, R171, R193); what has crossed the CORE–ANALOG link is corrected by its delay (R25). -/
def Dev.stampTime (d : Dev) (u : Fin 17) (b src : Nat) (ts : Nat) : Int :=
  let off : Int := 10 * (d.centre u b - d.unitZero u - sgn 32 (Config.calib 23 src)) - d.glitchDelay src * 65536
  (((d.acc 0 : Int) + (if ts = 1 then d.xts else 0)) * (10 * 2 ^ 16) + off * d.tickAdd 0).fdiv (10 * 2 ^ 48) - d.linkCorr 0

/-- The bound code of a stamp, which crosses the CORE–ANALOG link (R26, R172). -/
def Dev.tdcBound (d : Dev) (ts : Nat) : Nat :=
  if d.on Pg.tdcCal TDCCAL.MCLK_STS_LOCK && !d.uncal 0 then encodeBound (d.stampBound (if ts = 1 then 1 else 0) (some 0) 1 (some 0)) else 0xFFFF

/-! Rotation, degradation and retirement (R179, R181). -/

/-- Cause numbers of the faults of a unit. -/
abbrev causeOverlap : Nat := 1
abbrev causeSigma : Nat := 2
abbrev causeRetired : Nat := 3

/-- The page on which a unit's faults are raised. -/
def unitPage (u : Fin 17) : Nat := if u.val < 16 then Pg.tdc u.val else Pg.tdcCal

/-- σ_t of a unit. -/
def Dev.sigmaOf (d : Dev) (u : Fin 17) : Nat := if u.val < 16 then d.get (Pg.tdc u.val) TDC.SIGMA_SIG else d.get Pg.tdcCal TDCCAL.SPARE_SIGMA_SIG

/-- σ_t lies above SIG_DEG and not above SIG_RET. -/
def Dev.sigmaBad (d : Dev) (u : Fin 17) : Bool :=
  d.sigmaOf u != 0xFFFFFFFF && decide (d.get Pg.tdcCal TDCCAL.CAL_LIM_SIG_DEG < d.sigmaOf u) && decide (d.sigmaOf u ≤ d.get Pg.tdcCal TDCCAL.CAL_LIM_SIG_RET)

/-- Raise or lower a cause. -/
def Dev.setCause (d : Dev) (pg c cause : Nat) (v : Bool) : Dev := if v then d.raise pg c cause else d.lower pg c cause

/-- Bring DEGRADED and its C1 up to date (R179, R181, R185). -/
def Dev.degrade (d : Dev) (u : Fin 17) : Dev :=
  let sig := d.sigmaBad u
  let d := d.setCause (unitPage u) 1 causeSigma sig
  if h : u.val < 16 then
    let n : Fin 16 := ⟨u.val, h⟩
    let ovl := d.tdc[n].ovlBad
    let d := d.setCause (Pg.tdc n) 1 causeOverlap ovl
    let old := d.get (Pg.tdc n) TDC.STS_DEGRADED
    (d.putb (Pg.tdc n) TDC.STS_DEGRADED (sig || ovl)).when (old != b2n (sig || ovl)) fun d => d.int Pg.tdcCal 0
  else d

/-- An overlap begins: both units stamp the source from this tick on (R179). -/
def Dev.overlapBegin (d : Dev) : Dev := d.upTdcs fun e => { e with origin := d.stepFree 0, common := 0, diff := 0 }

/-- The channel whose overlap runs. -/
def Dev.overlapping (d : Dev) (n : Fin 16) : Bool := (d.rotPhase == rotIn || d.rotPhase == rotOut) && d.rotCur.val == n.val

/-- The switch that ends an overlap may take place: 1 ms has passed, two edges were common and neither unit is within dead time, or `last` ns have passed (R179). -/
def Dev.overlapOver (d : Dev) (n : Fin 16) (last : Nat) : Bool :=
  let t := d.stepFree 0 - d.tdcs.origin
  decide ((last * 2 ^ 48 : Nat) ≤ t) ||
  (decide ((milli * 2 ^ 48 : Nat) ≤ t) && decide (2 ≤ d.tdcs.common) && !d.deadAt (chanUnit n) (d.now * 65536) && !d.deadAt spare (d.now * 65536))

/-- TDCn_OVL_DIFF takes the mean difference over the common edges of the overlap; without one it keeps its value. Over 3 ps the channel is DEGRADED (R179). -/
def Dev.overlap (d : Dev) (n : Fin 16) : Dev :=
  if d.tdcs.common = 0 then d else
    let x := tdiv d.tdcs.diff d.tdcs.common
    ((d.puti (Pg.tdc n) TDC.OVL_DIFF_DIFF x).upTdc n fun e => { e with ovlBad := decide (3 * 65536 < x.natAbs * 1000) }).degrade (chanUnit n)

/-- The calibration unit connects a channel to the random-edge source, and TDCS keeps the source (R167, R179). -/
def Dev.calTake (d : Dev) (n : Fin 16) : Dev :=
  let src := d.muxSrc n
  ((d.upTdcs fun e => { e with cal := some n, src := src, began := d.stepFree 0, checked := false }).put (Pg.tdc n) TDC.MUX_SRC 0x7F).tdcState n

/-- The channel in calibration rejoins its source. -/
def Dev.calLeave (d : Dev) : Dev :=
  match d.tdcs.cal with
  | some n => (d.put (Pg.tdc n) TDC.MUX_SRC d.tdcs.src).upTdcs fun e => { e with cal := none }
  | none => d

/-- A unit retires: TDCS takes a channel's source permanently; with TDCS taken or retired already it stops stamping (R181). -/
def Dev.retireUnit (d : Dev) (u : Fin 17) : Dev :=
  let gone := d.rotPerm != 0x1F || d.unit[spare].retired
  let again := d.unit[u].retired
  let d := (d.upUnit u fun e => { e with retired := true, stopped := e.stopped || (gone && !again) }).record 0x32 (srcPage Pg.tdcCal) ([u.val] ++ oct 4 (d.sigmaOf u))
  let d := (d.int Pg.tdcCal 1).raise (unitPage u) (if gone && !again then 2 else 1) causeRetired
  let d := d.when (!gone && u != spare) fun d => d.put Pg.tdcCal TDCCAL.ROT_STS_PERM u.val
  let d := (d.put Pg.tdcCal TDCCAL.ROT_STS_PHASE rotIdle).upTdcs fun e => { e with restoring := false }
  let d := (((d.cancel .rotationSwitch).cancel (.precisionTest [])).cancel .rotationSwitchBack).calLeave
  d.each (List.finRange 16) fun n d => d.tdcState n

/-- SIG_DEG and SIG_RET apply to every unit: those above the one are DEGRADED, those above the other retire (R181). -/
def Dev.limitsApply (d : Dev) : Dev :=
  d.each (List.finRange 17) fun u d =>
    (d.degrade u).when (d.sigmaOf u != 0xFFFFFFFF && decide (d.get Pg.tdcCal TDCCAL.CAL_LIM_SIG_RET < d.sigmaOf u) && !d.unit[u].retired) fun d => d.retireUnit u

/-- The PERIOD of rotation in ns of engine time. -/
def Dev.rotPeriod (d : Dev) : Nat := max 1 (d.get Pg.tdcCal TDCCAL.ROT_CTL_PERIOD) * second

/-- A unit whose temperature has moved by more than TEMP_STEP since its last calibration goes to the front (R179); t in 0.1 °C. -/
def Dev.rotTemp (d : Dev) (t : Int) : Dev :=
  d.each (List.finRange 17) fun (u : Fin 17) d =>
    let far := match d.unit[u].temp with
      | some t0 => decide (10 * max 1 (d.get Pg.tdcCal TDCCAL.ROT_CTL_TEMP_STEP) < (t - t0).natAbs)
      | none => false
    d.when (far && !d.tdcs.front.contains u.val) fun d => d.upTdcs fun e => { e with front := e.front ++ [u.val] }

/-- The unit the next rotation step takes: the front of the order, else the next in ascending order that is on. -/
def Dev.rotNext (d : Dev) : Fin 17 :=
  let on (u : Nat) : Bool := u == 16 || d.granted kindTdc (u / 4)
  match d.tdcs.front.find? on with
  | some u => ⟨u % 17, by omega⟩
  | none =>
    let c := ((List.range 17).map fun i => (d.tdcs.next + i) % 17).find? on
    ⟨c.getD 16 % 17, by omega⟩

/-- A calibration ends: TDCS is free and a TDC_CAL record is written (R179). -/
def Dev.rotDone (d : Dev) (u : Fin 17) : Dev :=
  let d := (d.calLeave.put Pg.tdcCal TDCCAL.ROT_STS_PHASE rotIdle).record 0x31 (srcPage Pg.tdcCal) ([u.val, b2n d.tdcs.passed] ++ oct 4 (d.sigmaOf u))
  d.each (List.finRange 16) fun n d => d.tdcState n

/-! What hardware writes to a MUX (R169). -/

/-- A channel takes a new source or new settings: those in force stay so through this tick, the gate starts anew, and the monitors that it fed or now feeds begin again (R169, R173). -/
def Dev.muxTurn (d : Dev) (n : Fin 16) (f : Dev → Dev) : Dev :=
  let pg := Pg.tdc n
  let old := match d.tdc[n].old with
    | some (t, c, s) => if t = d.now then some (t, c, s) else some (d.now, (d.reg pg 0x100).toNat, d.muxSrc n)
    | none => some (d.now, (d.reg pg 0x100).toNat, d.muxSrc n)
  let before := if d.on pg TDC.CTL_EN then d.fedBy n else []
  let d := (f d).tdcState n
  let d := d.when (d.get pg TDC.CTL_MODE != 2) fun d => d.put pg TDC.STS_ARMED 0
  let d := d.upTdc n fun e => { e with old := old, gStamps := 0, gCount := 0, gE := 0, decim := 0 }
  let after := d.fedBy n
  d.each ((List.finRange 19).filter fun k => before.contains k || after.contains k) fun k d =>
    if monLost < d.mstate k then d.monReturn k 0xA else d

/-- A channel's source becomes a code: the one TDCS took, while the calibration unit holds its MUX. -/
def Dev.srcSet (d : Dev) (n : Fin 16) (code : Nat) : Dev :=
  if d.tdcs.cal == some n then d.upTdcs fun e => { e with src := code } else d.put (Pg.tdc n) TDC.MUX_SRC code

/-- A calibration slot, a probe dwell or a link measurement writes the source of the probe channel (R169). -/
def Dev.probeTo (d : Dev) (code : Nat) : Dev :=
  let n : Fin 16 := Fin.ofNat 16 (d.get Pg.tdcCal TDCCAL.PROBE_CTL_CH)
  if d.muxSrc n = code then d else d.muxTurn n fun d => d.srcSet n code

end Sys2Proof.Machine
end

