-- ==== Sys2Proof/Machine/Views.lean ====
section
/-! DEFINITION. Views at other ticks than the present one: the past from what the block keeps of how it counted, the future from the changes that are registered (R28, R60, R64, R76, R220, R221). -/

namespace Sys2Proof.Machine

/-! The future. -/

/-- A registered change comes into force (R63, R66, R68, R76). -/
def Dev.aheadChange (d : Dev) (n : Ts) : TsChange → Dev
  | .incr v => d.applyIncr n v
  | .mode v => if d.get (Pg.ts n) TS.STS_MODE = v then d else d.cancelSlew n 3
  | .slew a => d.applySlew n a
  | .bind i sel => d.applyBind i sel
  | .xtsRate r => d.upTs n fun e => { e with walkRate := r }

/-- A timescale at the tick that has come, of which only its counting is followed: the slew goes on, then a step due applies, then the last tick of a slew, then the changes due, in the order of a tick (log entry 2). `old` is the device before the tick. -/
def Dev.aheadTs (old : Dev) (n : Ts) (d : Dev) : Dev :=
  let r := old.ts[n].slewRem
  let w := walkTick (slewAdj (old.get (Pg.ts n) TS.SLEW_MAX_RATE)) r
  let d := (d.upTs n fun e => { e with slewRem := r - w }).noteSec n
  let d : Dev := match d.ts[n].step with
    | some (op, _, _) =>
      if d.stepDue n then
        { d with clk := { d.clk with acc := d.clk.acc.set n ((d.acc n : Int) + d.stepDelta n op).toNat } }.upTs n fun e =>
          { e with step := none, stepSec := none, steps := e.steps + 1, slewRem := 0 }
      else d
    | none => d
  let d := d.when (r != 0 && w == 0 && d.ts[n].slewRem != 0) fun d =>
    { d with clk := { d.clk with acc := d.clk.acc.set n ((d.acc n : Int) + r).toNat } }.upTs n fun e => { e with slewRem := 0 }
  let due := d.ts[n].changes.filter fun e => e.1 ≤ d.now
  let d := d.upTs n fun e => { e with changes := e.changes.filter fun e => ¬ e.1 ≤ d.now }
  d.each due fun e d => d.aheadChange n e.2

/-- The timescales and corrections one tick later, as what is registered carries them on. -/
def Dev.ahead1 (d : Dev) : Dev :=
  let walked (i : Fin 48) : Int := if d.walks i ∧ d.walkRate i = 0 then 0 else d.corr[i] - d.walkRate i
  { d with clk := d.tickClk, corr := Vector.ofFn walked }.each [0, 1] fun n e => d.aheadTs n e

/-- The timescales and corrections k ticks later. -/
def Dev.ahead (d : Dev) : Nat → Dev
  | 0 => d
  | k + 1 => d.ahead1.ahead k

/-- Something is under way that changes how a timescale or a correction counts. -/
def Dev.stirs (d : Dev) : Bool :=
  ([0, 1] : List Ts).any (fun n => d.ts[n].step.isSome || !d.ts[n].changes.isEmpty || d.ts[n].slewRem != 0) || (List.finRange 48).any fun i => d.walks i

/-- The changes registered for a view: those of its timescale, and those of its binding for a consumer (R64, R79). -/
def Dev.awaited (d : Dev) (n : Ts) (c : Option (Fin 48)) : Nat :=
  let own (x : Nat × TsChange) : Bool := match x.2 with
    | .incr _ | .slew _ | .mode _ => true
    | _ => false
  let bound (x : Nat × TsChange) : Bool := match x.2 with
    | .bind i _ => c == some i
    | .xtsRate _ => c.isSome
    | _ => false
  (d.ts[n].changes.filter own).length + (d.ts[0].changes.filter bound).length + (if d.ts[n].step.isSome then 1 else 0)

/-- The MEC of the first of the next k ticks at which a change registered for a view applies. -/
def Dev.changeIn (d : Dev) (n : Ts) (c : Option (Fin 48)) : Nat → Option Nat
  | 0 => none
  | k + 1 =>
    if d.awaited n c = 0 then none
    else let e := d.ahead1; if e.awaited n c < d.awaited n c then some e.now else e.changeIn n c k

/-! The past. -/

/-- A timescale at a MEC that has passed, with what its next tick added, in 2^-48 ns. -/
def Dev.accAt (d : Dev) (n : Ts) (m : Nat) : Int × Int :=
  match d.ts[n].law.find? fun e => e.1 ≤ m with
  | some (t, v, a) => (v + ((m - t : Nat) : Int) * a, a)
  | none => (d.acc n - ((d.now - m : Nat) : Int) * d.tickAdd n, d.tickAdd n)

/-- The timescale and the correction of a consumer at a MEC that has passed, with what its next tick walked off (R76). -/
def Dev.corrAt (d : Dev) (i : Fin 48) (m : Nat) : Ts × Int × Int :=
  match (d.views.filter fun e => e.cons = i ∧ m < e.mec).getLast? with
  | some e => (e.cur, e.corr + ((e.mec - m : Nat) : Int) * e.walk, e.walk)
  | none => (d.cur i, d.corr[i] + ((d.now - m : Nat) : Int) * d.walked i, d.walked i)

/-! A view at a MEC. -/

/-- A view now, with its change in one tick: a consumer's own, or a timescale (R62, R76, R240). -/
def Dev.viewNow (d : Dev) (i : Fin 48) (o : Option Ts) : Int × Int :=
  match o with
  | none => (d.view i, d.viewRate i)
  | some n => (d.acc n, d.tickAdd n)

/-- A view at a MEC, past, present or to come, with its change in the tick that follows, in 2^-48 ns: it is the view of that tick and its rate then (R60, R64, R221). -/
def Dev.viewAt (d : Dev) (i : Fin 48) (o : Option Ts) (m : Nat) : Int × Int :=
  if m < d.now then
    match o with
    | some n => d.accAt n m
    | none =>
      let (n, c, w) := d.corrAt i m
      let (v, a) := d.accAt n m
      (v + c, a - w)
  else
    let k := m - d.now
    if d.stirs then (d.ahead k).viewNow i o
    else let (v, r) := d.viewNow i o; (v + k * r, r)

/-- The timescale in use by a view at a MEC. -/
def Dev.tsAt (d : Dev) (i : Fin 48) (o : Option Ts) (m : Nat) : Ts :=
  match o with
  | some n => n
  | none => if m < d.now then (d.corrAt i m).1 else if d.stirs then (d.ahead (m - d.now)).cur i else d.cur i

/-- The number of steps a timescale has had by a MEC (R61). -/
def Dev.stepsAt (d : Dev) (n : Ts) (m : Nat) : Nat :=
  if m < d.now then d.ts[n].steps - (d.ts[n].stepMecs.filter fun t => decide (m < t)).length
  else if d.stirs then (d.ahead (m - d.now)).ts[n].steps else d.ts[n].steps

end Sys2Proof.Machine
end

