-- ==== Sys2Proof/Machine/PortOps.lean ====
section
/-! DEFINITION. Operations of the Ethernet ports and their timestamp units (R196 to R234): statistics, the link, transmit queues, stamps. -/

namespace Sys2Proof.Machine

def Dev.upPort (d : Dev) (p : Fin 24) (f : PortEng → PortEng) : Dev := { d with port := d.port.set p (f d.port[p]) }
def Dev.upPts (d : Dev) (p : Fin 24) (f : PtsEng → PtsEng) : Dev := { d with pts := d.pts.set p (f d.pts[p]) }

/-- The binding consumer of a port's service (R75). -/
def portConsumer (p : Fin 24) : Fin 48 := ⟨p.val, by omega⟩

/-- Page of a port, and of its timestamp unit. -/
abbrev ppg (p : Fin 24) : Nat := Pg.port p.val
abbrev tpg (p : Fin 24) : Nat := Pg.pts p.val

/-! Counters. -/

/-- Advance statistics counter i of a port (R214). -/
def Dev.stat (d : Dev) (p : Fin 24) (i : Nat) : Dev :=
  d.count48 (ppg p) (PORT.STAT_COUNT i) (PORT.STAT_WRAPPED i) (if i < 32 then PORT.STAT_HALF0_HALF else PORT.STAT_HALF1_HALF) (i % 32) 3

/-- Add to an octet counter (R214, R215). -/
def Dev.statN (d : Dev) (p : Fin 24) (i n : Nat) : Dev :=
  if n = 0 ∨ d.on (ppg p) HDR.PAGE_CTL_FREEZE then d else
  let old := d.get (ppg p) (PORT.STAT_COUNT i)
  let v := old + n
  let d := d.put (ppg p) (PORT.STAT_COUNT i) (v % 2 ^ 48)
  let d := d.when (decide (2 ^ 48 ≤ v)) fun d => d.put (ppg p) (PORT.STAT_WRAPPED i) 1
  let f := if i < 32 then PORT.STAT_HALF0_HALF else PORT.STAT_HALF1_HALF
  d.when (decide (old < 2 ^ 47 ∧ 2 ^ 47 ≤ v)) fun d => (d.raiseBits (ppg p) f (1 <<< (i % 32))).int (ppg p) 3

/-- Advance responder counter i: half range on page 6, its interrupt on page 0 (R265, R270). -/
def Dev.rspCount (d : Dev) (i : Nat) (mcls : Option Nat := none) : Dev :=
  let pg := Pg.rsp 6
  if d.on pg HDR.PAGE_CTL_FREEZE then d else
  let v := d.get pg (RSP6.CNT_COUNT i) + 1
  let d := (if v = 2 ^ 48 then (d.put pg (RSP6.CNT_COUNT i) 0).put pg (RSP6.CNT_WRAPPED i) 1 else d.put pg (RSP6.CNT_COUNT i) v).pmc pg
    (0x400 + (RSP6.CNT_COUNT i).off / 4) { mcls := mcls }
  d.when (v == 2 ^ 47) fun d => (d.raiseBits pg RSP6.CNT_HALF_HALF (1 <<< i)).int (Pg.rsp 0) 3

/-- Counters of R270. -/
abbrev cntRespPtp : Nat := 0
abbrev cntRespNtp : Nat := 1
abbrev cntRespNts : Nat := 2
abbrev cntSyncTx : Nat := 3
abbrev cntAnnTx : Nat := 4
abbrev cntSigTx : Nat := 5
abbrev cntPolice : Nat := 6
abbrev cntFair : Nat := 7
abbrev cntTxq : Nat := 8
abbrev cntNotReady : Nat := 9
abbrev cntAuth : Nat := 10
abbrev cntStale : Nat := 11
abbrev cntNoKey : Nat := 12
abbrev cntNak : Nat := 13
abbrev cntStraddle : Nat := 14
abbrev cntDenyCap : Nat := 15
abbrev cntDenyFull : Nat := 16
abbrev cntDenyParam : Nat := 17
abbrev cntDenyReady : Nat := 18
abbrev cntExpired : Nat := 19
abbrev cntSkipped : Nat := 20
abbrev cntSigDrop : Nat := 21
abbrev cntDropPtp : Nat := 22
abbrev cntDropNtp : Nat := 23
abbrev cntEsmc : Nat := 24
abbrev cntLate : Nat := 25

/-- A drop of the responder: its counter, LAST_DROP, and the drops of this second (R251, R271). -/
def Dev.rspDrop (d : Dev) (i cls : Nat) (p : Nat) : Dev :=
  let d := d.rspCount i (some cls)
  let d := ((d.put (Pg.rsp 7) RSP7.LAST_DROP_COUNTER i).put (Pg.rsp 7) RSP7.LAST_DROP_CLASS cls).put (Pg.rsp 7) RSP7.LAST_DROP_PORT p
  d.upRsp fun e => { e with
    drops := sset (fun _ => 0) e.drops i (sget (fun _ => 0) e.drops i + 1)
    overload := e.overload || i == cntFair || i == cntTxq }

/-! Rates (R196, R222). -/

/-- The UI of a rate in ns, as a fraction. -/
def uiNum (r : Nat) : Nat := [4, 16, 32, 16, 8].getD r 4
def uiDen (r : Nat) : Nat := [5, 165, 825, 425, 425].getD r 5

/-- n_des + n_pcs in UI; commit to launch in 0.1 ns; MAC rate in Gb/s. -/
def nDes (r : Nat) : Nat := [96, 176, 224, 400, 400].getD r 96
def toLaunch (r : Nat) : Nat := [560, 288, 205, 240, 160].getD r 560
def macRate (r : Nat) : Nat := [1, 10, 25, 50, 100].getD r 1

/-- U_cw and L_dec in UI by rate and FEC. -/
def fecCw (fec : Nat) : Nat := [0, 2112, 5280, 2720].getD fec 0
def fecDec (r fec : Nat) : Nat := if fec = 3 then (if r = 3 then 1632 else 3264) else [0, 1056, 4224].getD fec 0

/-- n_fec (R223). -/
def nFec (r fec u : Nat) : Nat := if fec = 0 then 0 else fecCw fec - u + fecDec r fec

/-- FEC permitted for a forced rate (R196). -/
def fecOk (r fec : Nat) : Bool := if r = 0 then fec == 0 else if r = 1 then fec ≤ 1 else if r = 2 then fec ≤ 2 else fec == 3

/-- Ticks that octets take on the MAC, rounded up. -/
def macTicks (r octets : Nat) : Nat := cdiv (octets * 8) (macRate r)

/-! The link (R197 to R199). -/

abbrev portOff : Nat := 0
abbrev portWait : Nat := 1
abbrev portAn : Nat := 2
abbrev portTrain : Nat := 3
abbrev portAlign : Nat := 4
abbrev portUp : Nat := 5
abbrev portRfault : Nat := 6

abbrev pcConfig : Nat := 1
abbrev pcPower : Nat := 2
abbrev pcNoHcd : Nat := 3
abbrev pcTrain : Nat := 4
abbrev pcBlock : Nat := 5
abbrev pcOperator : Nat := 8

def Dev.portState (d : Dev) (p : Fin 24) : Nat := d.get (ppg p) PORT.STS_STATE
def Dev.portUpQ (d : Dev) (p : Fin 24) : Bool := d.portState p == portUp
def Dev.portRate (d : Dev) (p : Fin 24) : Nat := d.get (ppg p) PORT.STS_RATE
def Dev.portFec (d : Dev) (p : Fin 24) : Nat := d.get (ppg p) PORT.STS_FEC

/-- A port configuration is valid (R197). -/
def Dev.portValid (d : Dev) (p : Fin 24) : Bool :=
  let r := d.get (ppg p) PORT.CTL_RATE
  if 5 ≤ r then false
  else if d.on (ppg p) PORT.CTL_AN_EN then d.get (ppg p) PORT.AN_ADV_ABIL != 0
  else fecOk r (d.get (ppg p) PORT.CTL_FEC)

/-- The restart entry (R198). -/
def Dev.portEntry (d : Dev) (p : Fin 24) : Nat :=
  if d.on (ppg p) PORT.CTL_AN_EN then portAn
  else if d.on (ppg p) PORT.CTL_TRAIN_EN && d.get (ppg p) PORT.CTL_RATE != 0 then portTrain else portAlign

/-- The clusters of a port: its power unit (R217). -/
def cluster (p : Fin 24) : Nat := p.val / 4

/-- Take the host ring on by n descriptors (R213). -/
def Dev.htxDone (d : Dev) (p : Fin 24) (n : Nat := 1) : Dev :=
  let sz := clampN 6 16 (d.get (ppg p) PORT.HTX_CFG_SZ)
  d.put (ppg p) PORT.HTX_RP_RP ((d.get (ppg p) PORT.HTX_RP_RP + n) % 2 ^ sz)

/-- Drop what is queued for transmission, counting TX_DROP, with the rest of a frame that was cut; the ring goes on past the host frames dropped (R199, R213, R264). -/
def Dev.dropQueues (d : Dev) (p : Fin 24) : Dev :=
  let e := d.port[p]
  let d := d.statN p 38 (e.l1.length + e.l2.length + e.l3.length)
  (d.htxDone p (e.l3.length + (if e.cut.any fun x => x.1.kind == .host then 1 else 0))).upPort p fun e => { e with l1 := [], l2 := [], l3 := [], cut := none }

/-- A SyncE slot follows the link and the low-power idle in force of the port it names (R86, R97). -/
def Dev.synceLink (d : Dev) (n : Fin 4) : Dev :=
  let d := d.putb (Pg.us n.val) US.SYNCE_STS_LINK (if h : d.get (Pg.us n.val) US.SYNCE_CFG_PORT < 24 then d.portUpQ ⟨_, h⟩ else false)
  let k := synceK n
  let down := !d.on (Pg.us n.val) US.SYNCE_STS_LINK || (if h : d.get (Pg.us n.val) US.SYNCE_CFG_PORT < 24 then d.port[d.get (Pg.us n.val) US.SYNCE_CFG_PORT].lpiEn else false)
  (d.when (down && decide (monLost < d.mstate k)) fun d => d.monLose k).monTry k

/-- The slots of SyncE on a port follow it (R86, R97). -/
def Dev.synceFollow (d : Dev) (p : Fin 24) : Dev :=
  d.each [0, 1, 2, 3] fun (n : Fin 4) d => d.when (d.get (Pg.us n.val) US.SYNCE_CFG_PORT == p.val) fun d => d.synceLink n

/-- A scheduled frame of a port is pending: in its queue, on the MAC, committed, or in a lane for its signature (R225, R232). -/
def Dev.schedPending (d : Dev) (p : Fin 24) : Bool :=
  let e := d.port[p]
  (e.l1.any fun f => f.sched.isSome) || (e.fly.any fun x => x.f.sched.isSome) ||
    d.lane.toList.any fun l => l.queue.any fun o => decide (o.port = p) && match o.job with
      | .send f => f.sched.isSome
      | .nts _ _ => true
      | _ => false

/-- A calibration slot runs, of a port or of the Kwager lane (R226). -/
def Dev.slotRuns (d : Dev) : Bool := (d.pts.toList.any fun e => e.slot.isSome) || d.plk.slot.isSome

/-- A calibration slot or a link measurement holds the probe channel (R225). -/
def Dev.probePaused (d : Dev) : Bool := d.slotRuns || decide (d.now < d.tdcs.linkUntil)

/-- A probe tap takes part in the rotation: a port that is UP with PROBE_EN = 1, or the Kwager lane, tap 24, with its link UP (R225). -/
def Dev.probeOk (d : Dev) (t : Nat) : Bool :=
  if t < 24 then d.get (Pg.port t) PORT.STS_STATE == portUp && d.on (Pg.pts t) PTS.CTL_PROBE_EN else d.get Pg.plk PLK.STS_LINK == 3

/-- The tap whose turn it is: the next in order after the last that was dwelt on (R225). -/
def Dev.probeTurn (d : Dev) : Option Nat := ((List.range 25).map fun j => (d.tdcs.probeLast + 1 + j) % 25).find? d.probeOk

/-- The source code of a probe tap (R167). -/
def tapCode (t : Nat) : Nat := 0x30 + t

/-- The rotation goes on to the tap whose turn it is, unless its dwell already runs (R225). -/
def Dev.probeGo (d : Dev) : Dev :=
  if d.probePaused then d else
  match d.probeTurn with
  | none => d
  | some t => d.when (d.muxSrc (Fin.ofNat 16 (d.get Pg.tdcCal TDCCAL.PROBE_CTL_CH)) != tapCode t) fun d =>
      (d.probeTo (tapCode t)).upTdcs fun e => { e with probeFrom := d.stepFree 0 }

/-- The next slot that waits starts 1 µs after the one that ends, the lowest-numbered port first (R226). -/
def Dev.slotNext (d : Dev) : Dev :=
  match (List.finRange 24).find? fun p => d.pts[p].due with
  | some p => d.timerTime 0 micro (.calSlotStart p.castSucc)
  | none => d.when d.plk.due fun d => d.timerTime 0 micro (.calSlotStart 24)

/-- The receiver and the probe channel are free again, and no other slot begins for 1 µs (R226, R227). -/
def Dev.slotFreed (d : Dev) : Dev :=
  (d.upTdcs fun e => { e with slotFree := d.stepFree 0 + micro * 2 ^ 48, probeFrom := d.stepFree 0 }).slotNext

/-- The slot of a port is over (R227). -/
def Dev.slotOver (d : Dev) (p : Fin 24) : Dev :=
  (((d.cancel (.calSlotEnd p.castSucc none)).upPts p fun e => { e with slot := none, meas := none }).put (tpg p) PTS.STS_SLOT 0).slotFreed

/-- Abandon a calibration slot (R227). -/
def Dev.slotAbandon (d : Dev) (p : Fin 24) : Dev :=
  let d := d.upPts p fun e => { e with due := false }
  if d.pts[p].slot.isNone then d else d.slotOver p

/-- Change CAL of a port's timestamp unit; while it is NONE every stamp is unbounded (R228, R234). -/
def Dev.setCal (d : Dev) (p : Fin 24) (v : Nat) : Dev :=
  let d := d.when (v == 0) fun d => (d.upPts p fun e => { e with bport := none }).put (tpg p) PTS.STS_BPORT (encodeBound none)
  if d.get (tpg p) PTS.STS_CAL = v then d else (d.put (tpg p) PTS.STS_CAL v).int (tpg p) 2

/-- VERIFY changes: its record and interrupt (R206, R216). -/
def Dev.setVerify (d : Dev) (p : Fin 24) (v : Nat) : Dev :=
  let old := d.get (ppg p) PORT.PRE_STS_VERIFY
  if old = v then d
  else ((d.put (ppg p) PORT.PRE_STS_VERIFY v).int (ppg p) 1).record 0x41 (srcPage (ppg p)) [p.val, old, v]

/-- Start the verify handshake from INITIAL; with VERIFY_DIS = 1 preemption is active from entry into UP (R206). -/
def Dev.startVerify (d : Dev) (p : Fin 24) : Dev :=
  let d := (d.cancel (.verifySend p)).upPort p fun e => { e with tries := 0 }
  if !d.on (ppg p) PORT.PRE_CTL_EN then d.setVerify p 0
  else if d.on (ppg p) PORT.PRE_CTL_VERIFY_DIS && d.portUpQ p then d.setVerify p 5
  else (d.setVerify p 1).when (d.portUpQ p) fun d => d.when (!d.on (ppg p) PORT.PRE_CTL_VERIFY_DIS) fun d => d.after 0 (.verifySend p)

/-- Preemption is active (R206). -/
def Dev.preempts (d : Dev) (p : Fin 24) : Bool :=
  d.on (ppg p) PORT.PRE_CTL_EN && (d.get (ppg p) PORT.PRE_STS_VERIFY == 3 || d.get (ppg p) PORT.PRE_STS_VERIFY == 5)

/-- Bring low-power idle in force, and REFUSED, up to date (R211). -/
def Dev.lpiLoad (d : Dev) (p : Fin 24) : Dev :=
  let d := d.upPort p fun e => { e with lpiEn := d.on (ppg p) PORT.LPI_CTL_EN, lpiTw := d.get (ppg p) PORT.LPI_CTL_TW }
  let r := d.on (ppg p) PORT.LPI_CTL_EN && decide (3 ≤ d.portRate p)
  let was := d.on (ppg p) PORT.LPI_STS_REFUSED
  ((d.putb (ppg p) PORT.LPI_STS_REFUSED r).when (r && !was) fun d => d.int (ppg p) 2).synceFollow p

/-- The rate and FEC in use change. -/
def Dev.setRate (d : Dev) (p : Fin 24) (r fec : Nat) : Dev :=
  (((d.put (ppg p) PORT.STS_RATE r).put (ppg p) PORT.STS_FEC fec).put (tpg p) PTS.STS_RATE r).lpiLoad p

/-- A_rx of the factory in 2^-16 ns (R228). -/
def Dev.arxFactory (d : Dev) (p : Fin 24) : Nat := d.get (tpg p) (PTS.CAL_ARX_F_DLY (d.portRate p)) * 65536 / 1000

/-- Low-power idle ends with its settings (R211). -/
def Dev.lpiExit (d : Dev) (p : Fin 24) : Dev :=
  let d := d.cancel (.lpiEntry p)
  if d.on (ppg p) PORT.LPI_STS_TX_LPI then (d.put (ppg p) PORT.LPI_STS_TX_LPI 0).lpiLoad p else d

/-- Start the idle time before low-power idle when nothing waits (R211). -/
def Dev.lpiArm (d : Dev) (p : Fin 24) : Dev :=
  let e := d.port[p]
  if e.lpiEn && d.portRate p < 3 && d.portUpQ p && e.l1.isEmpty && e.l2.isEmpty && e.l3.isEmpty && e.cur.isNone && e.cut.isNone then
    d.timerTime 0 (max 1 (d.get (ppg p) PORT.LPI_CTL_IDLE) * micro) (.lpiEntry p)
  else d

/-- FLAPS counts an exit from UP or RFAULT (R199, R216). -/
def Dev.flap (d : Dev) (p : Fin 24) (old : Nat) : Dev :=
  d.when ((old == portUp || old == portRfault) && decide (d.get (ppg p) PORT.STS_FLAPS < 0xFFFF)) fun d =>
    d.put (ppg p) PORT.STS_FLAPS (d.get (ppg p) PORT.STS_FLAPS + 1)

/-- The responses that are queued when a port leaves UP are dropped and counted in TX_DROP (R264). -/
def Dev.dropAnswers (d : Dev) (p : Fin 24) : Dev :=
  let answer (f : TxFrame) : Bool := f.kind == .delayResp || f.kind == .ntp || f.kind == .nts || f.kind == .signaling
  let e := d.port[p]
  (d.statN p 38 ((e.l1 ++ e.l2).filter answer).length).upPort p fun e => { e with l1 := e.l1.filter fun f => !answer f, l2 := e.l2.filter fun f => !answer f }

/-- What leaving UP ends: low-power idle, a pause, the handshake, the launches that have not come unless the frame in progress completes, a reassembly, and the responses queued (R199, R205, R206, R208, R211, R231, R264). -/
def Dev.leaveUp (d : Dev) (p : Fin 24) (s : Nat) : Dev :=
  let d := ((((d.dropAnswers p).lpiExit p).cancel (.pauseExpiry p)).cancel (.verifySend p)).upPort p fun e =>
    { e with paused := none, wake := none, reasm := none, fly := if s = portOff then e.fly else [] }
  d.put (ppg p) PORT.LPI_STS_RX_LPI 0

/-- A port enters a state (R199): what leaving and entering bring, its interrupt and its event. -/
def Dev.portEnter (d : Dev) (p : Fin 24) (s : Nat) : Dev :=
  let old := d.portState p
  let d := d.put (ppg p) PORT.STS_STATE s
  let d := ((d.cancel (.trainTimeout p)).cancel (.alignTimeout p)).cancel (.remoteFaultClear p)
  let d := d.when (old == portUp && s != portUp) fun d => d.leaveUp p s
  let d := d.when (!(old == portAlign && s == portUp) && old != s || s == portAlign) fun d => d.slotAbandon p
  let d := d.when (s == portTrain) fun d => d.timerTime 0 (max 100 (d.get (ppg p) PORT.TRAIN_TMO) * milli) (.trainTimeout p)
  let d := d.when (s == portAlign) fun d =>
    (((((d.setCal p 0).put (tpg p) PTS.ARX_ARX (d.arxFactory p)).upPts p fun e => { e with due := true }).timerTime 0 second (.alignTimeout p)).after 0 (.calSlotStart p.castSucc))
  let d := d.when (s == portUp && old != portRfault) fun d => d.lpiLoad p
  let d := d.when (s == portUp) fun d => ((d.startVerify p).lpiArm p).timer 0 (.frameTx p)
  if old = s then d else
  let d := (d.int (ppg p) 0).event (48 + p.val)
  let c := Pg.pc (cluster p)
  let d := d.put c PC.STS_UP ((d.get c PC.STS_UP &&& (0xF - 1 <<< (p.val % 4))) ||| (if s = portUp then 1 <<< (p.val % 4) else 0))
  d.synceFollow p

/-- A PORT_LINK record (R199). -/
def Dev.portRecord (d : Dev) (p : Fin 24) (old : Nat) : Dev :=
  d.record 0x40 (srcPage (ppg p)) [p.val, old, d.portState p, d.get (ppg p) PORT.STS_CAUSE]

def Dev.portCause (d : Dev) (p : Fin 24) (c : Nat) : Dev := d.put (ppg p) PORT.STS_CAUSE c

/-- Cause number of the C1 of an invalid port configuration (R199). -/
abbrev causePortConfig : Nat := 1

/-- Enter the restart entry, with the forced rate when auto-negotiation is off (R198). -/
def Dev.portRestart (d : Dev) (p : Fin 24) : Dev :=
  let d := if d.on (ppg p) PORT.CTL_AN_EN then d.put (ppg p) PORT.STS_LP_AN 0
    else d.setRate p (d.get (ppg p) PORT.CTL_RATE) (d.get (ppg p) PORT.CTL_FEC)
  d.portEnter p (d.portEntry p)

/-- WAIT_PWR with the cluster granted and the lane PLL locked goes on (R199). -/
def Dev.portTry (d : Dev) (p : Fin 24) : Dev :=
  if d.portState p = portWait ∧ d.granted kindPort (cluster p) ∧ d.port[p].pll then d.portRestart p else d

/-- EN = 1 in DISABLED, once BOOT_DONE is set: a valid configuration asks for power, an invalid one is shown and raises C1 (R199). -/
def Dev.portStart (d : Dev) (p : Fin 24) : Dev :=
  if d.portState p ≠ portOff ∨ !d.on (ppg p) PORT.CTL_EN ∨ !d.on Pg.glb GLB.BOOT_STS_BOOT_DONE then d
  else if d.portValid p then (((d.lower (ppg p) 1 causePortConfig).portEnter p portWait)).portTry p
  else (d.portCause p pcConfig).raise (ppg p) 1 causePortConfig

/-- EN = 0: the frame in progress completes, the rest is dropped, the lane is released (R199). -/
def Dev.portStop (d : Dev) (p : Fin 24) : Dev :=
  (((d.dropQueues p).lower (ppg p) 1 causePortConfig).portEnter p portOff).upPort p fun e => { e with pll := false }

/-- A link that was running restarts, or is disabled when its configuration has become invalid; its queues stay (R199). -/
def Dev.portAgain (d : Dev) (p : Fin 24) (cause : Nat) : Dev :=
  let d := d.portCause p cause
  if d.portValid p then d.portRestart p
  else ((d.portCause p pcConfig).portEnter p portOff).raise (ppg p) 1 causePortConfig

/-- The cluster is revoked: the port waits for power (R199). -/
def Dev.portRevoke (d : Dev) (p : Fin 24) : Dev :=
  if d.portState p = portOff then d
  else ((((d.portCause p pcPower).dropQueues p).flap p (d.portState p)).portEnter p portWait).upPort p fun e => { e with pll := false }

/-- GRANTED of a cluster changes (R217). -/
def Dev.clusterShow (d : Dev) (c : Nat) : Dev :=
  if d.granted kindPort c == d.on (Pg.pc c) PC.STS_GRANTED then d
  else (d.putb (Pg.pc c) PC.STS_GRANTED (d.granted kindPort c)).int (Pg.pc c) 0

/-! Transmit queues (R201, R243). -/

/-- The level of a frame: event messages and NTP are express, general messages when EXP_GEN = 1 (R201). -/
def Dev.txLevel (d : Dev) (p : Fin 24) : TxKind → Nat
  | .syncOne | .syncTwo | .ntp | .nts | .delayReq => 1
  | .followUp | .announce | .delayResp | .signaling | .usSignaling => if d.on (ppg p) PORT.PRE_CTL_EXP_GEN then 1 else 2
  | .esmc => 2
  | .host => 3

/-- Level 1 credits in use: frames queued on level 1, Delay_Resp frames of level 2, and reservations (R243). -/
def Dev.creditsUsed (d : Dev) (p : Fin 24) : Nat :=
  let e := d.port[p]
  e.l1.length + (e.l2.filter fun f => f.kind == .delayResp).length + e.credits

def Dev.creditFree (d : Dev) (p : Fin 24) : Bool := decide (d.creditsUsed p < 64)
def Dev.creditTake (d : Dev) (p : Fin 24) : Dev := d.upPort p fun e => { e with credits := e.credits + 1 }
def Dev.creditGive (d : Dev) (p : Fin 24) : Dev := d.upPort p fun e => { e with credits := e.credits - 1 }

/-- Octets a frame's tags add (R209). -/
def tagOctets (s c : Option Nat) : Nat := (if s.isSome then 4 else 0) + (if c.isSome then 4 else 0)

/-- Length of a PTP frame of a message: Ethernet header, UDP and IP headers, message and FCS, with two octets reserved over UDP/IPv6 (R230). -/
def ptpLen (trans body : Nat) : Nat := body + (if trans = 0 then 18 else if trans = 1 then 46 else 68)

/-- Length on the wire: tags inserted, padded to 64 (R204). -/
def TxFrame.wire (f : TxFrame) : Nat := max 64 (f.len + tagOctets f.sTci f.cTci)

/-- Something is queued: low-power idle ends, and the transmitter looks at its queues (R201, R211). -/
def Dev.txKick (d : Dev) (p : Fin 24) : Dev :=
  let d := d.cancel (.lpiEntry p)
  if d.on (ppg p) PORT.LPI_STS_TX_LPI then d.timer 0 (.lpiWake p) else d.timer 0 (.frameTx p)

/-- Enter a frame into its level. A frame for a port that is not UP, or one that finds level 2 full, is dropped and counted; a Delay_Resp has its credit (R199, R243). -/
def Dev.txPush (d : Dev) (p : Fin 24) (f : TxFrame) : Dev :=
  if !d.portUpQ p then d.stat p 38
  else
    let l := d.txLevel p f.kind
    if l = 2 ∧ f.kind ≠ .delayResp ∧ 256 ≤ (d.port[p].l2.filter fun g => g.kind != .delayResp).length then d.rspDrop cntTxq f.cls p.val
    else
      let g := { f with level := l }
      (d.upPort p fun e => if l = 1 then { e with l1 := e.l1 ++ [g] } else if l = 2 then { e with l2 := e.l2 ++ [g] } else { e with l3 := e.l3 ++ [g] }).txKick p

/-! Stamps (R218 to R224, R229). -/

def Dev.tsOn (d : Dev) (p : Fin 24) : Option Ts → Ts
  | none => d.cur (portConsumer p)
  | some n => n

/-- An item of the calibration set for the Kwager lane in ps, that no register shows: 0 A_tx, 1 the loop element, 2 the factory A_rx, and 3 its temperature coefficient in 0.01 ps/°C (R410). -/
def laneItem (k : Nat) : Nat := Config.calib 28 k

/-- A stamp from a nominal time and its change in one tick, in 2^-48 ns: the time at the whole tick `m`, the rest of the reference edge `edge / den` ns of MEC at the rate, and terms in 2^-16 ns, ps and UI / 64 of rate r, truncated to 2^-16 ns toward the earlier time (R39, R220, R221). -/
def nominalStamp (r : Nat) (v rate : Int) (m : Nat) (edge : Int) (den : Nat) (t16 ps psi : Int) : Int :=
  let k : Int := 64000 * den * uiDen r
  let x : Int := v * k + (edge - m * den) * rate * 64000 * uiDen r +
    t16 * 2 ^ 32 * k + ps * 2 ^ 48 * 64 * den * uiDen r + psi * uiNum r * 2 ^ 48 * 1000 * den
  x.fdiv (k * 2 ^ 32)

/-- A stamp of a lane of rate r on PORTA or PORTB: the nominal time on a view, as the replica of the die counts it, of a reference edge, corrected by the delay of the link to CORE (R25, R28, R220, R221). The view is a consumer's own, or a fixed timescale (R240). -/
def Dev.stampOn (d : Dev) (c : Fin 48) (die : Fin 2) (r : Nat) (o : Option Ts) (edge : Int) (den : Nat) (t16 ps psi : Int) : Int :=
  let m := (edge.fdiv den).toNat
  let (v, rate) := d.viewAt c o m
  nominalStamp r (v + d.ts[d.tsAt c o m].replica[die]) rate m edge den t16 ps psi - d.linkCorr (if die = 0 then 1 else 2)

/-- A port stamp (R220, R221). -/
def Dev.stampAt (d : Dev) (p : Fin 24) (o : Option Ts) (edge : Int) (den : Nat) (t16 ps psi : Int) : Int :=
  d.stampOn (portConsumer p) (if p.val < 12 then 0 else 1) (d.portRate p) o edge den t16 ps psi

/-- The bound of a stamp taken now: unbounded while a link of the port's die is UNCALIBRATED (R26, R51, R78, R229, R240). -/
def Dev.boundOn (d : Dev) (p : Fin 24) (o : Option Ts) : Nat :=
  if (portLinks p.val).any d.uncal then 0xFFFF else match o with
  | none => encodeBound (d.bindBound (portConsumer p) d.pts[p].bport 1)
  | some n => encodeBound (d.stampBound n d.pts[p].bport 1 (some 0))

/-- The stamp of a received frame (R221, R224). -/
def Dev.rxStamp (d : Dev) (p : Fin 24) (f : RxFrame) (o : Option Ts := none) : Int :=
  let r := d.portRate p
  let n := nDes r + nFec r (d.portFec p) f.u
  let den := 65536 * uiDen r
  d.stampAt p o ((f.edge : Int) * uiDen r - n * uiNum r * 65536) den
    (d.geti (tpg p) PTS.EPS_TX_EPS - d.get (tpg p) PTS.ARX_ARX)
    (d.geti (tpg p) PTS.ASYM_ASYM - d.geti (tpg p) PTS.EXT_RX_DLY) f.psi.val

/-- The MEC, in 2^-16 ns, of a received frame's timestamp point. -/
def Dev.rxPoint (d : Dev) (p : Fin 24) (f : RxFrame) : Int :=
  let r := d.portRate p
  f.edge - ((nDes r + nFec r (d.portFec p) f.u) * uiNum r * 65536 / uiDen r : Nat)

/-- The index of the first lane reference edge at or after a time in 0.1 ns of MEC (R230, R244). -/
def edgeAfter (r t : Nat) : Nat := cdiv (t * uiDen r) (10 * uiNum r)

/-- The stamps of a received frame: on the port's own view, on TSA and on TSB, with their bounds, and the steps its timescale has had by its timestamp point (R61, R218, R221, R240). -/
def Dev.rxMark (d : Dev) (p : Fin 24) (f : RxFrame) : RxMark :=
  let m := ((d.rxPoint p f).fdiv 65536).toNat
  { own := (d.rxStamp p f, d.boundOn p none)
    a := (d.rxStamp p f (some 0), d.boundOn p (some 0))
    b := (d.rxStamp p f (some 1), d.boundOn p (some 1))
    ts := d.tsAt (portConsumer p) none m
    steps := d.stepsAt (d.tsAt (portConsumer p) none m) m }

/-- Whole ns and fraction of a stamp in 2^-16 ns (R230). -/
def wholeNs (t : Int) : Nat := (t.fdiv 65536).toNat
def fracNs (t : Int) : Nat := (t.fmod 65536).toNat

/-- The MEC at which edge k of a lane reference falls, rounded down and up. -/
def edgeTick (r k : Nat) : Nat := k * uiNum r / uiDen r
def edgeCeil (r k : Nat) : Nat := cdiv (k * uiNum r) (uiDen r)

/-- The delays of a transmit stamp in ps: from the tap to the ball, the external delay, and the asymmetry (R220, R224). -/
def Dev.txPs (d : Dev) (p : Fin 24) : Int :=
  d.get (tpg p) (PTS.CAL_ATX_DLY (d.portRate p)) + d.geti (tpg p) PTS.EXT_TX_DLY + d.geti (tpg p) PTS.ASYM_ASYM

/-- The stamp of a frame launched at edge k, with an ε_tx and delays (R220, R224). -/
def Dev.txStampBy (d : Dev) (p : Fin 24) (k : Nat) (o : Option Ts) (eps ps : Int) : Int :=
  d.stampAt p o (k * uiNum (d.portRate p) : Nat) (uiDen (d.portRate p)) eps ps 0

/-- The stamp of a frame launched at edge k with the values in force (R220, R224). -/
def Dev.txStamp (d : Dev) (p : Fin 24) (k : Nat) (o : Option Ts := none) : Int :=
  d.txStampBy p k o (d.geti (tpg p) PTS.EPS_TX_EPS) (d.txPs p)

/-- The die temperature of a port in 0.1 °C. -/
def Dev.portTemp (d : Dev) (p : Fin 24) : Int := if p.val < 12 then d.pwr.dieT[2] else d.pwr.dieT[3]

/-- PROBE_AGE exceeds 10 s (R229). -/
def Dev.probeOld (d : Dev) (p : Fin 24) : Bool := d.pts[p].probeAt.all fun t => decide (t + 10001 * milli * 2 ^ 48 ≤ d.stepFree 0)

/-- T_ref: that of the last accepted slot, or of the last dwell if that is older (R229). -/
def PtsEng.tref (e : PtsEng) : Int :=
  match e.slotAt, e.probeAt with
  | some a, some b => if b < a then e.probeT else e.slotT
  | none, some _ => e.probeT
  | _, none => e.slotT

/-- U_drift in 2^-8 ps (R229). -/
def Dev.uDrift (d : Dev) (p : Fin 24) : Nat :=
  let x := (d.portTemp p - d.pts[p].tref).natAbs - 50
  cdiv (d.get (tpg p) (PTS.CAL_TCO_TCO (d.portRate p)) * x * 256) 1000

/-- Recompute B_port (R229). -/
def Dev.ptsBound (d : Dev) (p : Fin 24) : Dev :=
  let u := d.uDrift p
  let b := if d.get (tpg p) PTS.STS_CAL = 0 ∨ d.probeOld p then none
    else sumBound [decodeBound (d.get (tpg p) (PTS.CAL_TCO_UCAL (d.portRate p))), some u, decodeBound (d.get (tpg p) PTS.ASYM_UNC_CODE)]
  let d := (d.upPts p fun e => { e with bport := b }).put (tpg p) PTS.STS_BPORT (encodeBound b)
  (d.put (tpg p) PTS.DRIFT_UDRIFT (encodeTerm (some u))).puti (tpg p) PTS.DRIFT_TREF d.pts[p].tref

/-- Show the ages (R234). -/
def Dev.ptsRefresh (d : Dev) (p : Fin 24) : Dev :=
  (d.put (tpg p) PTS.CAL_AGE_AGE (match d.pts[p].slotAt with
    | some t => min 0xFFFFFFFF ((d.stepFree 0 - t) / accSecond).toNat
    | none => 0xFFFFFFFF)).put (tpg p) PTS.PROBE_AGE_AGE (match d.pts[p].probeAt with
    | some t => min 0xFFFFFFFF ((d.stepFree 0 - t) / (milli * 2 ^ 48 : Nat)).toNat
    | none => 0xFFFFFFFF)

/-- Show the head of the stamp queue (R233). -/
def Dev.ptsShow (d : Dev) (p : Fin 24) : Dev :=
  match d.pts[p].queue with
  | [] => ((d.put (tpg p) PTS.Q_TIME 0).setReg (tpg p) 0x31C (BitVec.ofNat 96 0xFFFF)).put (tpg p) PTS.Q_SEQ_SEQ 0
  | x :: _ =>
    let d := ((d.put (tpg p) PTS.Q_TIME (time96 x.time)).put (tpg p) PTS.Q_TAG_VALID 1).putb (tpg p) PTS.Q_TAG_GAP x.gap
    (((d.putb (tpg p) PTS.Q_TAG_DIR x.tx).put (tpg p) PTS.Q_TAG_CLASS x.cls).put (tpg p) PTS.Q_TAG_BOUND x.bound).put (tpg p) PTS.Q_SEQ_SEQ x.seq

/-- Queue a stamp for host software when Q_CLS selects its class; a full queue drops it (R233, R175). -/
def Dev.ptsQueue (d : Dev) (p : Fin 24) (tx : Bool) (cls : Nat) (t : Int) (bound seq : Nat) : Dev :=
  if !bit (d.get (tpg p) (if tx then PTS.Q_CLS_TX else PTS.Q_CLS_RX)) cls then d
  else
    let e := d.pts[p]
    if 64 ≤ e.queue.length then (d.count (tpg p) PTS.Q_OVF_COUNT).upPts p fun e => { e with gap := true }
    else
      let x : PortStamp := { time := t.toNat, gap := e.gap, tx := tx, cls := cls, bound := bound, seq := seq % 65536 }
      let d := ((d.upPts p fun e => { e with queue := e.queue ++ [x], gap := false }).ptsShow p)
      if e.queue.isEmpty then d.int (tpg p) 1 else d

end Sys2Proof.Machine
end

