-- ==== Sys2Proof/Machine/AudioOps.lean ====
section
/-! DEFINITION. Operations of the audio ports: the media-clock epoch, configuration, states and rings (R317 to R327). -/

namespace Sys2Proof.Machine

/-- Index of a direction, and of its register block. -/
def audIx (p : Fin 4) (rx : Bool) : Fin 8 := ⟨2 * p.val + b2n rx, by cases rx <;> simp [b2n] <;> omega⟩
abbrev dirOf (rx : Bool) : Nat := if rx then 1 else 0

def Dev.upAud (d : Dev) (p : Fin 4) (rx : Bool) (f : AudEng → AudEng) : Dev := { d with aud := d.aud.set (audIx p rx) (f d.aud[audIx p rx]) }
def Dev.audEng (d : Dev) (p : Fin 4) (rx : Bool) : AudEng := d.aud[audIx p rx]

/-- A field of a direction. -/
def Dev.aget (d : Dev) (p : Fin 4) (rx : Bool) (f : Nat → Fld) : Nat := d.get (Pg.aud p) (f (dirOf rx))
def Dev.aput (d : Dev) (p : Fin 4) (rx : Bool) (f : Nat → Fld) (v : Nat) : Dev := d.put (Pg.aud p) (f (dirOf rx)) v
def Dev.aon (d : Dev) (p : Fin 4) (rx : Bool) (f : Nat → Fld) : Bool := d.aget p rx f != 0

abbrev audOff : Nat := 0
abbrev audWait : Nat := 1
abbrev audRun : Nat := 2
abbrev audFree : Nat := 3
abbrev audLost : Nat := 4

def Dev.audState (d : Dev) (p : Fin 4) (rx : Bool) : Nat := d.aget p rx AUD.STS_STATE
def Dev.audSlave (d : Dev) (p : Fin 4) (rx : Bool) : Bool := d.aon p rx AUD.CTL_CLK
def Dev.audFmt (d : Dev) (p : Fin 4) (rx : Bool) : Nat := d.aget p rx AUD.CTL_FMT

/-- The binding of a port (R75), and its view in 2^-48 ns. -/
def audConsumer (p : Fin 4) : Fin 48 := ⟨44 + p.val, by omega⟩
def Dev.audView (d : Dev) (p : Fin 4) : Int := d.view (audConsumer p)

/-- The bound timescale is qualified (R327). -/
def Dev.audQual (d : Dev) (p : Fin 4) : Bool := d.get (Pg.ts (d.cur (audConsumer p))) TS.BOUND_STS_STATE != 0

/-- The slot width on the wire. -/
def Dev.audWidth (d : Dev) (p : Fin 4) (rx : Bool) : Nat := if d.aon p rx AUD.CTL_SLOTW then 32 else 24

/-- Slots, or channels of a one-bit stream (R318). -/
def Dev.audSlots (d : Dev) (p : Fin 4) (rx : Bool) : Nat :=
  match d.audFmt p rx with
  | 0 | 1 => 2
  | 2 => d.aget p rx AUD.CTL_SLOTS
  | _ => if d.aon p rx AUD.CTL_LINES || d.aon p rx AUD.CTL_CH2 then 2 else 1

/-- The configuration is within the limits of R318. -/
def Dev.audValid (d : Dev) (p : Fin 4) (rx : Bool) : Bool :=
  let hz := d.aget p rx AUD.FS_HZ
  let slots := d.audSlots p rx
  if d.audFmt p rx = 3 then decide (2822400 ≤ hz ∧ hz ≤ 24576000 ∧ hz % 32 = 0)
  else decide (8000 ≤ hz ∧ hz ≤ 384000 ∧ 2 ≤ slots ∧ slots ≤ 16 ∧ hz * slots * d.audWidth p rx ≤ 24576000)

/-- The frame period as a fraction in 2^-48 ns (R319). -/
def Dev.audNum (d : Dev) (p : Fin 4) (rx : Bool) : Nat := (if d.audFmt p rx = 3 then 32 else 1) * accSecond
def Dev.audDen (d : Dev) (p : Fin 4) (rx : Bool) : Nat := max 1 (d.aget p rx AUD.FS_HZ)

/-- The epoch offset a start takes, in 2^-48 ns (R319, R328). -/
def Dev.audO (d : Dev) (p : Fin 4) (rx : Bool) : Int :=
  if d.aon p rx AUD.CTL_GRP_EN then d.geti (Pg.aud 0) (AUD0.GRP_OFS_O (d.aget p rx AUD.CTL_GROUP)) * 2 ^ 32
  else d.geti (Pg.aud p) (AUD.OFS_O (dirOf rx)) * 2 ^ 32

/-- Frame boundary k from a first boundary at o: k × P, rounded up to the unit. -/
def Dev.audAt (d : Dev) (p : Fin 4) (rx : Bool) (o k : Int) : Int := o + -((-(k * d.audNum p rx)).fdiv (d.audDen p rx))

/-- The frame in progress at a time t when frame 0 begins at o. -/
def Dev.audCount (d : Dev) (p : Fin 4) (rx : Bool) (o t : Int) : Int := ((t - o) * d.audDen p rx).fdiv (d.audNum p rx)

/-- Bring the boundary offset up to now: a step of the timescale moves it, and it is walked at PSLEW.RATE; a running master shows it as its phase error (R317, R328). -/
def Dev.audWalk (d : Dev) (p : Fin 4) (rx : Bool) : Dev :=
  let e := d.audEng p rx
  let n := d.cur (audConsumer p)
  let sum := d.ts[n].stepSum
  let rate := clampN 1 100000 (d.aget p rx AUD.PSLEW_RATE)
  let room := (d.stepFree 0 - e.offAt).toNat * rate / second
  let off := if e.off.natAbs ≤ room then 0 else if e.off > 0 then e.off - room else e.off + room
  let off := if n = e.ts then off + (sum - e.steps) else off
  let per : Int := d.audNum p rx / d.audDen p rx
  let off := (off + per / 2).fmod per - per / 2
  let d := d.upAud p rx fun e => { e with off := off, offAt := d.stepFree 0, steps := sum, ts := n }
  if d.audSlave p rx then d.aput p rx AUD.STS_ALIGNED 0
  else
    let run := d.audState p rx == audRun
    let d := d.aput p rx AUD.STS_ALIGNED (b2n (run && decide (off.natAbs ≤ 2 ^ 48)))
    d.when run fun d => d.puti (Pg.aud p) (AUD.PH_ERR_E (dirOf rx)) (clampI (-2147483648) 2147483647 ((off * 1000).fdiv (2 ^ 48)))

/-- A phase set: the boundaries lie on the epoch (R317, R320). -/
def Dev.audPhase (d : Dev) (p : Fin 4) (rx : Bool) : Dev :=
  let n := d.cur (audConsumer p)
  let sum := d.ts[n].stepSum
  d.upAud p rx fun e => { e with off := 0, offAt := d.stepFree 0, steps := sum, ts := n, free := none, ahead := 0 }

/-- The count of R319 of the frame in progress of a master that follows V. -/
def Dev.audK (d : Dev) (p : Fin 4) (rx : Bool) : Int := d.audCount p rx ((d.audEng p rx).o + (d.audEng p rx).off) (d.audView p)

/-- The count of the frame in progress of a master: at its nominal rate from the start, or that of R319 (R327). -/
def Dev.audNow (d : Dev) (p : Fin 4) (rx : Bool) : Nat :=
  let e := d.audEng p rx
  (match e.free with
   | some f => d.audCount p rx 0 ((d.now - f) * 2 ^ 48 : Nat)
   | none => d.audK p rx + e.ahead).toNat

/-- Where on V the frame in progress of a master began (R319, R325). -/
def Dev.audBegan (d : Dev) (p : Fin 4) (rx : Bool) : Int :=
  let e := d.audEng p rx
  match e.free with
  | some f =>
    let x : Int := ((d.now - f) * 2 ^ 48 : Nat)
    d.audView p - (x - d.audAt p rx 0 (d.audCount p rx 0 x)) * d.viewRate (audConsumer p) / 2 ^ 48
  | none => d.audAt p rx (e.o + e.off) (d.audK p rx)

/-- What a direction that runs drives: rates of BCLK and MCLK in Hz, 0 for one it does not drive, and the form of WS: format, WSPOL, BEDGE (R317, R318). -/
def Dev.audDrive (d : Dev) (p : Fin 4) (rx : Bool) : List Nat :=
  let hz := d.aget p rx AUD.FS_HZ
  let bclk := if d.audFmt p rx = 3 then hz else hz * d.audSlots p rx * d.audWidth p rx
  let mclk := if !d.aon p rx AUD.CTL_MCLK_EN then 0 else if d.audFmt p rx = 3 then hz else hz * (if d.aon p rx AUD.CTL_MCLK_RATIO then 512 else 256)
  [if d.audSlave p rx then 0 else bclk, if d.audSlave p rx then 0 else mclk, d.audFmt p rx, d.aget p rx AUD.CTL_WSPOL, d.aget p rx AUD.CTL_BEDGE]

/-- The state of a direction is left or entered: its clocks and outputs start, or are held low (R327). -/
def Dev.audLines (d : Dev) (p : Fin 4) (rx : Bool) (old s : Nat) : Dev :=
  let on (x : Nat) := x == audRun || x == audFree
  if on old = on s then d
  else if on s then d.emit (.message "audio-run" ([p.val, dirOf rx] ++ d.audDrive p rx))
  else d.emit (.message "audio-held" [p.val, dirOf rx])

/-- A change of state: its record and interrupt (R327, R328). -/
def Dev.audEnter (d : Dev) (p : Fin 4) (rx : Bool) (s cause : Nat) (extra : List Nat := []) : Dev :=
  let old := d.audState p rx
  let d := d.aput p rx AUD.STS_CAUSE cause
  if old = s then d else
  let d := (d.aput p rx AUD.STS_STATE s).audLines p rx old s
  let d := if s = audRun ∨ s = audFree then d else (d.aput p rx AUD.STS_ALIGNED 0).aput p rx AUD.STS_SLIPPING 0
  (d.record 0x70 (srcPage (Pg.aud p)) ([p.val, dirOf rx, old, s, cause] ++ extra)).int (Pg.aud p) (4 * dirOf rx)

/-- The time limit of a slave's input: 8 nominal frame periods of engine time (R324). -/
def Dev.audLimit (d : Dev) (p : Fin 4) (rx : Bool) : Dev :=
  d.timerTime (d.cur (audConsumer p)) (max 1 (cdiv (8 * d.audNum p rx) (d.audDen p rx * 2 ^ 48))) (.audInputLoss p rx)

/-- A boundary has been served. -/
def AudEng.served (e : AudEng) (k : Nat) : AudEng := { e with last := some k, edge := false }

/-- A frame start for the rate measurement (R325). -/
def AudEng.began (e : AudEng) (t : Int) : AudEng := { e with first := if e.starts = 0 then t else e.first, final := t, starts := e.starts + 1 }

/-- WAIT, with the outputs held (R327). -/
def Dev.audToWait (d : Dev) (p : Fin 4) (rx : Bool) (cause : Nat) : Dev :=
  let d := ((d.upAud p rx fun e => { e with osc := false, startAt := none, free := none, ahead := 0, off := 0, last := none, edge := false, frame := [], seen := 0, present := false, starts := 0 }).cancel (.audStart p rx)).cancel (.audInputLoss p rx)
  (d.audEnter p rx audWait cause).when (d.audSlave p rx) fun d => d.audLimit p rx

/-- OFF with EN = 1: the configuration is checked, and WAIT entered when PD12 is granted (R327). -/
def Dev.audTry (d : Dev) (p : Fin 4) (rx : Bool) : Dev :=
  if !d.aon p rx AUD.CTL_EN || d.audState p rx != audOff then d
  else if !d.audValid p rx then (d.aput p rx AUD.STS_CAUSE 1).fault (Pg.aud p) 1 1
  else if d.granted kindAudio 0 then d.audToWait p rx 0 else d

/-- EN written 0: OFF, with the ring untouched (R327). -/
def Dev.audStop (d : Dev) (p : Fin 4) (rx : Bool) : Dev :=
  let d := ((d.upAud p rx fun e => { e with osc := false, startAt := none, free := none, ahead := 0, off := 0, last := none, edge := false, seen := 0, present := false }).cancel (.audStart p rx)).cancel (.audInputLoss p rx)
  d.audEnter p rx audOff 0

/-- PD12 is revoked (R327). -/
def Dev.audRevoke (d : Dev) : Dev :=
  d.each (List.finRange 4) fun (p : Fin 4) d => d.each [false, true] fun rx d =>
    if d.audState p rx = audRun ∨ d.audState p rx = audFree ∨ d.audState p rx = audLost then d.audToWait p rx 2 else d

/-- PD12 is granted: directions that were enabled without it enter WAIT (R327). -/
def Dev.audGrant (d : Dev) : Dev := d.each (List.finRange 4) fun (p : Fin 4) d => d.each [false, true] fun rx d => d.audTry p rx

/-- Wait for the start point: the timer is estimated from the rate of V and judged again when it ends (R320). -/
def Dev.audAim (d : Dev) (p : Fin 4) (rx : Bool) (t : Int) : Dev :=
  let rate := max 1 (d.viewRate (audConsumer p))
  (d.upAud p rx fun e => { e with startAt := some t }).timer (max 1 (-((-(t - d.audView p)).fdiv rate)).toNat) (.audStart p rx)

/-- All directions, as port and direction. -/
def audAll : List (Fin 4 × Bool) := (List.finRange 4).flatMap fun p => [(p, false), (p, true)]

/-- A master has locked: its start point alone, with its group, or at the next boundary of a group that runs (R320). -/
def Dev.audPlan (d : Dev) (p : Fin 4) (rx : Bool) : Dev :=
  let ms : Int := milli * 2 ^ 48
  let alone (d : Dev) (q : Fin 4) (r : Bool) (ms : Int) : Int :=
    let o := d.audO q r
    d.audAt q r o (-((-((d.audView q + ms - o) * d.audDen q r)).fdiv (d.audNum q r)))
  if !d.aon p rx AUD.CTL_GRP_EN then d.audAim p rx (alone d p rx ms)
  else
    let g := d.aget p rx AUD.CTL_GROUP
    let mem := audAll.filter fun x => d.aon x.1 x.2 AUD.CTL_EN && d.aon x.1 x.2 AUD.CTL_GRP_EN && d.aget x.1 x.2 AUD.CTL_GROUP == g && !d.audSlave x.1 x.2
    if mem.any fun x => d.audState x.1 x.2 == audRun then d.audAim p rx (alone d p rx 0)
    else if mem.all fun x => (d.audEng x.1 x.2).osc || d.audState x.1 x.2 != audWait then
      d.each (mem.filter fun x => d.audState x.1 x.2 == audWait) fun x d =>
        let o := d.audO x.1 x.2
        let sec : Int := -((-(d.audView x.1 + ms - o)).fdiv accSecond)
        d.audAim x.1 x.2 (o + sec * accSecond)
    else d

/-- FREE: the oscillator runs at its nominal rate, and frames are counted from the start with O = 0 (R327). -/
def Dev.audToFree (d : Dev) (p : Fin 4) (rx : Bool) : Dev :=
  (d.upAud p rx fun e => { e with free := some d.now, o := 0, last := none, startAt := none }).audEnter p rx audFree 0

/-- A FREE direction whose timescale has qualified runs: the phase of its frames is walked to the epoch, the count goes on from the start until then, and the record holds both counts (R327). -/
def Dev.audFromFree (d : Dev) (p : Fin 4) (rx : Bool) : Dev :=
  let o := d.audO p rx
  let per : Int := d.audNum p rx / d.audDen p rx
  let v := d.audView p
  let start := d.audBegan p rx
  let k := d.audCount p rx o v
  let off := (start - d.audAt p rx o k + per / 2).fmod per - per / 2
  let n := d.cur (audConsumer p)
  let now := d.audNow p rx
  let d := d.upAud p rx fun e => { e with o := o, off := off, offAt := d.stepFree 0, steps := d.ts[n].stepSum, ts := n, free := none, ahead := now - d.audCount p rx (o + off) v }
  d.audEnter p rx audRun 0 (oct 8 now ++ oct 8 k.toNat)

/-- A bound has changed: a FREE direction whose timescale has qualified runs, and a locked master that waits for its start while its timescale is unqualified runs free (R327). -/
def Dev.audFollow (d : Dev) : Dev :=
  d.each audAll fun x d =>
    let st := d.audState x.1 x.2
    if st = audFree ∧ d.audQual x.1 then d.audFromFree x.1 x.2
    else if st = audWait ∧ (d.audEng x.1 x.2).osc ∧ !d.audQual x.1 then (d.audToFree x.1 x.2).cancel (.audStart x.1 x.2)
    else d

/-! Rings (R321, R322). -/

/-- Octets of a sample in memory: 4 in a one-bit frame, else by PACK (R318). -/
def Dev.audBytes (d : Dev) (p : Fin 4) (rx : Bool) : Nat :=
  if d.audFmt p rx = 3 then 4 else if d.aget p rx AUD.CTL_PACK = 1 ∨ d.aget p rx AUD.CTL_PACK = 2 then 4 else 3

/-- A sample packed for memory (R318). -/
def Dev.audPack (d : Dev) (p : Fin 4) (rx : Bool) (x : Nat) : List Nat :=
  if d.audFmt p rx = 3 then oct 4 x
  else match d.aget p rx AUD.CTL_PACK with
    | 1 => oct 4 (x % 2 ^ 24 * 256)
    | 2 => oct 4 (unsgn 32 (sgn 24 x))
    | _ => oct 3 x

/-- The samples of a payload (R318). -/
def Dev.audUnpack (d : Dev) (p : Fin 4) (rx : Bool) (l : List Nat) : List Nat :=
  (List.range (d.audSlots p rx)).map fun j =>
    let v := unoct ((l.drop (j * d.audBytes p rx)).take (d.audBytes p rx))
    if d.audFmt p rx = 3 then v else if d.aget p rx AUD.CTL_PACK = 1 then v / 256 else v % 2 ^ 24

def Dev.audSize (d : Dev) (p : Fin 4) (rx : Bool) : Nat := 2 ^ clampN 6 20 (d.aget p rx AUD.RING_SZ_SZ)
/-- Octets of a record (R321). -/
def Dev.audRecLen (d : Dev) (p : Fin 4) (rx : Bool) : Nat := 8 + cdiv (d.audSlots p rx * d.audBytes p rx) 8 * 8

/-- One slip: counted, and recorded as a run (R323). -/
def Dev.audSlip (d : Dev) (p : Fin 4) (rx : Bool) (k : Nat) : Dev :=
  let run := d.aon p rx AUD.STS_SLIPPING
  let d := (d.count (Pg.aud p) (AUD.SLIPS_COUNT (dirOf rx))).aput p rx AUD.STS_SLIPPING 1
  let d := d.record 0x71 (srcPage (Pg.aud p)) ([p.val, dirOf rx] ++ oct 8 k) run 2
  d.when (!run) fun d => d.int (Pg.aud p) (4 * dirOf rx + 1)

/-- The mask in the shadow takes force at a boundary (R326). -/
def Dev.audMask (d : Dev) (p : Fin 4) (rx : Bool) (k : Nat) : Dev :=
  let old := d.aget p rx AUD.MASK_CUR
  let new := d.aget p rx AUD.MASK_MASK
  if old = new then d
  else (d.aput p rx AUD.MASK_CUR new).record 0x73 (srcPage (Pg.aud p)) ([p.val, dirOf rx] ++ oct 2 old ++ oct 2 new ++ oct 8 k)

/-- A slot on the wire: the sample in the first 24 bits of its slot, or 32 bit periods of a one-bit channel, first bit in bit 0 (R318). -/
def Dev.audSlot (d : Dev) (p : Fin 4) (x : Nat) : Nat := if d.audFmt p false = 3 ∨ d.audWidth p false = 24 then x else x * 256

/-- What the data lines carry of a frame: the lines in use, then slots; masked slots drive 0, or are released, shown as 2^32, while TRI = 1 (R318, R326); a C4 holds them (R361). -/
def Dev.audEmit (d : Dev) (p : Fin 4) (k : Nat) (l : List Nat) : Dev :=
  if d.c4Held then d else
  let dead := if d.aon p false AUD.CTL_TRI then 2 ^ 32 else 0
  let m := d.aget p false AUD.MASK_CUR
  let lines := if d.audFmt p false = 3 ∧ d.aon p false AUD.CTL_LINES then 2 else 1
  d.emit (.message "audio" ([p.val, k, lines] ++ (List.range l.length).map fun j => if bit m j then d.audSlot p (l.getD j 0) else dead))

/-- The TX side of boundary k: late records are discarded, the record of k is emitted, or the last frame is repeated (R322). The records are those at the ring head in host memory. -/
def Dev.audTx (d : Dev) (p : Fin 4) (k : Nat) (recs : List (Nat × List Nat)) : Dev :=
  let pg := Pg.aud p
  let size := d.audSize p false
  let wp := d.aget p false AUD.WP_WP % size
  let have_ := (wp + size - d.aget p false AUD.RP_RP % size) % size
  let r := (recs.take have_).map fun x => (x.1 % 2 ^ 63, x.2)
  let late := r.takeWhile fun x => x.1 < k
  let rest := r.drop late.length
  let hit := match rest with
    | x :: _ => if x.1 = k then some x.2 else none
    | [] => none
  let used := late.length + (if hit.isSome then 1 else 0)
  let d := (d.countN pg (AUD.LATE_COUNT 0) late.length).aput p false AUD.RP_RP ((d.aget p false AUD.RP_RP + used) % size)
  let d := d.when (used != 0 && used == have_) fun d => d.int pg 3
  match hit with
  | some l =>
    let f := d.audUnpack p false l
    ((d.upAud p false fun e => { e with frame := f }).aput p false AUD.STS_SLIPPING 0).audEmit p k f
  | none =>
    let f := if (d.audEng p false).frame.isEmpty then List.replicate (d.audSlots p false) 0 else (d.audEng p false).frame
    (d.audEmit p k f).audSlip p false k

/-- The RX side of boundary k: frame k is written when a record is free (R322); while the link is down it waits (R453). -/
def Dev.audRx (d : Dev) (p : Fin 4) (k : Nat) (samples : List Nat) : Dev :=
  let pg := Pg.aud p
  let size := d.audSize p true
  let wp := d.aget p true AUD.WP_WP % size
  let rp := d.aget p true AUD.RP_RP % size
  let e := d.audEng p true
  if (wp + e.held.length + 1) % size = rp then (d.upAud p true fun e => { e with gap := true }).audSlip p true k
  else
    let m := d.aget p true AUD.MASK_CUR
    let pay := (List.range (d.audSlots p true)).flatMap fun j => d.audPack p true (if bit m j then samples.getD j 0 else 0)
    let row := oct 8 (k % 2 ^ 63 + (if e.gap then 2 ^ 63 else 0)) ++ pay
    let row := row ++ List.replicate (d.audRecLen p true - row.length) 0
    let d := (d.upAud p true fun e => { e with gap := false }).aput p true AUD.STS_SLIPPING 0
    if d.on Pg.hif HIF.STS_LINK_UP then
      let d := d.emit (.hostMem (d.aget p true AUD.RING_BASE_BASE * 4096 + wp * d.audRecLen p true) row)
      let d := d.aput p true AUD.WP_WP ((wp + 1) % size)
      d.when (wp == rp) fun d => d.int pg 7
    else d.upAud p true fun e => { e with held := e.held ++ [row] }

/-- The link is up: the records that waited are written (R453). -/
def Dev.audFlush (d : Dev) : Dev :=
  d.each (List.finRange 4) fun (p : Fin 4) d =>
    let rows := (d.audEng p true).held
    let size := d.audSize p true
    let empty := d.aget p true AUD.WP_WP % size = d.aget p true AUD.RP_RP % size
    let d := d.each rows fun row d =>
      let wp := d.aget p true AUD.WP_WP % size
      (d.emit (.hostMem (d.aget p true AUD.RING_BASE_BASE * 4096 + wp * d.audRecLen p true) row)).aput p true AUD.WP_WP ((wp + 1) % size)
    (d.upAud p true fun e => { e with held := [] }).when (empty && !rows.isEmpty) fun d => d.int (Pg.aud p) 7

/-- A rate in mHz is reported; a departure beyond TOL, or a change of the input, sets RATE_CHG (R325). -/
def Dev.audRate (d : Dev) (p : Fin 4) (rx : Bool) (mhz : Nat) (force : Bool) : Dev :=
  let d := d.aput p rx AUD.RATE_MHZ (min mhz 0xFFFFFFFF)
  let tol := max 1 (d.aget p rx AUD.RATE_CTL_TOL)
  let base := (d.audEng p rx).base
  if force || decide (tol * base < ((mhz : Int) - base).natAbs * 1000000) then
    let d := (d.upAud p rx fun e => { e with base := mhz }).aput p rx AUD.STS_RATE_CHG 1
    (d.record 0x72 (srcPage (Pg.aud p)) ([p.val, dirOf rx] ++ oct 4 mhz)).int (Pg.aud p) (4 * dirOf rx + 2)
  else d

/-- Show what follows the time on an audio page (R328). -/
def Dev.audRefresh (d : Dev) (p : Fin 4) : Dev :=
  d.each [false, true] fun rx d =>
    if d.audState p rx = audRun ∨ d.audState p rx = audFree then
      if d.audSlave p rx then d.aput p rx AUD.FCNT_K (((d.audEng p rx).last).getD 0)
      else
        let d := d.audWalk p rx
        d.aput p rx AUD.FCNT_K (d.audNow p rx % 2 ^ 63)
    else d

end Sys2Proof.Machine
end

