-- ==== Sys2Proof/Machine/Audio.lean ====
section
/-! DEFINITION. The commands of the audio ports (R317 to R328). -/

namespace Sys2Proof.Machine

/-- A write of a CTL, FS or OFS register of a direction, after the gate: EN, or a return to WAIT when anything but GRP_EN and GROUP changes (R327). -/
def Dev.audConfig (d : Dev) (p : Fin 4) (rx : Bool) (off v : Nat) : Dev :=
  let pg := Pg.aud p
  let ctl := 0x100 + 0x100 * dirOf rx
  let old := d.aget p rx AUD.CTL
  let d := d.storeReg pg off v
  if off = ctl then
    if !d.aon p rx AUD.CTL_EN then d.audStop p rx
    else if d.audState p rx = audOff then d.audTry p rx
    else
      let keep := 0xFFFFFFFF - 7 * 2 ^ 9
      if old &&& keep = d.aget p rx AUD.CTL &&& keep then d
      else if d.audValid p rx then d.audToWait p rx 0
      else ((d.audStop p rx).aput p rx AUD.STS_CAUSE 1).fault pg 1 1
  else if d.audState p rx = audOff then d.audTry p rx
  else if d.audValid p rx then d.audToWait p rx 0
  else ((d.audStop p rx).aput p rx AUD.STS_CAUSE 1).fault pg 1 1

/-- The offset of a direction's CTL register. -/
abbrev audCtlOff (rx : Bool) : Nat := 0x100 + 0x100 * dirOf rx

/-- R327: CTL written with EN = 1. -/
def execAudEnable (m : Master) (p : Fin 4) (rx : Bool) (v : Nat) (s : State) : Host.Outcome State Fault Refusal :=
  s.run fun d =>
    let w := v % 2 ^ 31 + 2 ^ 31
    d.write m (Pg.aud p) (audCtlOff rx) w fun d => d.audConfig p rx (audCtlOff rx) w

/-- R327: CTL written with EN = 0. -/
def execAudDisable (m : Master) (p : Fin 4) (rx : Bool) (v : Nat) (s : State) : Host.Outcome State Fault Refusal :=
  s.run fun d =>
    let w := v % 2 ^ 31
    d.write m (Pg.aud p) (audCtlOff rx) w fun d => d.audConfig p rx (audCtlOff rx) w

/-- R327: a write of CTL, FS or OFS. -/
def execAudConfigWrite (m : Master) (p : Fin 4) (rx : Bool) (off v : Nat) (s : State) : Host.Outcome State Fault Refusal :=
  s.run fun d =>
    let o := audCtlOff rx + (if off % 256 = 4 then 4 else if off % 256 = 0x20 then 0x20 else 0)
    d.write m (Pg.aud p) o v fun d => d.audConfig p rx o v

/-- R320, R327: the oscillator of a master in WAIT locks. -/
def execAudOscLock (p : Fin 4) (rx : Bool) (s : State) : Host.Outcome State Fault Refusal :=
  s.run fun d =>
    if d.audState p rx ≠ audWait ∨ d.audSlave p rx ∨ !d.granted kindAudio 0 then d
    else
      let d := d.upAud p rx fun e => { e with osc := true }
      if d.audQual p then d.audPlan p rx else d.audToFree p rx

/-- A direction starts at its start point: the phase is set and it runs (R320). -/
def Dev.audGo (d : Dev) (p : Fin 4) (rx : Bool) : Dev :=
  let o := d.audO p rx
  let d := (d.upAud p rx fun e => { e with o := o, startAt := none, last := none }).audPhase p rx
  (d.audEnter p rx audRun 0).audWalk p rx

/-- R320: the start point is reached: the phase is set and the direction runs. -/
def execAudStart (p : Fin 4) (rx : Bool) (s : State) : Host.Outcome State Fault Refusal :=
  s.run fun d =>
    match (d.audEng p rx).startAt with
    | none => d
    | some t =>
      if d.audState p rx ≠ audWait then d
      else if d.audView p < t then d.audAim p rx t
      else if !d.audQual p then d.audToFree p rx
      else d.audGo p rx

/-- A frame boundary of a running direction: the phase walks, the mask is taken, and a frame is read or written (R319, R322, R323, R326). -/
def Dev.audFrame (d : Dev) (p : Fin 4) (rx : Bool) (recs : List (Nat × List Nat)) (samples : List Nat) : Dev :=
  let st := d.audState p rx
  let slave := d.audSlave p rx
  let d : Dev := if slave || st == audFree then d else d.audWalk p rx
  let d := d.upAud p rx fun e => if st = audRun ∧ e.ahead ≠ 0 ∧ e.off.natAbs ≤ 2 ^ 48 then { e with ahead := 0, last := none } else e
  let e := d.audEng p rx
  let k := if slave then e.last.getD 0 else d.audNow p rx
  let due := if slave then e.edge else e.last.all fun x => decide (x < k)
  if !due then d else
  let t := d.audBegan p rx
  let d := (d.upAud p rx fun e => (if slave then e else e.began t).served k).audMask p rx k
  if rx then d.audRx p k samples else d.audTx p k recs

/-- R319, R322, R323, R326: a frame boundary of a running direction. -/
def execAudFrameBoundary (p : Fin 4) (rx : Bool) (recs : List (Nat × List Nat)) (samples : List Nat) (s : State) : Host.Outcome State Fault Refusal :=
  s.run fun d => if d.audState p rx ≠ audRun ∧ d.audState p rx ≠ audFree then d else d.audFrame p rx recs samples

/-- R326: a write of MASK reaches the shadow; the next boundary makes it current. -/
def execAudMaskWrite (m : Master) (p : Fin 4) (rx : Bool) (v : Nat) (s : State) : Host.Outcome State Fault Refusal :=
  s.run fun d => d.writeStore m (Pg.aud p) (0x108 + 0x100 * dirOf rx) v

/-- A frame-start edge of a slave is stamped and given its frame count (R324, R325). -/
def Dev.audEdge (d : Dev) (p : Fin 4) (rx : Bool) : Dev :=
  let st := d.audState p rx
  let t := (d.audView p).fdiv (2 ^ 48) * 2 ^ 48
  let o := if st = audRun then (d.audEng p rx).o else d.audO p rx
  let num : Int := d.audNum p rx
  let k := ((t - o) * (2 * d.audDen p rx) + num).fdiv (2 * num)
  let err := t - d.audAt p rx o k
  let k := k.toNat
  let old := d.audEng p rx
  let d := d.puti (Pg.aud p) (AUD.PH_ERR_E (dirOf rx)) (clampI (-2147483648) 2147483647 ((err * 1000).fdiv (2 ^ 48)))
  let d := (d.upAud p rx fun e => { e.began t with o := o, last := some k, edge := true, seen := min 8 (e.seen + 1) }).audLimit p rx
  let skipped := match old.last with
    | some l => if k ≤ l then 1 else k - l - 1
    | none => 0
  let d := if rx && st == audRun then d.each (List.range (min skipped 65536)) fun _ d => d.audSlip p rx k else d
  let d : Dev := if 8 ≤ (d.audEng p rx).seen ∧ !old.present then
      let d := d.upAud p rx fun e => { e with present := true }
      if st = audLost then d.audRate p rx (d.aget p rx AUD.RATE_MHZ) true else d
    else d
  if (d.audEng p rx).present && (st == audWait || st == audLost) && d.granted kindAudio 0 then d.audEnter p rx audRun 0 else d

/-- R324, R325: a frame-start edge of a slave is stamped on V at 1 ns and given its frame count; eight in a row make the input present. -/
def execWsEdge (p : Fin 4) (rx : Bool) (s : State) : Host.Outcome State Fault Refusal :=
  s.run fun d => if !(d.audSlave p rx && d.audState p rx != audOff) then d else d.audEdge p rx

/-- R324, R325, R327: no frame start in 8 nominal periods. -/
def execAudInputLoss (p : Fin 4) (rx : Bool) (s : State) : Host.Outcome State Fault Refusal :=
  s.run fun d =>
    let st := d.audState p rx
    if !d.audSlave p rx then d
    else if st = audLost then d.upAud p rx fun e => { e with seen := 0 }
    else if st != audWait && st != audRun then d else
    let d := (d.upAud p rx fun e => { e with seen := 0, present := false, edge := false, last := none }).audEnter p rx audLost 3
    d.audRate p rx (d.aget p rx AUD.RATE_MHZ) true

/-- A second of V ends: the rate of the frame starts in it is reported, that of a one-bit stream as its bit rate (R325). -/
def Dev.audMeasure (d : Dev) (p : Fin 4) (rx : Bool) : Dev :=
  let e := d.audEng p rx
  let d := d.upAud p rx fun e => { e with starts := 0 }
  if e.starts < 2 ∨ e.final ≤ e.first then d
  else
    let num : Int := ((e.starts - 1 : Nat) : Int) * (if d.audFmt p rx = 3 then 32 else 1) * 1000 * accSecond
    let dur := e.final - e.first
    d.audRate p rx ((2 * num + dur).fdiv (2 * dur)).toNat false

/-- R325: at each second of V the frame rate of an enabled direction is reported. -/
def execAudRateMeasure (p : Fin 4) (rx : Bool) (s : State) : Host.Outcome State Fault Refusal :=
  s.run fun d => if d.audState p rx = audOff then d else d.audMeasure p rx

/-- The outputs hold for one frame and the phase is set again (R327). -/
def Dev.audAgain (d : Dev) (p : Fin 4) (rx : Bool) : Dev :=
  let d := d.audPhase p rx
  let k := d.audNow p rx
  ((d.upAud p rx fun e => { e with last := some (k + 1) }).audWalk p rx).emit (.message "audio-held" [p.val, dirOf rx])

/-- R327: REALIGN of a running master holds the outputs for one frame and sets the phase; a slave ignores it. -/
def execRealign (m : Master) (p : Fin 4) (rx : Bool) (s : State) : Host.Outcome State Fault Refusal :=
  s.run fun d => d.write m (Pg.aud p) (0x10C + 0x100 * dirOf rx) 1 fun d =>
    if d.audSlave p rx || d.audState p rx != audRun then d else d.audAgain p rx

/-- R328: CNT_CLR clears SLIPS, LATE and DISC. -/
def execAudCntClr (m : Master) (p : Fin 4) (rx : Bool) (s : State) : Host.Outcome State Fault Refusal :=
  s.run fun d => d.write m (Pg.aud p) (0x10C + 0x100 * dirOf rx) 2 fun d =>
    ((d.aput p rx AUD.SLIPS_COUNT 0).aput p rx AUD.LATE_COUNT 0).aput p rx AUD.DISC_COUNT 0

end Sys2Proof.Machine
end

