-- ==== Sys2Proof/Machine/StoreOps.lean ====
section
/-! DEFINITION. The client store (R272 to R287): fields of an entry, lookup, allocation, release, and the host's masked writes. -/

namespace Sys2Proof.Machine

/-- The words of the store by entry × 8 + word; a word not listed is 0 (R287). -/
abbrev Words := List (Nat × BitVec 64)

/-- Read and write a whole word. -/
def Words.word (s : Words) (k : Nat) : Nat := (sget (fun _ => 0#64) s k).toNat
def Words.setWord (s : Words) (k v : Nat) : Words := sset (fun _ => 0#64) s k (BitVec.ofNat 64 v)

/-- A field of an entry (R273). -/
structure EFld where
  w : Nat
  hi : Nat
  lo : Nat
  deriving DecidableEq, Repr

/-- The bits of a field in its word. -/
def EFld.mask (f : EFld) : Nat := (2 ^ (f.hi + 1 - f.lo) - 1) <<< f.lo

/-- Read and write a field of entry i. -/
def Words.fld (s : Words) (i : Nat) (f : EFld) : Nat := (s.word (8 * i + f.w) >>> f.lo) % 2 ^ (f.hi + 1 - f.lo)
def Words.setFld (s : Words) (i : Nat) (f : EFld) (v : Nat) : Words :=
  let w := s.word (8 * i + f.w)
  s.setWord (8 * i + f.w) (w - (w &&& f.mask) + ((v <<< f.lo) &&& f.mask))

/-! Fields of R273. -/
abbrev eState : EFld := ⟨0, 2, 0⟩
abbrev ePort : EFld := ⟨0, 7, 3⟩
abbrev eTs : EFld := ⟨0, 9, 8⟩
abbrev eAtype : EFld := ⟨0, 11, 10⟩
abbrev eDom : EFld := ⟨0, 14, 12⟩
abbrev eLock : EFld := ⟨0, 15, 15⟩
abbrev eTags : EFld := ⟨0, 17, 16⟩
abbrev eGranted : EFld := ⟨0, 20, 18⟩
abbrev eKeySlot : EFld := ⟨0, 31, 24⟩
abbrev eSTci : EFld := ⟨0, 47, 32⟩
abbrev eCTci : EFld := ⟨0, 63, 48⟩
abbrev eAddrLo : EFld := ⟨1, 63, 0⟩
abbrev eAddrHi : EFld := ⟨2, 63, 0⟩
abbrev eClock : EFld := ⟨3, 63, 0⟩
abbrev ePortNum : EFld := ⟨4, 15, 0⟩
abbrev eKeyId : EFld := ⟨4, 63, 32⟩
abbrev eDueSync : EFld := ⟨6, 31, 0⟩
abbrev eDueAnn : EFld := ⟨6, 63, 32⟩
abbrev eSeqSync : EFld := ⟨7, 15, 0⟩
abbrev eSeqAnn : EFld := ⟨7, 31, 16⟩
abbrev eDreqLast : EFld := ⟨7, 55, 32⟩
abbrev eDrops : EFld := ⟨7, 63, 56⟩
/-- Message types 0 Announce, 1 Sync, 2 Delay_Resp: granted bit, log interval, expiry. -/
def eLog (t : Nat) : EFld := ⟨4, 19 + 4 * t, 16 + 4 * t⟩
def eExp (t : Nat) : EFld := ⟨5, 20 + 21 * t, 21 * t⟩

abbrev entFree : Nat := 0
abbrev entPending : Nat := 1
abbrev entActive : Nat := 2

/-- The key of an entry (R275). -/
structure CstKey where
  port : Nat
  atype : Nat
  addr : Nat
  clock : Nat
  num : Nat
  deriving DecidableEq, Repr

def Words.key (s : Words) (i : Nat) : CstKey :=
  ⟨s.fld i ePort, s.fld i eAtype, s.fld i eAddrLo + s.fld i eAddrHi * 2 ^ 64, s.fld i eClock, s.fld i ePortNum⟩

/-- An entry is PENDING or ACTIVE. -/
def Words.live (s : Words) (i : Nat) : Bool := s.fld i eState == entPending || s.fld i eState == entActive

/-- Entries that are PENDING or ACTIVE, in ascending index. -/
def Words.entries (s : Words) : List Nat := s.filterMap fun e => if e.1 % 8 = 0 ∧ s.live (e.1 / 8) then some (e.1 / 8) else none

/-- The store is ON (R288). -/
def Dev.cstOn (d : Dev) : Bool := d.get Pg.cst CST.STS_PWR == 2

/-- The two buckets of a key (R275). -/
def Dev.buckets (d : Dev) (k : CstKey) : Nat × Nat :=
  let seed := d.get Pg.cst CST.HASH_SEED_SEED
  let l := [k.port, k.atype, k.addr, k.clock, k.num]
  let b1 := Config.storeHash seed 0 l % 2 ^ 18
  let x := 1 + Config.storeHash seed 1 l % 15
  (b1, 16 * (Config.storeHash seed 2 l % 2 ^ 14) + (b1 % 16 ^^^ x))

/-- The ways of a bucket. -/
def ways (b : Nat) : List Nat := [4 * b, 4 * b + 1, 4 * b + 2, 4 * b + 3]

/-- The lookup of R275; a poisoned entry is matched by none (R282). -/
def Dev.lookup (d : Dev) (s : Words) (k : CstKey) : Option Nat :=
  if !d.cstOn then none else
  let (b1, b2) := d.buckets k
  (ways b1 ++ ways b2).find? fun i => s.live i && s.key i == k && !d.cst.poison.contains i

/-- The way R276 allocates for a key: the bucket with fewer free ways, b1 when both have the same number; none when both are full. -/
def Dev.freeWay (d : Dev) (s : Words) (k : CstKey) : Option Nat :=
  let (b1, b2) := d.buckets k
  let free (b : Nat) := (ways b).filter fun i => !s.live i && !d.cst.poison.contains i
  let f1 := free b1
  let f2 := free b2
  if f1.isEmpty then f2.head? else if f2.isEmpty then f1.head?
  else if f2.length < f1.length then f2.head? else f1.head?

/-- A grant of a message type stands. -/
def Words.granted (s : Words) (i t : Nat) : Bool := bit (s.fld i eGranted) t

/-- A log interval as stored in four bits. -/
def Words.log (s : Words) (i t : Nat) : Int := sgn 4 (s.fld i (eLog t))

/-- A message rate of 2^-L per second in units of 1/128 (R246); L is −7 to 7. -/
def rate128 (l : Int) : Nat := 2 ^ (clampI 0 14 (7 - l)).toNat

/-- The rate of a granted message type of a domain: a two-step Sync counts its Follow_Up (R246). -/
def Dev.grantRate (d : Dev) (dom t : Nat) (l : Int) : Nat :=
  if t = 1 ∧ d.on (Pg.rsp 2) (RSP2.DOM_CTL_TWO_STEP dom) then 2 * rate128 l else rate128 l

/-- Reserved work of an entry (R246). -/
def Dev.entryRate (d : Dev) (s : Words) (i : Nat) : Nat :=
  ([0, 1, 2].map fun t => if s.granted i t then d.grantRate (s.fld i eDom) t (s.log i t) else 0).sum

/-- Take up or give back reserved work of a domain: Q_c counts it where authentication is required (R246). -/
def Dev.reserve (d : Dev) (dom q : Nat) : Dev :=
  d.upRsp fun e => { e with qp := e.qp + q, qc := if d.on (Pg.rsp 2) (RSP2.DOM_CTL_AUTH_REQ dom) then e.qc + q else e.qc }
def Dev.unreserve (d : Dev) (dom q : Nat) : Dev :=
  d.upRsp fun e => { e with qp := e.qp - q, qc := if d.on (Pg.rsp 2) (RSP2.DOM_CTL_AUTH_REQ dom) then e.qc - q else e.qc }

/-- The unicast reserved work is the sum of the ACTIVE entries again (R246, R283). -/
def Dev.recount (d : Dev) (s : Words) : Dev :=
  let act := s.entries.filter fun i => s.fld i eState == entActive && !d.cst.poison.contains i
  let auth := act.filter fun i => d.on (Pg.rsp 2) (RSP2.DOM_CTL_AUTH_REQ (s.fld i eDom))
  d.upRsp fun e => { e with qp := (act.map fun i => d.entryRate s i).sum, qc := (auth.map fun i => d.entryRate s i).sum }

/-- Show what follows the entries of the store: USED, entries with a grant per domain and port, entries on the wheel (R267, R269, R271, R288). -/
def Dev.cstShow (d : Dev) (s : Words) : Dev :=
  let l := s.entries
  let act := l.filter fun i => s.fld i eGranted != 0
  let d := d.put Pg.cst CST.STS_USED l.length
  let d := d.each (List.range 8) fun k d => d.put (Pg.rsp 2) (RSP2.DOM_GRANTS_COUNT k) (act.filter fun i => s.fld i eDom == k).length
  let d := d.each (List.range 24) fun p d => d.put (Pg.rsp 5) (RSP5.PORT_STS_GRANTS p) (act.filter fun i => s.fld i ePort == p).length
  d.put (Pg.rsp 7) RSP7.WHEEL_ENT_ENTRIES (act.filter fun i => s.fld i eGranted % 4 != 0).length

/-- Free an entry: STATE FREE and LOCK clear, the poison bit with it, and no entry of the mirror any more (R279, R282). -/
def freeEntry (r : Words × Dev) (i : Nat) : Words × Dev :=
  let d := { r.2 with
    cst := { r.2.cst with poison := r.2.cst.poison.filter (· ≠ i), bad := r.2.cst.bad.filter (· ≠ i) }
    plk := { r.2.plk with mirrored := r.2.plk.mirrored.filter (· ≠ i) } }
  ((r.1.setFld i eState 0).setFld i eLock 0, d.put Pg.cst CST.POISON_COUNT d.cst.poison.length)

/-- Remove one grant and its reservation; an entry without grants is released to the store (R252, R254, R276). -/
def dropGrant (r : Words × Dev) (i t : Nat) : Words × Dev :=
  if !r.1.granted i t then r else
  let dom := r.1.fld i eDom
  let d := r.2.unreserve dom (r.2.grantRate dom t (r.1.log i t))
  let s := r.1.setFld i eGranted (r.1.fld i eGranted - 1 <<< t)
  if s.fld i eGranted = 0 then freeEntry (s, d) i else (s, d)

/-- Remove every grant of an entry, counting each in GRANT_EXPIRED, and release it (R253, R279, R287). -/
def releaseEntry (r : Words × Dev) (i : Nat) : Words × Dev :=
  let n := ([0, 1, 2].filter fun t => r.1.granted i t).length
  let d := r.2.unreserve (r.1.fld i eDom) (r.2.entryRate r.1 i)
  let d := (List.range n).foldl (fun d _ => d.rspCount cntExpired) d
  freeEntry (r.1.setFld i eGranted 0, d) i

/-- Release every entry that a test selects (R253, R287). -/
def releaseAll (r : Words × Dev) (f : Words → Nat → Bool) : Words × Dev :=
  let q := (r.1.entries.filter fun i => f r.1 i).foldl releaseEntry r
  (q.1, q.2.cstShow q.1)

/-- DROPS of an entry that is hit (R273, R307). -/
def countDrop (s : Words) : Option Nat → Words
  | some i => s.setFld i eDrops (min 255 (s.fld i eDrops + 1))
  | none => s

/-- Steps of the store's own power states: record and interrupt (R288). -/
def Dev.cstEnter (d : Dev) (v : Nat) : Dev :=
  let old := d.get Pg.cst CST.STS_PWR
  if old = v then d else ((d.put Pg.cst CST.STS_PWR v).int Pg.cst 2).record 0x53 (srcPage Pg.cst) [old, v]

/-! Host access (R278 to R281). -/

/-- Fields the host may write, as a mask of each word (R273). -/
def hostMask (w : Nat) : Nat :=
  if w = 0 then eTs.mask ||| eLock.mask ||| eTags.mask ||| eKeySlot.mask ||| eSTci.mask ||| eCTci.mask
  else if w = 4 then eKeyId.mask else if w = 7 then eDrops.mask else 0

/-- The view a value of TS names, as timescale and correction (R280). -/
def Dev.tsView (d : Dev) (port ts : Nat) : Ts × Int :=
  if ts = 1 then (0, 0) else if ts = 2 then (1, 0)
  else if h : port < 48 then (d.cur ⟨port, h⟩, d.corr[port]) else (0, 0)

/-- The forms of a BAR2 access (R278). -/
inductive CstForm where
  | base | set | clear
  deriving DecidableEq, Repr

/-- A discarded host write (R281). -/
def cstDiscard (r : Words × Dev) : Words × Dev := (r.1, r.2.discardIn Pg.cst CST.HOST_DISC_COUNT)

/-- The masters that may write BAR2: PF0, PF1 and the sequencers, whose permission is judged before (R281, R337). -/
def mayStore : Master → Bool
  | .pf0 | .pf1 | .seq _ => true
  | _ => false

/-- A host write to the word that holds a byte address: only the bits that change are replaced, RO fields, the reserved ones among them, and refused changes of STATE and TS keep their value, and a write that would change one is counted (R273, R278 to R281). -/
def cstPut (r : Words × Dev) (m : Master) (form : CstForm) (addr : Nat) (wide : Bool) (v : Nat) : Words × Dev :=
  let k := addr / 8
  let i := k / 8
  let half := !wide && addr % 8 / 4 == 1
  let span := if wide then 2 ^ 64 - 1 else if half then (2 ^ 32 - 1) <<< 32 else 2 ^ 32 - 1
  let val := if wide then v % 2 ^ 64 else if half then (v % 2 ^ 32) <<< 32 else v % 2 ^ 32
  let old := r.1.word k
  let want := match form with
    | .base => (old - (old &&& span)) ||| val
    | .set => old ||| val
    | .clear => old - (old &&& val)
  let change := old ^^^ want
  let w := k % 8
  let rw := hostMask w
  let state := decide (w = 0 ∧ change &&& eState.mask ≠ 0)
  let frees := state && want % 8 == 0 && r.1.fld i eState == entActive && r.1.fld i eLock == 1
  let ts := decide (w = 0 ∧ change &&& eTs.mask ≠ 0)
  let tsOk := !r.1.live i || r.2.tsView (r.1.fld i ePort) (r.1.fld i eTs) == r.2.tsView (r.1.fld i ePort) (want / 256 % 4)
  let bad := change &&& ((2 ^ 64 - 1) ^^^ (rw ||| (if w = 0 then eState.mask else 0))) != 0 || (state && !frees) || (ts && !tsOk)
  let take := if ts && !tsOk then rw - eTs.mask else rw
  let new := (old - (old &&& take)) ||| (want &&& take)
  let d := r.2.pmc Pg.cst 3 { master := some m, addr := some addr }
  let d := d.when bad fun d => d.discardIn Pg.cst CST.HOST_DISC_COUNT
  let s := if new = old then r.1 else r.1.setWord k new
  if frees then let q := releaseEntry (s, d) i; (q.1, q.2.cstShow q.1) else (s, d)

/-- A host write to BAR2: discarded from a master without leave, outside the table, or while the store is not ON (R273, R281, R288). -/
def cstWrite (r : Words × Dev) (m : Master) (form : CstForm) (addr : Nat) (wide : Bool) (v : Nat) : Words × Dev :=
  if !mayStore m || 2 ^ 26 ≤ addr || !r.2.cstOn then cstDiscard r else cstPut r m form addr wide v

/-- A read of a BAR2 word by a master (R281). -/
def Dev.cstRead (d : Dev) (s : Words) (m : Master) (addr : Nat) : Nat :=
  if 3 * 2 ^ 26 ≤ addr then 0
  else if !d.cstOn then 2 ^ 64 - 1
  else match m with
    | .pf0 | .pf1 | .seq _ => s.word (addr % 2 ^ 26 / 8)
    | .pf2 => if d.on Pg.cst CST.CTL_OBS_READ then s.word (addr % 2 ^ 26 / 8) else 2 ^ 64 - 1
    | _ => 2 ^ 64 - 1

end Sys2Proof.Machine
end

