-- ==== Sys2Proof/Machine/SvcOps.lean ====
section
/-! DEFINITION. Operations of the responder (R235 to R271): readiness, domains and addresses, message classes, admission, and the composition of frames. -/

namespace Sys2Proof.Machine

/-! Readiness (R238). -/

/-- Service on a timescale is ready. -/
def Dev.ready (d : Dev) (n : Ts) : Bool := d.on (Pg.rsp 0) RSP0.CTL_EN && d.get (Pg.ts n) TS.BOUND_STS_STATE != 0

/-- The service of a port is READY. -/
def Dev.portReady (d : Dev) (p : Fin 24) : Bool := d.ready (d.cur (portConsumer p))

/-- Show readiness; a change writes RSP_READY and sets its interrupt (R238, R265). -/
def Dev.readyShow (d : Dev) : Dev :=
  let d := (d.putb (Pg.rsp 0) RSP0.STS_READY_A (d.get (Pg.ts 0) TS.BOUND_STS_STATE != 0)).putb (Pg.rsp 0) RSP0.STS_READY_B (d.get (Pg.ts 1) TS.BOUND_STS_STATE != 0)
  d.each (List.finRange 24) fun p d =>
    let r := d.portReady p
    if r == d.on (Pg.rsp 5) (RSP5.PORT_STS_READY p) then d
    else ((d.putb (Pg.rsp 5) (RSP5.PORT_STS_READY p) r).record 0x50 (srcPage (Pg.rsp 0)) [p.val, b2n r]).int (Pg.rsp 0) 0

/-- The timescale an entry is served on: TS 0x1 and 0x2 fix it, 0x0 and 0x3 follow the port (R240, R273). -/
def fixedTs (ts : Nat) : Option Ts := if ts = 1 then some 0 else if ts = 2 then some 1 else none

/-- Readiness for an entry's timescale (R240). -/
def Dev.readyOn (d : Dev) (p : Fin 24) (o : Option Ts) : Bool := d.ready (d.tsOn p o)

/-! Domains and addresses (R237, R253, R269). -/

/-- A domain configuration is valid (R253). -/
def Dev.domValid (d : Dev) (k : Nat) : Bool :=
  let pg := Pg.rsp 2
  let t := d.get pg (RSP2.DOM_CTL_TRANS k)
  let n := d.get pg (RSP2.DOM_CTL_DOMAIN k)
  let mc := d.on pg (RSP2.DOM_CTL_MCAST k)
  let uc := d.on pg (RSP2.DOM_CTL_UCAST k)
  match d.get pg (RSP2.DOM_CTL_PROFILE k) with
  | 0 => t != 0
  | 1 => bit t 0 && mc && !uc && decide (24 ≤ n ∧ n ≤ 43)
  | 2 => (bit t 1 || bit t 2) && !mc && uc && decide (44 ≤ n ∧ n ≤ 63)
  | _ => false

/-- The transports a domain admits; G.8275.1 takes Ethernet alone and G.8275.2 UDP alone (R253). -/
def Dev.domTrans (d : Dev) (k t : Nat) : Bool :=
  bit (d.get (Pg.rsp 2) (RSP2.DOM_CTL_TRANS k)) t &&
  (match d.get (Pg.rsp 2) (RSP2.DOM_CTL_PROFILE k) with
   | 1 => t == 0
   | 2 => t != 0
   | _ => true)

/-- A profile serves its domain on a port (R237). -/
def Dev.domOn (d : Dev) (k : Nat) (p : Nat) : Bool :=
  d.on (Pg.rsp 2) (RSP2.DOM_CTL_EN k) && bit (d.get (Pg.rsp 5) (RSP5.PORT_CTL_DOM p)) k && d.domValid k

/-- The profile that serves a domain number over a transport on a port (R237). -/
def Dev.domFind (d : Dev) (p : Fin 24) (num : Nat) (trans : Fin 3) : Option (Fin 8) :=
  (List.finRange 8).find? fun k => d.domOn k p && d.get (Pg.rsp 2) (RSP2.DOM_CTL_DOMAIN k) == num && d.domTrans k trans

/-- An enabled domain that is invalid raises C1 (R253). -/
def Dev.domCheck (d : Dev) : Dev :=
  d.each (List.range 8) fun k d => d.setCause (Pg.rsp 2) 1 (1 + k) (d.on (Pg.rsp 2) (RSP2.DOM_CTL_EN k) && !d.domValid k)

/-- The intervals of multicast service: Sync, Announce, Delay_Resp; G.8275.1 fixes them (R253, R257). -/
def Dev.domLog (d : Dev) (k t : Nat) : Int :=
  if d.get (Pg.rsp 2) (RSP2.DOM_CTL_PROFILE k) = 1 then [(-4 : Int), -3, -4].getD t (-4)
  else if t = 2 then d.geti (Pg.rsp 2) (RSP2.DOM_MINT_LOG_DREQ k)
  else clampI (-7) 7 (d.geti (Pg.rsp 2) (if t = 0 then RSP2.DOM_MINT_LOG_SYNC k else RSP2.DOM_MINT_LOG_ANN k))

/-- The limits of a granted interval: message type 0 Announce, 1 Sync, 2 Delay_Resp (R253, R274). -/
def Dev.domLimits (d : Dev) (k t : Nat) : Int × Int :=
  let lo := d.geti (Pg.rsp 2) (if t = 0 then RSP2.DOM_ULIM_LOG_ANN_MIN k else if t = 1 then RSP2.DOM_ULIM_LOG_SYNC_MIN k else RSP2.DOM_ULIM_LOG_DRESP_MIN k)
  if d.get (Pg.rsp 2) (RSP2.DOM_CTL_PROFILE k) = 2 then (max (if t = 0 then -3 else -7) lo, 0) else (max (-7) lo, 7)

/-- The enabled entry of the service address table for an address on a port (R269). -/
def Dev.addrFind (d : Dev) (p : Fin 24) (v6 : Bool) (a : Nat) : Option Nat :=
  (List.range 64).find? fun k =>
    d.on (Pg.rsp 4) (RSP4.ADDR_CTL_EN k) && d.on (Pg.rsp 4) (RSP4.ADDR_CTL_V6 k) == v6 && bit (d.get (Pg.rsp 4) (RSP4.ADDR_CTL_PORTS k)) p &&
    (let w (j : Nat) := d.get (Pg.rsp 4) (RSP4.ADDR_W_ADDR k j)
     if v6 then w 0 + w 1 * 2 ^ 32 + w 2 * 2 ^ 64 + w 3 * 2 ^ 96 == a else w 0 == a)

/-- A domain with multicast service is served on a port over a transport (R237). -/
def Dev.mcastOn (d : Dev) (p : Fin 24) (trans : Nat) : Bool := (List.range 8).any fun k => d.domOn k p && d.domTrans k trans && d.on (Pg.rsp 2) (RSP2.DOM_CTL_MCAST k)

/-- A message is recognized as PTP for this clock (R237). -/
def Dev.ptpKnown (d : Dev) (p : Fin 24) (x : PtpMsg) : Bool :=
  if x.trans = 0 then x.dst == d.get (ppg p) PORT.MAC_ADDR_ADDR || x.dst == 0x011B19000000 || x.dst == 0x0180C200000E
  else if x.mcast then
    d.mcastOn p x.trans && (if x.trans = 1 then x.dst == 0xE0000181 else (x.dst / 2 ^ 112 % 2 ^ 16 &&& 0xFFF0) == 0xFF00 && x.dst % 2 ^ 112 == 0x181)
  else match d.addrFind p (x.trans == 2) x.dst with
    | some k => d.on (Pg.rsp 4) (RSP4.ADDR_CTL_PTP k)
    | none => false

/-- A running upstream session that a message matches by port, domain and transport (R236). -/
def Dev.usMatch (d : Dev) (p : Fin 24) (x : PtpMsg) : Option (Fin 4) :=
  (List.finRange 4).find? fun n =>
    d.mstate (usK n) != monDisabled && d.get (Pg.us n) US.CFG_PORT == p && d.get (Pg.us n) US.CFG_DOMAIN == x.domain && d.get (Pg.us n) US.CFG_TRANSPORT == x.trans

/-- The class of a PTP message (R236, R237). -/
def Dev.ptpClass (d : Dev) (p : Fin 24) (x : PtpMsg) : Nat :=
  if !d.ptpKnown p x && (d.usMatch p x).isNone then 9 else
  let served := d.domFind p x.domain x.trans
  let us := (d.usMatch p x).isSome
  match x.body with
  | .usSync _ | .usFollowUp _ | .usAnnounce _ | .usDelayResp _ | .usGrant _ _ => if us then 2 else if served.isSome then 4 else 3
  | .delayReq _ _ => match served with
    | some k => if x.mcast && !d.on (Pg.rsp 2) (RSP2.DOM_CTL_MCAST k) then 4 else 0
    | none => 3
  | .signaling l => if served.isNone then 3 else if l.isEmpty then 4 else 1
  | .management => 3
  | .pdelay | .malformed => if served.isSome then 4 else 3

/-- The class of an NTP request, and its NTP class (R236, R259). -/
def Dev.ntpClass (d : Dev) (p : Fin 24) (x : NtpMsg) : Nat × Nat :=
  match d.addrFind p x.v6 x.dst with
  | some k =>
    if d.on (Pg.rsp 4) (RSP4.ADDR_CTL_NTP k) then
      let c := d.get (Pg.rsp 4) (RSP4.ADDR_CTL_NTP_CLASS k)
      if (x.version = 3 ∨ x.version = 4) ∧ x.mode = 3 ∧ 48 ≤ x.len ∧ !x.mac then (if x.nts.isSome then 6 else 5, c) else (7, c)
    else (9, 0)
  | none => (9, 0)

/-- The SyncE slots whose PORT names a port (R236). -/
def Dev.synceOf (d : Dev) (p : Fin 24) : List (Fin 4) := (List.finRange 4).filter fun n => d.get (Pg.us n) US.SYNCE_CFG_PORT == p.val && d.mstate (synceK n) != monDisabled

/-- The message class of a frame (R236). -/
def Dev.classOf (d : Dev) (p : Fin 24) (f : RxFrame) : Nat :=
  if f.third then 9 else match f.body with
  | .ptp x => d.ptpClass p x
  | .ntp x => (d.ntpClass p x).1
  | .esmc _ _ => 8
  | _ => 9

/-! Admission (R245 to R251). -/

/-- The policer of a port takes one frame; its tokens return in step-free time (R60, R247, R266). -/
def Dev.police (d : Dev) (p : Fin 24) : Bool × Dev :=
  let rate := d.get (Pg.rsp 1) (RSP1.POL_RATE p)
  let depth := max 1 (d.get (Pg.rsp 1) (RSP1.POL_BURST p)) * 1000000
  let now := d.freeNs
  let have_ := match d.rsp.pol[p] with
    | none => depth
    | some (v, t) => min depth (v + rate * (now - t))
  if rate = 0 ∨ have_ < 1000000 then (false, d.upRsp fun e => { e with pol := e.pol.set p (some (have_, now)) })
  else (true, d.upRsp fun e => { e with pol := e.pol.set p (some (have_ - 1000000, now)) })

/-- The fairness bucket of a source on a port (R248). -/
def fairBucket (p src : Nat) : Nat := Config.fairHash [p, src] % 4096

/-- A unit of tokens: 2^-16 of a response (R248). -/
abbrev token : Nat := 65536

/-- The capacity of one epoch in tokens (R248). -/
def Dev.epochP (d : Dev) : Nat := d.capP * token / 1000000
def Dev.epochC (d : Dev) : Nat := d.capC * token / 1000000

/-- Reserved work is not admitted (R248, R251). -/
def Dev.lackReserved (d : Dev) (p c : Nat) : Dev := d.upRsp fun e => { e with lackP := e.lackP + p, lackC := e.lackC + c, overload := true }

/-- Admit reserved work while it lies within the capacity of the epoch (R247, R248). -/
def Dev.admitReserved (d : Dev) (p c : Nat) : Bool × Dev :=
  if d.rsp.usedP + p ≤ d.rsp.epP ∧ d.rsp.usedC + c ≤ d.rsp.epC then
    (true, d.upRsp fun e => { e with usedP := e.usedP + p, usedC := e.usedC + c })
  else (false, d.lackReserved p c)

/-- Admit a reserved request, unless its bucket is shed in this epoch (R248). -/
def Dev.admitAsked (d : Dev) (b p c : Nat) : Bool × Dev :=
  let d := d.upRsp fun e =>
    let a := sget (fun _ => (0, 0)) e.asked b
    { e with asked := sset (fun _ => (0, 0)) e.asked b (a.1 + p, a.2 + c) }
  if d.rsp.shed.contains b then (false, d.lackReserved p c) else d.admitReserved p c

/-- Admit a request: reserved work against the capacity, unreserved work against the tokens of its bucket; a drop is counted in the bucket (R247, R248). -/
def Dev.mayAdmit (d : Dev) (reserved : Bool) (b crypto : Nat) : Bool × Dev :=
  let k := sget (fun _ => ({} : Bucket)) d.rsp.buckets b
  let put (k : Bucket) (d : Dev) : Dev := d.upRsp fun e => { e with buckets := sset (fun _ => ({} : Bucket)) e.buckets b k }
  let k := { k with last := d.freeNs }
  if reserved then
    let (ok, d) := d.admitAsked b token crypto
    (ok, put (if ok then k else { k with drops := min (k.drops + 1) 0xFFFFFFFF }) d)
  else if token ≤ k.pipe ∧ crypto ≤ k.crypto then (true, put { k with pipe := k.pipe - token, crypto := k.crypto - crypto } d)
  else (false, put { k with drops := min (k.drops + 1) 0xFFFFFFFF } d)

/-- The multicast part of the reserved work, in 1/128 messages per second: Q_p and Q_c (R246). -/
def Dev.mcastQ (d : Dev) : Nat × Nat :=
  (List.range 24).foldl (fun a p => (List.range 8).foldl (fun (a : Nat × Nat) k =>
    if d.domOn k p && d.on (Pg.rsp 2) (RSP2.DOM_CTL_MCAST k) then
      let q := rate128 (d.domLog k 0) + rate128 (d.domLog k 1) + 128 * d.get (Pg.rsp 2) (RSP2.DOM_RESV_RESV k)
      (a.1 + q, if d.on (Pg.rsp 2) (RSP2.DOM_CTL_AUTH_REQ k) then a.2 + q else a.2)
    else a) a) (0, 0)

/-- Reserved work Q_p and Q_c in 1/128 messages per second (R246). -/
def Dev.reserved (d : Dev) : Nat × Nat := (d.rsp.qp + d.mcastQ.1, d.rsp.qc + d.mcastQ.2)

/-- Show the reserved work (R266). -/
def Dev.reservedShow (d : Dev) : Dev :=
  let q := d.reserved
  (d.put (Pg.rsp 1) RSP1.RES_STS_QP (share (q.1 / 128) d.capP)).put (Pg.rsp 1) RSP1.RES_STS_QC (share (q.2 / 128) d.capC)

/-- A new grant that adds q fits within 0.9 of both capacities (R249). -/
def Dev.fitsNew (d : Dev) (dom q : Nat) : Bool :=
  let r := d.reserved
  let c := if d.on (Pg.rsp 2) (RSP2.DOM_CTL_AUTH_REQ dom) then q else 0
  10 * (r.1 + q) ≤ 9 * 128 * d.capP && 10 * (r.2 + c) ≤ 9 * 128 * d.capC

/-- A renewal stands while the reserved work, its own included, is within the capacities (R249). -/
def Dev.fitsOld (d : Dev) : Bool := d.reserved.1 ≤ 128 * d.capP && d.reserved.2 ≤ 128 * d.capC

/-! Keys of a message (R258, R306, R307). -/

/-- The key slot and keyID for an entry of a domain, or for the domain itself. -/
def Dev.authKey (d : Dev) (s : Words) (dom : Nat) (entry : Option Nat) : Nat × Nat :=
  let own := d.get (Pg.rsp 2) (RSP2.DOM_CTL_KEY_SLOT dom)
  match entry with
  | some i => if s.fld i eKeySlot = 0 then (own, d.keyId own) else (s.fld i eKeySlot, s.fld i eKeyId)
  | none => (own, d.keyId own)

/-- The authentication TLV of a message that a domain sends, up to its ICV (R306). -/
def Dev.authHead (d : Dev) (s : Words) (dom : Nat) (entry : Option Nat) : List Nat :=
  if d.on (Pg.rsp 2) (RSP2.DOM_CTL_AUTH_REQ dom) then
    [0x80, 0x09, 0, 22, d.get (Pg.key 3) (KEY3.SPP_SPP dom), 0] ++ (oct 4 (d.authKey s dom entry).2).reverse
  else []

/-- The counter under which a key that cannot serve is dropped: outside OPERATIONAL, STALE, or any other state (R258, R307, R313). -/
def Dev.keyFails (d : Dev) (slot use : Nat) : Option Nat :=
  if d.lifeCycle ≠ 2 then some cntNoKey
  else if d.loadable slot destPtp use then none
  else if d.keyState slot = keyStale ∨ d.key.blocked.contains slot then some cntStale
  else some cntAuth

/-- The checks of R307 before the lane: the TLV, the key, the keyID. -/
def Dev.authFails (d : Dev) (s : Words) (x : PtpMsg) (dom : Nat) (entry : Option Nat) : Option Nat :=
  match x.auth with
  | none => some cntAuth
  | some a =>
    if !a.last ∨ a.len ≠ 22 ∨ a.spp ≠ d.get (Pg.key 3) (KEY3.SPP_SPP dom) then some cntAuth
    else
      let (slot, kid) := d.authKey s dom entry
      match d.keyFails slot useMac with
      | some c => some c
      | none => if a.keyId = kid then none else some cntAuth

/-- The ICV of a message under key material: the first 16 octets of HMAC-SHA-256 (R306). -/
def icv (mat covered : List Nat) : List Nat := (stdOctets fnHmac (mat ++ covered)).take 16

/-! Composition (R57, R256, R257, R259 to R261). -/

/-- The error-bound TLV of a timescale with a bound code, when EBT_CTL selects the message: 0 Sync and Follow_Up, 1 Delay_Resp, 2 Announce (R57). -/
def Dev.ebt (d : Dev) (n : Ts) (code msg : Nat) : List Nat :=
  let pg := Pg.ts n
  let org := d.get pg TS.EBT_CTL_ORG
  if d.on pg TS.EBT_CTL_EN && org != 0 && bit (d.get pg TS.EBT_CTL_MSG) msg then
    let flags := b2n (d.get pg TS.BOUND_STS_STATE == 2) + 2 * d.get pg TS.BOUND_STS_DISAGREE + 4 * d.get pg TS.BOUND_STS_UNCONFIRMED + 8 * b2n (code / 2048 == 31)
    [0x80, 0x00, 0, 12] ++ (oct 3 org).reverse ++ [0, 0, 1] ++ (oct 2 code).reverse ++ [d.trace n, flags, n.val, 0]
  else []

/-- Trace class of a timescale (R47). -/
def Dev.traceCls (d : Dev) (n : Ts) : Nat := d.trace n / 16

/-- The fields of an Announce of a domain from a timescale (R256). -/
def Dev.announceFields (d : Dev) (n : Ts) (k : Nat) : List Nat :=
  let pg := Pg.ts n
  let st := d.get pg TS.BOUND_STS_STATE
  let tc := d.traceCls n
  let hold := decide (st = 2) && (match d.bts n, decodeBound (d.get (Pg.rsp 2) (RSP2.DOM_TRC_THR k)) with
    | some b, some t => decide (b ≤ t)
    | some _, none => true
    | _, _ => false)
  let soon := decide (d.get pg TS.LEAP_CTL_PENDING = 1 ∧ d.sec n < d.get pg TS.LEAP_AT_SEC ∧ d.get pg TS.LEAP_AT_SEC ≤ d.sec n + 86400)
  let soon2 := decide (d.get pg TS.LEAP_CTL_PENDING = 2 ∧ d.sec n < d.get pg TS.LEAP_AT_SEC ∧ d.get pg TS.LEAP_AT_SEC ≤ d.sec n + 86400)
  [d.get (Pg.rsp 2) (RSP2.DOM_ANN_PRIO1 k), d.ts[n].cls, d.accNow n, d.get (Pg.rsp 2) (RSP2.DOM_ANN_OSLV k), d.get (Pg.rsp 2) (RSP2.DOM_ANN_PRIO2 k),
   d.get (Pg.rsp 0) RSP0.CLOCK_ID_ID, 0, d.get pg TS.UTC_OFFSET_OFFSET, d.get pg TS.UTC_OFFSET_VALID, b2n soon, b2n soon2, 1,
   b2n ((decide (st = 1) && decide (tc ≤ 3)) || hold), b2n ((decide (st = 1) && decide (tc ≤ 4)) || hold),
   [0x20, 0x10, 0x90, 0x40, 0x90, 0xA0, 0x60, 0x40].getD tc 0xA0]

/-- The smear of a timescale at an engine time in 2^-16 ns: the offset it is served under, whether it inserts, and σ in 2^-16 ns; none when no smear is in progress (R261). -/
def Dev.smear (d : Dev) (n : Ts) (t : Int) : Option (Int × Bool × Int) :=
  let pg := Pg.ts n
  let ofs := d.geti pg TS.UTC_OFFSET_OFFSET
  let at_ (kind sec : Nat) (before : Int) : Option (Int × Bool × Int) :=
    let c : Int := (sec : Int) * sec16 - (if kind = 1 then sec16 / 2 else 0)
    let a := t - c + 43200 * sec16
    if 0 ≤ a ∧ a ≤ 86400 * sec16 then some (before, kind == 1, a / 86400) else none
  let kind := d.get pg TS.LEAP_CTL_PENDING
  if kind = 1 ∨ kind = 2 then at_ kind (d.get pg TS.LEAP_AT_SEC) ofs
  else match d.rsp.unsmear[n] with
    | some (s0, ins, t0) =>
      let left : Int := s0 - (d.stepFree n - t0) / (86400 * 2 ^ 32)
      if 0 < left then some (ofs, ins, left) else none
    | none => match d.rsp.leap[n] with
      | some (k, sec, _) => at_ k sec (if k = 1 then ofs - 1 else ofs + 1)
      | none => none

/-- What a leap that is still pending past the end of its smear adds to the offset: the smear alone applies it (R261). -/
def Dev.smearOver (d : Dev) (n : Ts) (t : Int) : Int :=
  let kind := d.get (Pg.ts n) TS.LEAP_CTL_PENDING
  let c : Int := (d.get (Pg.ts n) TS.LEAP_AT_SEC : Int) * sec16 - (if kind = 1 then sec16 / 2 else 0)
  if t ≤ c + 43200 * sec16 then 0 else if kind = 1 then 1 else if kind = 2 then -1 else 0

/-- A leap pending on a timescale is cancelled: a smear in progress walks back (R261). -/
def Dev.smearCancel (d : Dev) (n : Ts) : Dev :=
  match d.smear n (d.time16 n) with
  | some (_, ins, s) => d.upRsp fun e => { e with unsmear := e.unsmear.set n (some (s.toNat, ins, d.stepFree n)) }
  | none => d

/-- Show the smear of a timescale (R268). -/
def Dev.smearShow (d : Dev) (n : Ts) : Dev :=
  match d.smear n (d.time16 n) with
  | some (_, _, s) => (d.put (Pg.rsp 3) (RSP3.SMEAR_ACTIVE n) 1).put (Pg.rsp 3) (RSP3.SMEAR_SIGMA n) s.toNat
  | none => (d.put (Pg.rsp 3) (RSP3.SMEAR_ACTIVE n) 0).put (Pg.rsp 3) (RSP3.SMEAR_SIGMA n) 0

/-- The UTC offset in force at a stamped instant near the present, in 2^-16 ns of engine time: a leap that applies between the instant and now counts from its second on (R44, R260). -/
def Dev.ofsAt (d : Dev) (n : Ts) (t : Int) : Int :=
  let pg := Pg.ts n
  let ofs := d.geti pg TS.UTC_OFFSET_OFFSET
  let sec := t.fdiv sec16
  let kind := d.get pg TS.LEAP_CTL_PENDING
  if (kind = 1 ∨ kind = 2) ∧ (d.sec n : Int) < sec ∧ (d.get pg TS.LEAP_AT_SEC : Int) ≤ sec then (if kind = 1 then ofs + 1 else ofs - 1)
  else match d.rsp.leap[n] with
    | some (k, _, at_) => if sec < at_ ∧ at_ ≤ d.sec n then (if k = 1 then ofs - 1 else ofs + 1) else ofs
    | none => ofs

/-- The NTP timestamp of an engine time in 2^-16 ns under a class's smear: seconds × 2^32 + fraction, rounded down or up (R260, R261). -/
def Dev.ntpTime (d : Dev) (n : Ts) (k : Nat) (t : Int) (up : Bool) : Nat :=
  let sm := if d.on (Pg.rsp 3) (RSP3.NTP_CTL_SMEAR k) then d.smear n t else none
  let (ofs, t) := match sm with
    | some (o, ins, s) => (o, if ins then t - s else t + s)
    | none => if d.on (Pg.rsp 3) (RSP3.NTP_CTL_SMEAR k) then (d.geti (Pg.ts n) TS.UTC_OFFSET_OFFSET + d.smearOver n t, t) else (d.ofsAt n t, t)
  let sec := t.fdiv sec16 - ofs + 2208988800
  let r := (t.fmod sec16).toNat * 2 ^ 16
  ((sec * 2 ^ 32 + (if up then cdiv r (10 ^ 9) else r / 10 ^ 9 : Nat)) % (2 ^ 64 : Int)).toNat

/-- The engine time, in whole seconds, of the reference timestamp (R259). -/
def Dev.ntpRef (d : Dev) (n : Ts) : Int :=
  let t0 : Int := if d.hostMode n then d.ts[n].manT0
    else if d.selState n = selHoldover then d.hld[n].start
    else d.svc[n].updAt
  ((t0 + d.ts[n].stepSum).fdiv (2 ^ 32)).fdiv sec16 * sec16

/-- The ASCII reference identifier of a trace class (R259). -/
def refId (tc : Nat) : Nat :=
  [0x474E5353, 0x41544F4D, 0x52454600, 0x50545000, 0x46524551, 0x484F4C44, 0x4D414E00, 0x50414952].getD tc 0

/-- The NTP data of a response: the fields of R259 in order, for a receive stamp, a transmit stamp and its bound code; `ok` is readiness. -/
def Dev.ntpFields (d : Dev) (n : Ts) (k : Nat) (x : NtpMsg) (ok : Bool) (trx ttx : Int) (code : Nat) : List Nat :=
  let pg := Pg.ts n
  let kind := d.get pg TS.LEAP_CTL_PENDING
  let soon := decide ((kind = 1 ∨ kind = 2) ∧ d.sec n < d.get pg TS.LEAP_AT_SEC ∧ d.get pg TS.LEAP_AT_SEC ≤ d.sec n + 86400)
  let b := decodeBound code
  let li := if !ok || b.isNone then 3 else if soon && !d.on (Pg.rsp 3) (RSP3.NTP_CTL_SMEAR k) then kind else 0
  [li, x.version, 4, if ok then max 1 (d.get (Pg.rsp 3) (RSP3.NTP_CTL_STRATUM k)) else 0, x.poll, d.get (Pg.rsp 3) (RSP3.NTP_CTL_PREC k),
   d.get (Pg.rsp 3) (RSP3.NTP_RDELAY_RDELAY k), if ok then rootDispersion b else 0x100000, if ok then refId (d.traceCls n) else 0x494E4954,
   d.ntpTime n k (d.ntpRef n) false, x.xmit, d.ntpTime n k trx false, d.ntpTime n k ttx true]

/-- The lane an authenticated frame is signed in, or the counter of its drop (R258, R290). -/
def Dev.sendSigned (d : Dev) (p : Fin 24) (slot : Nat) (f : TxFrame) : Dev :=
  match d.keyFails slot useMac with
  | some c => d.rspDrop c f.cls p
  | none => match d.pickLane slot with
    | .none => d.rspDrop cntNoKey f.cls p
    | .full => d.rspDrop cntFair f.cls p
    | .lane n => d.lanePush n { op := 4, slot := slot, epoch := d.keyEpoch slot, mat := d.keyMat slot, port := p, job := .send f }

/-- The tags an entry asks for (R209, R273). -/
def Words.tags (s : Words) (i : Nat) : Option Nat × Option Nat :=
  let t := s.fld i eTags
  (if bit t 1 then some (s.fld i eSTci) else none, if bit t 0 then some (s.fld i eCTci) else none)

/-- The default tags of a port (R209). -/
def Dev.portTags (d : Dev) (p : Fin 24) : Option Nat × Option Nat :=
  let t := d.get (ppg p) PORT.VLAN_CTL_EG_TAGS
  (if bit t 1 then some (d.get (ppg p) PORT.VLAN_TCI_S_TCI) else none, if bit t 0 then some (d.get (ppg p) PORT.VLAN_TCI_C_TCI) else none)

/-- The scheduled launch edge of a frame composed now (R244). -/
def Dev.schedEdge (d : Dev) (p : Fin 24) (placeholders : Nat) : Nat :=
  let r := d.portRate p
  edgeAfter r ((d.now + 20 + 6 * placeholders + max 4 (d.get (Pg.rsp 0) RSP0.SCHED_LEAD)) * 10 + toLaunch r)

/-- The MEC at which a frame scheduled for an edge is committed (R244). -/
def commitAt (r k : Nat) : Nat := (k * uiNum r * 10 / uiDen r - toLaunch r) / 10

/-- Enter a frame into its queue, signed first when its domain asks for it (R258). -/
def Dev.send (d : Dev) (p : Fin 24) (auth : Option Nat) (f : TxFrame) : Dev :=
  match auth with
  | some slot => d.sendSigned p slot f
  | none => d.txPush p f

end Sys2Proof.Machine
end

