-- ==== Sys2Proof/Machine/Respond.lean ====
section
/-! DEFINITION. Answers of the responder: Delay_Resp, NTP and NTS responses, unicast negotiation, and what the timing wheel originates (R239 to R263). -/

namespace Sys2Proof.Machine

/-- The key of a client (R273, R275): ATYPE is the transport. -/
def clientKey (p : Fin 24) (x : PtpMsg) : CstKey := ⟨p, x.trans, x.src, x.clockId, x.portNum⟩

/-! Delay_Resp (R230, R240, R257). -/

/-- Compose and queue the Delay_Resp to a request; its credit becomes the queued frame. -/
def Dev.answerDelay (d : Dev) (s : Words) (p : Fin 24) (x : DreqIn) (entry : Option Nat) (auth : Option (Nat × List Nat)) : Dev :=
  let o := fixedTs ((entry.map fun i => s.fld i eTs).getD 0)
  let (t, b) := match o with
    | none => (x.t, x.bound)
    | some n => if n = 0 then (x.tFixed.1, x.bFixed.1) else (x.tFixed.2, x.bFixed.2)
  let n := d.tsOn p o
  let log := match entry with
    | some i => if s.granted i 2 then s.log i 2 else d.domLog x.dom 2
    | none => d.domLog x.dom 2
  let e := d.ebt n b 1
  let tags := match entry with
    | some i => s.tags i
    | none => (x.sTci, x.cTci)
  let dst := if x.msg.mcast then x.msg.dst else x.msg.src
  let num := d.get (Pg.rsp 2) (RSP2.DOM_CTL_DOMAIN x.dom)
  let f : TxFrame := { kind := .delayResp, level := 2, cls := 0, len := ptpLen x.msg.trans 54 + e.length + (if auth.isSome then 26 else 0), released := d.now, fixed := o, trans := x.msg.trans, dst := dst, mcast := x.msg.mcast, sTci := tags.1, cTci := tags.2, dom := num, seq := x.seq, auth := auth, tlv := d.authHead s x.dom entry, fields := [num, x.seq, x.msg.clockId, x.msg.portNum, wholeNs t, unsgn 64 (x.corr - fracNs t), unsgn 8 log] ++ e }
  ((d.creditGive p).rspCount cntRespPtp (some 0)).txPush p f

/-- A drop, counted in the entry too when it is for fairness, authentication or a stale key (R273, R307). -/
def dropIt (r : Words × Dev) (p : Fin 24) (cls cnt : Nat) (entry : Option Nat) : Words × Dev :=
  (if cnt = cntFair ∨ cnt = cntAuth ∨ cnt = cntStale then countDrop r.1 entry else r.1, r.2.rspDrop cnt cls p)

/-- Step-free time of TSA in 2^-16 s (R246, R254). -/
def Dev.sf16 (d : Dev) : Nat := d.wheelNow

/-- A Delay_Req is reserved work: a granted client at least half its interval after the last one, or a multicast one within RESV of the second (R246, R274). -/
def Dev.dreqReserved (d : Dev) (s : Words) (p : Fin 24) (x : DreqIn) (entry : Option Nat) : Bool :=
  if x.msg.mcast then sget (fun _ => 0) d.rsp.mcUsed (8 * p.val + x.dom.val) < d.get (Pg.rsp 2) (RSP2.DOM_RESV_RESV x.dom)
  else match entry with
    | some i => s.granted i 2 && decide (2 ^ (15 + s.log i 2).toNat ≤ (d.sf16 + 2 ^ 24 - s.fld i eDreqLast) % 2 ^ 24)
    | none => false

/-- Note a reserved Delay_Req. -/
def noteReserved (r : Words × Dev) (p : Fin 24) (x : DreqIn) (entry : Option Nat) : Words × Dev :=
  if x.msg.mcast then
    let k := 8 * p.val + x.dom.val
    (r.1, r.2.upRsp fun e => { e with mcUsed := sset (fun _ => 0) e.mcUsed k (sget (fun _ => 0) e.mcUsed k + 1) })
  else match entry with
    | some i => (r.1.setFld i eDreqLast (r.2.sf16 % 2 ^ 24), r.2)
    | none => r

/-- A Delay_Req behind the classifier (R239, R240, R243, R246 to R248, R257, R258, R279, R285, R290, R307). -/
def delayReq (r : Words × Dev) (p : Fin 24) (x : DreqIn) : Words × Dev :=
  let s := r.1
  let d := r.2
  let k := x.dom
  let uni := !x.msg.mcast
  if !d.portUpQ p then r
  else if uni && !d.cstOn then dropIt r p 0 cntNotReady none
  else
    let entry := if uni then d.lookup s (clientKey p x.msg) else none
    let o := fixedTs ((entry.map fun i => s.fld i eTs).getD 0)
    if entry.any fun i => s.fld i eLock == 1 then (s, d.count Pg.cst CST.LOCK_HIT_COUNT)
    else if !d.readyOn p o then dropIt r p 0 cntNotReady entry
    else
      let auth := d.on (Pg.rsp 2) (RSP2.DOM_CTL_AUTH_REQ k)
      let bad := if auth then d.authFails s x.msg k entry else none
      match bad with
      | some c => dropIt r p 0 c entry
      | none =>
        let granted := entry.any fun i => s.granted i 2
        let is_open := d.on (Pg.rsp 2) (RSP2.DOM_CTL_OPEN k) && d.get (Pg.rsp 2) (RSP2.DOM_CTL_PROFILE k) != 1
        if uni && !granted && !is_open then dropIt r p 0 cntDropPtp entry
        else
          let slot := (d.authKey s k entry).1
          let lane := if auth then d.pickLane slot else .none
          if auth && lane == .none then dropIt r p 0 cntNoKey entry
          else if !d.creditFree p then dropIt r p 0 cntTxq entry
          else if auth && lane == .full then dropIt r p 0 cntFair entry
          else
            let res := d.dreqReserved s p x entry
            match d.mayAdmit res (fairBucket p x.msg.src) (if auth then token else 0) with
            | (false, d) => dropIt (s, d) p 0 cntFair entry
            | (true, d) =>
              let (s, d) := if res then noteReserved (s, d) p x entry else (s, d)
              let d := d.creditTake p
              match lane with
              | .lane n => (s, d.lanePush n { op := 3, slot := slot, epoch := d.keyEpoch slot, mat := d.keyMat slot, port := p, job := .dreq x })
              | _ => (s, d.answerDelay s p x entry none)

/-! NTP and NTS (R239, R259, R262). -/

/-- An unsynchronized response counts in its second (R239). -/
def Dev.unsynced (d : Dev) (p : Fin 24) : Dev := d.when (!d.portReady p) fun d => d.upRsp fun e => { e with nr := e.nr.set p (e.nr[p] + 1) }

/-- An NTP or NTS request passes readiness: an unsynchronized one within the limit of 1,000 responses per second (R239, R264). -/
def Dev.ntpReady (d : Dev) (p : Fin 24) : Bool :=
  d.portReady p || (d.on (Pg.rsp 0) RSP0.CTL_EN && d.on (Pg.rsp 0) RSP0.CTL_NR_NTP && decide (d.rsp.nr[p] < 1000))

/-- An NTP frame's length with its NTP data. -/
def ntpLen (v6 : Bool) (n : Nat) : Nat := n + (if v6 then 66 else 46)

/-- The frame of an NTP response; its fields are composed at its commit (R259). -/
def Dev.ntpFrame (d : Dev) (p : Fin 24) (x : NtpIn) : TxFrame :=
  { kind := .ntp, level := 1, cls := 5, len := ntpLen x.msg.v6 48, released := d.now, step := some x.step, dst := x.msg.src, sTci := x.sTci, cTci := x.cTci, fields := [x.cls.val, x.msg.version, x.msg.poll, x.msg.xmit, b2n (d.portReady p), x.t.toNat] }

/-- A class 5 request behind the classifier. -/
def Dev.ntpRequest (d : Dev) (p : Fin 24) (x : NtpIn) : Dev :=
  if !d.portUpQ p then d
  else if !d.on (Pg.rsp 3) (RSP3.NTP_CTL_EN x.cls) then d.rspDrop cntDropNtp 5 p
  else if !d.ntpReady p then d.rspDrop cntNotReady 5 p
  else if !d.creditFree p then d.rspDrop cntTxq 5 p
  else match d.mayAdmit false (fairBucket p x.msg.src) 0 with
    | (false, d) => d.rspDrop cntFair 5 p
    | (true, d) => ((d.unsynced p).rspCount cntRespNtp (some 5)).txPush p (d.ntpFrame p x)

/-- The NTS NAK: kiss code NTSN, unauthenticated, with the Unique Identifier (R262). -/
def Dev.ntsNak (d : Dev) (p : Fin 24) (x : NtpIn) : Dev :=
  let uid := (x.msg.nts.map (·.uid)).getD []
  (d.rspCount cntNak (some 6)).txPush p { kind := .nts, level := 1, cls := 6, len := ntpLen x.msg.v6 (52 + uid.length), released := d.now, dst := x.msg.src, sTci := x.sTci, cTci := x.cTci, fields := [3, x.msg.version, 4, 0, x.msg.poll, 0, 0, 0, 0x4E54534E, 0, x.msg.xmit, 0, 0] ++ uid }

/-- A class 6 request behind the classifier. -/
def Dev.ntsRequest (d : Dev) (p : Fin 24) (x : NtpIn) : Dev :=
  match x.msg.nts with
  | none => d.rspDrop cntDropNtp 6 p
  | some q =>
    if !d.portUpQ p then d
    else if !d.on (Pg.rsp 3) (RSP3.NTP_CTL_EN x.cls) || !d.on (Pg.rsp 3) (RSP3.NTP_CTL_NTS x.cls) then d.rspDrop cntDropNtp 6 p
    else if d.lifeCycle ≠ 2 ∨ !d.ntsSealable then d.rspDrop cntNoKey 6 p
    else if !d.ntpReady p then d.rspDrop cntNotReady 6 p
    else
        let slot := q.kid / 2 ^ 24 % 256
        let known := d.loadable slot destNts useDecrypt && d.keyGroup slot && d.keyEpoch slot == q.kid % 2 ^ 24
        let lane := if known then d.pickLane slot else .none
        if known && lane == .none then d.rspDrop cntNoKey 6 p
        else if !d.creditFree p then d.rspDrop cntTxq 6 p
        else if known && lane == .full then d.rspDrop cntFair 6 p
        else match d.mayAdmit false (fairBucket p x.msg.src) (if known then token + q.placeholders * token / 4 else 0) with
        | (false, d) => d.rspDrop cntFair 6 p
        | (true, d) =>
          let d := d.unsynced p
          match lane with
          | .lane n =>
            let cur := d.get (Pg.key 3) KEY3.NTS_CUR_SLOT
            (d.creditTake p).lanePush n { op := 1, slot := slot, epoch := d.keyEpoch slot, mat := d.keyMat slot, port := p, job := .nts x (cur, d.keyEpoch cur, d.keyMat cur) }
          | _ => d.ntsNak p x

/-- The most cookies whose response is no longer than its request: one and one for each placeholder, at most 8 (R262). -/
def cookieCount (len uid placeholders : Nat) : Nat :=
  ((List.range (min 8 (1 + placeholders) + 1)).reverse.find? fun c => decide (92 + uid + 108 * c ≤ len)).getD 0

/-- New cookies under the sealing key, each with a fresh nonce (R303, R304). -/
def Dev.cookies (d : Dev) (sk : Nat × Nat × List Nat) (keys : List Nat) (n : Nat) : List Nat :=
  let kid := sk.1 * 2 ^ 24 + sk.2.1
  (List.range n).flatMap fun j =>
    let nonce := (stdOctets fnTrng [d.key.nonces + j]).take 16
    (oct 4 kid).reverse ++ nonce ++ stdOctets fnSivSeal (sk.2.2 ++ (oct 4 kid).reverse ++ nonce ++ [0, 15] ++ keys)

/-- The lane's part of an NTS request (R262): the cookie is opened, the request checked, new cookies sealed, and the response sealed for its scheduled launch. -/
def Dev.ntsFinish (d : Dev) (p : Fin 24) (n : Fin 16) (mat : List Nat) (x : NtpIn) (sk : Nat × Nat × List Nat) : Dev :=
  let d := d.creditGive p
  match x.msg.nts with
  | none => d
  | some q =>
    let kid := (oct 4 q.kid).reverse
    if !stdCheck fnSivCheck (mat ++ kid ++ q.nonce ++ q.ct) then (d.count (Pg.cl n) CL.ICV_FAIL_COUNT).ntsNak p x
    else
      let pt := stdOctets fnSivOpen (mat ++ kid ++ q.nonce ++ q.ct)
      let c2s := (pt.drop 2).take 32
      let s2c := (pt.drop 34).take 32
      if !stdCheck fnSivCheck (c2s ++ q.reqData ++ q.reqNonce ++ q.reqTag) then (d.count (Pg.cl n) CL.ICV_FAIL_COUNT).rspDrop cntAuth 6 p
      else
        let c := cookieCount x.msg.len q.uid.length q.placeholders
        let k := d.schedEdge p q.placeholders
        let ts := d.tsOn p none
        let head := d.ntpFields ts x.cls x.msg (d.portReady p) x.t (d.txStamp p k) (d.boundOn p none)
        let ck := d.cookies sk (c2s ++ s2c) c
        let nonce := (stdOctets fnTrng [d.key.nonces + c]).take 16
        let body := head ++ q.uid ++ nonce ++ stdOctets fnSivSeal (s2c ++ head ++ q.uid ++ nonce ++ ck)
        let d := d.upKey fun e => { e with nonces := e.nonces + c + 1 }
        (d.rspCount cntRespNts (some 6)).txPush p { kind := .nts, level := 1, cls := 6, len := ntpLen x.msg.v6 (92 + q.uid.length + 108 * c), released := d.now, sched := some k, step := some x.step, dst := x.msg.src, sTci := x.sTci, cTci := x.cTci, fields := body }

/-! Unicast negotiation (R249, R252, R276). -/

/-- What the fold over the TLVs of a Signaling message carries: the store and device, the client's entry, and the answers. -/
structure Nego where
  s : Words
  d : Dev
  entry : Option Nat
  out : List Nat

/-- A denial: the requested interval with durationField 0, counted under its reason. -/
def Nego.deny (g : Nego) (msg : Fin 3) (log : Int) (cnt : Nat) : Nego :=
  { g with d := g.d.rspCount cnt (some 1), out := g.out ++ [5, msg.val, unsgn 8 log, 0] }

/-- Write a grant: interval, expiry in step-free seconds, due time in the next slot, reservation (R252, R254, R255). -/
def Nego.grant (g : Nego) (dom : Fin 8) (i : Nat) (msg : Fin 3) (log : Int) (dur : Nat) (new : Bool) : Nego :=
  let dd := min dur (max 10 (g.d.get (Pg.rsp 1) RSP1.GRANT_CTL_DUR_MAX))
  let sec := g.d.sf16 / 65536
  let s := (((g.s.setFld i eState entActive).setFld i eGranted (g.s.fld i eGranted ||| 1 <<< msg.val)).setFld i (eLog msg) (unsgn 4 log)).setFld i (eExp msg) ((sec + dd) % 2 ^ 21)
  let due := (g.d.sf16 + 1) % 2 ^ 32
  let s := if !new then s else if msg = 1 then s.setFld i eDueSync due else if msg = 0 then s.setFld i eDueAnn due else s
  { g with s := s, d := if new then g.d.reserve dom (g.d.grantRate dom msg log) else g.d, entry := some i, out := g.out ++ [5, msg.val, unsgn 8 log, dd] }

/-- One TLV: a request with a changed interval first releases the old reservation (R252). -/
def Nego.tlv (p : Fin 24) (x : SigIn) (g : Nego) : SigTlv → Nego
  | .cancel msg =>
    let r := match g.entry with
      | some i => dropGrant (g.s, g.d) i msg
      | none => (g.s, g.d)
    { g with s := r.1, d := r.2, entry := g.entry.filter fun i => r.1.live i, out := g.out ++ [7, msg.val] }
  | .request msg log dur =>
    let d := g.d
    let o := fixedTs ((g.entry.map fun i => g.s.fld i eTs).getD 0)
    let lim := d.domLimits x.dom msg
    if !d.readyOn p o then g.deny msg log cntDenyReady
    else
    let old := g.entry.filter fun i => g.s.granted i msg
    let same := old.any fun i => g.s.log i msg == log
    let g : Nego := match old with
      | some i => if same then g else
        { g with s := g.s.setFld i eGranted (g.s.fld i eGranted - 1 <<< msg.val), d := d.unreserve x.dom (d.grantRate x.dom msg (g.s.log i msg)) }
      | none => g
    let d := g.d
    let ann := g.entry.any fun i => g.s.granted i 0
    if !d.on (Pg.rsp 2) (RSP2.DOM_CTL_UCAST x.dom) || dur == 0 || decide (log < lim.1) || decide (lim.2 < log) || (msg != 0 && !ann) then g.deny msg log cntDenyParam
    else
      if same then match g.entry with
        | some i => if d.fitsOld then g.grant x.dom i msg log dur false else g.deny msg log cntDenyCap
        | none => g
      else
        let g : Nego := match g.entry with
          | some _ => g
          | none => match g.d.freeWay g.s (clientKey p x.msg) with
            | some i =>
              let k := clientKey p x.msg
              let s := (List.range 8).foldl (fun s w => s.setWord (8 * i + w) 0) g.s
              let s := ((((s.setFld i eState entPending).setFld i ePort k.port).setFld i eAtype k.atype).setFld i eDom x.dom).setFld i eTags (b2n x.cTci.isSome + 2 * b2n x.sTci.isSome)
              let s := ((s.setFld i eSTci (x.sTci.getD 0)).setFld i eCTci (x.cTci.getD 0)).setFld i eAddrLo (k.addr % 2 ^ 64)
              let s := ((s.setFld i eAddrHi (k.addr / 2 ^ 64)).setFld i eClock k.clock).setFld i ePortNum k.num
              { g with s := s, entry := some i }
            | none => g
        match g.entry with
        | none => g.deny msg log cntDenyFull
        | some i => if g.d.fitsNew x.dom (g.d.grantRate x.dom msg log) then g.grant x.dom i msg log dur true else g.deny msg log cntDenyCap

/-- The answer to a Signaling message, in one message; an entry without a grant is freed (R252, R276). -/
def sigAnswer (r : Words × Dev) (p : Fin 24) (x : SigIn) (auth : Option (Nat × List Nat)) : Words × Dev :=
  let d := r.2
  if !d.cstOn then dropIt r p 1 cntNotReady none
  else
    let entry := d.lookup r.1 (clientKey p x.msg)
    if entry.any fun i => r.1.fld i eLock == 1 then (r.1, d.count Pg.cst CST.LOCK_HIT_COUNT)
    else if x.tlvs.isEmpty then r
    else
      let g := x.tlvs.foldl (Nego.tlv p x) ⟨r.1, d, entry, []⟩
      let tags := match g.entry with
        | some i => g.s.tags i
        | none => (x.sTci, x.cTci)
      let q := match g.entry with
        | some i => if g.s.fld i eGranted = 0 then freeEntry (g.s, g.d) i else (g.s, g.d)
        | none => (g.s, g.d)
      let num := d.get (Pg.rsp 2) (RSP2.DOM_CTL_DOMAIN x.dom)
      let len := ptpLen x.msg.trans (44 + 12 * x.tlvs.length) + (if auth.isSome then 26 else 0)
      let f : TxFrame := { kind := .signaling, level := 2, cls := 1, len := len, released := d.now, trans := x.msg.trans, dst := x.msg.src, sTci := tags.1, cTci := tags.2, dom := num, auth := auth, tlv := d.authHead g.s x.dom g.entry, fields := [num, x.msg.clockId, x.msg.portNum] ++ g.out }
      (q.1, (((q.2.cstShow q.1).reservedShow).rspCount cntSigTx (some 1)).txPush p f)

/-- A Signaling message behind the classifier (R235, R239, R252, R258). -/
def signaling (r : Words × Dev) (p : Fin 24) (x : SigIn) : Words × Dev :=
  let s := r.1
  let d := r.2
  if !d.portUpQ p then r
  else if !d.on (Pg.rsp 0) RSP0.CTL_EN then dropIt r p 1 cntNotReady none
  else if !d.granted kindSignal 0 then
    if d.rsp.sigQ.length < 1024 then
      (s, (d.upRsp fun e => { e with sigQ := e.sigQ ++ [(p, x)] }).put (Pg.rsp 7) RSP7.SIG_STS_QLVL (d.rsp.sigQ.length + 1))
    else (s, d.rspDrop cntSigDrop 1 p)
  else
    let entry := d.lookup s (clientKey p x.msg)
    let auth := d.on (Pg.rsp 2) (RSP2.DOM_CTL_AUTH_REQ x.dom)
    match (if auth then d.authFails s x.msg x.dom entry else none) with
    | some c => dropIt r p 1 c entry
    | none =>
      let slot := (d.authKey s x.dom entry).1
      let lane := if auth then d.pickLane slot else .none
      if auth && lane == .none then dropIt r p 1 cntNoKey entry
      else if auth && lane == .full then dropIt r p 1 cntFair entry
      else match d.mayAdmit false (fairBucket p x.msg.src) (if auth then token else 0) with
      | (false, d) => dropIt (s, d) p 1 cntFair entry
      | (true, d) => match lane with
        | .lane n => (s, d.lanePush n { op := 3, slot := slot, epoch := d.keyEpoch slot, mat := d.keyMat slot, port := p, job := .sig x })
        | _ => sigAnswer (s, d) p x none

/-! Origination (R255, R256). -/

/-- Where an originated message goes: port, domain, transport, destination, tags, fixed timescale, key slot and TLV when authenticated, and whether a skip is counted. -/
structure Dest where
  p : Fin 24
  k : Nat
  trans : Nat
  dst : Nat
  mcast : Bool
  tags : Option Nat × Option Nat
  fixed : Option Ts
  slot : Nat
  tlv : List Nat
  grant : Bool

/-- A skipped origination (R239, R248, R255). -/
def Dev.skip (d : Dev) (x : Dest) : Dev := if x.grant then d.rspCount cntSkipped else d

/-- Originate a Sync with a sequenceId, or skip it (R239, R243, R244, R248, R255, R258). -/
def Dev.originSync (d : Dev) (x : Dest) (seq : Nat) : Dev :=
  let auth := d.on (Pg.rsp 2) (RSP2.DOM_CTL_AUTH_REQ x.k)
  let two := d.on (Pg.rsp 2) (RSP2.DOM_CTL_TWO_STEP x.k)
  if !d.portUpQ x.p || !d.readyOn x.p x.fixed then d.skip x
  else match (if auth then d.keyFails x.slot useMac else none) with
  | some c => d.rspDrop c 2 x.p
  | none =>
    if !d.creditFree x.p then d.rspCount cntSkipped
    else match d.admitReserved (if two then 2 * token else token) (if auth then (if two then 2 * token else token) else 0) with
    | (false, d) => d.rspCount cntSkipped
    | (true, d) =>
      let n := d.tsOn x.p x.fixed
      let num := d.get (Pg.rsp 2) (RSP2.DOM_CTL_DOMAIN x.k)
      let e := if two then [] else d.ebt n (d.boundOn x.p x.fixed) 0
      let f : TxFrame := { kind := if two then .syncTwo else .syncOne, level := 1, cls := 2, len := ptpLen x.trans 44 + e.length + (if auth then 26 else 0), released := d.now, fixed := x.fixed, trans := x.trans, dst := x.dst, mcast := x.mcast, sTci := x.tags.1, cTci := x.tags.2, dom := num, seq := seq, tlv := x.tlv, fields := [num, seq] }
      let f : TxFrame := if auth && !two then
          let k := d.schedEdge x.p 0
          let t := d.txStamp x.p k x.fixed
          { f with sched := some k, fields := f.fields ++ [wholeNs t, fracNs t] ++ e }
        else f
      (d.rspCount cntSyncTx (some 2)).send x.p (if auth then some x.slot else none) f

/-- Originate an Announce with a sequenceId, or skip it (R239, R255, R256, R258). -/
def Dev.originAnn (d : Dev) (x : Dest) (seq : Nat) : Dev :=
  let auth := d.on (Pg.rsp 2) (RSP2.DOM_CTL_AUTH_REQ x.k)
  if !d.portUpQ x.p || !d.readyOn x.p x.fixed then d.skip x
  else match (if auth then d.keyFails x.slot useMac else none) with
  | some c => d.rspDrop c 2 x.p
  | none => match d.admitReserved token (if auth then token else 0) with
    | (false, d) => d.rspCount cntSkipped
    | (true, d) =>
      let n := d.tsOn x.p x.fixed
      let num := d.get (Pg.rsp 2) (RSP2.DOM_CTL_DOMAIN x.k)
      let e := d.ebt n (d.btsCode n) 2
      let f : TxFrame := { kind := .announce, level := 2, cls := 2, len := ptpLen x.trans 64 + e.length + (if auth then 26 else 0), released := d.now, fixed := x.fixed, trans := x.trans, dst := x.dst, mcast := x.mcast, sTci := x.tags.1, cTci := x.tags.2, dom := num, seq := seq, tlv := x.tlv, fields := [num, seq] ++ d.announceFields n x.k ++ e }
      (d.rspCount cntAnnTx (some 2)).send x.p (if auth then some x.slot else none) f

/-- What falls due by a slot: whether one is due in it, the number of due times passed before it, and the next (R255, R274). All are modulo 2^32 slots. -/
def dueAt (due slot iv : Nat) : Option (Bool × Nat × Nat) :=
  let k := (slot % 2 ^ 32 + 2 ^ 32 - due % 2 ^ 32) % 2 ^ 32
  if k < 2 ^ 31 then some (k % iv == 0, k / iv, (due + (k / iv + 1) * iv) % 2 ^ 32) else none

/-- The interval of a log value in slots; at least one. -/
def slotsOf (l : Int) : Nat := 2 ^ (clampI 0 30 (16 + l)).toNat

/-- The wheel's visit to one entry in a slot: poison, expiries, then what is due (R254, R255, R279, R282). -/
def visit (slot : Nat) (r : Words × Dev) (i : Nat) : Words × Dev :=
  let d := r.2
  if d.cst.poison.contains i then
    let d := if d.cst.bad.contains i then d else d.unreserve (r.1.fld i eDom) (d.entryRate r.1 i)
    freeEntry (r.1.setFld i eGranted 0, d) i
  else
    let r := if slot % 65536 = 0 then
        [0, 1, 2].foldl (fun (r : Words × Dev) t =>
          let late := (slot / 65536 % 2 ^ 21 + 2 ^ 21 - r.1.fld i (eExp t)) % 2 ^ 21
          if r.1.granted i t && decide (0 < late ∧ late < 2 ^ 20) then dropGrant (r.1, r.2.rspCount cntExpired) i t else r) r
      else r
    if !r.1.live i then r else
    let s := r.1
    let k := s.fld i eDom
    let p : Fin 24 := ⟨s.fld i ePort % 24, by omega⟩
    let x : Dest := ⟨p, k, s.fld i eAtype, s.fld i eAddrLo + s.fld i eAddrHi * 2 ^ 64, false, s.tags i, fixedTs (s.fld i eTs), (r.2.authKey s k (some i)).1, r.2.authHead s k (some i), true⟩
    let lock := s.fld i eLock == 1
    let r := match (if s.granted i 1 then dueAt (s.fld i eDueSync) slot (slotsOf (s.log i 1)) else none) with
      | some (now, m, due) =>
        let q := (s.fld i eSeqSync + m) % 65536
        ((s.setFld i eDueSync due).setFld i eSeqSync (q + 1), r.2.when now fun d => if lock then d.rspCount cntSkipped else d.originSync x q)
      | none => r
    match (if r.1.granted i 0 then dueAt (r.1.fld i eDueAnn) slot (slotsOf (r.1.log i 0)) else none) with
      | some (now, m, due) =>
        let q := (r.1.fld i eSeqAnn + m) % 65536
        ((r.1.setFld i eDueAnn due).setFld i eSeqAnn (q + 1), r.2.when now fun d => if lock then d.rspCount cntSkipped else d.originAnn x q)
      | none => r

/-- The lowest transport of a multicast domain, and its group address. -/
def Dev.mcastDst (d : Dev) (k : Nat) : Nat × Nat :=
  if d.domTrans k 0 then (0, 0x011B19000000) else if d.domTrans k 1 then (1, 0xE0000181) else (2, 0xFF0E * 2 ^ 112 + 0x181)

/-- Multicast origination of a domain on a port in a slot (R255). -/
def Dev.mcastSlot (d : Dev) (slot : Nat) (p : Fin 24) (k : Nat) : Dev :=
  let key := 8 * p.val + k
  if !(d.domOn k p && d.on (Pg.rsp 2) (RSP2.DOM_CTL_MCAST k)) then d.upRsp fun e => { e with mc := sdel e.mc key }
  else
    let e : McastEng := match d.rsp.mc.find? fun e => e.1 = key with
      | some e => e.2
      | none => { dueSync := slot, dueAnn := slot }
    let t := d.mcastDst k
    let x : Dest := ⟨p, k, t.1, t.2, true, d.portTags p, none, (d.authKey [] k none).1, d.authHead [] k none, false⟩
    let (e, d) := match dueAt e.dueSync slot (slotsOf (d.domLog k 0)) with
      | some (now, m, due) =>
        let q := (e.seqSync + m) % 65536
        ({ e with dueSync := due, seqSync := q + 1 }, d.when now fun d => d.originSync x q)
      | none => (e, d)
    let (e, d) := match dueAt e.dueAnn slot (slotsOf (d.domLog k 1)) with
      | some (now, m, due) =>
        let q := (e.seqAnn + m) % 65536
        ({ e with dueAnn := due, seqAnn := q + 1 }, d.when now fun d => d.originAnn x q)
      | none => (e, d)
    d.upRsp fun r => { r with mc := sins r.mc key e }

/-- The QL a port sends (R239, R263). -/
def Dev.qlOf (d : Dev) (p : Fin 24) : Nat :=
  let st := d.get (Pg.ts (d.cur (portConsumer p))) TS.BOUND_STS_STATE
  if !d.portReady p then 0xF
  else if !d.on (Pg.rsp 5) (RSP5.PORT_CTL_QL_AUTO p) then d.get (Pg.rsp 5) (RSP5.PORT_CTL_QL p)
  else if st = 1 then 2 else if st = 2 then d.get (Pg.rsp 5) (RSP5.PORT_CTL_QL p) else 0xF

/-- ESMC is sent on a port (R263, R264). -/
def Dev.esmcOn (d : Dev) (p : Fin 24) : Bool := d.portUpQ p && d.on (Pg.rsp 5) (RSP5.PORT_CTL_ESMC_EN p) && d.on (Pg.rsp 0) RSP0.CTL_EN

/-- A change of QL since the last PDU asks for an event PDU (R263). -/
def Dev.qlFollow (d : Dev) : Dev :=
  d.each (List.finRange 24) fun p d => d.when (d.esmcOn p && d.rsp.ql[p].isSome && d.rsp.ql[p] != some (d.qlOf p)) fun d => d.timer 0 (.esmcInfoPdu p)

/-- The wheel serves one slot: every entry in ascending index, multicast domains by port, and ESMC once per second (R255, R263). -/
def wheel (slot : Nat) (r : Words × Dev) : Words × Dev :=
  let l := r.1.filterMap fun e => if e.1 % 8 = 0 ∧ (r.1.live (e.1 / 8) || r.2.cst.poison.contains (e.1 / 8)) then some (e.1 / 8) else none
  let r := if r.2.cstOn then l.foldl (visit slot) r else r
  let d := r.2.each (List.finRange 24) fun p d => d.each (List.range 8) fun k d => d.mcastSlot slot p k
  let d := d.when (slot % 65536 == 0) fun d => d.each (List.finRange 24) fun p d => d.when (d.esmcOn p) fun d => d.after 0 (.esmcInfoPdu p)
  (r.1, if slot % 65536 = 0 then (d.cstShow r.1).reservedShow else d)

end Sys2Proof.Machine
end

