-- ==== Sys2Proof/Machine/Keys.lean ====
section
/-! DEFINITION. The commands of the crypto lanes and the key store (R289 to R316). -/

namespace Sys2Proof.Machine

/-! Lanes. -/

/-- R292: the known-answer test ends; with FENCE = 0 the lane runs. -/
def execKatDone (n : Fin 16) (pass : Bool) (s : State) : Host.Outcome State Fault Refusal :=
  s.run fun d =>
    let d := d.cancel (.katDone n true)
    if d.laneState n ≠ laneLoad ∨ d.lane[n].draining then d
    else if !pass then (d.laneEnter n laneFault).raise (Pg.cl n) 2 1
    else if d.on (Pg.cl n) CL.CTL_FENCE then d.upLane n fun e => { e with passed := true }
    else d.laneEnter n laneRun

/-- The class and port of an operation's request, for its drop (R258). -/
def LaneOp.cls (o : LaneOp) : Nat :=
  match o.job with
  | .dreq _ => 0
  | .sig _ => 1
  | .nts _ _ => 6
  | .send f => f.cls

/-- The request of an operation is dropped: a credit it held returns (R243). -/
def Dev.opOver (d : Dev) (o : LaneOp) : Dev :=
  match o.job with
  | .dreq _ | .nts _ _ => d.creditGive o.port
  | _ => d

/-- The drop is counted. -/
def Dev.dropOp (d : Dev) (o : LaneOp) (cnt : Nat) : Dev := (d.opOver o).rspDrop cnt o.cls o.port

/-- Dispatch a fenced lane's queue again under R290 (R292). -/
def Dev.redispatch (d : Dev) (n : Fin 16) : Dev :=
  let q := d.lane[n].queue
  let d := ((d.upLane n fun e => { e with queue := [], draining := false }).laneShow n).cancel (.cryptoOp n true)
  d.each q fun o d => match d.pickLane o.slot with
    | .none => d.dropOp o cntNoKey
    | .full => d.dropOp o cntFair
    | .lane k => d.lanePush k o

/-- R292: FENCE written 1 in RUN fences the lane; written 0 it lets a lane that has passed its test run. -/
def execFenceWrite (m : Master) (n : Fin 16) (v : Nat) (s : State) : Host.Outcome State Fault Refusal :=
  s.run fun d => d.writeStore m (Pg.cl n) 0x100 v fun d =>
    if d.on (Pg.cl n) CL.CTL_FENCE then (if d.laneState n = laneRun then (d.laneEnter n laneFenced).redispatch n else d)
    else if d.laneState n = laneLoad ∧ d.lane[n].passed then d.laneEnter n laneRun
    else d

/-- R292: UNFENCE with FENCE = 0 returns a FENCED or FAULT lane to LOAD. -/
def execUnfence (m : Master) (n : Fin 16) (s : State) : Host.Outcome State Fault Refusal :=
  s.run fun d => d.write m (Pg.cl n) 0x104 2 fun d =>
    if !d.on (Pg.cl n) CL.CTL_FENCE && (d.laneState n == laneFenced || d.laneState n == laneFault) then d.laneWake n else d

/-- R292: KAT_NOW in RUN stops dispatch; the queue drains, then the test runs. -/
def execKatNow (m : Master) (n : Fin 16) (s : State) : Host.Outcome State Fault Refusal :=
  s.run fun d => d.write m (Pg.cl n) 0x104 1 fun d => if d.laneState n = laneRun then d.laneWake n else d

/-- The ICV of a received message verifies under a key (R307). -/
def icvOk (mat : List Nat) (x : PtpMsg) : Bool := (x.auth.map fun a => icv mat x.covered == a.icv).getD false

/-- What a completed operation does for its request (R262, R306, R307); a message whose ICV fails is dropped, counted in its client's entry too (R273). -/
def laneAnswer (r : Words × Dev) (n : Fin 16) (o : LaneOp) : Words × Dev :=
  let key := some (o.slot, o.mat)
  match o.job with
  | .dreq x =>
    let entry := if x.msg.mcast then none else r.2.lookup r.1 (clientKey o.port x.msg)
    if icvOk o.mat x.msg then (r.1, r.2.answerDelay r.1 o.port x entry key)
    else dropIt (r.1, (r.2.creditGive o.port).count (Pg.cl n) CL.ICV_FAIL_COUNT) o.port 0 cntAuth entry
  | .sig x =>
    if icvOk o.mat x.msg then sigAnswer r o.port x key
    else dropIt (r.1, r.2.count (Pg.cl n) CL.ICV_FAIL_COUNT) o.port 1 cntAuth (r.2.lookup r.1 (clientKey o.port x.msg))
  | .nts x sk => (r.1, r.2.ntsFinish o.port n o.mat x sk)
  | .send f => (r.1, r.2.txPush o.port { f with auth := key })

/-- The operation at the head of a lane's queue completes: it is counted, its request is answered, and the lane goes on (R289, R302). -/
def laneDone (r : Words × Dev) (n : Fin 16) (o : LaneOp) (q : List LaneOp) : Words × Dev :=
  let stale := r.2.staleOp o
  let d := (r.2.upLane n fun e => { e with queue := q }).laneShow n
  let d := d.put (Pg.cl n) CL.OPS_COUNT ((d.get (Pg.cl n) CL.OPS_COUNT + 1) % 2 ^ 64)
  let r := laneAnswer (r.1, d.when stale fun d => d.count (Pg.cl n) CL.STALE_FIN_COUNT) n o
  let d := r.2.laneNext n
  (r.1, d.when (d.lane[n].draining && q.isEmpty) fun d => d.laneTest n)

/-- A result fails its check: it is discarded, counted in CLn_ERR alone, and the lane fenced (R292). -/
def Dev.laneBad (d : Dev) (n : Fin 16) (o : LaneOp) (q : List LaneOp) : Dev :=
  let d := (d.upLane n fun e => { e with queue := q }).laneShow n
  let d := ((d.opOver o).count (Pg.cl n) CL.ERR_COUNT).fault (Pg.cl n) 2 2
  if d.laneState n = laneRun then (d.laneEnter n laneFenced).redispatch n
  else
    let d := d.laneNext n
    d.when (d.lane[n].draining && q.isEmpty) fun d => d.laneTest n

/-- R289, R291, R292, R302: a lane completes the operation at the head of its queue; a result that fails its check is discarded and the lane fenced. -/
def execCryptoOp (n : Fin 16) (ok : Bool) (s : State) : Host.Outcome State Fault Refusal :=
  s.runStore fun st d =>
    let d := d.cancel (.cryptoOp n true)
    match d.lane[n].queue with
    | [] => (st, d)
    | o :: q => if ok then laneDone (st, d) n o q else (st, d.laneBad n o q)

/-! The key store. -/

/-- A write of a KEY register from offset 0x100 upward, under R297. -/
def Dev.keyWrite (d : Dev) (m : Master) (pg off v : Nat) (ok : Bool) (eff : Dev → Dev) : Dev :=
  let no (d : Dev) := d.count (Pg.key 0) KEY0.WR_DISC_COUNT
  match d.gate m pg off with
  | .refused => no (d.discard .refused pg)
  | .served => if ok then eff (d.served m pg off v) else (no d).pmc pg 4
  | g => d.discard g pg

/-- Results of KEY_RES (R314). -/
abbrev resDone : Nat := 1
abbrev resBusy : Nat := 2
abbrev resState : Nat := 3
abbrev resParent : Nat := 4
abbrev resEpoch : Nat := 5
abbrev resDepth : Nat := 6
abbrev resLife : Nat := 7
abbrev resStaging : Nat := 8
abbrev resWrap : Nat := 9
abbrev resPower : Nat := 10
abbrev resTrng : Nat := 11
abbrev resZero : Nat := 12

/-- Power is failing: PFW, or the internal monitor has tripped (R301, R394, R395). -/
def Dev.powerFails (d : Dev) : Bool := d.pwr.pfw || d.pwr.trip

/-- What refuses a key command: one running, failing power, a life cycle past OPERATIONAL, or the command's own check (R298, R300, R301, R313); 0 when nothing does. -/
def Dev.keyRefusal (d : Dev) (own : Nat) : Nat :=
  if d.on (Pg.key 0) KEY0.RES_BUSY then resBusy else if d.powerFails then resPower else if 3 ≤ d.lifeCycle then resLife else own

/-- The staging is cleared, and KEY_RES names the command (R298). -/
def Dev.keyNamed (d : Dev) (op slot : Nat) : Dev :=
  ((d.upKey fun e => { e with staged := [] }).put (Pg.key 0) KEY0.RES_SLOT slot).put (Pg.key 0) KEY0.RES_OP op

/-- A command begins: KEY_RES is busy and the commit follows 10 µs later (R300). -/
def Dev.keyBegin (d : Dev) (op slot : Nat) (i : KeyImage) : Dev :=
  let d := d.keyNamed op slot
  (((d.put (Pg.key 0) KEY0.RES_RESULT 0).put (Pg.key 0) KEY0.RES_BUSY 1).upKey fun e => { e with run := some ⟨op, slot, d.freeNs, i⟩ }).timerTime 0 (10 * micro) .keyCommit

/-- A command: refused with a result, or begun; every command clears the staging, and a refused UNWRAP of the link is a missed mirror (R298, R300, R301, R313, R411). A check answers 0 or the result, and the image to leave. -/
def Dev.keyCommand (d : Dev) (m : Master) (op slot : Nat) (ok : Bool) (chk : Dev → Nat × KeyImage) (eff : Dev → Dev := id) : Dev :=
  d.keyWrite m (Pg.key 0) 0x100 (slot * 65536 + op) ok fun d =>
    let c := chk d
    let r := d.keyRefusal c.1
    if r ≠ 0 then ((d.keyNamed op slot).put (Pg.key 0) KEY0.RES_RESULT r).when (m == .kwager && op == 5) fun d => d.count Pg.plk (PLK.CNT_COUNT 3) else eff (d.keyBegin op slot c.2)

/-- The image an install leaves: attributes in the layout of KEY_NEW_ATTR, PARENT, DEPTH, epochs, KEY_ID and material (R294, R315). -/
def keyImage (attr parent depth epoch id pepoch : Nat) (mat : List Nat) : KeyImage :=
  { a0 := keyActive * 2 ^ 30 + (attr / 2 ^ 25 % 32) * 2 ^ 25 + depth * 2 ^ 22 + parent * 2 ^ 12 + attr % 256
    a1 := epoch % 2 ^ 24, a2 := id % 2 ^ 32, a3 := pepoch, mat := mat }

/-- The checks common to the installs (R298, R308). -/
def Dev.installCheck (d : Dev) (slot attr epoch : Nat) (other : Nat) : Nat :=
  if d.keyState slot = keyActive then resState
  else if attr / 2 ^ 26 % 16 = 0 ∨ attr % 256 = 0 then resZero
  else if epoch ≤ d.keyEpoch slot then resEpoch
  else other

def Dev.newAttr (d : Dev) : Nat := d.get (Pg.key 0) KEY0.NEW_ATTR
def Dev.newEpoch (d : Dev) : Nat := d.get (Pg.key 0) KEY0.NEW_EPOCH_EPOCH
def Dev.newId (d : Dev) : Nat := d.get (Pg.key 0) KEY0.NEW_ID_ID
def Dev.rootState (d : Dev) : Nat := d.get (Pg.key 0) KEY0.LC_STS_ROOT

/-- The check of an IMPORT, and the image it leaves (R298). -/
def Dev.importOf (d : Dev) (slot : Nat) : Nat × KeyImage :=
  let words := (List.range 8).map fun k => (d.key.staged.find? fun e => e.1 = k).map (·.2)
  let r := d.installCheck slot d.newAttr d.newEpoch (if words.all (·.isSome) then 0 else resStaging)
  (r, keyImage d.newAttr 0x1FF 0 d.newEpoch d.newId 0 (words.flatMap fun w => oct 4 (w.getD 0)))

/-- R298: IMPORT installs the staged material. -/
def execImportKey (m : Master) (slot : Fin 256) (s : State) : Host.Outcome State Fault Refusal :=
  s.run fun d => d.keyCommand m 1 slot (m == .pf0) fun d => d.importOf slot

/-- The octets of a run of 32-bit registers. -/
def Dev.octets (d : Dev) (pg : Nat) (f : Nat → Fld) (n : Nat) : List Nat := (List.range n).flatMap fun k => oct 4 (d.get pg (f k))

/-- R299: the material a derivation gives. -/
def Dev.derived (d : Dev) (slot : Nat) (ikm : List Nat) : List Nat :=
  let pg := Pg.key 0
  let sl := min 32 (d.get pg KEY0.KDF_LEN_SALT_LEN)
  let salt := if sl = 0 then List.replicate 32 0 else (d.octets pg KEY0.SALT_SALT 8).take sl
  let info := (d.octets pg KEY0.INFO_INFO 16).take (min 64 (d.get pg KEY0.KDF_LEN_INFO_LEN))
  (stdOctets fnHkdf (salt.length :: salt ++ ikm ++ info ++ [slot] ++ (oct 3 d.newEpoch).reverse)).take 32

/-- The check of a DERIVE, and the image it leaves (R298, R299). -/
def Dev.deriveOf (d : Dev) (slot : Nat) : Nat × KeyImage :=
  let par := d.get (Pg.key 0) KEY0.NEW_ATTR_PARENT
  let root := par == 0x100
  let area := d.rootState
  let usable := if root then area == 1 || area == 2 else decide (par < 256) && d.keyState par == keyActive && bit (d.keyUsage par) useDerive
  let depth := if root then 1 else d.get (keyPg par) (KEY1.ATTR0_DEPTH (par % 128)) + 1
  let r := if area = 3 then resTrng else
    d.installCheck slot d.newAttr d.newEpoch (if !usable then resParent else if 4 < depth then resDepth else 0)
  let ikm := if root then stdOctets fnRoot [area] else d.keyMat par
  (r, keyImage d.newAttr par depth d.newEpoch d.newId (if root then 0 else d.keyEpoch par) (d.derived slot ikm))

/-- R298, R299: DERIVE computes the material from an ACTIVE parent or the root. -/
def execDeriveKey (m : Master) (slot : Fin 256) (s : State) : Host.Outcome State Fault Refusal :=
  s.run fun d => d.keyCommand m 2 slot (m == .pf0) fun d => d.deriveOf slot

/-- The slots that leave ACTIVE with a slot: those whose chain of parents meets it (R295). -/
def Dev.descendants (d : Dev) (slot : Nat) : List Nat :=
  let kids (l : List Nat) := (List.range 256).filter fun k => d.keyState k == keyActive && l.contains (d.keyParent k)
  let a := kids [slot]
  let b := kids a
  let c := kids b
  let e := kids c
  (a ++ b ++ c ++ e).eraseDups

/-- The image of a slot with another state. -/
def Dev.imageIn (d : Dev) (slot st : Nat) : KeyImage :=
  let i := sget (fun _ => ({} : KeyImage)) d.key.nv slot
  { i with a0 := i.a0 % 2 ^ 30 + st * 2 ^ 30, mat := if st = keyDestroyed then [] else i.mat }

/-- A slot and its descendants can no longer be loaded while the command runs (R300, R302). -/
def Dev.blockKeys (d : Dev) (slot : Nat) : Dev := (d.upKey fun e => { e with blocked := slot :: d.descendants slot }).ntsShow

/-- A slot may be invalidated by the host, or by the active partner through the link (R297, R411). -/
def mayInvalidate (m : Master) : Bool := m == .pf0 || m == .kwager

/-- R298, R300: RETIRE makes an ACTIVE slot STALE. -/
def execRetireKey (m : Master) (slot : Fin 256) (s : State) : Host.Outcome State Fault Refusal :=
  s.run fun d => d.keyCommand m 3 slot (mayInvalidate m) (fun d => (if d.keyState slot = keyActive then 0 else resState, d.imageIn slot keyStale)) fun d => d.blockKeys slot

/-- R298, R300: DESTROY zeroises an ACTIVE or STALE slot. -/
def execDestroyKey (m : Master) (slot : Fin 256) (s : State) : Host.Outcome State Fault Refusal :=
  s.run fun d => d.keyCommand m 4 slot (mayInvalidate m) (fun d => (if d.keyState slot = keyActive ∨ d.keyState slot = keyStale then 0 else resState, d.imageIn slot keyDestroyed)) fun d => d.blockKeys slot

/-- The material of the link key slot, when R399 lets it serve. -/
def Dev.linkKey (d : Dev) : Option (List Nat) :=
  let k := d.get Pg.plk PLK.KEY_SLOT
  if d.keyState k == keyActive && !d.key.blocked.contains k && d.keyGroup k && bit (d.keyDest k) destWrap && bit (d.keyUsage k) useEncrypt && bit (d.keyUsage k) useDecrypt && d.lifeCycle == 2
  then some (d.keyMat k) else none

/-- Send a link message, with what every message carries: the MEC and calendar time, the 1-bit sender role and the claim number; nothing is sent while the link key is not usable (R32, R399). -/
def Dev.kwgSend (d : Dev) (kind : String) (args : List Nat) : Dev :=
  d.when d.linkKey.isSome fun d => d.emit (.message kind ([d.now, d.cal, d.get Pg.plk PLK.CTL_PRIMARY, d.get Pg.plk PLK.CLAIM_NUM] ++ args))

/-- The check of an UNWRAP, and the image it leaves: attributes, epoch and KEY_ID in 4 octets each, and the material (R298). -/
def Dev.unwrapOf (d : Dev) (m : Master) (slot : Nat) (blob : List Nat) : Nat × KeyImage :=
  let mat := d.linkKey
  let good := m == .kwager && (mat.map fun k => stdCheck fnGcmCheck (k ++ blob)).getD false
  let t := stdOctets fnGcmOpen ((mat.getD []) ++ blob)
  let attr := unoct (t.take 4)
  let epoch := unoct ((t.drop 4).take 4) % 2 ^ 24
  let r := if d.rootState = 3 then resTrng else if !good then resWrap else d.installCheck slot attr epoch 0
  (r, keyImage attr 0x1FF 0 epoch (unoct ((t.drop 8).take 4)) 0 ((t.drop 12).take 32))

/-- R298: UNWRAP from the link installs the key a blob carries. -/
def execUnwrapKey (m : Master) (slot : Fin 256) (blob : List Nat) (s : State) : Host.Outcome State Fault Refusal :=
  s.run fun d => d.keyCommand m 5 slot (m == .kwager || m == .pf0) fun d => d.unwrapOf m slot blob

/-- KEY_SALT and KEY_INFO are cleared, and the command is done (R298). -/
def Dev.keyCleared (d : Dev) : Dev :=
  let pg := Pg.key 0
  let d := d.each (List.range 8) fun k d => d.put pg (KEY0.SALT_SALT k) 0
  let d := d.each (List.range 16) fun k d => d.put pg (KEY0.INFO_INFO k) 0
  let d := ((d.upKey fun e => { e with run := none }).cancel .keyCommit).put pg KEY0.RES_BUSY 0
  ((d.put pg KEY0.RES_RESULT resDone).record 0x61 (srcPage pg) [6, 0, resDone]).int pg 0

/-- R298: ABORT clears KEY_STAGE, KEY_SALT and KEY_INFO. -/
def execKeyAbort (m : Master) (s : State) : Host.Outcome State Fault Refusal :=
  s.run fun d => d.keyCommand m 6 0 (m == .pf0) (fun _ => (0, {})) Dev.keyCleared

/-- Show a slot's image. -/
def Dev.showSlot (d : Dev) (slot : Nat) (i : KeyImage) : Dev :=
  let k := slot % 128
  (((d.put (keyPg slot) (KEY1.ATTR0 k) i.a0).put (keyPg slot) (KEY1.ATTR1 k) i.a1).put (keyPg slot) (KEY1.ATTR2 k) i.a2).put (keyPg slot) (KEY1.ATTR3 k) i.a3

/-- A slot's state has changed: its record names the slot whose change caused it (R296). -/
def Dev.keyChanged (d : Dev) (slot old new cause : Nat) : Dev :=
  if old = new then d else (d.record 0x60 (srcPage (Pg.key 0)) [slot, old, new, cause]).int (Pg.key 0) 1

/-- A slot takes a new image, and its descendants become STALE when it leaves ACTIVE (R295, R296). -/
def Dev.setSlot (d : Dev) (slot : Nat) (i : KeyImage) : Dev :=
  let old := d.keyState slot
  let kids := d.descendants slot
  let d := d.upKey fun e => { e with nv := sset (fun _ => ({} : KeyImage)) e.nv slot i }
  let d := (d.showSlot slot i).keyChanged slot old (i.a0 / 2 ^ 30) slot
  if old = keyActive ∧ i.a0 / 2 ^ 30 ≠ keyActive then
    d.each kids fun k d => (d.put (keyPg k) (KEY1.ATTR0_STATE (k % 128)) keyStale).keyChanged k keyActive keyStale slot
  else d

/-- An EXPORT key's install, or its end, goes to the standby (R411): installs wrapped under the link key, RETIRE and DESTROY as commands. -/
def Dev.mirrorKey (d : Dev) (r : KeyRun) (exported : Bool) : Dev :=
  if exported && d.get Pg.plk PLK.STS_ROLE == 3 && d.get Pg.plk PLK.STS_LINK == 3 && bit (d.get Pg.plk PLK.MIR_MIR) 1 then
    let blob := match d.linkKey with
      | some k => if r.op = 3 ∨ r.op = 4 then [] else stdOctets fnGcmSeal (k ++ oct 4 r.img.a0 ++ oct 4 r.img.a1 ++ oct 4 r.img.a2 ++ r.img.mat)
      | none => []
    d.kwgSend "mirror-key" ([r.op, r.slot] ++ blob)
  else d

/-- A command completes: its image stands, KEY_RES shows it done, and an EXPORT key is mirrored (R300, R411). -/
def Dev.keyDone (d : Dev) (r : KeyRun) : Dev :=
  let pg := Pg.key 0
  let d := (d.upKey fun e => { e with run := none, blocked := [] }).cancel .keyCommit
  let d := d.setSlot r.slot r.img
  let d := (((d.put pg KEY0.RES_SLOT r.slot).put pg KEY0.RES_OP r.op).put pg KEY0.RES_RESULT resDone).put pg KEY0.RES_BUSY 0
  ((d.record 0x61 (srcPage pg) [r.op, r.slot, resDone]).int pg 0).keyFollow.mirrorKey r (bit r.img.a0 25)

/-- R300: 10 µs after its origin the command completes; mirrors are loaded and the new state is visible. -/
def execKeyCommit (s : State) : Host.Outcome State Fault Refusal :=
  s.run fun d =>
    match d.key.run with
    | none => d
    | some r => d.keyDone r

/-- R304, R305: a write of KEY_NTS_CUR applies to the next dispatch. -/
def execKeyNtsCurWrite (m : Master) (v : Nat) (s : State) : Host.Outcome State Fault Refusal :=
  s.run fun d => d.keyWrite m (Pg.key 3) 0x108 v (m == .pf0) fun d => (d.storeReg (Pg.key 3) 0x108 v).ntsShow

/-! Attestation (R309). -/

def sha256 (l : List Nat) : List Nat := (stdOctets fnSha256 l).take 32
def sha384 (l : List Nat) : List Nat := (stdOctets fnSha384 l).take 48

/-- DIG of R309. -/
def Dev.digest (d : Dev) : List Nat :=
  let attrs := (List.range 256).flatMap fun s =>
    let k := s % 128
    [KEY1.ATTR0 k, KEY1.ATTR1 k, KEY1.ATTR2 k, KEY1.ATTR3 k].flatMap fun f => oct 4 (d.get (keyPg s) f)
  sha256 (oct 4 (d.get Pg.glb GLB.DEVICE_ID) ++ oct 8 (d.get (Pg.key 3) KEY3.UID_UID) ++ [d.lifeCycle, d.rootState] ++
    d.ldr.imageHash ++ oct 4 (d.get Pg.ldr LDR.RUN_RUN_RB) ++ sha256 d.ldr.calBody ++ sha256 attrs ++ oct 8 d.now)

/-- Put octets into a run of 32-bit registers. -/
def Dev.putOctets (d : Dev) (pg : Nat) (f : Nat → Fld) (n : Nat) (l : List Nat) : Dev :=
  d.each (List.range n) fun k d => d.put pg (f k) (unoct ((l.drop (4 * k)).take 4))

/-- RESP over the challenge and the digest, under a usable pairing secret, or the result that says why there is none (R309, R313). -/
def Dev.attested (d : Dev) : Dev :=
  let pg := Pg.key 3
  let k := d.get pg KEY3.ATT_CTL_SLOT
  let d := if 3 ≤ d.lifeCycle then d.put pg KEY3.ATT_STS_RESULT 3
    else if !d.loadable k destAttest useMac then d.put pg KEY3.ATT_STS_RESULT 2
    else
      let dig := d.digest
      let resp := (stdOctets fnHmac (d.keyMat k ++ d.octets pg KEY3.ATT_CHAL_CHAL 4 ++ dig)).take 32
      let d := (d.putOctets pg KEY3.ATT_RESP_RESP 8 resp).putOctets pg KEY3.ATT_DIG_DIG 8 dig
      (d.put pg KEY3.ATT_MEC_MEC d.now).put pg KEY3.ATT_STS_RESULT 1
  d.int pg 0

/-- R309, R313: ATTEST computes RESP over the challenge and the digest, under a usable pairing secret. -/
def execAttest (m : Master) (s : State) : Host.Outcome State Fault Refusal :=
  s.run fun d => d.keyWrite m (Pg.key 3) 0x150 1 (m == .pf0 || m == .pf1) Dev.attested

/-! Life cycle (R311, R312). -/

/-- The hash of a signer in OTP: the vendor key for BLANK and RETURNED, else the owner key (R311). -/
def Dev.signerHash (d : Dev) : List Nat :=
  if d.lifeCycle = 0 ∨ d.lifeCycle = 3 then stdOctets fnRoot [0x100] else d.key.owner.getD (stdOctets fnRoot [0x101])

/-- The verdict on a life-cycle token (R311), as the RESULT of KEY_LC_RES; 1 accepts it. -/
def Dev.tokenResult (d : Dev) (t : List Nat) : Nat :=
  let f (a n : Nat) := (t.drop a).take n
  let tgt := (f 4 1).headD 0
  let z (l : List Nat) := l.all (· == 0)
  if d.powerFails then 8
  else if unoct (f 0 4) ≠ 0x48544C43 ∨ !z (f 5 3) ∨ !z (f 112 16) ∨ (tgt ≠ 2 ∧ !z (f 32 32)) ∨ (tgt ≠ 1 ∧ !z (f 64 48)) then 2
  else if tgt ≠ d.lifeCycle + 1 ∨ 4 < tgt then 3
  else if unoct (f 8 8) ≠ d.get (Pg.key 3) KEY3.UID_UID then 4
  else if f 16 16 ≠ d.octets (Pg.key 0) KEY0.LC_NONCE_NONCE 4 then 5
  else if sha384 (f 128 96) ≠ d.signerHash then 6
  else if !stdCheck fnEcdsaCheck (f 128 192 ++ f 0 224) then 7
  else 1

/-- Draw a nonce of 16 octets from the TRNG. -/
def Dev.drawNonce (d : Dev) : List Nat × Dev := ((stdOctets fnTrng [d.key.nonces]).take 16, d.upKey fun e => { e with nonces := e.nonces + 1 })

/-- Renew the life-cycle nonce (R312). -/
def Dev.renewNonce (d : Dev) : Dev :=
  let r := d.drawNonce
  r.2.putOctets (Pg.key 0) KEY0.LC_NONCE_NONCE 4 r.1

/-- Show the life cycle and the root in KEY and GLB. -/
def Dev.showLife (d : Dev) : Dev :=
  (d.put Pg.glb GLB.LC_STS_LC d.lifeCycle).put Pg.glb GLB.LC_STS_ROOT d.rootState

/-- An accepted token: the state bit, the destruction of the table, the owner hash (R311, R312). -/
def Dev.lifeTo (d : Dev) (tgt : Nat) (t : List Nat) : Dev :=
  let pg := Pg.key 0
  let d := d.put pg KEY0.LC_STS_LC tgt
  let d := if tgt = 1 then (d.upKey fun e => { e with owner := some ((t.drop 64).take 48) }).put pg KEY0.LC_STS_OWNER 1 else d
  let d := if tgt = 3 then d.put pg KEY0.LC_STS_ROOT 4 else d
  let keep := unoct ((t.drop 32).take 32)
  let d := ((d.upKey fun e => { e with run := none, blocked := [] }).cancel .keyCommit).put pg KEY0.RES_BUSY 0
  let d := d.each (List.range 256) fun k d =>
    if (tgt == 2 && bit keep k) || d.keyState k == keyEmpty || d.keyState k == keyDestroyed then d else d.setSlot k (d.imageIn k keyDestroyed)
  let d := if tgt = 3 then d.upKey fun e => { e with nv := [] } else d
  let d := d.upKey fun e => { e with lc := some (d.get pg KEY0.LC_STS) }
  d.showLife.keyFollow

/-- The token that KEY_LC_TOKEN holds. -/
def Dev.tokenOctets (d : Dev) : List Nat := (List.range 80).flatMap fun k => oct 4 (sget (fun _ => 0) d.key.token k)

/-- A token is judged: an accepted one moves the life cycle, and the nonce is renewed either way (R311, R312). -/
def Dev.tokenTake (d : Dev) (t : List Nat) : Dev :=
  let pg := Pg.key 0
  let r := d.tokenResult t
  let tgt := (t.drop 4).headD 0
  let d := d.when (r == 1) fun d => d.lifeTo tgt t
  (((d.put pg KEY0.LC_RES_RESULT r).record 0x63 (srcPage pg) [tgt, r]).int pg 2).renewNonce

/-- R311, R312: SUBMIT checks the token; the nonce is renewed either way. -/
def execSubmitToken (m : Master) (s : State) : Host.Outcome State Fault Refusal :=
  s.run fun d => d.keyWrite m (Pg.key 0) 0x340 1 (m == .pf0) fun d => d.tokenTake d.tokenOctets

end Sys2Proof.Machine
end

