-- ==== Sys2Proof/Machine/PulseOps.lean ====
section
/-! DEFINITION. Operations of the pulse generators (R186 to R192). -/

namespace Sys2Proof.Machine

def Dev.upEvo (d : Dev) (n : Fin 16) (f : EvoEng → EvoEng) : Dev := { d with evo := d.evo.set n (f d.evo[n]) }

/-- States and results of EVOm_STS (R192). -/
abbrev evoIdle : Nat := 0
abbrev evoWait : Nat := 1
abbrev evoRun : Nat := 2
abbrev evoStopping : Nat := 3
abbrev evoArmed : Nat := 1
abbrev evoLate : Nat := 2
abbrev evoConfig : Nat := 3
abbrev evoStopped : Nat := 4
abbrev evoDone : Nat := 5

def Dev.evoState (d : Dev) (n : Fin 16) : Nat := d.get Pg.evo (EVO.STS_STATE n)

/-- The binding consumer of a generator (R75). -/
def evoConsumer (n : Fin 16) : Fin 48 := ⟨28 + n.val, by omega⟩

/-- The programmed time of an index (R186). -/
def EvoEng.time (e : EvoEng) (i : Nat) : Nat := e.start + i * e.period

/-- An index exists and is still to come. -/
def EvoEng.more (e : EvoEng) : Bool := e.count.all fun c => e.next < c

/-- Show NEXT and LEFT (R192). -/
def Dev.evoShow (d : Dev) (n : Fin 16) : Dev :=
  let e := d.evo[n]
  let live := (d.evoState n == evoWait || d.evoState n == evoRun) && e.more
  (d.put Pg.evo (EVO.NEXT_TIME n) (if live then time96 (e.time e.next) else 0)).put Pg.evo (EVO.LEFT_COUNT n)
    (match e.count with
     | some c => if d.get Pg.evo (EVO.CTL_MODE n) = 1 then min 0xFFFFFFFF (c - e.next) else 0
     | none => 0)

/-- The generator returns to IDLE: interrupt and event (R192, R331). -/
def Dev.evoEnd (d : Dev) (n : Fin 16) (result : Nat) : Dev :=
  ((((d.put Pg.evo (EVO.STS_STATE n) evoIdle).put Pg.evo (EVO.STS_RESULT n) result).evoShow n).int Pg.evo n).event (32 + n)

/-- A sequence with no index left ends: done, or late when it has emitted nothing (R188). -/
def Dev.evoOut (d : Dev) (n : Fin 16) : Dev :=
  if (d.evoState n = evoWait ∨ d.evoState n = evoRun) ∧ !d.evo[n].more ∧ d.evo[n].pulse.isNone then
    if d.evo[n].emitted then d.evoEnd n evoDone else (d.evoEnd n evoLate).record 0x33 (srcPage Pg.evo) [n.val, 3, evoLate]
  else d

/-- The level of a generator's pad: that of the pulse or the idle level by POL, with a released driver the idle level, or none on a shared bus (R186, R191). -/
def Dev.evoPad (d : Dev) (n : Fin 16) : Option Bool :=
  let low := d.on Pg.evo (EVO.CTL_POL n)
  if d.on Pg.evo (EVO.STS_DRIVEN n) then some (d.evo[n].pulse.isSome != low)
  else if d.on Pg.evo (EVO.CTL_BUS n) then none else some low

/-- The driver may drive: enabled or finishing a pulse, not held by a C4, the claim held where it is asked for (R190, R191). -/
def Dev.evoMay (d : Dev) (n : Fin 16) : Bool :=
  (d.on Pg.evo (EVO.CTL_EN n) || d.evo[n].pulse.isSome) && !d.c4Held && (!d.on Pg.evo (EVO.CTL_CLAIM n) || d.claimHeld)

/-- Bring the driver up to date: released at once, counting a pulse cut short by a claim loss; enabled at the first idle instant (R191). -/
def Dev.evoDriver (d : Dev) (n : Fin 16) : Dev :=
  if d.evoMay n then d.when (!d.on Pg.evo (EVO.STS_DRIVEN n)) fun d => d.timer 0 (.evoDriverEnable n)
  else
    let cut := d.on Pg.evo (EVO.STS_DRIVEN n) && d.evo[n].pulse.isSome && !d.c4Held
    (d.put Pg.evo (EVO.STS_DRIVEN n) 0).when cut fun d => d.count Pg.evo (EVO.TRUNC_COUNT n)

/-- Bring every driver up to date. -/
def Dev.evoAll (d : Dev) : Dev := d.each (List.finRange 16) fun n d => d.evoDriver n

/-- Skip the indices that are not later than a view time, in 2^-16 ns (R188, R190). -/
def Dev.evoSkip (d : Dev) (n : Fin 16) (v : Int) : Dev :=
  let e := d.evo[n]
  let k := if v < (e.time e.next : Int) then 0 else if e.period = 0 then 1 else ((v - e.time e.next) / e.period).toNat + 1
  let k := match e.count with
    | some c => min k (c - e.next)
    | none => k
  let d := (d.countN Pg.evo (EVO.SKIP_COUNT n) k).upEvo n fun e => { e with next := e.next + k }
  d.when (k != 0 && d.evoState n == evoWait) fun d => d.put Pg.evo (EVO.STS_STATE n) evoRun

/-- STOP: the sequence ends, after the trailing edge of a pulse in progress (R188). -/
def Dev.evoStop (d : Dev) (n : Fin 16) : Dev :=
  let d := if d.evoState n = evoIdle then d
    else if d.evo[n].pulse.isSome then (d.put Pg.evo (EVO.STS_STATE n) evoStopping).evoShow n
    else d.evoEnd n evoStopped
  d.record 0x33 (srcPage Pg.evo) [n.val, 2, d.get Pg.evo (EVO.STS_RESULT n)]

/-- A step of a timescale: no index is emitted again, those passed are skipped, a pulse keeps its width (R190). -/
def Dev.evoStep (d : Dev) (ts : Ts) (delta : Int) : Dev :=
  d.each (List.finRange 16) fun n d =>
    d.when (d.cur (evoConsumer n) == ts) fun d =>
      let d := d.upEvo n fun e => { e with pulse := e.pulse.map fun t => t + tdiv delta (2 ^ 32) }
      if d.evoState n = evoWait ∨ d.evoState n = evoRun then
        ((d.evoSkip n (d.evoView n)).evoShow n).evoOut n
      else d

/-- Round a time in 2^-16 ns to whole ps, ties toward the earlier (R187). -/
def roundPs (t : Int) : Int := - ((- t * 2000 + 65536).fdiv (2 * 65536))

/-- Where in TCLK the delay line launches the edge that crosses the ball at a view time in ps: in 2^-16 ns of MEC, EVOm_DLY earlier, the distance from the tick corrected by R_V (R187). -/
def Dev.evoLaunch (d : Dev) (n : Fin 16) (ps : Int) : Int :=
  let x : Int := (ps - d.geti Pg.evo (EVO.DLY_DLY n)) * 2 ^ 48 - 1000 * d.view (evoConsumer n)
  (d.now : Int) * 65536 + (x * 65536).fdiv (1000 * max 1 (d.viewRate (evoConsumer n)))

/-- An edge leaves a driven pad: the level that follows, the time at the ball in ps and the place of the launch (R186, R187). -/
def Dev.evoPlace (d : Dev) (n : Fin 16) (t : Int) : Dev :=
  match d.evoPad n with
  | some v => d.when (d.on Pg.evo (EVO.STS_DRIVEN n)) fun d =>
    d.emit (.message "evo edge" [n.val, b2n v, (roundPs t).toNat, (d.evoLaunch n (roundPs t)).toNat])
  | none => d

/-- The bound of an emitted edge (R187). -/
def Dev.evoBound (d : Dev) (n : Fin 16) : Nat :=
  let i := evoConsumer n
  encodeBound (sumBound [d.bts (d.cur i), d.bxts i, psBound 5, psBound 15, psBound 1])

end Sys2Proof.Machine
end

