-- ==== Sys2Proof/Machine/PairOps.lean ====
section
/-! DEFINITION. Operations of the redundant pair (R397 to R413): pins, link states, messages, roles, and the conditions under which a unit takes or releases the claim. -/

namespace Sys2Proof.Machine

def Dev.upPlk (d : Dev) (f : PlkEng → PlkEng) : Dev := { d with plk := f d.plk }

abbrev roleOff : Nat := 0
abbrev roleStandby : Nat := 1
abbrev roleRequesting : Nat := 2
abbrev roleActive : Nat := 3
abbrev roleReleasing : Nat := 4
abbrev linkDown : Nat := 0
abbrev linkAlign : Nat := 1
abbrev linkHello : Nat := 2
abbrev linkUp : Nat := 3
/-- Causes of PAIR_ROLE (R415). -/
abbrev prCommand : Nat := 0
abbrev prLost : Nat := 1
abbrev prUnfit : Nat := 2
abbrev prWitness : Nat := 3
abbrev prFatal : Nat := 4
abbrev prStart : Nat := 5

def Dev.role (d : Dev) : Nat := d.get Pg.plk PLK.STS_ROLE
def Dev.link (d : Dev) : Nat := d.get Pg.plk PLK.STS_LINK
def Dev.plkCount (d : Dev) (i : Nat) : Dev := d.count Pg.plk (PLK.CNT_COUNT i)

/-- A pin as PLK_STS.PINS shows it: 0 CLAIM_IN, 1 HB_IN alive, 2 WIT_GRANT, 3 WIT_REQ. -/
def Dev.pin (d : Dev) (i : Nat) : Bool := bit (d.get Pg.plk PLK.STS_PINS) i
def Dev.putPin (d : Dev) (i : Nat) (v : Bool) : Dev :=
  let w := d.get Pg.plk PLK.STS_PINS
  d.put Pg.plk PLK.STS_PINS (w - (w &&& 1 <<< i) + (if v then 1 <<< i else 0))

/-- A pin of the witness changes: an in-band interrupt with 0x02 and the PAIR_WIT message (R397, R438). -/
def Dev.witPin (d : Dev) (i : Nat) (v : Bool) : Dev :=
  if d.pin i = v then d
  else
    let d := d.putPin i v
    d.ibi (0x02 :: (b2n (d.pin 3) + 2 * b2n (d.pin 2)) :: oct 4 (d.get Pg.plk PLK.CLAIM_NUM))

/-- Timeouts of PLK_TMO and PLK_START in ns (R414). -/
def Dev.hbTime (d : Dev) : Nat := max 3 (d.get Pg.plk PLK.TMO_HB) * milli
def Dev.linkTime (d : Dev) : Nat := max 1 (d.get Pg.plk PLK.TMO_LINK) * milli
def Dev.failTime (d : Dev) : Nat := d.get Pg.plk PLK.TMO_FAIL * 10 * milli
def Dev.claimTime (d : Dev) : Nat := max 1 (d.get Pg.plk PLK.TMO_CLAIM) * milli
def Dev.reqTime (d : Dev) : Nat := max 1 (d.get Pg.plk PLK.TMO_REQ) * second
def Dev.startTime (d : Dev) : Nat := d.get Pg.plk PLK.START_START * second

/-! The link (R398, R399). -/

/-- The lane leaves ALIGN: a slot of it that runs or waits is abandoned (R227, R410). -/
def Dev.laneSlotDrop (d : Dev) : Dev :=
  let runs := d.plk.slot.isSome
  let d := (d.cancel (.calSlotEnd 24 none)).upPlk fun e => { e with due := false, slot := none, meas := none }
  d.when runs Dev.slotFreed

/-- The link enters a state (R398, R413). -/
def Dev.linkTo (d : Dev) (s : Nat) (rec : Bool) : Dev :=
  let old := d.link
  let pg := Pg.plk
  let d := (d.put pg PLK.STS_LINK s).int pg 1
  let d := d.when rec fun d => d.record 0xB1 (srcPage pg) ([old, s, 0, 0] ++ oct 8 d.plk.uid)
  let d := (((((d.cancel .kwgAlignTimeout).cancel .kwgLinkTimeout).cancel .healthTx).cancel .kwgSyncTx)).upPlk fun e => { e with fails := 0, sync := none }
  let d := d.when (s != linkUp) fun d => (d.cancel .helloTx).laneSlotDrop
  let d := d.when (old == linkUp) fun d =>
    let d := d.upPlk fun e => { e with offs := [], freshX := false, report := none, unfit := none, sent := [], gap := (d.role == roleStandby || d.role == roleRequesting) && d.get pg PLK.MIR_MIR != 0 }
    d.selectLost
  let d := d.when (s == linkAlign) fun d => ((d.upPlk fun e => { e with due := true, cal := false }).timerTime 0 second .kwgAlignTimeout).after 0 (.calSlotStart 24)
  let d := d.when (s == linkHello) fun d => d.timer 0 .helloTx
  d.when (s == linkUp) fun d =>
    let d := d.when d.plk.gap fun d => (d.plkCount 3).upPlk fun e => { e with gap := false }
    ((d.timerTime 0 d.linkTime .kwgLinkTimeout).timerTime 0 (100 * milli) .healthTx).timerTime 0 milli .kwgSyncTx

/-- The link fails: back to ALIGN (R398). -/
def Dev.linkFail (d : Dev) : Dev := (d.plkCount 0).linkTo linkAlign true

/-- PD13 is granted after BOOT_DONE: the link begins to align (R398). -/
def Dev.linkStart (d : Dev) : Dev :=
  if d.link = linkDown ∧ d.on Pg.plk PLK.CTL_EN ∧ d.on Pg.glb GLB.BOOT_STS_BOOT_DONE ∧ d.granted kindPair 0 then d.linkTo linkAlign false else d

/-! Fitness and conditions (R400, R405, R407). -/

/-- This unit is FIT (R405). -/
def Dev.fit (d : Dev) : Bool :=
  let ok (n : Ts) : Bool := d.get (Pg.ts n) TS.BOUND_STS_STATE == 1 || d.get (Pg.ts n) TS.BOUND_STS_STATE == 2
  d.on Pg.glb GLB.BOOT_STS_BOOT_DONE && d.get Pg.flt FLT.CLASS_STS_LAT / 8 == 0 && ok 0 && (!d.on Pg.plk PLK.CTL_NEED_B || ok 1) && d.on Pg.plk PLK.STS_SELFTEST

/-- Keep, begin or end the time since which a condition has held. -/
def since (now : Nat) (c : Bool) (o : Option Nat) : Option Nat := if c then (match o with | some t => some t | none => some now) else none

/-- A condition has held for a time. -/
def heldFor (now dt : Nat) (o : Option Nat) : Bool := o.any fun t => decide (t + dt ≤ now)

/-- The second and third cases of R407, as they stand now. -/
def Dev.badPartner (d : Dev) : Bool := d.link == linkUp && d.plk.report.any fun x => !x.fit || (x.role != roleActive && !d.pin 0)
def Dev.noHolder (d : Dev) : Bool := (d.role == roleStandby || d.role == roleRequesting) && !d.pin 0 && !d.plk.active

/-- The cause of the take condition that holds, none when none does (R407). -/
def Dev.takeCase (d : Dev) : Option Nat :=
  if !d.on Pg.plk PLK.CTL_AUTO || !d.on Pg.plk PLK.CTL_WIT_EN then none
  else if d.on Pg.plk PLK.STS_P_LOST then some prLost
  else if heldFor d.freeNs d.failTime d.plk.unfit then some prUnfit
  else if d.on Pg.plk PLK.CTL_PRIMARY && d.noHolder then some prStart
  else if !d.on Pg.plk PLK.CTL_PRIMARY && heldFor d.freeNs d.startTime d.plk.start then some prStart
  else none

/-! Roles (R401, R404). -/

/-- The claim begins or ends: the gated outputs follow (R161, R191, R402). -/
def Dev.claimFollow (d : Dev) : Dev := d.ckoAll.evoAll

/-- The role changes: its record and interrupt (R404, R415). -/
def Dev.roleTo (d : Dev) (s cause : Nat) : Dev :=
  let old := d.role
  let pg := Pg.plk
  let held := old == roleActive || old == roleReleasing
  let d := d.put pg PLK.STS_ROLE s
  let d := ((d.cancel .reqTimeout).cancel .claimWaitEnd).upPlk fun e => { e with force := false, grantAt := none, rel := none }
  let d := d.when (s == roleActive) fun d =>
    let n := (max (d.get pg PLK.CLAIM_NUM) (d.get pg PLK.PCLAIM_NUM) + 1) % 2 ^ 32
    ((d.put pg PLK.CLAIM_NUM n).upPlk fun e => { e with claimNv := n }).event 76
  let d := d.when (s == roleStandby) fun d => d.upPlk fun e => { e with active := false, start := none }
  let d := d.witPin 3 (s == roleRequesting || s == roleActive)
  let d := (d.int pg 0).record 0xB0 (srcPage pg) ([old, s, 0, 0] ++ oct 4 (d.get pg PLK.CLAIM_NUM) ++ [cause])
  let d := d.when (held && s != roleActive && s != roleReleasing) fun d => d.event 77
  let d := d.when (s == roleActive || s == roleOff || (held && s == roleStandby)) fun d => d.selectLost
  d.claimFollow

/-- The wait on CLAIM_IN begins, or begins anew at a change of CLAIM_IN: low for 1 µs, or high until PLK_TMO.CLAIM after the grant (R404). -/
def Dev.claimWait (d : Dev) : Dev :=
  match d.plk.grantAt with
  | none => d
  | some t => d.timerTime 0 (if d.pin 0 then t + d.claimTime - d.freeNs else micro) .claimWaitEnd

/-- A REQUESTING unit has the witness's grant, or needs none (R404). -/
def Dev.claimGranted (d : Dev) : Bool := d.pin 2 || !d.on Pg.plk PLK.CTL_WIT_EN
def Dev.claimTry (d : Dev) : Dev :=
  if d.role = roleRequesting ∧ d.claimGranted ∧ d.plk.grantAt.isNone then (d.upPlk fun e => { e with grantAt := some d.freeNs }).claimWait else d

/-- STANDBY asks for the claim (R404). -/
def Dev.request (d : Dev) (cause : Nat) (force : Bool) : Dev :=
  let d := (d.roleTo roleRequesting cause).upPlk fun e => { e with force := force, cause := cause }
  (d.timerTime 0 d.reqTime .reqTimeout).claimTry

/-- RELEASING: the RELEASE message is sent; without a witness the release is complete at once (R404). -/
def Dev.release (d : Dev) (cause : Nat) : Dev :=
  let d := (d.kwgSend "release" []).roleTo roleReleasing cause
  if d.pin 2 && d.on Pg.plk PLK.CTL_WIT_EN then d else d.roleTo roleStandby cause

/-- Judge the role anew: fitness, the witness's grant, a latched C4, automatic release and the take conditions (R404, R405, R407). -/
def Dev.plkEval (d : Dev) : Dev :=
  let pg := Pg.plk
  let d := d.putb pg PLK.STS_FIT d.fit
  if d.role = roleOff then d
  else
    let now := d.freeNs
    let e := d.plk
    let bad := d.badPartner
    let none3 := d.noHolder
    let rel := d.role == roleActive && d.on pg PLK.CTL_AUTO_REL && !d.fit && e.report.any (·.fit)
    let d := d.upPlk fun e => { e with unfit := since now bad e.unfit, start := since now none3 e.start, rel := since now rel e.rel }
    let next := ((d.plk.unfit.toList.map (· + d.failTime)) ++ (d.plk.start.toList.map (· + d.startTime)) ++ (d.plk.rel.toList.map (· + d.failTime))).filter (now < ·)
    let d : Dev := match next with
      | [] => d.cancel .takeCondition
      | x :: l => d.timerTime 0 (l.foldl min x - now) .takeCondition
    if (d.role = roleActive ∧ d.on pg PLK.CTL_WIT_EN ∨ d.role = roleReleasing) ∧ !(d.pin 2 && d.on pg PLK.CTL_WIT_EN) then d.roleTo roleStandby prWitness
    else if (d.role = roleActive ∨ d.role = roleReleasing) ∧ d.get Pg.flt FLT.CLASS_STS_LAT / 16 = 1 then d.roleTo roleStandby prFatal
    else if d.role = roleActive ∧ heldFor now d.failTime d.plk.rel then d.release prUnfit
    else match d.takeCase with
      | some c => if d.role = roleStandby ∧ d.fit then d.request c false else d
      | none => if d.role = roleRequesting ∧ !d.plk.force then d.roleTo roleStandby d.plk.cause else d

/-- EN = 1 and BOOT_DONE in OFF: STANDBY, with the heartbeat and the self-tests (R400, R404, R406). -/
def Dev.plkStart (d : Dev) : Dev :=
  if d.role ≠ roleOff ∨ !d.on Pg.plk PLK.CTL_EN ∨ !d.on Pg.glb GLB.BOOT_STS_BOOT_DONE then d.linkStart
  else
    let d := d.upPlk fun e => { e with lastMsg := d.freeNs, hbAt := d.freeNs, evoAt := d.freeNs, unfit := none, start := none, rel := none, active := false }
    let d := ((d.timer milli .hbToggle).timerTime 0 d.hbTime .partnerLost).timerTime 0 (10 * second) (.selftest true)
    ((d.roleTo roleStandby prCommand).linkStart).plkEval

/-- EN = 0, or PD13 off: the link is released and the claim given up (R398, R404). -/
def Dev.plkStop (d : Dev) : Dev :=
  let d := d.when (d.link != linkDown) fun d => d.linkTo linkDown false
  let d := d.when (d.role != roleOff) fun d => d.roleTo roleOff prCommand
  let d := (((d.cancel .hbToggle).cancel .partnerLost).cancel (.selftest true)).cancel .takeCondition
  (d.put Pg.plk PLK.STS_P_LOST 0).putPin 1 false

/-! Receiving (R399, R400). -/

/-- A message failed its tag or its replay check (R398, R399). -/
def Dev.kwgBad (d : Dev) (replay : Bool) : Dev :=
  if d.link < linkHello then d
  else if replay then d.plkCount 2
  else
    let d := (d.plkCount 1).upPlk fun e => { e with fails := e.fails + 1 }
    if 16 ≤ d.plk.fails then d.linkFail else d

/-- The watch for a lost partner runs while the pair is enabled (R400). -/
def Dev.lostWatch (d : Dev) : Dev := if d.role = roleOff ∨ d.waiting .partnerLost then d else d.timerTime 0 d.hbTime .partnerLost

/-- An accepted message shows the partner alive and its claim number (R399, R400). -/
def Dev.kwgSeen (d : Dev) (h : KwgHead) : Dev :=
  let d := (d.upPlk fun e => { e with lastMec := h.mec, lastMsg := d.freeNs, fails := 0 }).put Pg.plk PLK.PCLAIM_NUM h.claim
  let d := (d.put Pg.plk PLK.STS_P_LOST 0).lostWatch
  d.when (d.link == linkUp) fun d => d.timerTime 0 d.linkTime .kwgLinkTimeout

/-- A message of the partner is accepted: the link is past ALIGN, its key serves, and the message is no replay (R399). -/
def Dev.kwgTakes (d : Dev) (h : KwgHead) : Bool := decide (linkHello ≤ d.link) && d.linkKey.isSome && decide (d.plk.lastMec < h.mec)

/-- Take a message in: dropped while the key is not usable, in a state without messages, or as a replay; otherwise it shows the partner alive (R399, R400). -/
def Dev.kwgTake (d : Dev) (h : KwgHead) (f : Dev → Dev) : Dev :=
  if d.link < linkHello ∨ d.linkKey.isNone then d
  else if h.mec ≤ d.plk.lastMec then d.kwgBad true
  else (f (d.kwgSeen h)).plkEval

/-- σ_o of R409 as 3 σ_o, and the uncertainty of an exchange, unbounded while the lane or a link of its die is not calibrated (R26, R228, R409, R410). -/
def Dev.laneBound (d : Dev) : Bound :=
  let u := if !d.plk.cal || (portLinks 0).any d.uncal then none else decodeBound (d.get Pg.plk PLK.LANE_UNC_CODE)
  sumBound [u, u, some (rmsUp 3 125 32 d.plk.offs), decodeBound (d.get Pg.plk PLK.ASYM_UNC_CODE)]

/-- Form B_ref of the partner and the uncertainty of the MEC offset anew (R409, R410). -/
def Dev.partnerBound (d : Dev) : Dev :=
  let code := match d.plk.report with
    | some x => if d.on Pg.plk PLK.FOLLOW_SRC then x.tsb.2 else x.tsa.2
    | none => 0xFFFF
  let d := d.put Pg.plk PLK.MEC_UNC_CODE (encodeBound (if d.plk.offs.isEmpty then none else d.laneBound))
  d.upPlk fun e => { e with bref := encodeBound (addBound (decodeBound code) d.laneBound) }

/-! Stamps of the lane and the exchange (R410). -/

/-- A stamp of the lane from a reference edge, on TSA, on TSB and on the MEC (R220, R221, R410). -/
def Dev.laneStamp (d : Dev) (edge : Int) (den : Nat) (t16 ps psi : Int) : LaneStamp :=
  let on (n : Ts) : Int := d.stampOn 0 0 2 (some n) edge den t16 ps psi
  let m := (edge.fdiv den).toNat
  ⟨on 0, on 1, nominalStamp 2 (m * 2 ^ 48 : Nat) (2 ^ 48) m edge den t16 ps psi - d.linkCorr 1⟩

/-- The stamp of a link message committed now: its launch is the first edge of the lane reference at least 20.5 ns on (R220, R222, R230). -/
def Dev.laneTx (d : Dev) : LaneStamp :=
  d.laneStamp (edgeAfter 2 (10 * d.now + 205) * uiNum 2 : Nat) (uiDen 2) d.plk.eps (laneItem 0) 0

/-- The stamp of a link message received: 25 Gb/s without FEC, with the A_rx of the lane's calibration slot (R221, R222). -/
def Dev.laneRx (d : Dev) (f : LaneRx) : LaneStamp :=
  d.laneStamp ((f.edge : Int) * uiDen 2 - nDes 2 * uiNum 2 * 65536) (65536 * uiDen 2) (d.plk.eps - d.plk.arx) 0 f.psi.val

/-- The octets of a stamp in a message. -/
def laneWords (t : LaneStamp) : List Nat := [unsgn 96 t.tsa, unsgn 96 t.tsb, unsgn 96 t.mec]

/-- The stamp on one timescale. -/
def laneOn (t : LaneStamp) (v : Nat) : Int := if v = 1 then t.tsb else t.tsa

/-- A step of a timescale: the followed phase and its history shift with it, and an exchange in progress is given up (R60, R410). -/
def Dev.plkStep (d : Dev) (n : Ts) (delta : Int) : Dev :=
  let d := d.upPlk fun e => { e with sync := none }
  d.when (d.get Pg.plk PLK.FOLLOW_TS == n.val) fun d =>
    let s := tdiv delta (2 ^ 32)
    (d.puti Pg.plk PLK.PX_X (d.geti Pg.plk PLK.PX_X - s)).upPlk fun e => { e with offs := e.offs.map (· - s) }

/-- What is followed, or what bounds it, is written anew: another pair of timescales starts its history again (R409). -/
def Dev.followWritten (d : Dev) (was : Nat) : Dev :=
  (d.when (d.get Pg.plk PLK.FOLLOW_TS + 2 * d.get Pg.plk PLK.FOLLOW_SRC != was) fun d => d.upPlk fun e => { e with offs := [], freshX := false, sync := none }).partnerBound

/-! The merged event stream (R33). -/

/-- Where an event of the partner stands beside one of this unit. -/
inductive Merged where
  | ownFirst
  | partnerFirst
  | concurrent
  deriving DecidableEq, Repr

/-- Order an event of this unit against one of the partner by their MECs: the partner's is converted by the MEC offset, in 2^-16 ns, and the two are CONCURRENT when they differ by less than its uncertainty, in 2^-8 ps, or when that is unbounded (R33). -/
def mergeAt (off : Int) (unc : Bound) (own partner : Nat) : Merged :=
  let x : Int := own * 65536 - (partner * 65536 - off)
  if (match unc with | none => true | some u => decide (x.natAbs * 1000 < u * 256)) then .concurrent
  else if x < 0 then .ownFirst else .partnerFirst

/-- The same by the offset and the uncertainty that PLK_MEC_OFF and PLK_MEC_UNC report (R33, R410). -/
def Dev.merged (d : Dev) (own partner : Nat) : Merged :=
  mergeAt (d.geti Pg.plk PLK.MEC_OFF_OFF) (decodeBound (d.get Pg.plk PLK.MEC_UNC_CODE)) own partner

end Sys2Proof.Machine
end

