-- ==== Sys2Proof/Machine/Pair.lean ====
section
/-! DEFINITION. The commands of the redundant pair and the Kwager link (R397 to R415). -/

namespace Sys2Proof.Machine

/-! The link (R398, R399). -/

/-- R398, R404: PLK_CTL written with EN = 1: the link aligns and the unit stands by once BOOT_DONE is set. -/
def execPlkEnable (m : Master) (v : Nat) (s : State) : Host.Outcome State Fault Refusal :=
  s.run fun d => d.writeStore m Pg.plk 0x100 v fun d => (((if d.on Pg.plk PLK.CTL_EN then d.plkStart else d.plkStop).plkEval).claimTry).claimFollow

/-- R398, R404: PLK_CTL written with EN = 0: the link and the claim are released. -/
def execPlkDisable (m : Master) (v : Nat) (s : State) : Host.Outcome State Fault Refusal :=
  s.run fun d => d.writeStore m Pg.plk 0x100 v fun d => (((if d.on Pg.plk PLK.CTL_EN then d.plkStart else d.plkStop).plkEval).claimTry).claimFollow

/-- R226, R398: block lock held for 10 ms moves ALIGN to HELLO once the calibration slot of the lane is over; its loss fails the link. -/
def execKwgBlockLock (lock : Bool) (s : State) : Host.Outcome State Fault Refusal :=
  s.run fun d =>
    if lock then (if d.link = linkAlign ∧ d.plk.slot.isNone ∧ !d.plk.due then d.linkTo linkHello false else d)
    else if d.link = linkHello ∨ d.link = linkUp then d.linkFail else d

/-- R398: 1 s in ALIGN without block lock. -/
def execKwgAlignTimeout (s : State) : Host.Outcome State Fault Refusal :=
  s.run fun d => if d.link = linkAlign then (d.plkCount 0).timerTime 0 second .kwgAlignTimeout else d

/-- What a HELLO says of its sender: KEY_UID and the epoch of the link key (R398). -/
def Dev.helloArgs (d : Dev) : List Nat := [d.get (Pg.key 3) KEY3.UID_UID, d.keyEpoch (d.get Pg.plk PLK.KEY_SLOT)]

/-- R398: HELLO goes out every 1 ms from the entry into HELLO, also while the link is UP: no row ends it, and a unit that is UP first must let its partner follow. -/
def execHelloTx (s : State) : Host.Outcome State Fault Refusal :=
  s.run fun d => if d.link = linkHello ∨ d.link = linkUp then (d.kwgSend "hello" d.helloArgs).timerTime 0 milli .helloTx else d

/-- R398: a HELLO whose tag holds, with the epoch of the link key and the expected partner, brings the link UP. -/
def execHelloRx (h : KwgHead) (uid epoch : Nat) (s : State) : Host.Outcome State Fault Refusal :=
  s.run fun d => d.kwgTake h fun d =>
    let want := d.get Pg.plk PLK.PUID_UID
    if d.link = linkHello ∧ epoch = d.keyEpoch (d.get Pg.plk PLK.KEY_SLOT) ∧ (want = 0 ∨ uid = want) then
      (d.upPlk fun e => { e with uid := uid }).linkTo linkUp true
    else d

/-- R399: a message that fails its tag, or its replay check, is dropped and counted; 16 failed tags in a row fail the link. -/
def execKwgTagFail (replay : Bool) (s : State) : Host.Outcome State Fault Refusal :=
  s.run fun d => d.kwgBad replay

/-- R398: no valid message for PLK_TMO.LINK in UP. -/
def execKwgLinkTimeout (s : State) : Host.Outcome State Fault Refusal :=
  s.run fun d => if d.link = linkUp then d.linkFail.plkEval else d

/-! Heartbeat (R400). -/

/-- R400: HB_OUT toggles every 1 ms while the unit is enabled and no C4 is latched. -/
def execHbToggle (s : State) : Host.Outcome State Fault Refusal :=
  s.run fun d =>
    if !d.on Pg.plk PLK.CTL_EN || !d.on Pg.glb GLB.BOOT_STS_BOOT_DONE || d.inCave then d
    else
      let d := d.timer milli .hbToggle
      if bit (d.get Pg.flt FLT.CLASS_STS_LAT) 4 then d
      else (d.upPlk fun e => { e with hbOut := !e.hbOut }).emit (.message "hb-out" [b2n (!d.plk.hbOut)])

/-- R400: an edge on HB_IN shows the partner alive. -/
def execHbInEdge (s : State) : Host.Outcome State Fault Refusal :=
  s.run fun d =>
    let d := d.upPlk fun e => { e with hbAt := d.freeNs }
    if d.role = roleOff then d
    else (((d.putPin 1 true).put Pg.plk PLK.STS_P_LOST 0).lostWatch).plkEval

/-- HB_IN and the link are looked at: the partner is lost when both have been silent for PLK_TMO.HB, and looked at again later otherwise (R400). -/
def Dev.partnerSilent (d : Dev) : Dev :=
  let now := d.freeNs
  let hb := d.plk.hbAt + d.hbTime
  let msg := d.plk.lastMsg + d.hbTime
  let d := d.putPin 1 (decide (now < hb))
  if now < hb ∨ now < msg then
    d.timerTime 0 ((if hb ≤ now then msg else if msg ≤ now then hb else min hb msg) - now) .partnerLost
  else
    let was := d.on Pg.plk PLK.STS_P_LOST
    ((d.put Pg.plk PLK.STS_P_LOST 1).when (!was) fun d => d.int Pg.plk 2).plkEval

/-- R400: HB_IN silent for PLK_TMO.HB, and the partner lost when the link has been silent as long. -/
def execPartnerLost (s : State) : Host.Outcome State Fault Refusal :=
  s.run fun d =>
    if d.role = roleOff then d else d.partnerSilent

/-! Commands (R404, R407). -/

/-- R404, R407: TAKE; with FORCE = 0 only while the link is UP, as a request to the holder; without a witness FORCE = 1 needs CLAIM_IN low and the partner lost. -/
def execTake (m : Master) (force : Bool) (s : State) : Host.Outcome State Fault Refusal :=
  s.run fun d => d.write m Pg.plk 0x104 (1 + 4 * b2n force) fun d =>
    if d.role ≠ roleStandby then d
    else if !force then (if d.link = linkUp then d.kwgSend "handover-request" [] else d)
    else if d.on Pg.plk PLK.CTL_WIT_EN || (!d.pin 0 && d.on Pg.plk PLK.STS_P_LOST) then d.request prCommand true
    else d

/-- R404: HANDOVER releases the claim. -/
def execHandover (m : Master) (s : State) : Host.Outcome State Fault Refusal :=
  s.run fun d => d.write m Pg.plk 0x104 2 fun d => if d.role = roleActive then d.release prCommand else d

/-- R404: ABORT ends a request. -/
def execPlkAbort (m : Master) (s : State) : Host.Outcome State Fault Refusal :=
  s.run fun d => d.write m Pg.plk 0x104 3 fun d => if d.role = roleRequesting then d.roleTo roleStandby prCommand else d

/-- R407: the take conditions are judged when the time of one comes. -/
def execTakeCondition (s : State) : Host.Outcome State Fault Refusal :=
  s.run fun d => d.plkEval

/-! The claim (R401, R404). -/

/-- Clear LOCK of every mirrored entry (R411). -/
def unlockMirrored (st : Words) (l : List Nat) : Words := l.foldl (fun st i => st.setFld i eLock 0) st

/-- The claim is held: the unit is ACTIVE and its mirrored entries are unlocked (R401, R404, R411). -/
def claimDone (q : Words × Dev) : Words × Dev :=
  let d := q.2
  let cause := d.plk.cause
  let l := d.plk.mirrored
  let d := d.when (d.pin 0) fun d => d.plkCount 4
  let d := d.upPlk fun e => { e with mirrored := [], sent := [] }
  (unlockMirrored q.1 l, (d.roleTo roleActive cause).plkEval)

/-- R401, R404, R411: the wait on CLAIM_IN ends: the unit is ACTIVE with a new claim number, and mirrored entries are unlocked. -/
def execClaimWaitEnd (s : State) : Host.Outcome State Fault Refusal :=
  s.runStore fun st d =>
    if d.role = roleRequesting ∧ d.claimGranted ∧ d.plk.grantAt.isSome then claimDone (st, d) else (st, d)

/-- R404: CLAIM_IN changes: a requester's wait begins anew, and the take conditions are judged. -/
def execClaimInChange (high : Bool) (s : State) : Host.Outcome State Fault Refusal :=
  s.run fun d => (((d.putPin 0 high).when (d.role == roleRequesting && d.pin 0 != high) fun d => d.claimWait)).plkEval

/-- R402, R404: the witness grants the claim. -/
def execWitGrantRise (s : State) : Host.Outcome State Fault Refusal :=
  s.run fun d => ((d.witPin 2 true).claimTry).claimFollow

/-- R402, R404, R413: the witness takes the grant away: the gated drivers are released, and the holder stands by. -/
def execWitGrantFall (s : State) : Host.Outcome State Fault Refusal :=
  s.run fun d =>
    let d := d.witPin 2 false
    if !d.on Pg.plk PLK.CTL_WIT_EN then d
    else if d.role = roleActive ∨ d.role = roleReleasing then (d.roleTo roleStandby prWitness).plkEval
    else if d.role = roleRequesting then (((d.cancel .claimWaitEnd).upPlk fun e => { e with grantAt := none }).timerTime 0 d.reqTime .reqTimeout).claimFollow
    else d.claimFollow

/-- R404: no grant within PLK_TMO.REQ. -/
def execReqTimeout (s : State) : Host.Outcome State Fault Refusal :=
  s.run fun d => if d.role = roleRequesting ∧ d.plk.grantAt.isNone then ((d.plkCount 5).roleTo roleStandby d.plk.cause).plkEval else d

/-- R404, R407: the partner asks for the claim. -/
def execHandoverRequestRx (h : KwgHead) (s : State) : Host.Outcome State Fault Refusal :=
  s.run fun d => d.kwgTake h fun d => if d.role = roleActive ∧ d.link = linkUp then d.release prCommand else d

/-! Health (R406, R408). -/

/-- State, code and trace of a timescale as the report carries them. -/
def Dev.healthTs (d : Dev) (n : Ts) : List Nat :=
  let pg := Pg.ts n
  [d.get pg TS.BOUND_STS_STATE, d.get pg TS.BOUND_STS_CODE, d.get pg TS.BOUND_STS_TRACE]

/-- The fields of R408 in its order; PORTS_UP bit p is port p. -/
def Dev.healthReport (d : Dev) : List Nat :=
  let up := (List.range 24).foldl (fun a p => if d.get (Pg.port p) PORT.STS_STATE = 5 then a + 2 ^ p else a) 0
  [d.role, d.get Pg.plk PLK.CLAIM_NUM, b2n d.fit, d.get Pg.plk PLK.STS_SELFTEST, d.get Pg.flt FLT.CLASS_STS_LAT] ++ d.healthTs 0 ++ d.healthTs 1 ++
  [up, d.get Pg.pwr PWR.STS_MAIN_STATE, d.get Pg.pwr PWR.STS_MAIN_THROTTLED, d.get (Pg.ts 0) TS.UTC_OFFSET, d.get (Pg.ts 0) TS.LEAP_CTL_PENDING, d.get (Pg.ts 0) TS.LEAP_AT_SEC]

/-- R408: HEALTH goes out every 100 ms while the link is UP. -/
def execHealthTx (s : State) : Host.Outcome State Fault Refusal :=
  s.run fun d => if d.link = linkUp then (d.kwgSend "health" d.healthReport).timerTime 0 (100 * milli) .healthTx else d

/-- The standby writes the partner's UTC offset and leap where they differ (R411). -/
def Dev.mirrorUtc (d : Dev) (x : Health) : Dev :=
  let pg := Pg.ts 0
  if !bit (d.get Pg.plk PLK.MIR_MIR) 2 || !(d.role == roleStandby || d.role == roleRequesting) then d
  else
    let d := d.when (d.get pg TS.UTC_OFFSET != x.utc) fun d => d.after 0 (.utcOffsetWrite .kwager 0 x.utc)
    let d := d.when (d.get pg TS.LEAP_AT_SEC != x.leapAt) fun d => d.after 0 (.leapAtWrite .kwager 0 x.leapAt)
    d.when (d.get pg TS.LEAP_CTL_PENDING != x.pending || d.get pg TS.UTC_OFFSET != x.utc) fun d => d.after 0 (.leapPendingWrite .kwager 0 x.pending)

/-- A report is latched: a change of FIT is recorded, two ACTIVE units raise C2, and UTC is mirrored (R408, R411, R413). -/
def Dev.healthTake (d : Dev) (h : KwgHead) (x : Health) : Dev :=
  let pg := Pg.plk
  let changed := d.plk.pfit != x.fit
  let d := d.each [0, 1, 2, 3] fun k d => d.put pg (PLK.PHEALTH_HEALTH k) (x.words.getD k 0)
  let d := d.upPlk fun e => { e with report := some x, pfit := x.fit, active := e.active || x.role == roleActive }
  let d := d.when changed fun d => (d.record 0xB2 (srcPage pg) ((x.words.take 4).flatMap fun w => oct 4 w)).int pg 3
  let d := d.when (d.role == roleActive && x.role == roleActive) fun d =>
    (d.fault pg 2 1).when (decide (d.get pg PLK.CLAIM_NUM < h.claim)) fun d => d.release prCommand
  (d.mirrorUtc x).partnerBound

/-- R408, R411, R413: a report is latched; a change of FIT is recorded; of two units that report ACTIVE the one with the lower claim releases. -/
def execHealthRx (h : KwgHead) (x : Health) (s : State) : Host.Outcome State Fault Refusal :=
  s.run fun d => d.kwgTake h fun d =>
    if d.link ≠ linkUp then d
    else d.healthTake h x

/-- The gated EVO stages are due to be checked through their output probes: the unit holds no claim, and a minute has passed (R406). -/
def Dev.evoCheck (d : Dev) : Bool := d.role != roleActive && d.role != roleReleasing && decide (d.plk.evoAt + 60 * second ≤ d.freeNs)

/-- A round of self-tests has an outcome, and the next one follows 10 s later (R406). -/
def Dev.selftestEnd (d : Dev) (ok : Bool) : Dev :=
  let evo := d.evoCheck
  let pass := (ok || !evo) && (List.finRange 16).all fun (n : Fin 16) => d.laneState n != laneFault
  let d := (d.putb Pg.plk PLK.STS_SELFTEST pass).when evo fun d => d.upPlk fun e => { e with evoAt := d.freeNs }
  let d := if pass then d.lower Pg.plk 1 2 else d.raise Pg.plk 1 2
  let d := d.when (d.role == roleStandby) fun d =>
    d.each (List.finRange 16) fun (n : Fin 16) d => d.when (d.laneState n == laneRun) fun d => d.afterTime 0 (n.val * milli) (.katNow .kwager n)
  ((d.cancel (.selftest true)).afterTime 0 (10 * second) (.selftest true)).plkEval

/-- R406: a round of self-tests ends, in which once a minute `ok` is the outcome of the check of the EVO stages; the standby then has each lane in RUN test itself, 1 ms apart. -/
def execSelftest (ok : Bool) (s : State) : Host.Outcome State Fault Refusal :=
  s.run fun d =>
    if d.role = roleOff then d
    else d.selftestEnd ok

/-! The partner's time (R410) and the mirror of the store (R411, R412). -/

/-- Step-free units of 2^-16 s that are left until a stored expiry or due time, in the width of its field. -/
def leftOf (now at' width : Nat) : Nat := (at' + width - now % width) % width

/-- An entry as the mirror sends it: words 0 to 4, what is left of its expiries and due times, and word 7. -/
def Dev.mirrorOf (d : Dev) (st : Words) (i : Nat) : List Nat :=
  let now := d.sf16
  ([0, 1, 2, 3, 4].map fun k => st.word (8 * i + k)) ++ ([0, 1, 2].map fun t => leftOf now (st.fld i (eExp t) * 65536) (2 ^ 37)) ++
  [leftOf now (st.fld i eDueSync) (2 ^ 32), leftOf now (st.fld i eDueAnn) (2 ^ 32), st.word (8 * i + 7)]

/-- What differs between the store and what the standby was last sent (R411). -/
def Dev.mirrorSend (d : Dev) (st : Words) : Dev :=
  let old : Words := d.plk.sent
  let act (t : Words) : List Nat := t.entries.filter fun i => t.fld i eState == entActive
  let same (i : Nat) : Bool := (List.range 8).all fun k => st.word (8 * i + k) == old.word (8 * i + k)
  let d := d.each ((act old).filter fun i => st.fld i eState != entActive || st.key i != old.key i) fun i d =>
    d.kwgSend "mirror-release" ([0, 1, 2, 3, 4].map fun k => old.word (8 * i + k))
  let d := d.each ((act st).filter fun i => !same i) fun i d => d.kwgSend "mirror-entry" (d.mirrorOf st i)
  d.upPlk fun e => { e with sent := st }

/-- A SYNC is sent, its stamp kept for the answer (R410). -/
def Dev.syncSend (d : Dev) : Dev :=
  ((d.kwgSend "sync" []).upPlk fun e => { e with sync := some (d.now, d.laneTx) }).timerTime 0 milli .kwgSyncTx

/-- R410, R411: SYNC goes out every 1 ms; the active unit sends the changes of the store with it. -/
def execKwgSyncTx (s : State) : Host.Outcome State Fault Refusal :=
  let st : Words := s.store
  s.run fun d =>
    if d.link ≠ linkUp then d
    else
      let d := d.syncSend
      if d.role = roleActive ∧ bit (d.get Pg.plk PLK.MIR_MIR) 0 then d.mirrorSend st else d

/-- R410: a SYNC of the partner is stamped and answered: the RESP names the SYNC by its MEC and carries the stamps of its reception and of its own launch. -/
def execKwgSyncRx (h : KwgHead) (f : LaneRx) (s : State) : Host.Outcome State Fault Refusal :=
  s.run fun d => d.kwgTake h fun d =>
    if d.link = linkUp then d.kwgSend "resp" (h.mec :: laneWords (d.laneRx f) ++ laneWords d.laneTx) else d

/-- PLK_ASYM in 2^-16 ns. -/
def Dev.linkAsym (d : Dev) : Int := tdiv (d.geti Pg.plk PLK.ASYM_ASYM * 65536) 1000

/-- Partner minus local from an exchange, the asymmetry added to both local stamps (R96, R224, R410). -/
def offsetOf (a t1 t2 t3 t4 : Int) : Int := tdiv ((t2 - (t1 + a)) - (t4 + a - t3)) 2

/-- An exchange gives the partner's phase and MEC offset (R409, R410). -/
def Dev.exchanged (d : Dev) (x o : Int) : Dev :=
  let d := (d.puti Pg.plk PLK.PX_X x).puti Pg.plk PLK.MEC_OFF_OFF o
  (d.upPlk fun e => { e with offs := (x :: e.offs).take 16, freshX := true, sync := none }).partnerBound

/-- A RESP to the SYNC with local stamp t1, received at t4: the phase of the partner's timescale PLK_FOLLOW.SRC against the local one PLK_FOLLOW.TS, and the MEC offset (R409, R410). -/
def Dev.respTake (d : Dev) (t1 t2 t3 t4 : LaneStamp) : Dev :=
  let a := d.linkAsym
  let v := d.get Pg.plk PLK.FOLLOW_TS
  let w := d.get Pg.plk PLK.FOLLOW_SRC
  d.exchanged (offsetOf a (laneOn t1 v) (laneOn t2 w) (laneOn t3 w) (laneOn t4 v)) (offsetOf a t1.mec t2.mec t3.mec t4.mec)

/-- R409, R410: a RESP completes the exchange of the SYNC it names: the partner's phase and MEC offset. -/
def execKwgRespRx (h : KwgHead) (sync : Nat) (t2 t3 : LaneStamp) (f : LaneRx) (s : State) : Host.Outcome State Fault Refusal :=
  s.run fun d => d.kwgTake h fun d =>
    match d.plk.sync with
    | some (m, t1) => if d.link = linkUp ∧ m = sync then d.respTake t1 t2 t3 (d.laneRx f) else d
    | none => d

/-- Write every field of an entry as the mirror brings it (R412); `sf` is the step-free time at the MEC of the message, in 2^-16 s. -/
def mirrorFields (st : Words) (i port : Nat) (x : MirrorEntry) (sf : Int) : Words :=
  let st := [(eState, entActive), (ePort, port), (eTs, x.ts), (eAtype, x.atype), (eDom, x.dom), (eLock, 1), (eTags, x.tags), (eGranted, x.granted), (eKeySlot, x.keySlot),
    (eSTci, x.sTci), (eCTci, x.cTci), (eAddrLo, x.addr % 2 ^ 64), (eAddrHi, x.addr / 2 ^ 64), (eClock, x.clock), (ePortNum, x.num), (eKeyId, x.keyId),
    (eDueSync, unsgn 32 (sf + x.dueSync)), (eDueAnn, unsgn 32 (sf + x.dueAnn)), (eSeqSync, x.seqSync), (eSeqAnn, x.seqAnn), (eDreqLast, x.dreqLast)].foldl
      (fun st (e : EFld × Nat) => st.setFld i e.1 e.2) st
  [0, 1, 2].foldl (fun st t => (st.setFld i (eLog t) (x.logs.getD t 0)).setFld i (eExp t) (unsgn 21 ((sf + x.left.getD t 0) / 65536))) st

/-- Take one mirrored change into the store (R412). -/
def mirrorTake (r : Words × Dev) (h : KwgHead) (x : MirrorEntry) : Words × Dev :=
  let d := r.2
  let port := d.get Pg.plk (PLK.PMAP_PORT x.port)
  if 24 ≤ x.port.val ∨ 24 ≤ port ∨ !d.cstOn then (r.1, d.plkCount 3)
  else
    let key : CstKey := ⟨port, x.atype, x.addr, x.clock, x.num⟩
    let here := d.lookup r.1 key
    let elapsed := (d.now : Int) - (h.mec - tdiv (d.geti Pg.plk PLK.MEC_OFF_OFF) 65536)
    let sf := (d.sf16 : Int) - elapsed * 65536 / second
    if x.release then
      match here with
      | some i =>
        let q := freeEntry (r.1.setFld i eGranted 0, d.unreserve (r.1.fld i eDom) (d.entryRate r.1 i)) i
        (q.1, q.2.cstShow q.1)
      | none => r
    else
      let old : Dev := match here with
        | some i => d.unreserve (r.1.fld i eDom) (d.entryRate r.1 i)
        | none => d
      match (match here with | some i => some i | none => d.freeWay r.1 key) with
      | none => (r.1, d.plkCount 3)
      | some i =>
        let st := mirrorFields r.1 i port x sf
        let d := old.reserve (st.fld i eDom) (old.entryRate st i)
        let d := d.upPlk fun e => { e with mirrored := i :: e.mirrored.filter (· ≠ i) }
        (st, d.cstShow st)

/-- R411, R412: a change of the active unit's store is written into the standby's, locked. -/
def execMirrorEntryRx (h : KwgHead) (x : MirrorEntry) (s : State) : Host.Outcome State Fault Refusal :=
  s.runStore fun st d =>
    let ok := d.link = linkUp ∧ d.linkKey.isSome ∧ d.plk.lastMec < h.mec ∧ (d.role = roleStandby ∨ d.role = roleRequesting) ∧ bit (d.get Pg.plk PLK.MIR_MIR) 0
    let d := d.kwgTake h id
    if ok then mirrorTake (st, d) h x else (st, d)

end Sys2Proof.Machine
end

