-- ==== Sys2Proof/Machine/Gnss.lean ====
section
/-! DEFINITION. The commands of the GNSS receiver (R126 to R148). -/

namespace Sys2Proof.Machine

/-- Receiver states of GNSS_STS.STATE (R145). -/
abbrev gnssOff : Nat := 0
abbrev gnssSearch : Nat := 1
abbrev gnssTrack : Nat := 2
abbrev gnssTiming : Nat := 3
abbrev gnssSleep : Nat := 4
abbrev gnssSurvey : Nat := 5

def Dev.upGnss (d : Dev) (f : GnssEng → GnssEng) : Dev := { d with gnss := f d.gnss }
def Dev.gstate (d : Dev) : Nat := d.get (Pg.gnss 0) GNSS0.STS_STATE
def Dev.ht4Mode (d : Dev) : Bool := d.get (Pg.gnss 0) GNSS0.CTL_MODE == 1
def Dev.fixedPos (d : Dev) : Bool := d.get (Pg.gnss 4) GNSS4.POS_CTL_MODE == 1

/-- The word of an idle channel. -/
abbrev chIdle : Nat := 0xC0000000

/-- A channel's status word. -/
def Dev.chan (d : Dev) (c : Nat) : Nat := sget (fun _ => chIdle) d.gnss.ch c
def Dev.setChan (d : Dev) (c w : Nat) : Dev := d.upGnss fun g => { g with ch := sset (fun _ => chIdle) g.ch c w }

/-- The band A signal that a channel tracks (R126). -/
def Dev.chanSig (d : Dev) (c : Nat) : Nat := sget (fun _ => 0) d.gnss.sig c

/-- Fields of a channel's status word (R147). -/
def chF (f : Fld) (w : Nat) : Nat := f.get (BitVec.ofNat 96 w)
def chPut (f : Fld) (v w : Nat) : Nat := (f.put v (BitVec.ofNat 96 w)).toNat

/-- Band B is unavailable to the whole receiver and band A alone is permitted (R127). -/
def Dev.fallback (d : Dev) : Bool :=
  !d.ht4Mode && d.on (Pg.gnss 0) GNSS0.CTL_FALLBACK && (bit (d.get (Pg.gnss 0) GNSS0.STS_ALARM) 1 || d.gnss.biasB)

/-- Show the HT4 window (R148) and whether the fallback is in force (R127). -/
def Dev.ht4Show (d : Dev) : Dev :=
  let p := Pg.gnss 7
  let g := Pg.gnss 0
  let d := d.putb g GNSS0.STS_FBK (d.fallback && d.on g GNSS0.CTL_EN)
  let d := d.put p GNSS7.HT4_CTL_V (d.get g GNSS0.CTL_EN + 2 * b2n d.fixedPos)
  let d := d.put p GNSS7.HT4_STS_V (d.get g GNSS0.STS_SOL + 2 * b2n (d.get g GNSS0.STS_ALARM % 16 != 0) + d.get g GNSS0.STS_NSV_USED <<< 8)
  let d := ((d.put p GNSS7.HT4_POS_X_V (d.get (Pg.gnss 4) GNSS4.POS_X_POS)).put p GNSS7.HT4_POS_Y_V (d.get (Pg.gnss 4) GNSS4.POS_Y_POS)).put p
    GNSS7.HT4_POS_Z_V (d.get (Pg.gnss 4) GNSS4.POS_Z_POS)
  let i := d.get (Pg.gnss 3) GNSS3.CH_IDX_IDX
  let w := if i < 96 then d.chan i else 0
  ((d.put p GNSS7.HT4_SURVEY_V (d.get (Pg.gnss 4) GNSS4.POS_CTL_SURVEY)).put p GNSS7.HT4_CN0_IDX_V i).put p GNSS7.HT4_CN0_V
    (chF GNSS3.CH_STS_CN0_A w + chF GNSS3.CH_STS_SVID w <<< 8)

/-- SOL changes: INT_STS bit 0; without a solution the monitor loses its measurements (R86, R145). -/
def Dev.setSol (d : Dev) (v : Bool) : Dev :=
  if d.get (Pg.gnss 0) GNSS0.STS_SOL = b2n v then d else
  let d := (d.putb (Pg.gnss 0) GNSS0.STS_SOL v).int (Pg.gnss 0) 0
  if v then d else d.monLose 0

/-- The receiver stops tracking: EN = 0, a sleep or a revocation. The search is abandoned, but for a revocation, after which it resumes (R131, R142). -/
def Dev.gnssStop (d : Dev) (st : Nat) (keep : Bool := false) : Dev :=
  let d := d.upGnss fun g => { g with ch := [], sig := [], meas := none, sec := none, stamp := none, excl := [], jump := none, woke := false }
  let d := if keep then d else d.upGnss fun g => { g with queue := [], later := [], starting := false, eng := Vector.replicate 8 none }
  let d := (((d.put (Pg.gnss 0) GNSS0.STS_STATE st).put (Pg.gnss 0) GNSS0.STS_NSV_TRK 0).put (Pg.gnss 0) GNSS0.STS_NSV_USED 0).put (Pg.gnss 2) GNSS2.ACQ_STS_BUSY 0
  let d := d.when d.inCave fun d => d.clkLock 2 false
  (d.setSol false).ht4Show

/-- Satellites tracked: on both bands in native mode (R145). -/
def Dev.showTracked (d : Dev) : Dev :=
  let n := (d.gnss.ch.filter fun e => chF GNSS3.CH_STS_TRK_A e.2 == 1 && (d.ht4Mode || chF GNSS3.CH_STS_TRK_B e.2 == 1)).length
  (d.put (Pg.gnss 0) GNSS0.STS_NSV_TRK n).ht4Show

/-! Configuration (R127, R128, R135). -/

/-- The window of page 3 follows CH_IDX without a new snapshot (R147). -/
def Dev.chWindow (d : Dev) : Dev :=
  let i := d.get (Pg.gnss 3) GNSS3.CH_IDX_IDX
  { d with lat := sset resetWord d.lat (4096 * Pg.gnss 3 + 0x104) (BitVec.ofNat 96 (if i < 96 then sget (fun _ => chIdle) d.gnss.chLat i else 0)) }

/-- A write of GNSS_CAVE_CTL in Cave: EN = 0 turns the receiver off, EN = 1 begins the cycle with a sleep at the next second (R142). -/
def Dev.caveCtlFollow (d : Dev) : Dev :=
  if !d.inCave then d
  else if !d.on (Pg.gnss 6) GNSS6.CAVE_CTL_EN then
    if d.gstate = gnssOff then d else (((d.gnssStop gnssOff).monLose 0).cancel .gnssWake).cancel .gnssSleep
  else if d.gstate = gnssOff then d.timer (d.toSecond 0) .gnssSleep
  else d

/-- Band B tracking ends in HT4-compatible mode; in native mode every tracked satellite is handed over after 200 ms (R127, R130). -/
def Dev.modeFollow (d : Dev) : Dev :=
  let d := d.each (List.finRange 96) fun c d =>
    let w := d.chan c
    if w = chIdle then d
    else if d.ht4Mode then (d.setChan c (chPut GNSS3.CH_STS_TRK_B 0 (chPut GNSS3.CH_STS_CN0_B 0 w))).cancel (.bandBHandover c 0)
    else d.when (chF GNSS3.CH_STS_TRK_B w == 0 && !d.waiting (.bandBHandover c 0)) fun d => d.timerTime 0 (200 * milli) (.bandBHandover c 0)
  d.showTracked

/-- A host write that is a configuration: the monitor returns to LOST with CAUSE = CONFIG (R90, R135). -/
def Dev.gnssConfigured (d : Dev) : Dev := if monLost < d.mstate 0 then d.monReturn 0 0xA else d.monTry 0

/-- R127, R135, R145 to R147: a write of a GNSS register; GNSS_CTL, ANT_DLY and CAL_IB return the monitor to LOST with CAUSE = CONFIG, EN = 0 turns the receiver off, MODE moves band B, and CH_IDX moves the window. -/
def execGnssConfigWrite (m : Master) (p : Fin 8) (off v : Nat) (s : State) : Host.Outcome State Fault Refusal :=
  s.run fun d => d.writeStore m (Pg.gnss p) off v fun d =>
    let ctl := p == 0 && off == 0x200
    let d := if ctl || (p == 1 && (off == 0x118 || off == 0x110)) then d.gnssConfigured else d
    let d := d.when (ctl && !bit v 31 && d.gstate != gnssOff) fun d => d.gnssStop gnssOff
    let d := d.when ctl Dev.modeFollow
    let d := d.when (p == 3 && off == 0x100) Dev.chWindow
    (d.when (p == 6 && off == 0x100) Dev.caveCtlFollow).ht4Show

/-- The survey begins again (R135). -/
def Dev.surveyClear (d : Dev) : Dev := d.upGnss fun g => { g with surN := 0, surAt := 0, surX := 0, surY := 0, surZ := 0, surSq := 0 }

/-- The effect of an accepted host write of a position register on the monitor and the survey (R135). -/
def Dev.posWritten (d : Dev) : Dev :=
  let d := d.gnssConfigured
  let d := if d.fixedPos then d.put (Pg.gnss 6) GNSS6.KEPT_STS_POS 1 else (d.surveyClear.setSol false)
  (if !d.fixedPos && (d.gstate == gnssTrack || d.gstate == gnssTiming) then d.put (Pg.gnss 0) GNSS0.STS_STATE gnssSurvey
    else if d.fixedPos && d.gstate == gnssSurvey then d.put (Pg.gnss 0) GNSS0.STS_STATE gnssTrack else d).ht4Show

/-- R135: a write of page 4: position writes are discarded and counted in survey mode, and elsewhere return the monitor to LOST as a write of MODE does. -/
def execGnssPosWrite (m : Master) (off v : Nat) (s : State) : Host.Outcome State Fault Refusal :=
  s.run fun d =>
    let pos := 0x104 ≤ off ∧ off < 0x114
    d.writeIf m (Pg.gnss 4) off v (decide ¬ (pos ∧ ¬ d.fixedPos)) GNSS4.POS_DISC_COUNT fun d =>
      let d := d.storeReg (Pg.gnss 4) off v
      if off < 0x114 then d.posWritten else d

/-- R148: a write to the HT4 window acts on the same receiver, and one of HT4_CTL on the monitor as one of GNSS_CTL and of the hold bit (R135); outside HT4 mode it is discarded and counted. -/
def execHt4Write (m : Master) (off v : Nat) (s : State) : Host.Outcome State Fault Refusal :=
  s.run fun d =>
    let pos := 0x118 ≤ off ∧ off < 0x124
    match d.gate m (Pg.gnss 7) off with
    | .served =>
      if !d.ht4Mode || (decide pos && !d.fixedPos) then d.discardIn (Pg.gnss 4) GNSS4.POS_DISC_COUNT else
      let d := d.served m (Pg.gnss 7) off v
      if off = 0x104 then
        let en := bit v 0
        let hold := bit v 1
        let d := ((d.putb (Pg.gnss 0) GNSS0.CTL_EN en).putb (Pg.gnss 4) GNSS4.POS_CTL_MODE hold).posWritten
        if !en && d.gstate != gnssOff then d.gnssStop gnssOff else d
      else if pos then (d.put (Pg.gnss 4) (if off = 0x118 then GNSS4.POS_X_POS else if off = 0x11C then GNSS4.POS_Y_POS else GNSS4.POS_Z_POS) v).posWritten
      else if off = 0x124 then (d.put (Pg.gnss 4) GNSS4.POS_CTL_SURVEY v).ht4Show
      else if off = 0x128 then (d.put (Pg.gnss 3) GNSS3.CH_IDX_IDX v).chWindow.ht4Show
      else d
    | g => d.discard g (Pg.gnss 7)

/-! Acquisition (R129, R130). -/

/-- Code length in chips and Doppler bin in Hz of a band A signal (R126). -/
def sigLen (k : Nat) : Nat := [1023, 4092, 10230, 10230].getD k 0
def sigBin (k : Nat) : Nat := [500, 125, 50, 50].getD k 1

/-- The carrier of band A in Hz. -/
abbrev carrierA : Nat := 1575420000

/-- Dwells of a signal from its code bins and its Doppler uncertainty in 10^-15 Hz (R129). -/
def dwells (code uf b : Nat) : Nat := cdiv (code * (2 * cdiv uf (b * 10 ^ 15) + 1)) 1024

/-- Dwells to search a signal under a start class: 1 cold, 2 warm, 3 hot; the signals other than GPS L1 C/A are searched under the hot row, and an unbounded B_TS leaves the full code uncertainty (R129, R130). -/
def Dev.sigDwells (d : Dev) (cls : Nat) (g : GnssSig) : Nat :=
  let l := sigLen g.kind
  let b := sigBin g.kind
  let osc := d.get (Pg.gnss 2) GNSS2.ACQ_OSC_OSC_UNC * carrierA * 10 ^ 6
  if cls = 3 ∨ g.kind ≠ 0 then
    let code := match d.bts 0 with
      | some t => 2 * (2 + cdiv (2046 * t) (256 * 10 ^ 9)) + 1
      | none => 2 * l
    dwells code (50 * 10 ^ 15 + d.get Pg.hld (HLD.F_F 0) * carrierA) b
  else if cls = 2 then dwells (2 * l) (500 * 10 ^ 15 + osc) b
  else dwells (2 * l) (d.get (Pg.gnss 2) GNSS2.ACQ_CTL_DOPP * 10 ^ 15 + osc) b

/-- The step-free time of TSA, in 2^-48 ns, at which a dwell that begins now ends: NC coherent integrations (R126, R129); the first dwells begin 24 ms after the clusters are powered (R143). -/
def Dev.dwellEnd (d : Dev) (g : GnssSig) : Int :=
  let on := match d.pwr.units.find? fun u => u.kind == kindGnss && u.granted.isSome with
    | some u => u.held + 24 * milli
    | none => 0
  d.stepFree 0 + ((on - d.freeNs) + clampN 1 64 (d.get (Pg.gnss 2) GNSS2.ACQ_CTL_NC) * [1, 4, 10, 10].getD g.kind 10 * milli : Nat) * 2 ^ 48

/-- The engines are powered: each begins its first untested dwell (R131). -/
def Dev.dwellsAnew (d : Dev) : Dev :=
  d.upGnss fun x => { x with eng := x.eng.map fun e => e.map fun (g, n, _) => (g, n, d.dwellEnd g) }

/-- An engine takes the next signal (R129). -/
def Dev.engTake (d : Dev) (e : Fin 8) : Dev :=
  match d.gnss.queue with
  | g :: q => d.upGnss fun x => { x with queue := q, eng := x.eng.set e (some (g, d.sigDwells (d.get (Pg.gnss 0) GNSS0.STS_START) g, d.dwellEnd g)) }
  | [] => d.upGnss fun x => { x with eng := x.eng.set e none }

/-- Show which engines search. -/
def Dev.showBusy (d : Dev) : Dev :=
  d.put (Pg.gnss 2) GNSS2.ACQ_STS_BUSY ((List.finRange 8).foldl (fun a e => a + (if d.gnss.eng[e].isSome then 2 ^ e.val else 0)) 0)

/-- System of a signal: GPS 0, Galileo 1, BeiDou 2. -/
def sigSys (k : Nat) : Nat := if k = 1 then 1 else if k = 2 then 2 else 0

/-- A signal is of a system in use: GPS L1 C/A alone in HT4-compatible mode, the enabled systems in native mode (R127). -/
def Dev.sigOn (d : Dev) (g : GnssSig) : Bool :=
  if d.ht4Mode then g.kind == 0 else bit (d.get (Pg.gnss 0) GNSS0.CTL_SYS) (sigSys g.kind)

/-- Signals predicted visible whose satellite has an ephemeris at most 14,400 s old (R130). -/
def Dev.keptFresh (d : Dev) (visible : List GnssSig) : Nat :=
  let now := (d.stepFree 0).toNat / accSecond
  (d.gnss.eph.filter fun e => decide (now ≤ e.2 + 14400) && visible.any fun g => d.sigOn g && e.1 == 64 * sigSys g.kind + g.svid).length

/-- The class of a start: 3 hot, 2 warm, 1 cold (R130). -/
def Dev.startClass (d : Dev) (visible : List GnssSig) : Nat :=
  let near := match d.bts 0 with
    | some b => decide (b ≤ 10000000 * 256)
    | none => false
  if d.fixedPos && decide (4 ≤ d.keptFresh visible) && near then 3
  else if d.on (Pg.gnss 6) GNSS6.KEPT_STS_ALM && d.on (Pg.gnss 6) GNSS6.KEPT_STS_POS then 2 else 1

/-- The search list of a start (R129, R130): what is visible when hot, the L1 C/A signals of it when warm, every GPS satellite when cold. -/
def Dev.startList (d : Dev) (cls : Nat) (visible : List GnssSig) : List GnssSig :=
  if cls = 3 then visible.filter d.sigOn else if cls = 2 then visible.filter fun g => g.kind = 0
  else (List.range 32).map fun i => { kind := 0, svid := i + 1 }

/-- The signals that a warm or cold start searches only after the first GPS time solution (R130). -/
def Dev.laterList (d : Dev) (cls : Nat) (visible : List GnssSig) : List GnssSig :=
  if cls = 3 then [] else visible.filter fun g => d.sigOn g && g.kind != 0

/-- The search begins under a class (R129, R130, R145). -/
def Dev.searchBegin (d : Dev) (cls : Nat) (list later : List GnssSig) : Dev :=
  let d := (d.put (Pg.gnss 0) GNSS0.STS_START cls).put (Pg.gnss 0) GNSS0.STS_STATE gnssSearch
  let d := d.upGnss fun g => { g with queue := list, later := later, starting := true }
  (d.each (List.finRange 8) fun e d => d.engTake e).showBusy

/-- A solution exists: it completes a start, and with GPS in it the signals that waited are searched (R130, R145). -/
def Dev.solutionSeen (d : Dev) : Dev :=
  let d := d.when d.gnss.starting fun d => (d.upGnss fun g => { g with starting := false }).int (Pg.gnss 0) 3
  let gps := d.gnss.ch.any fun e => chF GNSS3.CH_STS_USED e.2 == 1 && chF GNSS3.CH_STS_SYS e.2 == 0
  if gps && !d.gnss.later.isEmpty then
    let d := d.upGnss fun g => { g with queue := g.queue ++ g.later, later := [] }
    (d.each (List.finRange 8) fun e d => if d.gnss.eng[e].isSome then d else d.engTake e).showBusy
  else d

/-- The receiver may start: enabled, granted, off, or woken from a sleep (R131, R142). -/
def Dev.mayStart (d : Dev) : Bool :=
  d.on (Pg.gnss 0) GNSS0.CTL_EN && d.granted kindGnss 0 && (d.gstate == gnssOff || (d.gstate == gnssSleep && (!d.inCave || d.gnss.woke)))

/-- R130, R142, R143: the start is classed and the search begins. `visible` holds the signals predicted visible above the elevation mask. -/
def execGnssStart (visible : List GnssSig) (s : State) : Host.Outcome State Fault Refusal :=
  s.run fun d => if d.mayStart then d.searchBegin (d.startClass visible) (d.startList (d.startClass visible) visible) (d.laterList (d.startClass visible) visible) else d

/-- A signal is found: a free channel tracks it, and the engine takes the next one (R129, R130). -/
def Dev.sigFound (d : Dev) (e : Fin 8) (g : GnssSig) (cn c : Nat) : Dev :=
  let w := chPut GNSS3.CH_STS_SYS (sigSys g.kind) (chPut GNSS3.CH_STS_SVID g.svid (chPut GNSS3.CH_STS_CN0_A cn (chPut GNSS3.CH_STS_TRK_A 1 0)))
  let d := ((d.setChan c w).upGnss fun x => { x with sig := sset (fun _ => 0) x.sig c g.kind }).engTake e
  let d := d.when (d.gstate == gnssSearch) fun d => d.put (Pg.gnss 0) GNSS0.STS_STATE (if d.fixedPos then gnssTrack else gnssSurvey)
  (d.showBusy.showTracked).when (!d.ht4Mode) fun d => d.timerTime 0 (200 * milli) (.bandBHandover ⟨c % 96, by omega⟩ 0)

/-- A channel's signal is lost: the channel is idle, and the signal is searched again after the others (DESIGN CHOICE, log entry 83). -/
def Dev.chanLost (d : Dev) (c : Fin 96) : Dev :=
  let w := d.chan c
  if w = chIdle then d else
  let g : GnssSig := { kind := Fin.ofNat 4 (d.chanSig c), svid := chF GNSS3.CH_STS_SVID w }
  let d := ((d.setChan c chIdle).upGnss fun x => { x with sig := sset (fun _ => 0) x.sig c.val 0, queue := x.queue ++ [g] }).cancel (.bandBHandover c 0)
  (d.each (List.finRange 8) fun e d => if d.gnss.eng[e].isSome then d else d.engTake e).showBusy.showTracked

/-- R129, R131: a dwell ends, NC coherent integrations after it began; the signal is found (with its C/N0) and handed to a free channel, or the engine steps on, and an exhausted signal goes to the end of the list. While every channel is taken, a signal found stays with its engine, which tests the dwell again (DESIGN CHOICE, log entry 83). -/
def execSearchDwell (e : Fin 8) (found : Option Nat) (s : State) : Host.Outcome State Fault Refusal :=
  s.run fun d => match d.gnss.eng[e] with
    | none => d
    | some (g, n, t) =>
      if !d.granted kindSearch 0 || decide (d.stepFree 0 < t) then d else
      let again (n : Nat) : Dev := d.upGnss fun x => { x with eng := x.eng.set e (some (g, n, d.dwellEnd g)) }
      match found with
      | some cn =>
        match (List.range 96).find? fun c => d.chan c = chIdle with
        | none => again n
        | some c => d.sigFound e g cn c
      | none => if n ≤ 1 then ((d.upGnss fun x => { x with queue := x.queue ++ [g] }).engTake e).showBusy else again (n - 1)

/-- R130: after 200 ms of band A tracking the band B channel is loaded. -/
def execBandBHandover (c : Fin 96) (cn0 : Nat) (s : State) : Host.Outcome State Fault Refusal :=
  s.run fun d =>
    let w := d.chan c
    if d.ht4Mode || chF GNSS3.CH_STS_TRK_A w == 0 || w = chIdle then d
    else (d.setChan c (chPut GNSS3.CH_STS_TRK_B 1 (chPut GNSS3.CH_STS_CN0_B cn0 w))).showTracked

/-! Alarms (R137, R139). -/

/-- The INTEGRITY condition of the monitor holds while any alarm is raised (R137). -/
def Dev.alarmShow (d : Dev) : Dev :=
  ((d.upMon 0 fun e => { e with integ := d.get (Pg.gnss 0) GNSS0.STS_ALARM % 16 != 0 }).noteCond 0).ht4Show

/-- Raise or withdraw an alarm: 0 JAM_A, 1 JAM_B, 2 SPOOF, 3 INTEG (R139). -/
def Dev.setAlarm (d : Dev) (a : Fin 4) (v : Bool) : Dev :=
  let w := d.get (Pg.gnss 0) GNSS0.STS_ALARM
  if bit w a = v then d else
  let d := d.put (Pg.gnss 0) GNSS0.STS_ALARM (if v then w + 2 ^ a.val else w - 2 ^ a.val)
  ((d.record 0x29 (srcPage (Pg.gnss 0)) [a.val, b2n v]).int (Pg.gnss 0) 1).alarmShow

/-- One second's verdict of an alarm's test. -/
def Dev.alarmTest (d : Dev) (a : Fin 4) (bad : Bool) : Dev :=
  if bad then (d.upGnss fun g => { g with pass := g.pass.set a 0 }).setAlarm a true
  else
    let n := d.gnss.pass[a] + 1
    let d := d.upGnss fun g => { g with pass := g.pass.set a n }
    d.when (bit (d.get (Pg.gnss 0) GNSS0.STS_ALARM) a && decide (max 1 (d.get (Pg.gnss 0) GNSS0.ALM_CTL_CLR) ≤ n)) fun d => d.after 0 (.alarmWithdraw a)

/-- R139: the test has passed for CLR seconds in a row. -/
def execAlarmWithdraw (a : Fin 4) (s : State) : Host.Outcome State Fault Refusal :=
  s.run fun d => if max 1 (d.get (Pg.gnss 0) GNSS0.ALM_CTL_CLR) ≤ d.gnss.pass[a] then d.setAlarm a false else d

/-- R137: a second's gain of a band in dB; two seconds in a row below the threshold raise JAM_A or JAM_B. -/
def execJamAlarm (band : Fin 2) (gain : Fin 256) (s : State) : Host.Outcome State Fault Refusal :=
  s.run fun d =>
    let p := Pg.gnss 1
    let thr := d.get p (if band = 0 then GNSS1.AGC_THR_LOW_A else GNSS1.AGC_THR_LOW_B)
    let d := d.put p (if band = 0 then GNSS1.AGC_STS_GAIN_A else GNSS1.AGC_STS_GAIN_B) gain
    let low := bit (d.get (Pg.gnss 5) GNSS5.SPF_CTL_EN) 0 && decide (gain.val < thr)
    let n := if low then d.gnss.low[band] + 1 else 0
    let d := d.upGnss fun g => { g with low := g.low.set band n }
    let a : Fin 4 := if band = 0 then 0 else 1
    if low ∧ n < 2 then d.upGnss fun g => { g with pass := g.pass.set a 0 } else d.alarmTest a low

/-- Cause number of the C1 of an antenna bias out of window (R137). -/
abbrev causeAnt : Nat := 1

/-- A second's bias currents in 0.1 mA; outside the window ANT is set and C1 is raised (R137). -/
def Dev.biasSeen (d : Dev) (a b : Nat) : Dev :=
  let p := Pg.gnss 1
  let out (i : Nat) := i < 10 * d.get p GNSS1.RF_CTL_BIAS_MIN || 10 * d.get p GNSS1.RF_CTL_BIAS_MAX < i
  let bad := out a || (!d.ht4Mode && out b)
  let d := ((d.put p GNSS1.BIAS_STS_GNA a).put p GNSS1.BIAS_STS_GNB b).upGnss fun g => { g with biasB := out b }
  let w := d.get (Pg.gnss 0) GNSS0.STS_ALARM % 16
  let d := d.put (Pg.gnss 0) GNSS0.STS_ALARM (w + 16 * b2n bad)
  (if bad then d.raise (Pg.gnss 0) 1 causeAnt else d.lower (Pg.gnss 0) 1 causeAnt).ht4Show

/-- R137: the antenna bias currents of a second. -/
def execAntBiasFault (a b : Nat) (s : State) : Host.Outcome State Fault Refusal :=
  s.run fun d => d.biasSeen a b

/-! The second's solution (R132 to R138). -/

/-- R133: the internal pulse of a whole TREF second, counted from the PTP epoch, is emitted; the channel that names it stamps it with TDC_STAMP. -/
def execGnssPulse (sec : Nat) (s : State) : Host.Outcome State Fault Refusal :=
  s.run fun d =>
    if !(d.gstate == gnssTrack || d.gstate == gnssTiming || d.gstate == gnssSurvey) then d else
    let t := sec - 315964800
    (((d.upGnss fun g => { g with sec := some sec, stamp := none }).put (Pg.gnss 7) GNSS7.HT4_TOW_V (t % 604800)).put (Pg.gnss 7) GNSS7.HT4_WEEK_V (t / 604800 % 65536)).emit
      (.message "GNSS pulse" [sec])

/-- The inter-band delay in 2^-16 ps. -/
def Dev.interBand (d : Dev) : Int := d.geti (Pg.gnss 1) GNSS1.CAL_IB_IB * 65536

/-- The satellite is solved from band A alone (R127). -/
def Dev.bandAOnly (d : Dev) : Bool := d.ht4Mode || d.fallback

/-- A satellite's own estimate of the pulse's offset from its whole second, in 2^-16 ns: from the ionosphere-free pseudorange with coefficients 154² and 115² (R132), or from band A with the broadcast ionosphere model (R127). A late pulse shortens the pseudorange. -/
def Dev.satEst (d : Dev) (x : GnssSat) : Int :=
  if d.bandAOnly then x.iono - x.pa
  else rdiv (13225 * (1000 * x.pb - d.interBand) - 23716000 * x.pa) 10491000

/-- System and key of a satellite. -/
def Dev.satSys (d : Dev) (x : GnssSat) : Nat := chF GNSS3.CH_STS_SYS (d.chan x.ch)
def Dev.satKey (d : Dev) (x : GnssSat) : Nat := 64 * d.satSys x + chF GNSS3.CH_STS_SVID (d.chan x.ch)

/-- The L1/L5 test fails: P_B − P_A − IB lies outside DMIN to DMAX, on a satellite tracked on both bands (R137). -/
def Dev.bandsBad (d : Dev) (x : GnssSat) : Bool :=
  let w := d.chan x.ch
  let p := Pg.gnss 5
  let dv := (x.pb - x.pa) * 1000 - d.interBand
  w != chIdle && chF GNSS3.CH_STS_TRK_B w == 1 && !d.bandAOnly && bit (d.get p GNSS5.SPF_CTL_EN) 2 &&
  decide (dv < d.geti p GNSS5.SPF_IB_DMIN * 65536000 ∨ d.geti p GNSS5.SPF_IB_DMAX * 65536000 < dv)

/-- The reason a satellite is not used: 0 for none, 1 RAIM, 2 L1/L5, 3 elevation, 4 health; 5 for one not tracked as the mode needs (R127, R136, R137). -/
def Dev.satExcl (d : Dev) (x : GnssSat) : Nat :=
  let w := d.chan x.ch
  let on := if d.ht4Mode then d.chanSig x.ch == 0 else bit (d.get (Pg.gnss 0) GNSS0.CTL_SYS) (d.satSys x)
  if w = chIdle ∨ chF GNSS3.CH_STS_TRK_A w = 0 ∨ !on ∨ (!d.bandAOnly && chF GNSS3.CH_STS_TRK_B w == 0) then 5
  else if !x.healthy then 4
  else if x.elev < min 90 (d.get (Pg.gnss 4) GNSS4.POS_CTL_ELEV) then 3
  else if d.bandsBad x then 2
  else if d.gnss.excl.contains (d.satKey x) then 1
  else 0

/-- The clock-bias estimate of a system: the mean of its satellites' own estimates (log entry 24). -/
def Dev.sysBias (d : Dev) (l : List GnssSat) (sys : Nat) : Int := meanI ((l.filter fun x => d.satSys x == sys).map d.satEst)

/-- Number of systems with a used satellite (R136). -/
def Dev.nSys (d : Dev) (l : List GnssSat) : Nat := ((List.range 3).filter fun y => l.any fun x => d.satSys x == y).length

/-- The satellite with the largest residual and its magnitude in 2^-16 ns (R136). -/
def Dev.worst (d : Dev) (l : List GnssSat) : Option (GnssSat × Nat) :=
  l.foldl (fun b x =>
    let v := (d.satEst x - d.sysBias l (d.satSys x)).natAbs
    match b with
    | some (_, u) => if u < v then some (x, v) else b
    | none => some (x, v)) none

/-- With 6 satellites used the spread of their band A C/N0 is below SD_MIN, or a tracked satellite lies above CN0_MAX (R137). -/
def Dev.cn0Bad (d : Dev) (all used : List GnssSat) : Bool :=
  let c := used.map (·.cn0a)
  let n := c.length
  let var := n * c.foldl (fun a x => a + x * x) 0 - (c.foldl (· + ·) 0) ^ 2
  let sd := d.get (Pg.gnss 5) GNSS5.SPF_CN0_SD_MIN
  bit (d.get (Pg.gnss 5) GNSS5.SPF_CTL_EN) 1 &&
  (decide (6 ≤ n ∧ var * 100 < sd * sd * n * n) ||
   all.any fun x => d.chan x.ch != chIdle && decide (d.get (Pg.gnss 5) GNSS5.SPF_CN0_CN0_MAX < x.cn0a))

/-- The C/N0 and L1/L5 tests of a second ask for SPOOF (R137). -/
def Dev.spoofBad (d : Dev) (all used : List GnssSat) : Bool :=
  let fails := (all.filter d.bandsBad).length
  d.cn0Bad all used || decide (d.get (Pg.gnss 5) GNSS5.SPF_NSV_NSV_FAIL ≤ fails ∧ fails ≠ 0)

/-- |x − x_pred| > CJ.THR for a measurement x with the stamp s, both step-free in 2^-16 ns (R137, R138). -/
def Dev.clockJump (d : Dev) (x s : Int) : Bool :=
  let win := clampN 10 3600 (d.get (Pg.gnss 5) GNSS5.SPF_CJ_WIN)
  let h := d.gnss.hist.filter fun e => s - win * sec16 ≤ e.2
  if h.isEmpty || d.mstate 0 != monQualified || !bit (d.get (Pg.gnss 5) GNSS5.SPF_CTL_EN) 3 then false else
  let i : Int := d.get (Pg.ts 0) TS.INCR_EFF_EFF
  let a : Int := d.get Pg.hld (HLD.AVG_AVG 0)
  let n : Int := h.length
  let sumT := h.foldl (fun t e => t + (s - e.2)) 0
  let pred := meanI (h.map (·.1)) + tdiv ((a - i) * sumT) (i * n)
  decide (d.get (Pg.gnss 5) GNSS5.SPF_CJ_THR * 2 ^ 16 < (x - pred).natAbs)

/-- G_t = 3 σ_clk + U_ib + U_pos + U_cal + U_iono (R134). -/
def Dev.gtTerms (d : Dev) (sigma : Nat) : Bound × Bound × Bound :=
  let unc := d.get (Pg.gnss 4) GNSS4.POS_UNC_UNC
  let upos : Bound := if unc = 0xFFFF then none else some (cdiv (unc * 3335641 * 256) 100000)
  let uiono := if d.bandAOnly then decodeBound (d.get (Pg.gnss 0) GNSS0.IONO_UNC_CODE) else some 0
  let g := sumBound [some (3 * sigma), decodeBound (d.get (Pg.gnss 1) GNSS1.CAL_UNC_UIB), upos, decodeBound (d.get (Pg.gnss 1) GNSS1.CAL_UNC_UCAL), uiono]
  (g, upos, uiono)

/-- TAI minus the reference system's time in s (R128). -/
def Dev.taiOffset (d : Dev) : Nat := if !d.ht4Mode && d.get (Pg.gnss 0) GNSS0.CTL_TREF == 2 then 33 else 19

/-- The satellites' marks in their channels (R147). -/
def Dev.markSats (d : Dev) (all used : List GnssSat) : Dev :=
  let d := d.each all fun x d =>
    let w := d.chan x.ch
    let r := d.satExcl x
    let u := used.any fun y => y.ch == x.ch
    if w = chIdle then d else
    d.setChan x.ch (chPut GNSS3.CH_STS_USED (b2n u) (chPut GNSS3.CH_STS_EXCL (if r = 5 then 0 else r) (chPut GNSS3.CH_STS_CN0_A x.cn0a (chPut GNSS3.CH_STS_CN0_B x.cn0b w))))
  let eph := used.foldl (fun l x => sins l (d.satKey x) ((d.stepFree 0).toNat / accSecond)) d.gnss.eph
  let d := d.upGnss fun g => { g with eph := eph }
  (((d.put (Pg.gnss 0) GNSS0.STS_NSV_USED used.length).put (Pg.gnss 6) GNSS6.KEPT_STS_NEPH eph.length).when (!used.isEmpty) fun d => d.put (Pg.gnss 6) GNSS6.KEPT_STS_AGE 0)

/-- A second of the survey (R135): a gap above 10 s restarts it, and SURVEY seconds complete it. -/
def Dev.surveySecond (d : Dev) (p : Int × Int × Int) : Dev :=
  let gap := d.gnss.surN != 0 && decide (d.gnss.surAt + 10 * accSecond < d.stepFree 0)
  let d := (if gap then d.surveyClear else d).solutionSeen
  let d := d.upGnss fun g => { g with
    surN := g.surN + 1, surAt := d.stepFree 0, surX := g.surX + p.1, surY := g.surY + p.2.1, surZ := g.surZ + p.2.2,
    surSq := g.surSq + p.1.natAbs ^ 2 + p.2.1.natAbs ^ 2 + p.2.2.natAbs ^ 2 }
  let d := (d.put (Pg.gnss 0) GNSS0.STS_STATE gnssSurvey).timerTime 0 (10 * second + 1) .surveyRestart
  d.when (decide (clampN 60 86400 (d.get (Pg.gnss 4) GNSS4.POS_CTL_SURVEY) ≤ d.gnss.surN)) fun d => d.after 0 .surveyComplete

/-- A second in survey mode: the position and the time are solved where the used satellites suffice for three coordinates and one bias for each system (DEDUCED, log entry 83), and the monitors of R137 judge the satellites. -/
def Dev.surveySolution (d : Dev) (x : GnssSol) : Dev :=
  let used := x.sats.filter fun y => d.satExcl y == 0
  let spoof := d.spoofBad x.sats used
  let d := (d.markSats x.sats used).alarmTest 2 spoof
  if 3 + d.nSys used ≤ used.length then d.surveySecond x.pos else d

/-- The checks of a fixed-mode solution whose satellites are chosen: RAIM (R136), then the measurement of the stamped pulse or its withholding (R133, R137, R138). No solution is formed without a used satellite of the TREF system, to which the time is referred (DESIGN CHOICE, log entry 83). -/
def Dev.fixedSolution (d : Dev) (x : GnssSol) : Dev :=
  let raim := Pg.gnss 4
  let thr := d.get raim GNSS4.RAIM_CTL_THR * 2 ^ 16
  let use0 := x.sats.filter fun y => d.satExcl y == 0
  let r0 := use0.length - d.nSys use0
  let w0 := d.worst use0
  let above := match w0 with
    | some (_, v) => decide (thr < v)
    | none => false
  let may := above && decide (2 ≤ r0) && decide (d.gnss.excl.length < d.get raim GNSS4.RAIM_CTL_MAX_EXCL)
  let d := match w0 with
    | some (y, _) =>
      if may then (d.upGnss fun g => { g with excl := g.excl ++ [d.satKey y] }).timerTime 0 (d.get raim GNSS4.RAIM_HOLD_HOLD * second) (.raimHoldExpiry (Fin.ofNat 256 (d.satKey y))) else d
    | none => d
  let used := x.sats.filter fun y => d.satExcl y == 0
  let nsys := d.nSys used
  let r := used.length - nsys
  let still := match d.worst used with
    | some (_, v) => decide (thr < v)
    | none => false
  let integ := still && (decide (r < 2) || decide (d.get raim GNSS4.RAIM_CTL_MAX_EXCL ≤ d.gnss.excl.length))
  let d := ((d.put raim GNSS4.RAIM_STS_EXCL d.gnss.excl.length).put raim GNSS4.RAIM_STS_RDN r).put raim GNSS4.RAIM_STS_NSYS nsys
  let d := d.markSats x.sats used
  let tref := if d.ht4Mode then 0 else d.get (Pg.gnss 0) GNSS0.CTL_TREF % 3
  let jamB := !d.ht4Mode && bit (d.get (Pg.gnss 0) GNSS0.STS_ALARM) 1 && !d.fallback
  let sol := decide (nsys ≠ 0) && (used.any fun y => d.satSys y == tref) && !(r == 0 && d.on raim GNSS4.RAIM_CTL_REQ) && !jamB
  let d := d.putb (Pg.gnss 0) GNSS0.STS_UNMON (sol && r == 0)
  let d := d.alarmTest 3 integ
  let spoof := d.spoofBad x.sats used
  let d := (d.setSol sol).when sol Dev.solutionSeen
  let pulse := d.gnss.sec
  let stamp := d.gnss.stamp
  let d := d.upGnss fun g => { g with sec := none, stamp := none }
  if !sol then (d.put (Pg.gnss 0) GNSS0.STS_STATE gnssTrack).alarmTest 2 spoof
  else match pulse, stamp with
    | some sec, some at_ =>
      let q := d.sysBias used tref
      let sum := tdiv d.ts[0].stepSum (2 ^ 32)
      let dly := d.geti (Pg.gnss 1) GNSS1.ANT_DLY_DLY + (Config.calib 1 0 : Int)
      let xf : Int := ((sec + d.taiOffset : Nat) : Int) * sec16 + q - at_ + tdiv (dly * 2 ^ 16) 1000
      let (g, upos, uiono) := d.gtTerms x.sigma
      let d := (d.put (Pg.gnss 0) GNSS0.STS_STATE gnssTiming).puti (Pg.gnss 7) GNSS7.HT4_PPS_OFF_V (tdiv (q * 1000) (2 ^ 16))
      let jump := d.clockJump xf at_
      let first := jump && d.gnss.jump != some (sec - 1)
      let d := (d.upGnss fun e => { e with jump := if jump then some sec else none }).alarmTest 2 (spoof || (jump && !first))
      if first then d
      else
        let d := ((d.puti (Pg.gnss 0) GNSS0.TSOL_X_X (xf - sum)).put (Pg.gnss 0) GNSS0.TSOL_SEC_SEC ((at_ + sum).toNat / (second * 2 ^ 16))).put (Pg.gnss 0) GNSS0.TSOL_GT_GT (encodeBound g)
        let d := ((d.put (Pg.gnss 0) GNSS0.TSOL_GT_SIGCLK (encodeBound (some (3 * x.sigma)))).put (Pg.gnss 0) GNSS0.TSOL_GT1_UPOS (encodeBound upos)).put
          (Pg.gnss 0) GNSS0.TSOL_GT1_UIONO (encodeTerm uiono)
        ((d.upGnss fun e => { e with meas := some (xf, decodeBound (encodeBound g), at_) }).after 0 .gnssMeasurement).ht4Show
    | _, _ => d.alarmTest 2 spoof

/-- R132 to R138: a second's solution: in survey mode it serves the survey, in fixed mode it is checked and measured. -/
def execGnssSolution (x : GnssSol) (s : State) : Host.Outcome State Fault Refusal :=
  s.run fun d =>
    if !(d.gstate == gnssTrack || d.gstate == gnssTiming || d.gstate == gnssSurvey) then d
    else
      let d := d.each x.lost fun c d => d.chanLost c
      if d.fixedPos then d.fixedSolution x else d.surveySolution x

/-- R136: an exclusion's hold ends. -/
def execRaimHoldExpiry (sat : Fin 256) (s : State) : Host.Outcome State Fault Refusal :=
  s.run fun d =>
    let d := d.upGnss fun g => { g with excl := g.excl.filter (· ≠ sat.val) }
    d.put (Pg.gnss 4) GNSS4.RAIM_STS_EXCL d.gnss.excl.length

/-! The survey (R135). -/

/-- The position that a survey has formed is written and the mode becomes fixed; the hardware writes leave LAST_WR as it is (R135). -/
def Dev.surveyEnd (d : Dev) : Dev :=
  let g := d.gnss
  let n := g.surN
  let mx := rdiv g.surX n
  let my := rdiv g.surY n
  let mz := rdiv g.surZ n
  let var := n * g.surSq - (g.surX.natAbs ^ 2 + g.surY.natAbs ^ 2 + g.surZ.natAbs ^ 2)
  let unc := min 0xFFFF (isqrtUp (cdiv (9 * var) (n * n)))
  let p := Pg.gnss 4
  let d := (((d.puti p GNSS4.POS_X_POS mx).puti p GNSS4.POS_Y_POS my).puti p GNSS4.POS_Z_POS mz).put p GNSS4.POS_UNC_UNC unc
  let d := ((d.put p GNSS4.POS_CTL_MODE 1).put (Pg.gnss 6) GNSS6.KEPT_STS_POS 1).put (Pg.gnss 0) GNSS0.STS_STATE gnssTrack
  let d := d.record 0x28 (srcPage (Pg.gnss 0)) (oct 4 (unsgn 32 mx) ++ oct 4 (unsgn 32 my) ++ oct 4 (unsgn 32 mz) ++ oct 2 unc)
  (d.cancel .surveyRestart).ht4Show

/-- R135: the survey ends once it has its SURVEY seconds. -/
def execSurveyComplete (s : State) : Host.Outcome State Fault Refusal :=
  s.run fun d =>
    if d.fixedPos || decide (d.gnss.surN < clampN 60 86400 (d.get (Pg.gnss 4) GNSS4.POS_CTL_SURVEY)) then d else d.surveyEnd

/-- R135: a gap above 10 s restarts the survey. -/
def execSurveyRestart (s : State) : Host.Outcome State Fault Refusal :=
  s.run fun d => if !d.fixedPos && decide (d.gnss.surAt + 10 * accSecond < d.stepFree 0) then d.surveyClear else d

/-! UTC, kept data, sleep (R140 to R143). -/

/-- Broadcast UTC parameters are shown; any change sets INT_STS bit 2; the decoded pages also carry the almanac (R140; log entry 24). -/
def Dev.utcDecoded (d : Dev) (ofs : Int) (leap : Fin 4) (sec : Nat) : Dev :=
  let p := Pg.gnss 0
  let before := (d.reg p 0x240, d.reg p 0x248)
  let d := ((d.put p GNSS0.UTC_STS_VALID 1).put p GNSS0.UTC_STS_LEAP leap).puti p GNSS0.UTC_STS_OFFSET ofs
  let d := (d.put p GNSS0.UTC_AT_SEC (sec % 2 ^ 48)).put (Pg.gnss 6) GNSS6.KEPT_STS_ALM 1
  d.when ((d.reg p 0x240, d.reg p 0x248) != before) fun d => d.int p 2

/-- R140: broadcast UTC parameters are decoded. -/
def execGnssUtcDecode (ofs : Int) (leap : Fin 4) (sec : Nat) (s : State) : Host.Outcome State Fault Refusal :=
  s.run fun d => d.utcDecoded ofs leap sec

/-- The kept data are gone: KEPT_STS, the UTC parameters, the position and its uncertainty read as at reset, and with no position the mode is survey again (R141; DESIGN CHOICE, log entry 83). -/
def Dev.keptDrop (d : Dev) : Dev :=
  let clear (pg off : Nat) (d : Dev) : Dev := d.setReg pg off (resetWord (4096 * pg + off))
  let d := (clear (Pg.gnss 6) 0x104 d).upGnss fun g => { g with eph := [] }
  let d := clear (Pg.gnss 0) 0x248 (clear (Pg.gnss 0) 0x240 d)
  let d := d.each [0x104, 0x108, 0x10C, 0x110] fun off d => clear (Pg.gnss 4) off d
  let d := (d.put (Pg.gnss 4) GNSS4.POS_CTL_MODE 0).surveyClear.setSol false
  (d.when (d.gstate == gnssTrack || d.gstate == gnssTiming) fun d => d.put (Pg.gnss 0) GNSS0.STS_STATE gnssSurvey).ht4Show

/-- R141, R147: a write of KEPT_CMD with CLEAR. -/
def execKeptClear (m : Master) (s : State) : Host.Outcome State Fault Refusal :=
  s.run fun d => d.write m (Pg.gnss 6) 0x108 1 fun d => d.keptDrop

/-- The receiver wakes (R142): INT_STS bit 0 of page 6; the search begins at GNSS_START. -/
def Dev.gnssWakeNow (d : Dev) : Dev := if d.gstate = gnssSleep then (((d.clkLock 2 true).int (Pg.gnss 6) 0).cancel .gnssWake).upGnss fun g => { g with woke := true } else d

/-- The awake and sleep times (R147). -/
def Dev.gnssAwake (d : Dev) : Nat := max 10 (d.get (Pg.gnss 6) GNSS6.CAVE_CTL_AWAKE) * second
def Dev.gnssAsleep (d : Dev) : Nat := clampN 60 14400 (d.get (Pg.gnss 6) GNSS6.CAVE_CTL_SLEEP) * second

/-- R142: in Cave with its duty cycle on, the receiver wakes at the end of SLEEP, and stays awake for AWAKE seconds. -/
def execGnssWake (s : State) : Host.Outcome State Fault Refusal :=
  s.run fun d => if d.inCave && d.on (Pg.gnss 6) GNSS6.CAVE_CTL_EN && d.gstate == gnssSleep then d.gnssWakeNow.timerTime 0 d.gnssAwake .gnssSleep else d

/-- R142: in Cave with its duty cycle on, the receiver sleeps; a sleep is a loss (R86). -/
def execGnssSleep (s : State) : Host.Outcome State Fault Refusal :=
  s.run fun d =>
    if d.inCave && d.on (Pg.gnss 6) GNSS6.CAVE_CTL_EN && d.on (Pg.gnss 0) GNSS0.CTL_EN then
      (((d.gnssStop gnssSleep).monLose 0).int (Pg.gnss 6) 1).timerTime 0 d.gnssAsleep .gnssWake
    else d

end Sys2Proof.Machine
end

