-- ==== Sys2Proof/Machine/PmcOps.lean ====
section
/-! DEFINITION. The performance counters (R368 to R373): cycle counts, the local counters' values, and the central reader's copy. -/

namespace Sys2Proof.Machine

/-- The region of a page. -/
def pageRegion (pg : Nat) : Option Region := (pageRow pg).map (·.region)

/-- The frequency in Hz of the first clock domain of a page's region (R22, R368, R374); a clock that has no stated frequency takes it from the calibration constants (log entry 7). -/
def cycleHz (pg : Nat) : Nat :=
  match pageRegion pg with
  | some .time => 1000000000
  | some .measurement => Config.calib 27 9
  | some .synthesis => Config.calib 20 0
  | some .gnss => 163680000
  | some .portA => Config.calib 27 5
  | some .portB => Config.calib 27 6
  | some .service | some .store => 1250000000
  | some .audio => Config.calib 27 10
  | some .control => 32768
  | some .host => Config.calib 27 7
  | none => 0

/-- Whether local counter k of a page counts cycles now (R368, R443). -/
def Dev.countsCycles (d : Dev) (pg k : Nat) : Bool :=
  d.on pg (HDR.PMC_SEL_EN k) && d.get pg (HDR.PMC_SEL_EVENT k) == 1 && !d.on pg HDR.PAGE_CTL_FREEZE && d.domainOn pg

/-- Add the cycles since the last look to a local counter (R370), and note whether it goes on counting them. -/
def Dev.cycleSync (d : Dev) (pg k : Nat) : Dev :=
  let key := 4 * pg + k
  let d : Dev := match d.cyc.find? fun e => e.1 = key with
    | some (_, t, n) =>
      let total := (d.now - t) * cycleHz pg / second
      let c := d.get pg (HDR.PMC_CNT_COUNT k) + (total - n)
      let d := d.put pg (HDR.PMC_CNT_COUNT k) (c % 2 ^ 48)
      let d := d.when (decide (2 ^ 48 ≤ c)) fun d => d.put pg (HDR.PMC_CNT_WRAPPED k) 1
      { d with cyc := d.cyc.map fun e => if e.1 = key then (key, t, max n total) else e }
    | none => d
  d

/-- A counter begins to count cycles, or ends, as its selection, FREEZE and its domain say. -/
def Dev.cycleFollow (d : Dev) (pg k : Nat) : Dev :=
  let key := 4 * pg + k
  if d.countsCycles pg k then (if d.cyc.any fun e => e.1 == key then d else { d with cyc := d.cyc ++ [(key, d.now, 0)] })
  else { d with cyc := d.cyc.filter fun e => e.1 ≠ key }

/-- Look at all cycle counters of a page. -/
def Dev.cyclesOf (d : Dev) (pg : Nat) : Dev := d.each [0, 1, 2, 3] fun k d => d.cycleSync pg k

/-- Look at every cycle counter before a change, and settle which go on after it. -/
def Dev.cyclesAll (d : Dev) (f : Dev → Dev) : Dev :=
  let d := f (d.each d.cyc fun e d => d.cycleSync (e.1 / 4) (e.1 % 4))
  d.each allPages fun pg d => d.each [0, 1, 2, 3] fun k d => d.cycleFollow pg k

/-- The copy of one listed counter (R372, R373): 0 for a disabled entry, 0 with WRAPPED for a page whose power is off. -/
def Dev.readerWord (d : Dev) (j : Nat) : Nat :=
  let pg := Pg.pmc
  let p := d.get pg (PMC.RD_ENT_PAGE j)
  if !d.on pg (PMC.RD_ENT_EN j) then 0
  else if !d.domainOn p || !d.on p HDR.PAGE_STS_PWR_ON then 2 ^ 63
  else d.get p (HDR.PMC_CNT (d.get pg (PMC.RD_ENT_K j)))

/-- Write a register and its latched copy at once. -/
def Dev.showNow (d : Dev) (pg : Nat) (f : Fld) (v : Nat) : Dev :=
  let d := d.put pg f v
  { d with lat := sset resetWord d.lat (4096 * pg + f.off) (d.reg pg f.off) }

/-- The central reader copies every listed counter at one MEC (R372); without its grant it copies nothing, and VALID is 0 (R31). -/
def Dev.readerCopy (d : Dev) (granted : Bool) : Dev :=
  let pg := Pg.pmc
  if !granted then d.put pg HDR.SNAP_STS_VALID 0
  else
    let d := d.each d.cyc fun e d => d.cycleSync (e.1 / 4) (e.1 % 4)
    let d := d.each (List.range 64) fun j d => d.showNow pg (PMC.WIN_CNT j) (d.readerWord j)
    let d := d.showNow pg PMC.RD_MEC_MEC d.now
    ((d.put pg HDR.SNAP_STS_VALID 1).put pg HDR.SNAP_STS_SEQ (d.get pg HDR.SNAP_STS_SEQ + 1)).int pg 0

end Sys2Proof.Machine
end

