-- ==== Sys2Proof/Machine/Selection.lean ====
section
/-! DEFINITION. The commands of the selectors, the servo cores and the holdover units (R105 to R125). -/

namespace Sys2Proof.Machine

/-- R107, R108: the selector of a timescale evaluates. -/
def execSelectorEval (n : Ts) (s : State) : Host.Outcome State Fault Refusal :=
  s.run fun d => d.selEval n

/-- The slew or the step of a switch is over: the switch ends SETTLE seconds later (R109). -/
def Dev.switchSettle (d : Dev) (n : Ts) (s : Nat) : Dev :=
  (d.upSel n fun e => { e with settle := none }).timerTime 0 (s * second) (.switchEnd n)

/-- R108, R109: the slew of a switch has ended, or SETTLE seconds have passed since; while a slew still runs its end is looked for anew. -/
def execSwitchEnd (n : Ts) (s : State) : Host.Outcome State Fault Refusal :=
  s.run fun d =>
    let r := d.ts[n].slewRem
    if d.selState n ≠ selSwitching then d.endSwitch n
    else if r ≠ 0 then d.timer (d.slewTicks n (tdiv r (2 ^ 32))) (.switchEnd n)
    else match d.sel[n].settle with
      | some (t + 1) => d.switchSettle n (t + 1)
      | _ => d.endSwitch n

/-- R108, R123: the lock condition has held for TIME seconds; the bound shrinks at entry into LOCKED. -/
def execLockAchieved (n : Ts) (s : State) : Host.Outcome State Fault Refusal :=
  s.run fun d =>
    let st := d.selState n
    let ok := max 1 (d.get Pg.sel (SEL.LOCK_TIME n)) ≤ d.sel[n].lock
    if ok ∧ (st = selAcquire ∨ (st = selRelock ∧ d.slewLeft n = 0)) then d.selEnter n selLocked else d

/-- R113, R115, R120: the end of a measurement interval of the servo; the partner's latest offset has been used (R403). -/
def execServoUpdate (n : Ts) (s : State) : Host.Outcome State Fault Refusal :=
  s.run fun d =>
    let d := d.servoUpdate n
    d.when (d.get Pg.plk PLK.FOLLOW_TS == n.val) fun d => { d with plk := { d.plk with freshX := false } }

/-- R116, R117: a write of SVCn_CTL sets RUN and DAMP; RUN = 0 halts a running core, RUN = 1 starts it or re-arms a halted one. -/
def execSvcRunWrite (m : Master) (n : Ts) (v : Nat) (s : State) : Host.Outcome State Fault Refusal :=
  s.run fun d => d.writeStore m (Pg.svc n) 0x100 v fun d => d.coreRun n (bit v 31)

/-- R116, R117: a write of SVCn_WDOG; any write restarts the watchdog of a core that runs or is about to resume. -/
def execSvcHeartbeat (m : Master) (n : Ts) (v : Nat) (s : State) : Host.Outcome State Fault Refusal :=
  s.run fun d => d.writeStore m (Pg.svc n) 0x104 v fun d =>
    d.when (d.coreRuns n || d.svc[n].rearmed) fun d => d.wdogRestart n

/-- R117: no heartbeat within TMO; the core halts with WDOG set. -/
def execSvcWatchdogExpiry (n : Ts) (s : State) : Host.Outcome State Fault Refusal :=
  s.run fun d => if d.coreRuns n then d.coreHalt n true else d

/-- R118: ten seconds of step-free time end a bin. -/
def execHoldoverBin (n : Ts) (s : State) : Host.Outcome State Fault Refusal :=
  s.run fun d => d.closeBin n

end Sys2Proof.Machine
end

