-- ==== Sys2Proof/Machine/SeqOps.lean ====
section
/-! DEFINITION. The sequencers: fetch and decode, faults, waits, permission windows and bus accesses (R329 to R338). -/

namespace Sys2Proof.Machine

abbrev seqOff : Nat := 0
abbrev seqIdle : Nat := 1
abbrev seqRun : Nat := 2
abbrev seqWaiting : Nat := 3
abbrev seqFaulted : Nat := 4

abbrev causeOpcode : Nat := 1
abbrev causeParity : Nat := 2
abbrev causeStack : Nat := 3
abbrev causePc : Nat := 4
abbrev causeOperand : Nat := 5
abbrev causePerm : Nat := 6
abbrev causeBudget : Nat := 7

def Dev.upSeq (d : Dev) (n : Fin 8) (f : SeqEng → SeqEng) : Dev := { d with seq := d.seq.set n (f d.seq[n]) }
def Dev.seqState (d : Dev) (n : Fin 8) : Nat := d.get (Pg.seq n) SEQ.STS_STATE
def Dev.seqEnter (d : Dev) (n : Fin 8) (s : Nat) : Dev := d.put (Pg.seq n) SEQ.STS_STATE s
def Dev.seqPc (d : Dev) (n : Fin 8) : Nat := d.get (Pg.seq n) SEQ.STS_PC
/-- Register Va of a sequencer. -/
def Dev.v (d : Dev) (n a : Fin 8) : Nat := d.get (Pg.seq n) (SEQ.V_V a)
def Dev.setV (d : Dev) (n a : Fin 8) (x : Nat) : Dev := d.put (Pg.seq n) (SEQ.V_V a) (x % 2 ^ 32)
/-- Data word d of a sequencer. -/
def Dev.dataWord (d : Dev) (n : Fin 8) (k : Nat) : Nat := d.get (Pg.seq n) (SEQ.D_DATA k)
/-- Instruction word i of a sequencer. -/
def Dev.instrWord (d : Dev) (n : Fin 8) (i : Nat) : Nat := d.get (Pg.seq n) (SEQ.I_INSTR i)

/-- A field of an instruction word. -/
def fieldOf (w hi lo : Nat) : Nat := (w >>> lo) % 2 ^ (hi + 1 - lo)

/-- The instruction that a word spells, with the second word of WR (R334). -/
def seqDecode (n : Fin 8) (w w2 : Nat) : Instr :=
  let f := fieldOf w
  let r (hi lo : Nat) : Fin 8 := Fin.ofNat 8 (f hi lo)
  let t : Fin 512 := Fin.ofNat 512 w
  let b (i : Nat) : Bool := bit w i
  match w / 2 ^ 27 % 32 with
  | 0x00 => .seqNop n
  | 0x01 => .seqWr n (b 26) (b 25) (r 24 22) (Fin.ofNat 64 (f 21 16)) w2
  | 0x02 => .seqRd n (Fin.ofNat 4 (f 26 25)) (r 24 22) (Fin.ofNat 64 (f 21 16)) (r 15 13)
  | 0x03 => .seqSetb n (b 26) (Fin.ofNat 32 (f 25 21)) (Fin.ofNat 64 (f 20 15))
  | 0x04 => .seqClrb n (b 26) (Fin.ofNat 32 (f 25 21)) (Fin.ofNat 64 (f 20 15))
  | 0x05 => .seqWaitb n (b 26) (Fin.ofNat 32 (f 25 21)) (b 20) (Fin.ofNat 64 (f 19 14)) (Fin.ofNat 4 (f 13 12)) (f 11 0)
  | 0x06 => .seqWaitt n (b 26) (if b 25 then 1 else 0) (Fin.ofNat 64 (f 21 16))
  | 0x07 => .seqWaite n (Fin.ofNat 128 (f 26 20)) (b 19) (Fin.ofNat 4 (f 13 12)) (f 11 0)
  | 0x08 => .seqJmp n t
  | 0x09 => .seqJz n (r 26 24) t
  | 0x0A => .seqJnz n (r 26 24) t
  | 0x0B => .seqDjnz n (r 26 24) t
  | 0x0C => .seqAdd n (r 26 24) (b 23) (r 22 20) (f 15 0)
  | 0x0D => .seqSub n (r 26 24) (b 23) (r 22 20) (f 15 0)
  | 0x0E => .seqAnd n (r 26 24) (b 23) (r 22 20) (f 15 0)
  | 0x0F => .seqOr n (r 26 24) (b 23) (r 22 20) (f 15 0)
  | 0x10 => .seqRec n (f 15 0)
  | 0x11 => .seqSnap n (Fin.ofNat 16 (f 3 0))
  | 0x12 => .seqRaise n (b 26) (Fin.ofNat 16 (if b 26 then f 2 0 else f 3 0))
  | 0x13 => .seqHalt n
  | 0x14 => if b 26 then .seqRet n else .seqCall n t
  | _ => .seqIllegal n false

/-- Take the fetched instruction back. -/
def Dev.seqUnfetch (d : Dev) (n : Fin 8) : Dev :=
  let d : Dev := match d.seq[n].next with
    | some i => d.cancel i
    | none => d
  ((d.cancel (.seqWaitEnd n)).cancel (.seqBudgetExpiry n)).upSeq n fun e => { e with next := none, wait := none, deadline := none }

/-- Entry into FAULT: the page fault, the interrupt and the record (R330). -/
def Dev.seqFault (d : Dev) (n : Fin 8) (cause : Nat) : Dev :=
  let pg := Pg.seq n
  let d := (((d.seqUnfetch n).seqEnter n seqFaulted).put pg SEQ.STS_CAUSE cause).int pg 0
  let d := d.record 0x80 (srcPage pg) ([n.val] ++ oct 2 (d.seqPc n) ++ [cause] ++ oct 4 (d.instrWord n (d.seqPc n)))
  d.raise pg (if cause = causeParity then 2 else 1) cause

/-- A fault of the sequencer is no longer reported (R330). -/
def Dev.seqLower (d : Dev) (n : Fin 8) : Dev :=
  let pg := Pg.seq n
  let c := d.get pg SEQ.STS_CAUSE
  d.lower pg (if c = causeParity then 2 else 1) c

/-- Fetch the instruction at an address; it issues after a number of ticks (R330, R336). -/
def Dev.seqFetch (d : Dev) (n : Fin 8) (pc dt : Nat) : Dev :=
  if 512 ≤ pc then (d.put (Pg.seq n) SEQ.STS_PC 511).seqFault n causePc
  else
    let d := d.put (Pg.seq n) SEQ.STS_PC pc
    let w := d.instrWord n pc
    if w / 2 ^ 27 % 32 = 1 ∧ pc = 511 then d.seqFault n causePc
    else
      let i := seqDecode n w (d.instrWord n (pc + 1))
      let d := d.upSeq n fun e => { e with next := some i }
      if d.seq[n].frozen then d else d.after dt i

/-- The instruction that was fetched is taken up. -/
def Dev.seqTaken (d : Dev) (n : Fin 8) : Dev :=
  match d.seq[n].next with
  | some i => (d.cancel i).upSeq n fun e => { e with next := none }
  | none => d

/-- Issue an instruction of a sequencer in RUN; in any other state it has no effect. -/
def Dev.seqIssue (d : Dev) (n : Fin 8) (f : Dev → Dev) : Dev :=
  if d.seqState n ≠ seqRun ∨ d.seq[n].frozen then d else f (d.seqTaken n)

/-- Go on with the instruction after this one. -/
def Dev.seqNext (d : Dev) (n : Fin 8) (words dt : Nat) : Dev := d.seqFetch n (d.seqPc n + words) dt

/-- In IDLE an enabled trigger whose event is pending starts in the next cycle (R330). -/
def Dev.seqArm (d : Dev) (n : Fin 8) : Dev :=
  let pg := Pg.seq n
  let any := [0, 1, 2, 3].any fun k => d.on pg (SEQ.TRIG_EN k) && (let e := d.get pg (SEQ.TRIG_EVT k); bit (d.get pg (SEQ.EVT_PEND_PEND (e / 32))) (e % 32))
  if any && !d.seq[n].frozen && d.seqState n == seqIdle then d.timer 2 (.triggerStart n) else d

/-- IDLE, where a pending trigger starts (R330). -/
def Dev.seqToIdle (d : Dev) (n : Fin 8) : Dev := ((d.seqUnfetch n).seqEnter n seqIdle).seqArm n

/-- A run begins (R330, R338). -/
def Dev.seqBegin (d : Dev) (n : Fin 8) (src entry : Nat) : Dev :=
  let pg := Pg.seq n
  let d := ((((d.seqEnter n seqRun).put pg SEQ.STS_SRC src).put pg SEQ.STS_DEPTH 0).put pg SEQ.STS_CAUSE 0).put pg SEQ.STACK_RET 0
  let ms := d.get pg SEQ.BUDGET_MS
  let d := (d.count pg SEQ.RUNS_COUNT).upSeq n fun e => { e with runStart := d.freeNs, budget := ms }
  let d := d.when (ms != 0) fun d => d.timerTime 0 (ms * milli + 1) (.seqBudgetExpiry n)
  d.seqFetch n entry 0

/-! Bus accesses (R335 to R337). -/

/-- An address is one a sequencer may name (R335). -/
def seqAddrOk (sp : Bool) (a : Nat) : Bool := a % 4 == 0 && decide (a < if sp then 192 * 2 ^ 20 else 32 * 2 ^ 20)

/-- A write is permitted by the windows (R337). -/
def Dev.seqMayWrite (d : Dev) (n : Fin 8) (sp : Bool) (a : Nat) : Bool :=
  let sq := Pg.seq n
  if sp then d.on sq SEQ.PERM_CTL_BAR2_WR
  else
    let pg := a / 4096
    let win := (List.range 8).any fun k => d.on sq (SEQ.WIN_EN k) && decide (d.get sq (SEQ.WIN_BASE k) ≤ pg) && decide (pg < d.get sq (SEQ.WIN_BASE k) + d.get sq (SEQ.WIN_COUNT k))
    win && !(decide (Pg.key 0 ≤ pg) && decide (pg ≤ Pg.key 3)) && pg != Pg.ldr && pg != Pg.glb

/-- A read is permitted (R337). -/
def Dev.seqMayRead (d : Dev) (n : Fin 8) (sp : Bool) : Bool := !sp || d.on (Pg.seq n) SEQ.PERM_CTL_BAR2_RD

/-- A refused access: counted, and a fault (R330, R337). -/
def Dev.seqDenied (d : Dev) (n : Fin 8) : Dev := (d.count (Pg.seq n) SEQ.DENY_COUNT).seqFault n causePerm

/-- A 32-bit read of a sequencer. -/
def Dev.seqRead (d : Dev) (s : Words) (n : Fin 8) (sp : Bool) (a : Nat) : Nat × Dev :=
  if sp then ((d.cstRead s (.seq n) a >>> (32 * (a / 4 % 2))) % 2 ^ 32, d) else d.read32 (.seq n) a

/-- A posted write: it reaches its page in the next tick, in issue order (R336). -/
def Dev.seqPost (d : Dev) (n : Fin 8) (sp : Bool) (a v : Nat) : Dev :=
  if !sp then d.after 0 (.registerWrite (.seq n) a false v)
  else if a < 2 ^ 26 then d.after 0 (.cstWrite (.seq n) a false v)
  else if a < 2 * 2 ^ 26 then d.after 0 (.cstSetWrite (.seq n) (a % 2 ^ 26) false v)
  else d.after 0 (.cstClearWrite (.seq n) (a % 2 ^ 26) false v)

/-- The value of a masked write of one bit: RW and RWL bits stay as they are, the others are written 0 (R336). -/
def Dev.seqMasked (d : Dev) (a b : Nat) (v : Bool) : Nat :=
  let pg := a / 4096
  let off := a % 4096
  let keep := match regAt pg off with
    | some r =>
      let sh := 8 * (off - r.start off)
      ((d.reg pg (r.start off)).toNat >>> sh) &&& ((r.rw ||| r.rwl) >>> sh) &&& 0xFFFFFFFF
    | none => 0
  let rest := keep - (keep &&& 1 <<< b)
  if v then rest ||| 1 <<< b else rest

/-- SETB and CLRB: one masked write (R336). -/
def Dev.seqBit (d : Dev) (n : Fin 8) (sp : Bool) (b k : Nat) (v : Bool) : Dev :=
  let a := d.dataWord n k
  if !seqAddrOk sp a then d.seqFault n causeOperand
  else if !d.seqMayWrite n sp a then d.seqDenied n
  else
    let d := if sp then (if v then d.after 0 (.cstSetWrite (.seq n) (a % 2 ^ 26) false (1 <<< b)) else d.after 0 (.cstClearWrite (.seq n) (a % 2 ^ 26) false (1 <<< b)))
      else d.seqPost n false a (d.seqMasked a b v)
    d.seqNext n 1 2

/-! Waits (R332, R334). -/

/-- The ticks of a timeout, none when it is not limited (R334). -/
def seqTimeout (unit : Fin 4) (tmo : Nat) : Option Nat :=
  match unit with
  | 0 => none
  | 1 => some (tmo % 4096 * micro)
  | 2 => some (tmo % 4096 * milli)
  | 3 => some (tmo % 4096 * second)

/-- The pending bit of event e was set in this CCLK cycle, and is seen from the next (R331). -/
def Dev.evNow (d : Dev) (n : Fin 8) (e : Nat) : Bool := bit (d.justSet (4096 * Pg.seq n + (SEQ.EVT_PEND_PEND (e / 32)).off)) (e % 32)

/-- Event e is pending in a sequencer: an occurrence of this CCLK cycle is seen from the next, unless the bit was set before it (R331, R332). -/
def Dev.evPending (d : Dev) (n : Fin 8) (e : Nat) : Bool :=
  bit (d.get (Pg.seq n) (SEQ.EVT_PEND_PEND (e / 32))) (e % 32) && (!d.evNow n e || d.seq[n].again.contains (e, d.now / 2))

/-- Clear the pending bit of event e; an occurrence of this CCLK cycle stays pending (R332). -/
def Dev.evClear (d : Dev) (n : Fin 8) (e : Nat) : Dev :=
  let f := SEQ.EVT_PEND_PEND (e / 32)
  let d' := d.upSeq n fun x => { x with again := x.again.filter fun y => y.1 != e }
  if d.evNow n e then d' else d'.put (Pg.seq n) f (d.get (Pg.seq n) f &&& (0xFFFFFFFF - (1 <<< (e % 32))))

/-- The condition of a wait holds; a register is read for it. -/
def Dev.seqHolds (d : Dev) (s : Words) (n : Fin 8) : SeqWait → Bool × Dev
  | .bit sp b a val => let r := d.seqRead s n sp a; (bit r.1 b == val, r.2)
  | .time ts t => (decide (t ≤ d.time16 ts), d)
  | .mec t => (decide (t ≤ d.now), d)
  | .event e => (d.evPending n e, d)

/-- A wait ends: V7 tells how, and the run goes on (R330, R332). -/
def Dev.seqWaitOver (d : Dev) (n : Fin 8) (w : SeqWait) (met : Bool) : Dev :=
  let d : Dev := match w with
    | .event e => d.evClear n e
    | _ => d
  let d := (d.cancel (.seqWaitEnd n)).upSeq n fun e => { e with wait := none, deadline := none }
  ((d.setV n 7 (b2n met)).seqEnter n seqRun).seqNext n 1 2

/-- The next look at a wait: a register every 16 CCLK cycles, a MEC or a timeout when it comes. -/
def Dev.seqLook (d : Dev) (n : Fin 8) (w : SeqWait) : Dev :=
  let cand := (match w with
    | .bit _ _ _ _ => [d.now + 32]
    | .mec t => [t]
    | .event e => if d.evNow n e then [d.now + 2] else []
    | .time _ _ => []) ++ d.seq[n].deadline.toList
  match cand with
  | [] => d
  | x :: l => d.timer (max 1 (l.foldl min x - d.now)) (.seqWaitEnd n)

/-- A WAIT instruction: it goes on at once when its condition holds (R330). -/
def Dev.seqWait (d : Dev) (s : Words) (n : Fin 8) (w : SeqWait) (tmo : Option Nat) : Dev :=
  let r := d.seqHolds s n w
  if r.1 then r.2.seqWaitOver n w true
  else
    let d := (r.2.upSeq n fun e => { e with wait := some w, deadline := tmo.map (d.now + ·) }).seqEnter n seqWaiting
    d.seqLook n w

/-- CCLK of the sequencers stops in Cave (R333). -/
def Dev.seqFreeze (d : Dev) : Dev :=
  d.each (List.finRange 8) fun (n : Fin 8) d =>
    let d : Dev := match d.seq[n].next with
      | some i => d.cancel i
      | none => d
    ((d.cancel (.seqWaitEnd n)).cancel (.triggerStart n)).upSeq n fun e => { e with frozen := true }

/-- CCLK restarts at Cave exit (R333): the fetched instruction issues, a wait whose timeout has passed ends with V7 = 0, and the others are judged again. -/
def Dev.seqThaw (d : Dev) : Dev :=
  d.each (List.finRange 8) fun (n : Fin 8) d =>
    if !d.seq[n].frozen then d else
    let d := d.upSeq n fun e => { e with frozen := false }
    let st := d.seqState n
    let d : Dev := if st = seqRun then (match d.seq[n].next with
        | some i => d.after 2 i
        | none => d)
      else if st = seqWaiting then
        (match d.seq[n].wait with
        | some w => if d.seq[n].deadline.any fun t => t ≤ d.now then d.seqWaitOver n w false else d.timer 2 (.seqWaitEnd n)
        | none => d)
      else if st = seqIdle then d.seqToIdle n else d
    if (st = seqRun ∨ st = seqWaiting) ∧ d.seq[n].budget ≠ 0 ∧ d.seq[n].runStart + d.seq[n].budget * milli < d.freeNs then d.timer 0 (.seqBudgetExpiry n) else d

end Sys2Proof.Machine
end

