-- ==== Sys2Proof/Machine/Store.lean ====
section
/-! DEFINITION. The commands of the client store (R272 to R288). -/

namespace Sys2Proof.Machine

/-- R273, R278 to R281: a host write through the base window of BAR2. -/
def execCstWrite (m : Master) (addr : Nat) (wide : Bool) (v : Nat) (s : State) : Host.Outcome State Fault Refusal :=
  s.runStore fun st d => cstWrite (st, d) m .base addr wide v

/-- R278: a write through the bit-set alias. -/
def execCstSetWrite (m : Master) (addr : Nat) (wide : Bool) (v : Nat) (s : State) : Host.Outcome State Fault Refusal :=
  s.runStore fun st d => cstWrite (st, d) m .set addr wide v

/-- R278: a write through the bit-clear alias. -/
def execCstClearWrite (m : Master) (addr : Nat) (wide : Bool) (v : Nat) (s : State) : Host.Outcome State Fault Refusal :=
  s.runStore fun st d => cstWrite (st, d) m .clear addr wide v

/-- The key that the key registers hold (R288). -/
def Dev.cstKey (d : Dev) : CstKey :=
  let a (j : Nat) := d.get Pg.cst (CST.KEY_A_ADDR j)
  ⟨d.get Pg.cst CST.KEY_CTL_PORT, d.get Pg.cst CST.KEY_CTL_ATYPE, a 0 + a 1 * 2 ^ 32 + a 2 * 2 ^ 64 + a 3 * 2 ^ 96, d.get Pg.cst CST.KEY_CID_CID, d.get Pg.cst CST.KEY_CTL_PORT_NUM⟩

/-- The buckets of the key and the entry found are shown (R275, R288). -/
def Dev.lookupShow (d : Dev) (st : Words) : Dev :=
  let k := d.cstKey
  let b := d.buckets k
  let hit := d.lookup st k
  let d := (d.put Pg.cst CST.LKP_BKT_B1 b.1).put Pg.cst CST.LKP_BKT_B2 b.2
  ((d.putb Pg.cst CST.LKP_STS_HIT hit.isSome).put Pg.cst CST.LKP_STS_INDEX (hit.getD 0)).int Pg.cst 3

/-- R275, R288: LOOKUP reports the buckets of the key registers and the entry found. -/
def execLookup (m : Master) (s : State) : Host.Outcome State Fault Refusal :=
  s.run fun d => d.write m Pg.cst 0x108 1 fun d => d.lookupShow s.store

/-- A scrub pass lasts PASS seconds (R283). -/
def Dev.scrubLater (d : Dev) : Dev := d.timerTime 0 (max 1 (d.get Pg.cst CST.SCRUB_PASS) * second) (.scrubPass [])

/-- R283, R286, R288: SCRUB_NOW starts a pass in every free cycle, 104.86 µs long. -/
def execScrubNow (m : Master) (s : State) : Host.Outcome State Fault Refusal :=
  s.run fun d => d.write m Pg.cst 0x108 2 fun d => if d.cstOn then d.timerTime 0 104858 (.scrubPass []) else d

/-- One error met by the scrubber (R282): corrected, or the entry is poisoned. -/
def Dev.eccError (d : Dev) (k : Nat) (double : Bool) : Dev :=
  let i := k / 8 % 2 ^ 20
  let d := ((d.putb Pg.cst CST.ECC_LAST_UE double).put Pg.cst CST.ECC_LAST_WORD (k % 8)).put Pg.cst CST.ECC_LAST_INDEX i
  if double then
    let d := { d with cst := { d.cst with
      poison := if d.cst.poison.contains i then d.cst.poison else d.cst.poison ++ [i]
      bad := if (k % 8 = 0 ∨ k % 8 = 4) ∧ !d.cst.bad.contains i then d.cst.bad ++ [i] else d.cst.bad
      lost := d.cst.lost || k % 8 == 0 || k % 8 == 4 } }
    ((((d.count Pg.cst CST.ECC_UE_COUNT).put Pg.cst CST.POISON_COUNT d.cst.poison.length).fault Pg.cst 1 1).record 0x52 (srcPage Pg.cst) (oct 3 i ++ [k % 8])).int Pg.cst 0
  else
    let b := i % 64
    { (d.count Pg.cst CST.ECC_CE_COUNT) with cst := { d.cst with bankCe := sset (fun _ => 0) d.cst.bankCe b (min 0xFFFFFFFF (sget (fun _ => 0) d.cst.bankCe b + 1)) } }

/-- A pass ends: its errors are taken, a lost sum of reserved work is formed again, and the next pass is due (R246, R282, R283). -/
def Dev.scrubEnd (d : Dev) (st : Words) (errs : List (Nat × Bool)) : Dev :=
  let d := d.each errs fun e d => d.eccError e.1 e.2
  let d := if d.cst.lost then ({ d with cst := { d.cst with lost := false } }.recount st).reservedShow else d
  d.scrubLater

/-- R246, R282, R283: a pass ends with the errors it met, each word by entry × 8 + word and whether two bits failed; after an unreadable W0 or W4 the unicast reserved work is replaced by its sum. -/
def execScrubPass (errs : List (Nat × Bool)) (s : State) : Host.Outcome State Fault Refusal :=
  s.run fun d => if !d.cstOn then d else d.scrubEnd s.store errs

/-- A Brine request is refused: an UP port has grants, or serves a domain with unicast negotiation (R285). -/
def Dev.brineRefused (d : Dev) : Bool :=
  (List.finRange 24).any fun p => d.portUpQ p &&
    (d.get (Pg.rsp 5) (RSP5.PORT_STS_GRANTS p) != 0 || (List.range 8).any fun k => d.domOn k p && d.on (Pg.rsp 2) (RSP2.DOM_CTL_UCAST k))

/-- Enter Brine (R285). -/
def Dev.brineIn (d : Dev) : Dev :=
  if d.cstOn then ({ d with cst := { d.cst with brineAt := d.stepFree 0 } }.cancel (.scrubPass [])).cstEnter 3 else d

/-- Leave Brine with PD5 granted: ON after 20 µs, a release pass after a long Brine, and a full scrub pass (R286); an initialisation ends with every entry FREE (R287). -/
def brineOut (r : Words × Dev) : Words × Dev :=
  let d := r.2
  if d.get Pg.cst CST.STS_PWR = 1 then ([], (d.cstShow []).cstEnter 2 |>.scrubLater)
  else if d.get Pg.cst CST.STS_PWR ≠ 3 then r
  else
    let long := decide (65536 * accSecond < d.stepFree 0 - d.cst.brineAt)
    let r := if long then releaseAll r fun _ _ => true else r
    (r.1, ((r.2.cstEnter 2).timerTime 0 104858 (.scrubPass [])))

/-- R285, R288: BRINE written 1 puts the store into retention, or is refused. -/
def execBrineEnter (m : Master) (v : Nat) (s : State) : Host.Outcome State Fault Refusal :=
  s.run fun d => d.writeStore m Pg.cst 0x100 v fun d =>
    if !d.on Pg.cst CST.CTL_BRINE || !d.cstOn then d
    else if d.brineRefused then (d.put Pg.cst CST.STS_BRINE_REFUSED 1).int Pg.cst 1
    else (d.put Pg.cst CST.STS_BRINE_REFUSED 0).brineIn

/-- R286: BRINE written 0 wakes the store, at once where PD5 is granted and with its grant else; the effects come 20 µs later, when this command falls due again from the agenda. -/
def execBrineExit (m : Master) (v : Nat) (s : State) : Host.Outcome State Fault Refusal :=
  s.runStore fun st d =>
    if m = .collector then (if (d.on Pg.cst CST.CTL_BRINE && d.get Pg.cst CST.STS_PWR == 3) || d.inCave then (st, d) else brineOut (st, d))
    else (st, d.writeStore m Pg.cst 0x100 v fun d =>
      if d.on Pg.cst CST.CTL_BRINE || d.get Pg.cst CST.STS_PWR != 3 || !d.granted kindStore 0 then d else d.timerTime 0 (20 * micro) (.brineExit .collector 0))

/-- R287: a write of CST_HASH_SEED is accepted only while USED = 0. -/
def execHashSeedWrite (m : Master) (v : Nat) (s : State) : Host.Outcome State Fault Refusal :=
  s.run fun d => d.writeIf m Pg.cst 0x140 v (d.get Pg.cst CST.STS_USED == 0) CST.HOST_DISC_COUNT fun d => d.storeReg Pg.cst 0x140 v

end Sys2Proof.Machine
end

