-- ==== Sys2Proof/Machine/PwrOps.lean ====
section
/-! DEFINITION. Operations of the power and thermal scheduler (R378 to R390): what requests, what a unit costs, what a grant and a revocation bring, the cap, and Cave. -/

namespace Sys2Proof.Machine

def Dev.upPwr (d : Dev) (f : PwrEng → PwrEng) : Dev := { d with pwr := f d.pwr }

/-! Costs and the cap (R379, R380, R383). -/

/-- The declared cost of a unit: that of a port cluster is summed over its enabled ports at their rate; PD13 and the central reader have none (R379). -/
def Dev.unitCost (d : Dev) (kind inst : Nat) : Nat :=
  if kind = kindPort then
    (((List.finRange 24).filter fun (p : Fin 24) => cluster p == inst && d.portState p != portOff).map fun p => d.cost (1 + min 4 (d.portRate p))).sum
  else if kind ≤ kindAudio then d.cost kind else 0

/-- The committed power of the units a test selects. -/
def Dev.sumCost (d : Dev) (f : PwrUnit → Bool) : Nat := ((d.pwr.units.filter f).map fun u => d.unitCost u.kind u.inst).sum

/-- The committed power P (R380), and the floor P_01 (R383). -/
def Dev.committed (d : Dev) : Nat := d.cost 0 + d.sumCost fun u => u.granted.isSome
def Dev.floor01 (d : Dev) : Nat := d.cost 0 + d.sumCost fun u => u.granted.isSome && decide (u.prec ≤ 1)

/-- CAP_EFF, POWER_CAP and STEP in mW (R384, R394). -/
def Dev.capEff (d : Dev) : Nat := d.get Pg.pwr PWR.EFF_CAP_EFF
def Dev.powerCap (d : Dev) : Nat := clampN 2000 45000 (d.get Pg.pwr PWR.CAP_MW)
def Dev.capStepMw (d : Dev) : Nat := clampN 100 10000 (d.get Pg.pwr PWR.STEP_MW)

/-! Requests (R131, R159, R164, R199, R235, R290, R378, R382). -/

/-- A page lets its block request: PWR_REQ.MODE is not 0x1 (R393). -/
def Dev.mayAsk (d : Dev) (pg : Nat) : Bool := d.get pg HDR.PWR_REQ_MODE != 1

/-- First-tier pipelines and crypto clusters (R382). -/
def Dev.firstTier (d : Dev) : Nat × Nat :=
  let q := d.reserved
  let need := (List.range 8).any (fun k => d.on (Pg.rsp 2) (RSP2.DOM_CTL_EN k) && d.on (Pg.rsp 2) (RSP2.DOM_CTL_AUTH_REQ k)) ||
    (List.range 2).any fun n => d.on (Pg.rsp 3) (RSP3.NTP_CTL_EN n) && d.on (Pg.rsp 3) (RSP3.NTP_CTL_NTS n)
  (max 1 (cdiv (q.1 * 10) (128 * 1152000000)), max (b2n need) (cdiv (q.2 * 10) (128 * 576000000)))

/-- A TDC cluster is asked for at the timekeeping precedence: an enabled channel feeds an enabled monitor or is the probe channel (R164). -/
def Dev.tdcPrec (d : Dev) (l : List (Fin 16)) : Nat :=
  if l.any fun n => d.get Pg.tdcCal TDCCAL.PROBE_CTL_CH == n.val || (d.fedBy n).any fun k => d.mstate k != 0 then 0 else 4

/-- GNSS is the selected reference of a timescale (R131). -/
def Dev.gnssSelected (d : Dev) : Bool := d.selK 0 == 0 || d.selK 1 == 0

/-- The receiver wants its RF: enabled and, in Cave, awake (R131, R142). -/
def Dev.gnssWanted (d : Dev) : Bool :=
  d.on (Pg.gnss 0) GNSS0.CTL_EN && d.mayAsk (Pg.gnss 0) &&
  (!d.inCave || (d.on (Pg.gnss 6) GNSS6.CAVE_CTL_EN && (d.gstate != gnssSleep || d.gnss.woke)))

/-- What requests now: kind, instance, precedence. -/
def Dev.wants (d : Dev) : List (Nat × Nat × Nat) :=
  let rsp := d.on (Pg.rsp 0) RSP0.CTL_EN && d.mayAsk (Pg.rsp 0)
  let tier := d.firstTier
  let pair := d.on Pg.plk PLK.CTL_EN && d.mayAsk Pg.plk
  let ports := (List.range 6).filter fun c => d.mayAsk (Pg.pc c) && (List.finRange 24).any fun (p : Fin 24) => cluster p == c && d.portState p != portOff && d.mayAsk (Pg.port p)
  let cc := (List.range 4).filter fun c => (List.range 4).any fun i => d.mayAsk (Pg.cl (4 * c + i))
  let syn (n : Fin 4) : Nat := d.get (Pg.syn n) SYN.CTL_CLASS
  let syns := (List.finRange 4).filter fun (n : Fin 4) => d.on (Pg.syn n) SYN.CTL_EN && d.mayAsk (Pg.syn n)
  let ckos := (List.range 16).filter fun m => d.mayAsk Pg.cko && d.on Pg.cko (CKO.CTL_EN m) && d.get Pg.cko (CKO.CTL_FMT m) != 0 && syns.contains (d.ckoSyn m)
  let tdcs := (List.range 4).filterMap fun c =>
    let l := (List.finRange 16).filter fun (n : Fin 16) => n.val / 4 == c && d.on (Pg.tdc n) TDC.CTL_EN && d.mayAsk (Pg.tdc n)
    if l.isEmpty then none else some (kindTdc, c, d.tdcPrec l)
  let search := d.gnssWanted && (d.gstate == gnssSearch || !d.gnss.queue.isEmpty || (List.finRange 8).any fun e => d.gnss.eng[e].isSome)
  let aud := (List.range 4).any fun p => d.mayAsk (Pg.aud p) && (d.on (Pg.aud p) (AUD.CTL_EN 0) || d.on (Pg.aud p) (AUD.CTL_EN 1))
  (ports.map fun c => (kindPort, c, 1)) ++
  (if d.mayAsk Pg.cst && !(d.on Pg.cst CST.CTL_BRINE && d.get Pg.cst CST.STS_PWR == 3) then [(kindStore, 0, 1)] else []) ++
  (if rsp then ((List.range 4).map fun q => (kindPipe, q, if q < tier.1 then 1 else 2)) ++ [(kindSignal, 0, 0)] else []) ++
  (cc.filterMap fun c => if pair && c == cc.headD 0 then some (kindCrypto, c, 0) else if rsp then some (kindCrypto, c, if c < tier.2 then 1 else 2) else none) ++
  (syns.map fun (n : Fin 4) => (kindSyn, n.val, syn n)) ++
  (ckos.map fun m => (kindCko, m, syn (d.ckoSyn m))) ++
  tdcs ++
  (if d.mayAsk Pg.tdcCal then [(kindTdcs, 0, 0)] else []) ++
  (if d.gnssWanted then [(kindGnss, 0, if d.gnssSelected then 0 else 3)] else []) ++
  (if search then [(kindSearch, 0, 3)] else []) ++
  (if aud then [(kindAudio, 0, 1)] else []) ++
  (if pair then [(kindPair, 0, 0)] else []) ++
  (if d.mayAsk Pg.pmc then [(kindReader, 0, 5)] else [])

/-- The unit belongs to the Cave set (R387): TC0, TDCS and calibration, the GNSS receiver under its duty cycle, and what PD0 holds. -/
def Dev.caveSet (d : Dev) (u : PwrUnit) : Bool :=
  (u.kind == kindTdc && u.inst == 0) || u.kind == kindTdcs || u.kind == kindReader ||
  ((u.kind == kindGnss || u.kind == kindSearch) && d.on (Pg.gnss 6) GNSS6.CAVE_CTL_EN)

/-- Cave is being entered, or holds: requests outside the Cave set are held (R381, R388). -/
def Dev.caveHolds (d : Dev) : Bool := d.get Pg.pwr PWR.STS_MAIN_STATE == 1 || d.inCave

/-! The registers of the scheduler (R393, R394). -/

/-- The pages whose PWR_STS shows a unit. -/
def Dev.unitPages (d : Dev) (kind inst : Nat) : List Nat :=
  if kind = kindPort then Pg.pc inst :: ((List.finRange 24).filter fun (p : Fin 24) => cluster p == inst && d.portState p != portOff).flatMap fun (p : Fin 24) => [Pg.port p.val, Pg.pts p.val]
  else if kind = kindStore then [Pg.cst]
  else if kind = kindPipe ∨ kind = kindSignal then (List.range 8).map Pg.rsp
  else if kind = kindCrypto then (List.range 4).map fun i => Pg.cl (4 * inst + i)
  else if kind = kindSyn then [Pg.syn inst]
  else if kind = kindCko then [Pg.cko]
  else if kind = kindTdc then (List.range 4).map fun i => Pg.tdc (4 * inst + i)
  else if kind = kindTdcs then [Pg.tdcCal]
  else if kind = kindGnss ∨ kind = kindSearch then (List.range 8).map Pg.gnss
  else if kind = kindAudio then (List.range 4).map Pg.aud
  else if kind = kindPair then [Pg.plk] else [Pg.pmc]

/-- A page whose block takes part in admission. -/
def admitted (pg : Nat) : Bool :=
  (Pg.gnss 0 ≤ pg && pg ≤ Pg.gnss 7) || (Pg.syn 0 ≤ pg && pg ≤ Pg.cko) || (Pg.tdc 0 ≤ pg && pg ≤ Pg.tdcCal) ||
  (Pg.port 0 ≤ pg && pg < Pg.key 0) || (Pg.aud 0 ≤ pg && pg ≤ Pg.aud 3) || pg == Pg.pmc || pg == Pg.plk

/-- Show PWR_STS and PWR_ON of every page, PWR_COMMITk, and OVER_CAP with its C1 and its interrupt (R381, R393, R394). -/
def Dev.pwrShow (d : Dev) : Dev :=
  let rows := d.pwr.units.map fun u => (u, d.unitPages u.kind u.inst)
  let d := d.each allPages fun pg d =>
    let us := if admitted pg then (rows.filter fun r => r.2.contains pg).map (·.1) else []
    let all := !admitted pg || (!us.isEmpty && us.all fun u => u.granted.isSome)
    let d := ((d.putb pg HDR.PWR_STS_GRANTED all).putb pg HDR.PWR_STS_WAITING (us.any fun u => u.granted.isNone)).put pg
      HDR.PWR_STS_PREC (us.foldl (fun a u => min a u.prec) 7)
    d.putb pg HDR.PAGE_STS_PWR_ON (all && d.domainOn pg)
  let d := d.each (List.range 6) fun k d =>
    (d.put Pg.pwr (PWR.COMMIT_MW k) (min 0xFFFF ((if k = 0 then d.cost 0 else 0) + d.sumCost fun u => u.granted.isSome && u.prec == k))).put Pg.pwr
      (PWR.COMMIT_WAIT k) (min 0xFFFF (d.sumCost fun u => u.granted.isNone && u.prec == k))
  let above := decide (d.capEff < d.committed)
  if above == d.on Pg.pwr PWR.STS_MAIN_OVER_CAP then d
  else
    let d := (d.putb Pg.pwr PWR.STS_MAIN_OVER_CAP above).int Pg.pwr 2
    if above then d.raise Pg.pwr 1 1 else d.lower Pg.pwr 1 1

/-! Grants and revocations (R31, R199, R250, R286, R287, R292, R327). -/

/-- PD5 rises: a store that was off is initialised in 104.86 µs, one in Brine wakes in 20 µs (R286, R287). -/
def Dev.storeWake (d : Dev) : Dev :=
  if d.get Pg.cst CST.STS_PWR = 0 then (d.cstEnter 1).timerTime 0 104858 (.brineExit .collector 0)
  else if d.get Pg.cst CST.STS_PWR = 3 ∧ !d.on Pg.cst CST.CTL_BRINE then d.timerTime 0 (20 * micro) (.brineExit .collector 0)
  else d

/-- PD5 is switched off: the words are lost, and with them the grants (log entry 21). -/
def storeOff (r : Words × Dev) : Words × Dev :=
  let q := releaseAll r fun _ _ => true
  ([], { (((q.2.cancel (.brineExit .collector 0)).cancel (.scrubPass [])).cstEnter 0) with cst := { q.2.cst with poison := [], bad := [], lost := false } })

/-- A unit counts no longer in capacity (R250). -/
def Dev.uncount (d : Dev) (kind inst : Nat) : Dev :=
  (((d.cancel (.capacityCount kind inst)).upRsp fun e => { e with counted := e.counted.filter (· ≠ (kind, inst)) }).capShow).reservedShow

/-- What a grant brings. -/
def Dev.unitOn (d : Dev) (kind inst : Nat) : Dev :=
  if kind = kindPort then (d.clusterShow inst).each (List.finRange 24) fun (p : Fin 24) d => d.when (cluster p == inst) fun d => d.portTry p
  else if kind = kindStore then d.storeWake
  else if kind = kindPipe then (d.timerTime 0 second (.capacityCount kind inst)).capShow
  else if kind = kindCrypto then
    let d := d.timerTime 0 second (.capacityCount kind inst)
    (d.each (List.finRange 16) fun (n : Fin 16) d => d.when (n.val / 4 == inst && d.laneState n == laneOff) fun d => d.laneWake n).capShow
  else if kind = kindSignal then
    let q := d.rsp.sigQ
    let d := (d.upRsp fun e => { e with sigQ := [] }).put (Pg.rsp 7) RSP7.SIG_STS_QLVL 0
    (d.each q fun x d => d.after 0 (.signalingRx x.1 x.2)).timer 0 .wheelSlot
  else if kind = kindSyn then d.each (List.finRange 4) fun (n : Fin 4) d => d.when (n.val == inst) fun d => d.synTryStart n
  else if kind = kindAudio then d.audGrant
  else if kind = kindGnss then
    if d.gstate ≠ gnssSleep then d else
    let d := d.when (!d.gnss.woke) fun d => d.int (Pg.gnss 6) 0
    d.when (!d.gnss.queue.isEmpty || d.gnss.eng.any fun e => e.isSome) fun d => (d.put (Pg.gnss 0) GNSS0.STS_STATE gnssSearch).showBusy
  else if kind = kindSearch then d.dwellsAnew
  else if kind = kindPair then d.plkStart
  else d

/-- What the end of a grant brings. -/
def unitOff (r : Words × Dev) (kind inst : Nat) : Words × Dev :=
  let d := r.2
  if kind = kindStore then (if d.get Pg.cst CST.STS_PWR = 3 then r else storeOff r)
  else (r.1,
    if kind = kindPort then (d.each (List.finRange 24) fun (p : Fin 24) d => d.when (cluster p == inst) fun d => d.portRevoke p).clusterShow inst
    else if kind = kindPipe then d.uncount kind inst
    else if kind = kindCrypto then (d.each (List.finRange 16) fun (n : Fin 16) d => d.when (n.val / 4 == inst) fun d => ((d.cancel (.katDone n true)).upLane n fun e => { e with draining := false, passed := false }).laneEnter n laneOff).uncount kind inst
    else if kind = kindSyn then d.each (List.finRange 4) fun (n : Fin 4) d => d.when (n.val == inst) fun d => d.synRelease n
    else if kind = kindAudio then d.audRevoke
    else if kind = kindGnss then (if d.gstate = gnssOff ∨ d.gstate = gnssSleep then d else ((d.gnssStop gnssSleep true).monLose 0).int (Pg.gnss 6) 1)
    else d)

/-- Change the unit of a kind and instance. -/
def Dev.setUnit (d : Dev) (kind inst : Nat) (g : Option Nat) : Dev :=
  d.upPwr fun e => { e with units := e.units.map fun u => if u.kind = kind ∧ u.inst = inst then { u with granted := g, held := d.freeNs } else u }

/-- A unit is granted. -/
def Dev.grant (d : Dev) (u : PwrUnit) : Dev := (d.setUnit u.kind u.inst (some d.now)).unitOn u.kind u.inst

/-- A unit is revoked, and its block's REVOKES count it (R380). -/
def revoke (r : Words × Dev) (u : PwrUnit) : Words × Dev :=
  let d := r.2.setUnit u.kind u.inst none
  let d := d.each (d.unitPages u.kind u.inst) fun pg d => d.put pg HDR.PWR_STS_REVOKES (min 0xFFFF (d.get pg HDR.PWR_STS_REVOKES + 1))
  unitOff (r.1, d) u.kind u.inst

/-- The order of admission: precedence, arrival, kind, instance (R380). -/
def PwrUnit.before (a b : PwrUnit) : Bool :=
  decide (a.prec < b.prec) || (a.prec == b.prec && (decide (a.arrival < b.arrival) || (a.arrival == b.arrival &&
    (decide (a.kind < b.kind) || (a.kind == b.kind && decide (a.inst < b.inst))))))

/-- The order of revocation: highest precedence number first, the youngest grant first within one, and the reverse of the order of admission among grants of one cycle (R380). -/
def PwrUnit.yields (a b : PwrUnit) : Bool :=
  decide (b.prec < a.prec) || (a.prec == b.prec && (decide (b.granted.getD 0 < a.granted.getD 0) || (a.granted == b.granted && b.before a)))

/-- The granted units that may be revoked, in order. -/
def Dev.victims (d : Dev) (above : Nat) : List PwrUnit :=
  sortBy PwrUnit.yields (d.pwr.units.filter fun u => u.granted.isSome && decide (above < u.prec))

/-- The shortest run of victims that frees an amount, if all of them do. -/
def Dev.enough (d : Dev) : Nat → List PwrUnit → Option (List PwrUnit)
  | 0, _ => some []
  | _ + 1, [] => none
  | n + 1, u :: l => (d.enough (n + 1 - d.unitCost u.kind u.inst) l).map (u :: ·)

/-- Revoke units of precedence 2 to 5 until P fits CAP_EFF (R383). -/
def fitCap (r : Words × Dev) : Words × Dev × Nat :=
  let d := r.2
  let l := d.victims 1
  let go := (d.enough (d.committed - d.capEff) l).getD l
  let q := go.foldl revoke r
  (q.1, q.2, go.length)

/-- CAP_EFF changes (R384): units are revoked to fit, the floor P_01 holds, and the change is recorded. -/
def setCap (r : Words × Dev) (v : Nat) : Words × Dev :=
  let d := r.2
  let old := d.capEff
  let d := d.put Pg.pwr PWR.EFF_CAP_EFF v
  let q := fitCap (r.1, d)
  let d := q.2.1
  let d := d.when ((d.victims 1).isEmpty && decide (d.capEff < d.committed)) fun d => d.put Pg.pwr PWR.EFF_CAP_EFF (min 0xFFFF d.floor01)
  let d := (d.putb Pg.pwr PWR.STS_MAIN_THROTTLED (decide (d.capEff < d.powerCap))).capShow
  if d.capEff = old then (q.1, d)
  else (q.1, (d.int Pg.pwr 1).record 0xA1 (srcPage Pg.pwr) (oct 2 old ++ oct 2 d.capEff ++ [d.get Pg.pwr PWR.STS_MAIN_TEMP, q.2.2 % 256]))

/-- One step down, no further than P_01 (R384). -/
def capDown (r : Words × Dev) : Words × Dev :=
  let d := r.2
  let v := max (d.capEff - d.capStepMw) (min 0xFFFF d.floor01)
  if v < d.capEff then setCap r v else r

/-- One step up (R384). -/
def capUp (r : Words × Dev) : Words × Dev :=
  let d := r.2
  let v := min (d.capEff + d.capStepMw) d.powerCap
  if d.capEff < v then setCap r v else r

/-- POWER_CAP takes effect: CAP_EFF follows it unless throttling holds it below (R383). -/
def takeCap (r : Words × Dev) : Words × Dev :=
  let d := r.2
  let new := d.powerCap
  if new = d.pwr.cap then r
  else
    let v := if d.capEff = d.pwr.cap then new else min d.capEff new
    setCap (r.1, d.upPwr fun e => { e with cap := new }) v

/-- Bring the list of requests up to date: what no longer requests is released, what has begun to is entered with its arrival (R380, R382). -/
def followWants (r : Words × Dev) : Words × Dev :=
  let d := r.2
  let w := d.wants
  let gone := d.pwr.units.filter fun u => !w.any fun x => x.1 == u.kind && x.2.1 == u.inst
  let kept := w.map fun x =>
    match d.pwr.units.find? fun u => u.kind == x.1 && u.inst == x.2.1 with
    | some u => { u with prec := x.2.2 }
    | none => { kind := x.1, inst := x.2.1, prec := x.2.2, arrival := d.now }
  let d := d.upPwr fun e => { e with units := kept }
  gone.foldl (fun r u => if u.granted.isSome then unitOff r u.kind u.inst else r) (r.1, d)

/-- A wake request is refused in this cycle: it is counted (R131, R368). -/
def Dev.refuse (d : Dev) (u : PwrUnit) : Dev :=
  let d := d.each (d.unitPages u.kind u.inst) fun pg d => d.pmc pg 8
  d.when (u.kind == kindGnss || u.kind == kindSearch) fun d => d.count (Pg.gnss 2) GNSS2.ACQ_STS_DENY

/-- One waiting request of an admission cycle (R380, R381). -/
def admitOne (r : Words × Dev) (u : PwrUnit) : Words × Dev :=
  let d := r.2
  let room := d.capEff - d.committed
  let c := d.unitCost u.kind u.inst
  if d.caveHolds && !d.caveSet u then r
  else if u.prec = 0 ∨ d.committed + c ≤ d.capEff then (r.1, d.grant u)
  else match (if d.capEff < d.committed then d.enough (d.committed + c - d.capEff) (d.victims u.prec) else d.enough (c - room) (d.victims u.prec)) with
    | some l =>
      let q := l.foldl revoke r
      (q.1, q.2.grant u)
    | none => (r.1, d.refuse u)

/-- Serve the waiting requests in order (R380). -/
def admitAll (r : Words × Dev) : Words × Dev :=
  (sortBy PwrUnit.before (r.2.pwr.units.filter fun u => u.granted.isNone)).foldl admitOne r

/-! Cave (R386 to R390). -/

abbrev caveRun : Nat := 0
abbrev caveEntering : Nat := 1
abbrev caveIn : Nat := 2
abbrev caveExiting : Nat := 3

def Dev.caveState (d : Dev) : Nat := d.get Pg.pwr PWR.STS_MAIN_STATE

/-- STATE changes: interrupt and record (R389, R394, R396). -/
def Dev.caveTo (d : Dev) (s : Nat) : Dev :=
  let old := d.caveState
  ((d.put Pg.pwr PWR.STS_MAIN_STATE s).int Pg.pwr 0).record 0xA0 (srcPage Pg.pwr) ([old, s, d.get Pg.pwr PWR.STS_MAIN_CAUSE, 0] ++ oct 2 d.committed)

/-- An entry request: absorbed while Cave is being entered or holds; otherwise its sequence starts (R388, R390). -/
def Dev.caveEnter (d : Dev) (cause : Nat) : Dev :=
  if d.caveState = caveEntering ∨ d.caveState = caveIn then d
  else
    let d := ((d.put Pg.pwr PWR.STS_MAIN_CAUSE cause).cancel .caveExitDone).caveTo caveEntering
    let d := (d.upPwr fun e => { e with exit := false }).event 7
    (((d.timerTime 0 (10 * micro) .caveRevoke).timerTime 0 (100 * micro) .caveCclkStop).timerTime 0 (150 * micro) .caveStore).timerTime 0 (200 * micro) .caveEntered

/-- The clocks that stop in Cave run and are locked again (R375). -/
def Dev.clocksBack (d : Dev) : Dev := d.each [1, 2, 3, 5] fun i d => d.clkLock i true

/-- Cave is left (R389): the sequencers' clock, event 8, the store, the receiver; requests are served from the next cycle. -/
def Dev.caveLeave (d : Dev) : Dev :=
  let d := ((d.upPwr fun e => { e with exit := false, left := some d.now }).cancel .autoExit).cyclesAll fun d => d.caveTo caveExiting
  let d := d.clocksBack.seqThaw.event 8
  let d := ((d.cancel .gnssSleep).gnssWakeNow).cancel .gnssWake
  d.when (d.granted kindStore 0) Dev.storeWake

/-- An exit request: served at once in Cave, after the entry while Cave is being entered (R390). -/
def Dev.caveExit (d : Dev) : Dev :=
  if d.caveState = caveIn then d.caveLeave
  else if d.caveState = caveEntering then d.upPwr fun e => { e with exit := true }
  else d

/-- The start of a power failure: the record, the event and the flush (R341, R342, R386). -/
def Dev.powerFail (d : Dev) : Dev := ((d.record 0x02 (srcPage Pg.rec) []).event 5).flush

/-- Power has returned: write-through ends, and the hold before an automatic exit begins (R342, R389). -/
def Dev.powerBack (d : Dev) : Dev :=
  if d.powerFails then d
  else
    let d := d.put Pg.rec REC.STS_WT 0
    d.when (d.caveState == caveIn || d.caveState == caveEntering) fun d => d.timerTime 0 (max 1 (d.get Pg.pwr PWR.CTL_EXIT_HOLD) * milli) .autoExit

end Sys2Proof.Machine
end

