-- ==== Sys2Proof/Machine/Reference.lean ====
section
/-! DEFINITION. The commands of the reference monitors, the atomic ports, the upstream sessions, the SyncE slots and the ensemble check (R81 to R104). -/

namespace Sys2Proof.Machine

/-! Upstream sessions (R94, R95). -/

/-- Show the negotiation state of a session; a change raises INT_STS bit 2 (R94, R104). -/
def Dev.usNeg (d : Dev) (n : Fin 4) (v : Nat) : Dev :=
  if d.get (Pg.us n) US.STS_NEG = v then d else (d.put (Pg.us n) US.STS_NEG v).int (Pg.us n) 2

/-- Stop the timers of a session and forget its exchanges. -/
def Dev.usStop (d : Dev) (n : Fin 4) : Dev :=
  let d := d.each [0, 1, 2] fun (t : Fin 3) d => ((d.cancel (.usGrantRenew n t)).cancel (.usGrantRetry n t)).cancel (.usGrantLapse n t)
  let d := ((d.cancel (.usSyncTimeout n)).cancel (.usAnnounceTimeout n)).cancel (.usDelayReqTx n)
  (d.upUs n fun _ => {}).usNeg n 0

/-- Where a session's messages go: the group address of its transport in multicast, else the address of its time transmitter (R94). -/
def Dev.usDst (d : Dev) (n : Fin 4) : Nat :=
  let t := d.get (Pg.us n) US.CFG_TRANSPORT
  let a (j : Nat) := d.get (Pg.us n) (US.ADDR_ADDR j)
  if d.get (Pg.us n) US.CFG_MODE = 0 then (if t = 0 then 0x011B19000000 else if t = 1 then 0xE0000181 else 0xFF0E * 2 ^ 112 + 0x181)
  else if t = 0 then a 0 + a 1 % 2 ^ 16 * 2 ^ 32 else if t = 1 then a 0 else a 0 + a 1 * 2 ^ 32 + a 2 * 2 ^ 64 + a 3 * 2 ^ 96

/-- A session sends a message from its port, on TSA (R82, R201). -/
def Dev.usSend (d : Dev) (n : Fin 4) (kind : TxKind) (body : Nat) (fields : List Nat) : Dev :=
  if h : d.get (Pg.us n) US.CFG_PORT < 24 then
    let trans := d.get (Pg.us n) US.CFG_TRANSPORT
    let dom := d.get (Pg.us n) US.CFG_DOMAIN
    let seq := d.us[n].txSeq
    let f : TxFrame := { kind := kind, level := 1, cls := 2, len := ptpLen trans body, released := d.now, fixed := some 0, trans := trans, dst := d.usDst n,
                         mcast := d.get (Pg.us n) US.CFG_MODE == 0, dom := dom, seq := seq, fields := [dom, seq] ++ fields, us := some n }
    (d.upUs n fun e => { e with txSeq := (seq + 1) % 65536 }).txPush ⟨_, h⟩ f
  else d

/-- The interval asked for with a grant (R94, R95): 0 Announce, 1 Sync, 2 Delay_Resp. -/
def Dev.usLog (d : Dev) (n : Fin 4) (t : Fin 3) : Nat :=
  if t = 0 then d.get (Pg.us n) US.INTV_LOG_ANN else if t = 1 then d.get (Pg.us n) US.INTV_LOG_SYNC else d.get (Pg.us n) US.INTV_LOG_DREQ

/-- Ask for a grant for DUR at its interval, in a Signaling message (R95). -/
def Dev.usAsk (d : Dev) (n : Fin 4) (t : Fin 3) : Dev :=
  d.usSend n .usSignaling 54 [t.val, d.usLog n t, d.get (Pg.us n) US.GRANT_DUR]

/-- A session starts under its configuration: with unicast negotiation it requests its grants (R95). -/
def Dev.usStart (d : Dev) (n : Fin 4) : Dev :=
  let d := d.usStop n
  if d.get (Pg.us n) US.CFG_MODE = 1 then (d.usNeg n 1).each [0, 1, 2] fun t d => d.usAsk n t else d

/-- The session of a monitor starts or stops with its EN. -/
def Dev.monSession (d : Dev) (k : Fin 19) (run : Bool) : Dev :=
  if h : 11 ≤ k.val ∧ k.val ≤ 14 then
    let n : Fin 4 := ⟨k.val - 11, by omega⟩
    if run then d.usStart n else d.usStop n
  else d

/-! The monitor registers (R83 to R85). -/

/-- A write of MON_CTL: EN, FORCE_DQ and the limits (R83, R84, R85). -/
def Dev.writeMonCtl (d : Dev) (m : Master) (k : Fin 19) (v : Nat) : Dev :=
  d.writeStore m (monPg k) (monBase k) v fun d =>
    let st := d.mstate k
    if !bit v 31 then
      if st = monDisabled then d else (((d.dropPresence k).monSession k false).monEnter k monDisabled (d.mcause k)).clearFlags k
    else if st = monDisabled then
      ((((d.upMon k fun e => { e with seen := false, edge := none }).monSession k true).monEnter k monLost 0).monTry k)
    else if st = monDisqualified ∧ d.mcause k = 7 ∧ !bit v 29 then d.monEnter k monWtr 7
    else d.qualCheck k

/-- R84: MON_CTL is written with EN = 1. -/
def execMonEnable (m : Master) (k : Fin 19) (v : Nat) (s : State) : Host.Outcome State Fault Refusal :=
  s.run fun d => d.writeMonCtl m k (v % 2 ^ 31 + 2 ^ 31)

/-- R84: MON_CTL is written with EN = 0. -/
def execMonDisable (m : Master) (k : Fin 19) (v : Nat) (s : State) : Host.Outcome State Fault Refusal :=
  s.run fun d => d.writeMonCtl m k (v % 2 ^ 31)

/-- R84, R103: MON_CTL is written with a value of FORCE_DQ. -/
def execForceDqWrite (m : Master) (k : Fin 19) (v : Nat) (s : State) : Host.Outcome State Fault Refusal :=
  s.run fun d => d.writeMonCtl m k v

/-- R84, R85: ACCEPT returns a PHASE_JUMP or MODEL reference to QUALIFIED and a DRIFT reference to WTR; elsewhere it has no effect. -/
def execAccept (m : Master) (k : Fin 19) (s : State) : Host.Outcome State Fault Refusal :=
  s.run fun d => d.write m (monPg k) (monBase k + 0x0C) 1 fun d =>
    if d.mstate k ≠ monDisqualified then d
    else if d.mcause k = 3 ∨ d.mcause k = 9 then d.qualify k
    else if d.mcause k = 2 then d.monEnter k monWtr 2 else d

/-- R84, R111: SKIP_WTR makes the return check at once. -/
def execSkipWtr (m : Master) (k : Fin 19) (s : State) : Host.Outcome State Fault Refusal :=
  s.run fun d => d.write m (monPg k) (monBase k + 0x0C) 2 fun d => d.endWtr k

/-- R84: RESTART returns the monitor to LOST with its CAUSE kept. -/
def execRestart (m : Master) (k : Fin 19) (s : State) : Host.Outcome State Fault Refusal :=
  s.run fun d => d.write m (monPg k) (monBase k + 0x0C) 3 fun d => d.monReturn k (d.mcause k)

/-- R85: a write of MON_WTR in WTR sets the timer to the new time minus the time spent. -/
def execMonWtrWrite (m : Master) (k : Fin 19) (v : Nat) (s : State) : Host.Outcome State Fault Refusal :=
  s.run fun d => d.writeStore m (monPg k) (monBase k + 4) v fun d =>
    if d.mstate k = monWtr then
      let d := d.upMon k fun e => { e with span := min 86400 (d.mget k MON.WTR_WTR) }
      d.mput k MON.STS_TIMER (d.timerLeft k)
    else d

/-! Edges and timers (R84 to R86). -/

/-- R82, R86: a PPS edge of a REF pin or an atomic port, stamped at t in 2^-16 ns of TSA at the ball (log entry 5); its DELAY is subtracted here. -/
def execPpsEdge (k : Fin 19) (t : Nat) (s : State) : Host.Outcome State Fault Refusal :=
  s.run fun d =>
    let pps := (3 ≤ k.val ∧ k.val ≤ 10 ∧ d.get (monPg k) REF.IN_CTL_FORMAT = 0) ∨ k.val = 1 ∨ k.val = 2
    if pps ∧ d.mstate k ≠ monDisabled then d.ppsEdge k ((t : Int) - tdiv (d.pinDelay k * 2 ^ 16) 1000) else d

/-- R86: a PPS window closes with no edge; the second in a row is a loss. -/
def execPulseMissed (k : Fin 19) (s : State) : Host.Outcome State Fault Refusal :=
  s.run fun d =>
    if d.mon[k].pps && d.mon[k].last.isSome then
      let d := (d.count (monPg k) (MON.MISS_CNT_COUNT (monBase k))).upMon k fun e => { e with missed := e.missed + 1 }
      if 2 ≤ d.mon[k].missed then d.monLose k else d.armWindow k
    else d

/-- R86: no edge in 8 nominal periods on a frequency pin; one whose latest edge is younger still waits. -/
def execRefFreqTimeout (k : Fin 19) (s : State) : Host.Outcome State Fault Refusal :=
  s.run fun d =>
    if d.waiting (.refFreqTimeout k) then d
    else if d.mon[k].freq then d.monLose k else d.upMon k fun e => { e with runFrom := none, runTo := 0 }

/-- R84: the ACQUIRE timer reaches 0. -/
def execAcquireExpiry (k : Fin 19) (s : State) : Host.Outcome State Fault Refusal :=
  s.run fun d =>
    if d.mstate k ≠ monAcquire then d
    else if d.mon[k].seen then d.monEnter k monWtr (d.mcause k) else d.qualify k

/-- R84, R111: the WTR timer reaches 0 and the return check decides. -/
def execWtrExpiry (k : Fin 19) (s : State) : Host.Outcome State Fault Refusal :=
  s.run fun d => d.endWtr k

/-- R85: the condition behind a disqualification has been false for QUAL seconds. -/
def execDqHoldExpiry (k : Fin 19) (s : State) : Host.Outcome State Fault Refusal :=
  s.run fun d =>
    if d.mstate k = monDisqualified ∧ heldCause (d.mcause k) ∧ !d.dqCond k (d.mcause k) then d.monEnter k monWtr (d.mcause k) else d

/-- What a second boundary does to a monitor that is not DISABLED (R83 to R87): a GNSS second without a measurement is missed, the second in a row a loss; an upstream session shows its means. -/
def Dev.monSecond (d : Dev) (k : Fin 19) : Dev :=
  let quiet := k == 0 && d.mon[k].numX == 0 && d.mon[k].pps
  let d := if quiet then
      let d := (d.count (monPg k) (MON.MISS_CNT_COUNT (monBase k))).upMon k fun e => { e with missed := e.missed + 1 }
      if 2 ≤ d.mon[k].missed then d.monLose k else d
    else d
  let d := if h : 11 ≤ k.val ∧ k.val ≤ 14 then
      let n : Fin 4 := ⟨k.val - 11, by omega⟩
      let c : Nat := d.mon[k].numX
      if c = 0 then d else
      ((d.puti (Pg.us n) US.OFFSET_OFF (-(tdiv d.mon[k].sumX c))).puti (Pg.us n) US.MPD_MPD (tdiv d.us[n].sumMpd c)).upUs n fun e => { e with sumMpd := 0 }
    else d
  (d.monMeans k).monBoundary k

/-- The edge counter of an atomic port's 10 MHz pin delivers a frequency against TCLK: it waits for the second boundary, and it shows that the pin has its edges (R86, R169; log entry 81). -/
def Dev.atmCount (d : Dev) (k : Fin 19) (y : Int) : Dev :=
  if k.val = 1 ∨ k.val = 2 then (d.upMon k fun e => { e with newY := some (d.yTsa y) }).freqSeen k else d

/-- R83 to R87: a second boundary of a monitor, or, with `y`, what the edge counter of a 10 MHz pin measured against TCLK in 2^-56 over the second that ends (R169). -/
def execMonitorSecond (k : Fin 19) (y : Option Int) (s : State) : Host.Outcome State Fault Refusal :=
  s.run fun d => if d.mstate k = monDisabled then d else match y with
    | some v => d.atmCount k v
    | none => d.monSecond k

/-- R89 to R91: a write of the input registers of a REF pin or an atomic port; a new configuration of a REF pin returns its monitor to LOST. -/
def execRefConfigWrite (m : Master) (k : Fin 19) (off v : Nat) (s : State) : Host.Outcome State Fault Refusal :=
  s.run fun d => d.writeStore m (monPg k) off v fun d =>
    let cfg := 3 ≤ k.val ∧ k.val ≤ 10 ∧ 0x200 ≤ off ∧ off < 0x20C
    let d := d.when (!d.carries k) fun d => d.mputi k MON.PHASE_X 0
    if cfg ∧ monLost < d.mstate k then d.monReturn k 0xA else d.monTry k

/-! The telemetry UART and the steering interface (R91 to R93). -/

/-- Show the head and the level of the receive FIFO. -/
def Dev.uartShow (d : Dev) (n : Fin 2) : Dev :=
  let l := d.atm[n].rx
  ((d.putb (Pg.atm n) ATM.UART_RX_VALID (!l.isEmpty)).put (Pg.atm n) ATM.UART_RX_DATA (l.headD 0)).put (Pg.atm n) ATM.UART_STS_RX_LVL l.length

/-- Cause number of the C1 of a silent telemetry line (R92). -/
abbrev causeTlm : Nat := 1

/-- The telemetry timeout runs from now, when it is on (R91, R92). -/
def Dev.tlmTimer (d : Dev) (n : Fin 2) : Dev :=
  let t := d.get (Pg.atm n) ATM.TLM_CTL_TMO
  if t = 0 ∨ !d.on (Pg.atm n) ATM.UART_CTL_EN then d.cancel (.tlmTimeout n) else d.timerTime 0 (t * second) (.tlmTimeout n)

/-- The telemetry timeout starts afresh, and TLM_LOST clears. -/
def Dev.tlmRestart (d : Dev) (n : Fin 2) : Dev := ((d.put (Pg.atm n) ATM.UART_STS_TLM_LOST 0).lower (Pg.atm n) 1 causeTlm).tlmTimer n

/-- A group of four bytes against a pattern under its mask; the first byte lies in bits 31 to 24 (R91). -/
def tlmMatch (g : List Nat) (val msk : Nat) : Bool :=
  let w := g.foldl (fun a b => a * 256 + b) 0
  msk &&& w == msk &&& val

/-- R92: a telemetry byte enters the FIFO or is dropped, and is matched as it arrives. A group being collected when MATCH_EN is cleared keeps its bytes and goes on when it is set again (DESIGN CHOICE, log entry 81). -/
def execUartRxByte (n : Fin 2) (b : Fin 256) (s : State) : Host.Outcome State Fault Refusal :=
  s.run fun d =>
    let pg := Pg.atm n
    if !d.on pg ATM.UART_CTL_EN then d else
    let d := d.tlmRestart n
    let d := if d.atm[n].rx.length < 256 then (d.upAtm n fun e => { e with rx := e.rx ++ [b.val] }).uartShow n else d.count pg ATM.UART_STS_OVF
    if !d.on pg ATM.TLM_CTL_MATCH_EN then d else
    match d.atm[n].group with
    | none => if b.val = d.get pg ATM.TLM_CTL_DELIM then d.upAtm n fun e => { e with group := some [] } else d
    | some g =>
      let g := g ++ [b.val]
      if g.length < 4 then d.upAtm n fun e => { e with group := some g } else
      let d := d.upAtm n fun e => { e with group := none }
      let alarm := tlmMatch g (d.get pg ATM.TLM_AVAL_V) (d.get pg ATM.TLM_AMSK_V)
      let ok := tlmMatch g (d.get pg ATM.TLM_OVAL_V) (d.get pg ATM.TLM_OMSK_V)
      if alarm || ok then (d.upMon (atmK n) fun e => { e with alarm := alarm }).noteCond (atmK n) else d

/-- R91: POP advances the receive FIFO by one byte. -/
def execUartPop (m : Master) (n : Fin 2) (v : Nat) (s : State) : Host.Outcome State Fault Refusal :=
  s.run fun d => d.write m (Pg.atm n) 0x228 v fun d =>
    if bit v 0 then (d.upAtm n fun e => { e with rx := e.rx.tail }).uartShow n else d

/-- Bits of a frame on the line: start, 8 data, parity, stop bits (R91). -/
def Dev.uartBits (d : Dev) (n : Fin 2) : Nat :=
  let p := d.get (Pg.atm n) ATM.UART_CTL_PARITY
  10 + (if p = 1 ∨ p = 2 then 1 else 0) + d.get (Pg.atm n) ATM.UART_CTL_STOP2

/-- R91: a byte is queued for transmission; a write to a full FIFO is discarded and counted. A byte is sent whatever UART_CTL.EN is (DESIGN CHOICE, log entry 81). -/
def execUartTxWrite (m : Master) (n : Fin 2) (v : Nat) (s : State) : Host.Outcome State Fault Refusal :=
  s.run fun d =>
    let q := d.atm[n].tx.filter fun t => d.now < t
    let byte := d.uartBits n * max 0x32 (d.get (Pg.atm n) ATM.UART_CTL_DIV) * 2
    d.writeIf m (Pg.atm n) 0x22C v (decide (q.length < 256)) ATM.UART_STS_OVF fun d =>
      let free := match d.atm[n].tx.getLast? with
        | some t => max d.now (t + byte)
        | none => d.now
      (d.upAtm n fun e => { e with tx := q ++ [free] }).emit (.uart n (v % 256))

/-- R91, R92: a write of UART_CTL; with EN = 0 the receiver is off and TLM_LOST reads 0, with EN = 1 the timeout starts afresh. -/
def execUartEnWrite (m : Master) (n : Fin 2) (v : Nat) (s : State) : Host.Outcome State Fault Refusal :=
  s.run fun d =>
    let was := d.get (Pg.atm n) ATM.UART_CTL_EN
    d.writeStore m (Pg.atm n) 0x220 v fun d =>
      if d.get (Pg.atm n) ATM.UART_CTL_EN = was then d else (d.upAtm n fun e => { e with group := none }).tlmRestart n

/-- R92: no byte for TMO seconds; a C1, and no disqualification. -/
def execTlmTimeout (n : Fin 2) (s : State) : Host.Outcome State Fault Refusal :=
  s.run fun d =>
    if d.on (Pg.atm n) ATM.UART_CTL_EN && d.get (Pg.atm n) ATM.TLM_CTL_TMO != 0 then
      (d.put (Pg.atm n) ATM.UART_STS_TLM_LOST 1).raise (Pg.atm n) 1 causeTlm
    else d

/-- R93: a steering word by a servo core, or by host software in host mode; sent while steering is active and held otherwise. -/
def execSteerValWrite (m : Master) (n : Fin 2) (v : Nat) (s : State) : Host.Outcome State Fault Refusal :=
  s.run fun d =>
    let ts : Ts := if d.on (Pg.atm n) ATM.STEER_CTL_TS then 1 else 0
    let ok := match m with
      | .svc _ => true
      | _ => d.hostMode ts
    d.writeIf m (Pg.atm n) 0x254 v ok HDR.PAGE_STS_WR_DISC fun d =>
      let d := d.storeReg (Pg.atm n) 0x254 v
      if d.steering n then d.steerSend n else d.upAtm n fun e => { e with held := true }

/-! Upstream sessions (R94 to R96). -/

/-- R94: a write of the session's configuration; a running session restarts under the new values. -/
def execUsConfigWrite (m : Master) (n : Fin 4) (off v : Nat) (s : State) : Host.Outcome State Fault Refusal :=
  s.run fun d =>
    let org := d.get (Pg.us n) US.UP_CTL_ORG
    d.writeStore m (Pg.us n) off v fun d =>
    let cfg := off < 0x208 ∨ (0x210 ≤ off ∧ off < 0x228)
    if 0x200 ≤ off ∧ cfg ∧ d.mstate (usK n) ≠ monDisabled then (d.usStart n).monReturn (usK n) 0xA
    else if off = 0x228 then d.when (d.get (Pg.us n) US.UP_CTL_ORG != org) fun d => d.upUs n fun e => { e with tlv := [] }
    else if 0x900 ≤ off then d.synceLink n else d

/-- The session runs. -/
def Dev.usRuns (d : Dev) (n : Fin 4) : Bool := d.mstate (usK n) != monDisabled

/-- All three messages of presence have come (R86). -/
def Dev.usPresence (d : Dev) (n : Fin 4) : Dev :=
  let e := d.us[n]
  if e.gotSync && e.gotAnn && e.gotResp then (d.upMon (usK n) fun e => { e with pps := true }).monTry (usK n) else d

/-- Ticks of an interval 2^log s, log in two's complement of 8 bits. -/
def logTicks (l : Nat) : Nat :=
  let i := sgn 8 l
  if i < 0 then second / 2 ^ i.natAbs else second * 2 ^ i.natAbs

/-- Note the error-bound TLV of a message of a kind (0 Sync and Follow_Up, 1 Delay_Resp, 2 Announce): one whose organizationId is the one accepted counts; a message without such a TLV takes its kind's out (R87, R94). -/
def Dev.usTlv (d : Dev) (n : Fin 4) (kind : Nat) (t : Option (Nat × Nat)) : Dev :=
  let org := d.get (Pg.us n) US.UP_CTL_ORG
  let new := match t with
    | some (o, c) => if org ≠ 0 ∧ o = org then [(kind, c)] else []
    | none => []
  d.upUs n fun e => { e with tlv := new ++ e.tlv.filter fun x => x.1 ≠ kind }

/-- The session sends its first Delay_Req with the first Sync, when none waits (R96). -/
def Dev.usFirstReq (d : Dev) (n : Fin 4) : Dev := d.when (!d.waiting (.usDelayReqTx n)) fun d => d.after 0 (.usDelayReqTx n)

/-- R95, R96: a Sync of the followed time transmitter. Missed intervals are those of USn_INTV.LOG_SYNC in every mode (DESIGN CHOICE, log entry 81). -/
def execUsSyncRx (n : Fin 4) (x : PtpSync) (s : State) : Host.Outcome State Fault Refusal :=
  s.run fun d =>
    if !d.usRuns n || d.us[n].followed != some x.tt then d else
    let d := (d.putb (Pg.us n) US.STS_TWO_STEP x.twoStep).timerTime 0 (logTicks (d.get (Pg.us n) US.INTV_LOG_SYNC)) (.usSyncTimeout n)
    let d := (d.usFirstReq n).upUs n fun e => { e with
      gotSync := true, missed := 0,
      two := if x.twoStep then some (x.seq, x.t2, x.corr) else none,
      sync := if x.twoStep then e.sync else some (x.t1 + x.corr, x.t2) }
    (d.when (!x.twoStep) fun d => d.usTlv n 0 x.tlv).usPresence n

/-- R96: the Follow_Up of a two-step Sync gives its precise origin timestamp. -/
def execUsFollowUpRx (n : Fin 4) (x : PtpFollowUp) (s : State) : Host.Outcome State Fault Refusal :=
  s.run fun d =>
    match d.us[n].two with
    | some (q, t2, c) =>
      if d.usRuns n && d.us[n].followed == some x.tt && q == x.seq then
        (d.upUs n fun e => { e with two := none, sync := some (x.t1 + c + x.corr, t2) }).usTlv n 0 x.tlv
      else d
    | none => d

/-- Lexicographic order of data sets (R95). -/
def dsLess : List Nat → List Nat → Bool
  | a :: l, b :: m => decide (a < b) || (a == b && dsLess l m)
  | [], _ :: _ => true
  | _, _ => false

/-- An Announce interval of the session in ns. -/
def Dev.annNs (d : Dev) (n : Fin 4) : Nat := logTicks (d.get (Pg.us n) US.INTV_LOG_ANN)

/-- The time transmitters the session hears: those with an Announce in the last three Announce intervals (R86, R95; DESIGN CHOICE, log entry 81). -/
def Dev.usHears (d : Dev) (n : Fin 4) : List (Nat × List Nat × Int) :=
  d.us[n].heard.filter fun h => decide (d.stepFree 0 - h.2.2 < (3 * d.annNs n * 2 ^ 48 : Nat))

/-- The time transmitter to follow: the one TT_ID names, else the best heard (R95). -/
def Dev.usChoice (d : Dev) (n : Fin 4) : Option Nat :=
  let id := d.get (Pg.us n) US.TT_ID_CLOCK_ID
  if id ≠ 0 then some id else
  ((d.usHears n).foldl (fun b h => match b with
    | none => some h
    | some g => if dsLess h.2.1 g.2.1 then some h else some g) none).map (·.1)

/-- The session follows another time transmitter, or none: what it holds of the old one is forgotten, and a change is a loss (R86, R87). -/
def Dev.usFollowed (d : Dev) (n : Fin 4) (f : Option Nat) : Dev :=
  let old := d.us[n].followed
  if f = old then d
  else (d.upUs n fun e => { e with followed := f, tlv := [], two := none, sync := none, req := none }).when old.isSome fun d => d.monLose (usK n)

/-- R86, R95: an Announce; the comparison may change the followed time transmitter, which is a loss; its class may raise UPSTREAM. -/
def execUsAnnounceRx (n : Fin 4) (x : PtpAnnounce) (s : State) : Host.Outcome State Fault Refusal :=
  s.run fun d =>
    if !d.usRuns n then d else
    let k := usK n
    let now := d.stepFree 0
    let d := d.upUs n fun e => { e with heard := (x.tt, [x.priority1, x.cls, x.acc] ++ x.rest ++ [x.tt], now) :: (d.usHears n).filter fun h => h.1 ≠ x.tt }
    let f := d.usChoice n
    let d := d.usFollowed n f
    if f ≠ some x.tt then d else
    let d := (d.put (Pg.us n) US.STS_UP_CLASS x.cls).put (Pg.us n) US.STS_UP_ACC x.acc
    let d := (d.usTlv n 2 x.tlv).timerTime 0 (3 * d.annNs n) (.usAnnounceTimeout n)
    let d := (d.upMon k fun e => { e with upstream := decide (d.get (Pg.us n) US.UP_CTL_CLASS_MAX < x.cls) }).noteCond k
    (d.upUs n fun e => { e with gotAnn := true }).usPresence n

/-- R96: the session sends a Delay_Req to the time transmitter it follows, and the next one LOG_DREQ later; with unicast negotiation only under a Delay_Resp grant (R95). Its stamp t3 is taken at its launch (R220, R230). -/
def execUsDelayReqTx (n : Fin 4) (s : State) : Host.Outcome State Fault Refusal :=
  s.run fun d =>
    if !d.usRuns n then d else
    let d := d.timerTime 0 (logTicks (d.get (Pg.us n) US.INTV_LOG_DREQ)) (.usDelayReqTx n)
    if d.us[n].followed.isNone || (d.get (Pg.us n) US.CFG_MODE == 1 && d.us[n].grants[2] == 0) then d
    else d.usSend n .delayReq 44 []

/-- R96: a Delay_Resp completes an exchange: offset ((t2 − t1 − c_s) − (t4 − t3 − c_d)) / 2, and x = −offset. -/
def execUsDelayRespRx (n : Fin 4) (x : PtpDelayResp) (s : State) : Host.Outcome State Fault Refusal :=
  s.run fun d =>
    match d.us[n].sync, d.us[n].req with
    | some (t1, t2), some (q, t3) =>
      if d.usRuns n && q == x.seq && d.us[n].followed == some x.tt then
        let a := t2 - t1
        let b := x.t4 - t3 - x.corr
        let o := tdiv (a - b) 2
        let d := d.upUs n fun e => { e with req := none, gotResp := true, offs := (o :: e.offs).take 16, sumMpd := e.sumMpd + tdiv (a + b) 2 }
        ((d.usTlv n 1 x.tlv).sampleX (usK n) (-o)).usPresence n
      else d
    | _, _ => d

/-- R95: a grant, or a refusal when its duration is 0. -/
def execUsGrantRx (n : Fin 4) (typ : Fin 3) (dur : Nat) (s : State) : Host.Outcome State Fault Refusal :=
  s.run fun d =>
    if !d.usRuns n || d.get (Pg.us n) US.CFG_MODE != 1 then d
    else if dur = 0 then (d.usNeg n 3).timerTime 0 (8 * second) (.usGrantRetry n typ)
    else
      let d := d.upUs n fun e => { e with grants := e.grants.set typ dur }
      let d := ((d.timerTime 0 (dur * second / 2) (.usGrantRenew n typ)).timerTime 0 (dur * second) (.usGrantLapse n typ)).cancel (.usGrantRetry n typ)
      if d.us[n].grants.all (· != 0) then d.usNeg n 2 else d

/-- R95: half of a grant's duration has passed; the session renews it. -/
def execUsGrantRenew (n : Fin 4) (typ : Fin 3) (s : State) : Host.Outcome State Fault Refusal :=
  s.run fun d => if d.usRuns n && d.us[n].grants[typ] != 0 then d.usAsk n typ else d

/-- R95: 8 s after a refusal the session asks again, for a grant it has not and for the renewal of one that still stands. -/
def execUsGrantRetry (n : Fin 4) (typ : Fin 3) (s : State) : Host.Outcome State Fault Refusal :=
  s.run fun d => if d.usRuns n && d.get (Pg.us n) US.CFG_MODE == 1 then (d.usNeg n 1).usAsk n typ else d

/-- R86: a grant lapses; a Sync or Announce grant lapsing is a loss. -/
def execUsGrantLapse (n : Fin 4) (typ : Fin 3) (s : State) : Host.Outcome State Fault Refusal :=
  s.run fun d =>
    if d.usRuns n && d.us[n].grants[typ] != 0 then
      let d := ((d.upUs n fun e => { e with grants := e.grants.set typ 0 }).usNeg n 4).timerTime 0 (8 * second) (.usGrantRetry n typ)
      d.when (typ != 2) fun d => d.monLose (usK n)
    else d

/-- R86: a Sync interval passes with no Sync; three in a row are a loss. -/
def execUsSyncTimeout (n : Fin 4) (s : State) : Host.Outcome State Fault Refusal :=
  s.run fun d =>
    if d.usRuns n && d.us[n].gotSync then
      let d := (d.count (Pg.us n) (MON.MISS_CNT_COUNT 0x100)).upUs n fun e => { e with missed := e.missed + 1 }
      if 3 ≤ d.us[n].missed then d.monLose (usK n)
      else d.timerTime 0 (logTicks (d.get (Pg.us n) US.INTV_LOG_SYNC)) (.usSyncTimeout n)
    else d

/-- R86: three Announce intervals pass with no Announce. -/
def execUsAnnounceTimeout (n : Fin 4) (s : State) : Host.Outcome State Fault Refusal :=
  s.run fun d =>
    if d.usRuns n && d.us[n].gotAnn then
      let f := d.us[n].followed
      (d.upUs n fun e => { e with heard := e.heard.filter fun h => some h.1 ≠ f }).usFollowed n none
    else d

/-! SyncE slots (R97). -/

/-- The order of quality of an SSM code, best first (R97). -/
def qlRank (q : Nat) : Nat := if q = 2 then 0 else if q = 4 then 1 else if q = 8 then 2 else if q = 0xB then 3 else if q = 0xF then 4 else 5

/-- R86, R97: an ESMC message; a quality worse than QL_MIN raises ALARM. -/
def execSynceEsmcRx (n : Fin 4) (ql : Fin 16) (s : State) : Host.Outcome State Fault Refusal :=
  s.run fun d =>
    let k := synceK n
    let d := ((d.put (Pg.us n) US.SYNCE_STS_QL ql).put (Pg.us n) US.SYNCE_STS_ESMC_TMO 0).timerTime 0 (5 * second) (.esmcTimeout n)
    let d := d.upMon k fun e => { e with pps := true, alarm := decide (qlRank (d.get (Pg.us n) US.SYNCE_CFG_QL_MIN) < qlRank ql) }
    (d.noteCond k).monTry k

/-- R86, R97: no ESMC for 5 s. -/
def execEsmcTimeout (n : Fin 4) (s : State) : Host.Outcome State Fault Refusal :=
  s.run fun d => if d.waiting (.esmcTimeout n) then d else (d.put (Pg.us n) US.SYNCE_STS_ESMC_TMO 1).monLose (synceK n)

/-- R97: a 1 s gate of the recovered clock against TCLK, in 2^-56. -/
def execSynceGate (n : Fin 4) (y : Int) (s : State) : Host.Outcome State Fault Refusal :=
  s.run fun d => d.upMon (synceK n) fun e => { e with newY := some (d.yTsa y) }

/-! GNSS (R98). -/

/-- R86, R98, R133: the receiver delivers its measurement and G_t to the monitor. -/
def execGnssMeasurement (s : State) : Host.Outcome State Fault Refusal :=
  s.run fun d => match d.gnss.meas with
    | none => d
    | some (x, gt, at_) =>
      let d := { d with gnss := { d.gnss with meas := none, hist := ((x, at_) :: d.gnss.hist).take 3600 } }
      let d := d.when (d.inCave && d.gnss.woke) fun d => { d with gnss := { d.gnss with woke := false } }.timerTime 0
        (max 10 (d.get (Pg.gnss 6) GNSS6.CAVE_CTL_AWAKE) * second) .gnssSleep
      if d.mstate 0 = monDisabled then d
      else ((d.upMon 0 fun e => { e with pps := true, missed := 0, gt := gt }).sampleX 0 (x - tdiv d.ts[0].stepSum (2 ^ 32))).monTry 0

/-! The ensemble check (R99 to R103, R112). -/

/-- Cause number of the C1 of an ensemble without majority (R101). -/
abbrev causeNoMaj : Nat := 1

/-- Enter the flags of one evaluation (R101). -/
def Dev.ensFlags (d : Dev) (t : Fin 19 → Fin 19 → Option PairTest) (el : List (Fin 19)) (n : Nat) : Dev :=
  d.each (List.finRange 19) fun k d =>
    let on := el.contains k
    let bad := if on then (el.filter (· != k)).filterMap fun j => (t k j).bind fun r => if r.bad then some r.delta else none else []
    let ts : Ts := if d.selK 1 = k.val ∧ d.selK 0 ≠ k.val then 1 else 0
    let dev := on && !d.modelOk k ts
    let d := { d with ens := { d.ens with dis := d.ens.dis.set k (bad.foldl max 0) } }
    let d := (d.setFlag k MON.STS_DISAGREE (!bad.isEmpty)).setFlag k MON.STS_UNCONFIRMED (on && n == 1)
    let d := d.setFlag k MON.STS_MODEL_DEV (dev && decide (2 ≤ n))
    d.when (dev && n == 1) fun d => d.monEnter k monDisqualified 9

/-- One evaluation of the ensemble (R99 to R102, R112): pairs, majority, disqualifications, flags, the clearing of DRIFT, corroboration. A pair without data counts as agreeing (DESIGN CHOICE, log entry 81). -/
def Dev.ensEval (d : Dev) : Dev :=
  let all := List.finRange 19
  let d := (d.hldFollow 0).hldFollow 1
  let d := d.each all fun k d => d.upMon k fun e => { e with age := if d.compared k then e.age + 1 else 0, ageJump := e.ageJump + 1 }
  let t (k j : Fin 19) := d.ensTest k j
  let jump (k j : Fin 19) := d.jumpTest k j
  let bad (k j : Fin 19) : Bool := (t k j).any (·.bad)
  let el := all.filter fun k => d.eligible k.val
  let cmp := all.filter fun k => d.compared k.val
  let n := el.length
  let d := d.each all fun k d =>
    let bits := (cmp.filter fun j => j != k && cmp.contains k && (el.contains k || el.contains j) && bad k j).foldl (fun a j => a + 2 ^ j.val) 0
    d.put Pg.sel (SEL.ENS_PAIR_DIS k) bits
  let maj := if 3 ≤ n then majority bad el else none
  let noMaj := decide (3 ≤ n) && maj.isNone
  let d := ((d.put Pg.sel SEL.ENS_STS_N n).put Pg.sel SEL.ENS_STS_MAJ ((maj.map List.length).getD 0)).putb Pg.sel SEL.ENS_STS_NOMAJ noMaj
  let d := if noMaj then d.raise Pg.sel 1 causeNoMaj else d.lower Pg.sel 1 causeNoMaj
  let out := match maj with
    | some m => el.filter fun k => !m.contains k
    | none => []
  let d := d.each out fun k d => d.monEnter k monDisqualified 2
  let left := el.filter fun k => !out.contains k
  let d := d.ensFlags t left n
  let d := d.each all fun k d =>
    if d.mstate k.val = monDisqualified ∧ d.mcause k.val = 2 ∧ !out.contains k then
      let agree := !left.isEmpty && left.all fun j => !bad k j
      let c := if agree then d.mon[k].agreed + 1 else 0
      let d := d.upMon k fun e => { e with agreed := c }
      d.when (decide (d.ensWin ≤ c)) fun d => d.monEnter k monWtr 2
    else d
  let d := d.each all fun k d =>
    let part (j : Fin 19) : Bool := d.mstate j.val == monQualified || d.jumped j.val
    let met (j : Fin 19) : Bool := (part k && part j) || (cmp.contains k && cmp.contains j && (el.contains k || el.contains j))
    let pass : Vector Nat 19 := Vector.ofFn fun j =>
      if met j && k != j && d.carries k.val && d.carries j.val && (jump k j).any (fun r => !r.bad) then d.mon[k].pass[j] + 1 else 0
    d.upMon k fun e => { e with pass := pass }
  let back := all.filter fun k => d.jumped k.val && d.corroborated k.val
  let d := d.each back fun k d => d.qualify k
  d.each [0, 1] fun i d => d.showCorroboration i

/-- R99 to R102, R112: the ensemble evaluates at a TSA second boundary. -/
def execEnsembleEval (s : State) : Host.Outcome State Fault Refusal :=
  s.run Dev.ensEval

end Sys2Proof.Machine
end

