-- ==== Sys2Proof/Machine/ResetOps.lean ====
section
/-! DEFINITION. Resets (R17 to R20, R443): what a soft reset, a region reset and a package reset return, and what each keeps. -/

namespace Sys2Proof.Machine

/-! The registers of a page. -/

/-- Registers a soft reset keeps (R18, R43, R59, R329, R346, R366, R401, R443, R449): the common header's, and those that the block's chapter or "since package reset" keeps. A region reset clears what R329 keeps of a sequencer in a soft reset of its page alone (R18). -/
def keptOffset (pg o : Nat) (region : Bool := false) : Bool :=
  o == 0x1C || o == 0x28 || o == 0x2C || (decide (0x30 ≤ o) && decide (o < 0x6C)) || (decide (0xC0 ≤ o) && decide (o < 0xDC)) ||
  (pg == Pg.glb && (o == 0x104 || o == 0x110 || o == 0x120 || (decide (0x140 ≤ o) && decide (o < 0x160)))) ||
  (pg == Pg.clkd && (o == 0x100 || o == 0x114)) ||
  ((pg == Pg.ts 0 || pg == Pg.ts 1) && (o == 0x120 || o == 0x128 || o == 0x340)) ||
  (pg == Pg.ts 0 && decide (0x400 ≤ o)) ||
  (pg == Pg.tdcCal && o == 0x120) ||
  (!region && decide (Pg.seq 0 ≤ pg) && decide (pg ≤ Pg.seq 7) && (o == 0x100 || (decide (0x120 ≤ o) && decide (o < 0x160)) || decide (0x400 ≤ o))) ||
  (pg == Pg.flt && (o == 0x108 || o == 0x110 || o == 0x118 || o == 0x128 || (decide (0x200 ≤ o) && decide (o < 0x260)))) ||
  (pg == Pg.plk && o == 0x10C) || (pg == Pg.hif && o == 0x100)

/-- Pages whose read-only fields show what a soft reset does not reach: the holdover in progress (R477), the key store (R18), the record memory (R346), the flash (R419). -/
def keepsStatus (pg : Nat) : Bool := pg == Pg.hld || (decide (Pg.key 0 ≤ pg) && decide (pg ≤ Pg.key 3)) || pg == Pg.rec || pg == Pg.ldr

/-- The bits of a register that a soft reset keeps: locks, the fields they lock until package reset (R476), and status as above. -/
def Dev.keptBits (d : Dev) (pg o : Nat) : Nat :=
  match regAt pg o with
  | some r =>
    let own := decide (0x100 ≤ o)
    (if own then r.w1s else 0) ||| (if d.locked pg then r.rwl else 0) |||
    (if own && keepsStatus pg then 2 ^ 96 - 1 - (r.rw ||| r.rwl) else 0)
  | none => 0

/-- Return the registers of a page to their reset values but for what is kept; C fields take the values loaded at boot (R16, R443). -/
def Dev.wipe (d : Dev) (pg : Nat) (region : Bool := false) : Dev :=
  let mine := d.regs.filter fun e => e.1 / 4096 = pg ∧ !keptOffset pg (e.1 % 4096) region
  let kept := mine.map fun e => (e.1, (e.2 &&& BitVec.ofNat 96 (d.keptBits pg (e.1 % 4096))) ||| (resetWord e.1 &&& ~~~ BitVec.ofNat 96 (d.keptBits pg (e.1 % 4096))))
  let d := { d with
    regs := d.regs.filter fun e => ¬ (e.1 / 4096 = pg ∧ !keptOffset pg (e.1 % 4096) region),
    lat := d.lat.filter fun e => ¬ (e.1 / 4096 = pg ∧ !keptOffset pg (e.1 % 4096) region),
    half := d.half.filter fun e => e.1 / 4096 ≠ pg,
    snapping := d.snapping.filter (· ≠ pg),
    shadow := d.shadow.filter fun e => e.1 / 4096 ≠ pg }
  let d := d.each (kept.filter fun e => e.2 ≠ resetWord e.1) fun e d => d.setReg pg (e.1 % 4096) e.2
  d.each (d.ldr.cal.filter fun e => e.1 / 4096 = pg) fun e d => d.setReg pg (e.1 % 4096) (BitVec.ofNat 96 e.2)

/-- The page a timer of the agenda belongs to, when its block's reset ends it. -/
def timerPage : Instr → Option Nat
  | .stepApply n | .stepArmExpiry n | .slewComplete n | .leapApply n | .clockClassHoldExpiry n => some (Pg.ts n)
  | .switchEnd _ | .lockAchieved _ => some Pg.sel
  | .svcWatchdogExpiry n => some (Pg.svc n)
  | .acquireExpiry k | .wtrExpiry k | .dqHoldExpiry k | .pulseMissed k | .refFreqTimeout k => some (monPg k.val)
  | .tlmTimeout n => some (Pg.atm n)
  | .usGrantRenew n _ | .usGrantRetry n _ | .usGrantLapse n _ | .usSyncTimeout n | .usAnnounceTimeout n | .esmcTimeout n => some (Pg.us n)
  | .gnssMeasurement | .gnssSleep | .gnssWake | .surveyComplete | .surveyRestart | .raimHoldExpiry _ | .bandBHandover _ _ | .alarmWithdraw _ => some (Pg.gnss 0)
  | .vcoCalDone n | .lockingTimeout n | .freezeTimeout n | .ssApply n | .dpllUpdate n _ => some (Pg.syn n)
  | .tdcFreqGate n => some (Pg.tdc n)
  | .rotationStart | .rotationSwitch | .precisionTest _ | .rotationSwitchBack => some Pg.tdcCal
  | .evoEdge _ | .evoDriverEnable _ => some Pg.evo
  | .trainTimeout p | .alignTimeout p | .remoteFaultClear p | .pauseExpiry p | .frameTx p | .verifySend p | .lpiWake p => some (Pg.port p)
  | .probeStale p => some (Pg.pts p)
  | .calSlotStart p | .calSlotEnd p _ => some (if p.val < 24 then Pg.pts p.val else Pg.plk)
  | .esmcInfoPdu _ => some (Pg.rsp 0)
  | .scrubPass _ | .brineExit .collector _ => some Pg.cst
  | .katDone n _ | .cryptoOp n _ => some (Pg.cl n)
  | .audStart p _ | .audInputLoss p _ | .audRateMeasure p _ => some (Pg.aud p)
  | .triggerStart n | .seqWaitEnd n | .seqBudgetExpiry n => some (Pg.seq n)
  | .snapshotComplete => some Pg.rec
  | .pmcAutoLatch => some Pg.pmc
  | .capStep | .caveRevoke | .caveCclkStop | .caveStore | .caveEntered | .autoExit => some Pg.pwr
  | .sessionTimeout | .loadComplete => some Pg.ldr
  | _ => none

/-- End the timers of a page's block. -/
def Dev.dropTimers (d : Dev) (pg : Nat) : Dev :=
  { d with agenda := d.agenda.filter fun e => timerPage e.2 ≠ some pg, alarms := d.alarms.filter fun e => timerPage e.2.2 ≠ some pg }

/-! The blocks behind the pages. -/

/-- A monitor goes to DISABLED, and its engine to its reset state. -/
def Dev.monReset (d : Dev) (k : Fin 19) : Dev :=
  let d := if d.mstate k = monDisabled then d else (d.monSession k false).monEnter k monDisabled 0
  { (d.upMon k fun _ => {}) with ens := { d.ens with dis := d.ens.dis.set k 0 } }

/-- Pages the blocks of one chapter share: a soft reset of one resets the block's state machines (R443). -/
def inBlock (lo hi pg : Nat) : Bool := decide (lo ≤ pg) && decide (pg ≤ hi)

/-- The state machines of a page's block go to their reset state, as far as the block's own operations end what runs. -/
def Dev.stopBlock (d : Dev) (pg : Nat) : Dev :=
  let d := d.each [0, 1] fun (n : Ts) d => d.when (pg == Pg.ts n.val) fun d => d.applyMode n 0
  let d := d.each (List.finRange 19) fun (k : Fin 19) d => d.when (monPg k.val == pg) fun d => d.monReset k
  let d := d.when (inBlock (Pg.gnss 0) (Pg.gnss 7) pg) fun d => d.gnssStop gnssOff
  let d := d.each (List.finRange 4) fun (n : Fin 4) d => d.when (pg == Pg.syn n.val) fun d => d.synRelease n
  let d := d.each (List.finRange 24) fun (p : Fin 24) d => d.when (pg == Pg.port p.val) fun d => d.portStop p
  let d := d.each (List.finRange 16) fun (n : Fin 16) d => d.when (pg == Pg.cl n.val) fun d => d.laneEnter n laneOff
  let d := d.each (List.finRange 4) fun (p : Fin 4) d => d.when (pg == Pg.aud p.val) fun d => (d.audStop p false).audStop p true
  let d := d.each (List.finRange 8) fun (n : Fin 8) d => d.when (pg == Pg.seq n.val) fun d => (d.seqUnfetch n).seqEnter n seqOff
  d.when (pg == Pg.plk) Dev.plkStop

/-- Only these changes of a timescale survive the reset of its page (R18). -/
def TsChange.kept : TsChange → Bool
  | .incr _ | .bind _ _ | .xtsRate _ => true
  | .mode _ | .slew _ => false

/-- What the engines of a page's block hold returns to reset, but for what R18 and the block's chapter keep. -/
def Dev.clearBlock (d : Dev) (pg : Nat) : Dev :=
  let d := d.each [0, 1] fun (n : Ts) d =>
    let d := d.when (pg == Pg.ts n.val) fun d => d.upTs n fun e => { e with
      slewRem := 0, changes := e.changes.filter fun c => c.2.kept, arm := none, step := none, ending := false, stepSec := none, stepHold := none, manT0 := d.stepFree n, clsBetter := none }
    let d := d.when (pg == Pg.sel) fun d => d.upSel n fun e => { updated := e.updated }
    let d := d.when (pg == Pg.svc n.val) fun d => d.upSvc n fun e => { begun := e.begun, halted := e.halted }
    d.when (pg == Pg.hld) fun d => d.upHld n fun e => { e with bins := e.bins.map fun b => { b with valid := false }, incSum := 0, incTicks := 0, incAt := d.now, whole := false, ySum := #v[0, 0], yNum := #v[0, 0] }
  let d := d.each (List.finRange 2) fun (n : Fin 2) d => d.when (pg == Pg.atm n.val) fun d => d.upAtm n fun _ => {}
  let d := d.each (List.finRange 4) fun (n : Fin 4) d =>
    let d := d.when (pg == Pg.us n.val) fun d => d.upUs n fun _ => {}
    d.when (pg == Pg.syn n.val) fun d => d.upSyn n fun _ => {}
  let d := d.when (inBlock (Pg.gnss 0) (Pg.gnss 7) pg) fun d => d.upGnss fun _ => {}
  let d := d.each (List.finRange 16) fun (n : Fin 16) d =>
    let d := d.when (pg == Pg.cko) fun d => d.upCko n fun _ => {}
    let d := d.when (pg == Pg.tdc n.val) fun d => (d.upTdc n fun _ => {}).when (d.tdcs.cal == some n) fun d =>
      (d.upTdcs fun e => { e with src := d.get pg TDC.MUX_SRC }).put pg TDC.MUX_SRC 0x7F
    let d := d.when (pg == Pg.evo) fun d => d.upEvo n fun _ => {}
    let d := d.when (pg == Pg.evi) fun d => { d with evi := d.evi.set n {} }
    d.when (pg == Pg.cl n.val) fun d => d.upLane n fun _ => {}
  let d := d.when (pg == Pg.tdcCal) fun d =>
    let d := d.each (List.finRange 17) fun (u : Fin 17) d => d.upUnit u fun _ =>
      match d.ldr.tabs.find? fun t => t.unit == u with
      | some t => { ents := t.ents, table := t.counts }
      | none => {}
    d.calLeave.upTdcs fun _ => {}
  let d := d.each (List.finRange 24) fun (p : Fin 24) d =>
    let d := d.when (pg == Pg.port p.val) fun d => d.upPort p fun _ => {}
    d.when (pg == Pg.pts p.val) fun d => { d with pts := d.pts.set p {} }
  let d := d.when (inBlock (Pg.rsp 0) (Pg.rsp 7) pg) fun d => d.upRsp fun e => { qp := e.qp, qc := e.qc, epP := e.epP, epC := e.epC, counted := e.counted, pos := e.pos, leap := e.leap, slot := e.slot }
  let d := d.when (inBlock (Pg.key 0) (Pg.key 3) pg) fun d => d.upKey fun e => { e with staged := [], token := [] }
  let d := d.each (List.finRange 8) fun (n : Fin 8) d =>
    let d := d.when (inBlock (Pg.aud 0) (Pg.aud 3) pg && n.val / 2 == pg - Pg.aud 0) fun d => { d with aud := d.aud.set n {} }
    d.when (pg == Pg.seq n.val) fun d => { d with seq := d.seq.set n { frozen := d.seq[n].frozen } }
  let d := d.when (pg == Pg.rec) fun d => { d with rcd := { d.rcd with token := [], shown := none, snapRun := none, snapQ := [], clearing := none } }
  let d := d.when (pg == Pg.plk) fun d => d.upPlk fun e => { claimNv := e.claimNv, mirrored := e.mirrored }
  let d := d.when (pg == Pg.pwr) fun d => d.upPwr fun e => { dieT := e.dieT, pfw := e.pfw, trip := e.trip, oscLost := e.oscLost, held := e.held }
  let d := d.when (pg == Pg.glb) fun d => { d with hif := { d.hif with msix := [], pba := [] } }
  let d := d.when (pg == Pg.hif) fun d => { d with hif := { d.hif with staging := 0, stagedAt := d.freeNs, waiting := [] } }
  d.when (pg == Pg.ldr && decide (1 ≤ d.ldr.jnl.phase) && decide (d.ldr.jnl.phase ≤ 4)) fun d =>
    let d := { d with ldr := { d.ldr with sess := [], jnl := { d.ldr.jnl with phase := 0, owner := 0xFF } } }
    (d.put pg LDR.STS_PHASE 0).put pg LDR.STS_OWNER 0xFF

/-- The faults of a reset page: its force bits are 0, its own causes are gone, and what is latched stays (R357, R443). Causes that other blocks raise on a timescale page stay (R26, R28, R376). -/
def Dev.faultsReset (d : Dev) (pg : Nat) : Dev :=
  let own (e : Nat × Nat × Nat) : Bool := e.1 == pg && !((pg == Pg.ts 0 || pg == Pg.ts 1) && e.2.2 != causeClamp)
  let d := { d with flt := { d.flt with live := d.flt.live.filter fun e => !own e } }
  (d.each [0, 1, 2, 3, 4] fun c d => d.relive pg c).fltView pg

/-- What goes on after a soft reset of a page: outputs, summaries and the units that stay granted. -/
def Dev.restartBlock (d : Dev) (pg : Nat) : Dev :=
  let d := d.each [0, 1] fun (n : Ts) d => d.when (pg == Pg.svc n.val) fun d => d.coreReset n
  let d := d.each [0, 1] fun (n : Ts) d => d.when (pg == Pg.ts n.val && d.ts[n].cls != 0xF8) fun d => d.newClass n 0xF8 0xFE
  let d := (d.when (pg == Pg.hld) fun d => (d.hldFollow 0).hldFollow 1).selectLost
  let d := d.when (pg == Pg.glb) fun d => d.each allPages fun q d => d.resum q
  let d := d.when (pg == Pg.cko || inBlock (Pg.syn 0) (Pg.syn 3) pg) Dev.ckoAll
  let d := d.when (pg == Pg.evo) Dev.evoAll
  let d := d.when (pg == Pg.tdcCal && d.on Pg.glb GLB.BOOT_STS_BOOT_DONE) fun d => d.after 0 .rotationStart
  let d := d.each (List.finRange 16) fun (n : Fin 16) d => d.when (pg == Pg.cl n.val && d.granted kindCrypto (n.val / 4)) fun d => d.laneWake n
  let d := d.when (inBlock (Pg.rsp 0) (Pg.rsp 7) pg) fun d => (d.readyShow.capShow).reservedShow
  let d := d.when (inBlock (Pg.key 0) (Pg.key 3) pg) Dev.ntsShow
  (d.resum pg).plkEval

/-- A soft reset of a page and of its block (R443). The store is initialised anew with its page (R287); with the scheduler's page every unit is released and asks again. -/
def softPage (r : Words × Dev) (pg : Nat) (region : Bool := false) : Words × Dev :=
  let r : Words × Dev := if pg = Pg.pwr then
      ((r.2.pwr.units.filter fun u => u.granted.isSome).foldl (fun q u => unitOff (q.1, q.2.setUnit u.kind u.inst none) u.kind u.inst) r)
    else if pg = Pg.cst then storeOff r else r
  let d := r.2
  let wake := pg == Pg.pwr && d.get Pg.pwr PWR.STS_MAIN_STATE != 0
  let d := (((d.stopBlock pg).dropTimers pg).clearBlock pg).wipe pg region
  let d := (d.faultsReset pg).restartBlock pg
  let d := d.when wake fun d => (d.clocksBack.seqThaw.gnssWakeNow).each allPages fun q d => d.put q HDR.PAGE_STS_CAVE_HELD 0
  let d := d.when (pg == Pg.cst && d.granted kindStore 0) Dev.storeWake
  (r.1, d.pwrShow)

/-! Region and die resets (R17 to R20, R287, R361 to R363). -/

/-- The region code of GLB_RST_CMD.TARGET (R449). -/
def regionOf (t : Nat) : Option Region :=
  [Region.time, .measurement, .synthesis, .gnss, .portA, .portB, .service, .store, .audio, .control, .host][t]?

/-- R19: the selector, the servo cores and the holdover unit return to reset; RUN and its firmware stay, and both bounds are unbounded at once. -/
def Dev.timeReset (d : Dev) : Dev :=
  let run (n : Ts) : Bool := d.on (Pg.svc n) SVC.CTL_RUN
  let ver (n : Ts) : Nat := d.get (Pg.svc n) SVC.STS_FW_VER
  let kept : List (Ts × Bool × Nat) := [(0, run 0, ver 0), (1, run 1, ver 1)]
  let d := d.each [Pg.sel, Pg.svc 0, Pg.svc 1] fun pg d => ((((d.dropTimers pg).clearBlock pg).wipe pg).faultsReset pg).resum pg
  let d := (d.each [0, 1] fun (n : Ts) d => (d.upHld n fun _ => { incAt := d.now, base := d.get (Pg.ts n) TS.INCR_EFF_EFF }).upTs n fun e => { e with qualified := false })
  let d := (d.each [0, 1] fun (n : Ts) d => d.upSel n fun _ => {}).each (List.finRange 19) fun k d => d.upMon k fun e => { e with hasLast := false }
  let d := { d with regs := d.regs.filter fun e => ¬ (e.1 / 4096 = Pg.hld ∧ 0x100 ≤ e.1 % 4096) }
  let d := ((d.wipe Pg.hld).faultsReset Pg.hld).resum Pg.hld
  let d := d.each kept fun k d =>
    let n := k.1
    let d := ((d.upSvc n fun _ => { begun := k.2.1 }).putb (Pg.svc n) SVC.CTL_RUN k.2.1).put (Pg.svc n) SVC.STS_FW_VER k.2.2
    d.when k.2.1 fun d => (d.wdogRestart n).showLoop n
  let d := d.each [0, 1] fun (n : Ts) d => (d.put (Pg.ts n) TS.BOUND_STS_CODE 0xFFFF).put (Pg.ts n) TS.BOUND_STS_STATE 0
  d.readyShow.audFollow

/-- PCIe retrains (R362, R453). -/
def Dev.retrain (d : Dev) : Dev := d.put Pg.hif HIF.STS_LINK_UP 0

/-- A region reset begins: its pages return to reset, and 10 µs later it is complete (R361). A synthesizer that a C4 found enabled keeps EN, so that it passes START again once the fault is cleared (R156). -/
def regionBegin (q : Words × Dev) (r : Region) : Words × Dev :=
  let d := q.2
  let d := { d with flt := { d.flt with resetting := if r ∈ d.flt.resetting then d.flt.resetting else d.flt.resetting ++ [r] } }
  let d := d.timerTime 0 (10 * micro) (.regionResetComplete r)
  let on := (List.finRange 4).filter fun n => d.on (Pg.syn n) SYN.CTL_EN && d.c4Held && r == .synthesis
  let q := (resetPages r).foldl (fun q pg => softPage q pg true) (q.1, d)
  let d := q.2.each on fun n d => (d.put (Pg.syn n) SYN.CTL_EN 1).upSyn n fun e => { e with again := true }
  (q.1, if r = .time then d.timeReset else if r = .host then d.retrain else d)

/-- A region reset is asked for (R20). -/
def regionAsk (q : Words × Dev) (r : Region) : Words × Dev :=
  if r ∈ q.2.flt.resetting then (q.1, q.2.absorb r) else regionBegin q r

/-- The region of a port die. -/
def dieRegion (n : Fin 2) : Region := if n = 0 then .portA else .portB

/-- A die reset is asked for (R17, R20): it takes over a reset of its region, restarts the replicas, and ends the Kwager link of PORTA. -/
def dieAsk (q : Words × Dev) (n : Fin 2) : Words × Dev :=
  let r := dieRegion n
  if n ∈ q.2.flt.dies then (q.1, q.2.absorb r)
  else
    let q := regionBegin q r
    let d := { q.2 with flt := { q.2.flt with dies := q.2.flt.dies ++ [n] } }
    let d := d.each [0, 1] fun (t : Ts) d => d.upTs t fun e => { e with replica := e.replica.set n 0 }
    (q.1, d.when (n == 0 && decide (linkHello ≤ d.link)) Dev.linkFail)

/-- The region's power domain is off in Cave (R22, R387). -/
def darkInCave (r : Region) : Bool :=
  match r with
  | .synthesis | .portA | .portB | .service | .store | .audio | .host => true
  | .time | .measurement | .gnss | .control => false

/-! Package reset (R17, R18, R40, R301, R346, R401, R420). -/

/-- The key memory as a reset leaves it: a command past its COMMIT has its effect; one past its PREPARE is torn (R300, R301); a root area that was being blown is spent (R308). `held` says that the supplies' hold-up let it finish. -/
def KeyEng.atReset (e : KeyEng) (now : Nat) (held : Bool) : KeyEng :=
  let k : KeyEng := { nv := e.nv, lc := e.lc, owner := e.owner, nonces := e.nonces, spent := e.spent + (if e.rooting then 1 else 0) }
  match e.run with
  | none => k
  | some r =>
    if held ∨ r.start + 9 * micro ≤ now then { k with nv := sset (fun _ => ({} : KeyImage)) e.nv r.slot r.img }
    else if r.start + 6 * micro ≤ now then { k with torn := some r.slot } else k

/-- The flash as a reset leaves it: the blocks a copy has written are marked done, 4 for each second (R419, R420). -/
def LdrEng.atReset (e : LdrEng) (now : Nat) : LdrEng :=
  let j := if e.jnl.phase = 6 ∨ e.jnl.phase = 8 then { e.jnl with done := e.jnl.done + (now - e.began) * 4 / second } else e.jnl
  { flash := e.flash, jnl := j, gen := e.gen, otp := e.otp, boots := e.boots, failed := e.failed }

/-- The recorder as a reset leaves it: the record memory and the overflow area (R341, R346, R347). -/
def RecEng.atReset (e : RecEng) : RecEng := { lines := e.lines, wheelNewest := e.wheelNewest, overflow := e.overflow, epoch := e.epoch }

/-- A package reset: everything returns to reset but what non-volatile memory and OTP hold; the MEC and the accumulators start from 0 (R18, R40). -/
def packageBegin (q : Words × Dev) (held : Bool := false) : Words × Dev :=
  let d := q.2.flushCut
  let size := d.rind
  let e : Dev := { out := d.out, key := d.key.atReset d.freeNs held, ldr := d.ldr.atReset d.freeNs, rcd := d.rcd.atReset, plk := { claimNv := d.plk.claimNv } }
  ([], e.put Pg.rec REC.STS_RIND_SIZE size)

end Sys2Proof.Machine
end

