-- ==== Sys2Proof/Machine/LdrOps.lean ====
section
/-! DEFINITION. Operations of the loader (R416 to R435): containers and their checks, the phases and the lock, results, copies, confirmation, and the words of a calibration set. -/

namespace Sys2Proof

/-! Containers (R421, R422). -/

/-- n octets of the header from octet a, as they stand and as a number. -/
def Container.octs (c : Container) (a n : Nat) : List Nat := (c.head.drop a).take n
def Container.num (c : Container) (a n : Nat) : Nat := Machine.unoct (c.octs a n)
def Container.typ (c : Container) : Nat := c.num 7 1
def Container.version (c : Container) : Nat := c.num 8 4
def Container.rollback (c : Container) : Nat := c.num 12 4
def Container.len (c : Container) : Nat := c.num 16 4
def Container.keyIdx (c : Container) : Nat := c.num 20 1

/-- The body the header measures. -/
def Container.stored (c : Container) : List Nat := c.body.take c.len

/-- A set that CAL_COMMIT wrote: the device gives it no signed header (log entry 30). -/
def Container.own (c : Container) : Bool := c.head.isEmpty && c.origin == 1

/-- The octets of a container. -/
def Container.size (c : Container) : Nat := 256 + c.len

end Sys2Proof

namespace Sys2Proof.Machine

def Dev.upLdr (d : Dev) (f : LdrEng → LdrEng) : Dev := { d with ldr := f d.ldr }
def Dev.upJnl (d : Dev) (f : Journal → Journal) : Dev := d.upLdr fun e => { e with jnl := f e.jnl }
def Dev.upFlash (d : Dev) (f : Flash → Flash) : Dev := d.upLdr fun e => { e with flash := f e.flash }

/-- Codes of LDR_STS.PHASE (R434). -/
abbrev phIdle : Nat := 0
abbrev phOpen : Nat := 1
abbrev phLoading : Nat := 2
abbrev phLoaded : Nat := 3
abbrev phVerified : Nat := 4
abbrev phCopyRet : Nat := 5
abbrev phOverwrite : Nat := 6
abbrev phTrial : Nat := 7
abbrev phRestoring : Nat := 8
abbrev phCal : Nat := 9
abbrev phSlot : Nat := 10
/-- Codes of LDR_STS.RESULT (R434). -/
abbrev lrDone : Nat := 1
abbrev lrBusy : Nat := 2
abbrev lrMagic : Nat := 3
abbrev lrTarget : Nat := 4
abbrev lrFormat : Nat := 5
abbrev lrRollback : Nat := 6
abbrev lrSignature : Nat := 7
abbrev lrHash : Nat := 8
abbrev lrPolicy : Nat := 9
abbrev lrOwner : Nat := 10
abbrev lrPower : Nat := 11
abbrev lrRestored : Nat := 13
/-- No owner of the lock. -/
abbrev noOwner : Nat := 0xFF

/-- The size of the area or slot of a type (R419). -/
def areaSize (typ : Nat) : Nat := if typ = 1 then 16 * 2 ^ 20 else if typ = 2 then 2 * 2 ^ 20 else 256 * 2 ^ 10

/-- The OTP rollback count. -/
def Dev.otpCount (d : Dev) : Nat := d.ldr.otp.getD (d.get Pg.ldr LDR.RUN_OTP_RB)

/-- The OTP hash a KEY_IDX names: the factory image key for 0, the owner key for 1 once it is blown (R311, R421). -/
def Dev.imageKeyHash (d : Dev) (idx : Nat) : Option (List Nat) :=
  if idx = 0 then (if d.on Pg.ldr LDR.POLICY_OWNER_ONLY then none else some (stdOctets fnRoot [0x102]))
  else if idx = 1 ∧ d.on (Pg.key 0) KEY0.LC_STS_OWNER then some (d.key.owner.getD (stdOctets fnRoot [0x101]))
  else none

/-- Step 3 of R421. -/
def Dev.signed (d : Dev) (c : Container) : Bool :=
  (c.keyIdx == 0xFF && (c.typ == 2 || c.typ == 3) && d.on Pg.ldr LDR.POLICY_UNSIGNED_DATA) ||
  ((d.imageKeyHash c.keyIdx).any fun h => sha384 (c.octs 72 49) == h) && stdCheck fnEcdsaCheck (c.octs 72 49 ++ c.octs 160 96 ++ c.octs 0 160)

/-- Steps 1 to 3 of R421: 0 passes, else the RESULT. -/
def Dev.headCheck (d : Dev) (c : Container) : Nat :=
  if c.num 0 4 ≠ 0x53564E31 then lrMagic
  else if c.num 4 3 ≠ d.get Pg.glb GLB.DEVICE_ID / 256 then lrTarget
  else if c.typ < 1 ∨ 3 < c.typ ∨ c.len % 4 ≠ 0 ∨ areaSize c.typ - 256 < c.len then lrFormat
  else if c.typ = 1 ∧ c.rollback < d.otpCount then lrRollback
  else if !d.signed c then lrSignature
  else 0

/-- Step 4 of R421, and the device of a calibration set (R423). -/
def Dev.bodyCheck (d : Dev) (c : Container) : Nat :=
  if sha384 c.stored ≠ c.octs 24 48 then lrHash
  else if c.typ = 3 ∧ unoct (c.stored.take 8) ≠ d.get (Pg.key 3) KEY3.UID_UID then lrTarget
  else 0

/-- A stored container of a type passes R421. -/
def Dev.verified (d : Dev) (typ : Nat) (c : Container) : Bool :=
  (c.own && typ == 3) || (c.typ == typ && d.headCheck c == 0 && d.bodyCheck c == 0)

/-- A usable return image (R422, R433). -/
def Dev.retUsable (d : Dev) : Bool := d.ldr.flash.ret.any fun c => d.verified 1 c

/-- The images as LDR_RUN, LDR_RUN_VER and RET_VALID show them; ATTEST and SVC see the running one (R309, R421). -/
def Dev.imageShow (d : Dev) : Dev :=
  let pg := Pg.ldr
  let f := d.ldr.flash
  let none := d.get pg LDR.STS_IMAGE == 2
  let num (c : Option Container) (g : Container → Nat) : Nat := (c.map g).getD 0
  let run := if none then Option.none else f.running
  let d := d.upLdr fun e => { e with imageHash := (run.map fun c => c.octs 24 48).getD [] }
  let d := ((d.put pg LDR.RUN_OTP_RB d.otpCount).put pg LDR.RUN_RUN_RB (num run Container.rollback)).put pg LDR.RUN_RET_RB (num f.ret Container.rollback)
  (d.put pg LDR.RUN_VER_VERSION (num run Container.version)).putb pg LDR.STS_RET_VALID d.retUsable

/-- The stage of a boot that scans the record memory (R345, R416). -/
abbrev bootScan : Nat := 4

/-! Phases, results and the lock (R427, R428, R434, R435). -/

/-- The phase and the lock owner change; the journal records them (R420). No record is entered before a boot has scanned the record memory (R345). -/
def Dev.ldrPhase (d : Dev) (p owner : Nat) : Dev :=
  let pg := Pg.ldr
  let old := d.ldr.jnl.phase
  let d := d.upJnl fun j => { j with phase := p, owner := owner }
  let d := ((d.put pg LDR.STS_PHASE p).put pg LDR.STS_OWNER owner).put pg LDR.STS_TRIAL d.ldr.jnl.trial
  let scanned := d.ldr.boot.all fun b => decide (bootScan < b.stage)
  if old = p then d else ((d.put pg LDR.STS_PROGRESS 0).int pg 0).when scanned fun d => d.record 0xC1 (srcPage pg) [old, p, owner, d.ldr.jnl.trial]

/-- A new RESULT. -/
def Dev.ldrResult (d : Dev) (r : Nat) : Dev := (d.put Pg.ldr LDR.STS_RESULT r).int Pg.ldr 1

/-- A session's container. -/
def Dev.session (d : Dev) (m : Master) : Option Container := (d.ldr.sess.find? fun e => e.1 = masterId m).map (·.2)

/-- UPD_SESSION: the lock is taken, or a session refused. -/
def Dev.sessionRecord (d : Dev) (m : Master) (refused r : Nat) (c : Container) : Dev :=
  d.record 0xC0 (srcPage Pg.ldr) ([masterId m, refused, r, c.typ] ++ oct 4 c.version ++ oct 4 c.rollback)

/-- UPD_RESULT. -/
def Dev.resultRecord (d : Dev) (r : Nat) : Dev :=
  let pg := Pg.ldr
  d.record 0xC2 (srcPage pg) ([r, d.get pg LDR.STS_IMAGE, 0, 0] ++ oct 4 (d.get pg LDR.RUN_VER_VERSION) ++ [d.otpCount])

/-- A session or a write refused by master or policy (R427). -/
def Dev.ldrRefused (d : Dev) : Dev := d.count Pg.ldr LDR.REFUSED_MSTR

/-- A write to the LDR page: only PF0's and the loader's are served (R427). -/
def Dev.ldrWrite (d : Dev) (m : Master) (off v : Nat) (eff : Dev → Dev) : Dev :=
  match d.gate m Pg.ldr off with
  | .served => if m = .pf0 ∨ m = .loader then d.write m Pg.ldr off v eff else d.ldrRefused.pmc Pg.ldr 4
  | .refused => (d.discard .refused Pg.ldr).ldrRefused
  | g => d.discard g Pg.ldr

/-- A command of LDR_CMD: PF0's as a write, the partner's over the link (R427); refused with RESULT POWER once power fails (R430). -/
def Dev.ldrCmd (d : Dev) (m : Master) (op : Nat) (eff : Dev → Dev) : Dev :=
  let go (d : Dev) : Dev := if d.powerFails then d.ldrResult lrPower else eff d
  match m with
  | .kwager => if d.on Pg.glb GLB.BOOT_STS_BOOT_DONE then go d else d
  | m => d.ldrWrite m 0x104 op go

/-- A command that only the lock owner may give, in the phases that take it. -/
def Dev.ownerCmd (d : Dev) (m : Master) (op : Nat) (phases : List Nat) (eff : Dev → Dev) : Dev :=
  d.ldrCmd m op fun d =>
    if d.ldr.jnl.owner ≠ masterId m then d.ldrResult lrOwner
    else if d.ldr.jnl.phase ∉ phases then d.ldrResult lrFormat
    else eff d

/-- A session moves on: its 600 s begin anew (R428). -/
def Dev.progress (d : Dev) : Dev := d.timerTime 0 (600 * second) .sessionTimeout

/-- The lock is released, and the phase is IDLE. -/
def Dev.ldrIdle (d : Dev) : Dev := ((d.cancel .sessionTimeout).cancel .loadComplete).ldrPhase phIdle noOwner

/-- The ns that a number of octets take at 4 MiB/s (R419). -/
def flashTime (n : Nat) : Nat := n * second / 2 ^ 22

/-- A flash copy of a number of octets goes on from the first block of 1 MiB not marked done; its end is COPY_DONE (R420, R429). -/
def Dev.copyOn (d : Dev) (n : Nat) : Dev :=
  ((d.upLdr fun e => { e with began := d.freeNs }).cancel .sessionTimeout).timerTime 0 (flashTime (n - d.ldr.jnl.done * 2 ^ 20)) .copyDone

/-- A flash copy or slot write begins. -/
def Dev.copyStart (d : Dev) (n : Nat) : Dev := (d.upJnl fun j => { j with done := 0 }).copyOn n

/-- VERIFY_HDR of a fetched header (R421, R428). -/
def Dev.headVerify (d : Dev) (m : Master) (c : Container) : Dev :=
  let r := d.headCheck c
  let r := if r = 0 ∧ d.ldr.jnl.owner ≠ noOwner then lrBusy else r
  if r ≠ 0 then (d.sessionRecord m 1 r c).ldrResult r
  else (((d.ldrPhase phOpen (masterId m)).sessionRecord m 0 lrDone c).ldrResult lrDone).progress

/-- LOAD of the owner's body. -/
def Dev.bodyLoad (d : Dev) (c : Container) : Dev :=
  ((d.ldrPhase phLoading d.ldr.jnl.owner).upLdr fun e => { e with began := d.freeNs }).progress.timerTime 0 (flashTime c.len) .loadComplete

/-- The container of the lock owner. -/
def Dev.ownerBody (d : Dev) : Option Container := (d.ldr.sess.find? fun e => e.1 = d.ldr.jnl.owner).map (·.2)

/-! Trial and confirmation (R431, R432). -/

/-- The conditions of self-confirmation stand (R432). -/
def Dev.mayConfirm (d : Dev) : Bool :=
  let bad (pg : Nat) := decide (4 ≤ d.get pg HDR.FLT_STS_LAT)
  d.on Pg.ldr LDR.POLICY_SELF_CONF && !d.svc[0].halted && !d.svc[1].halted && !bad (Pg.svc 0) && !bad (Pg.svc 1) && !bad Pg.ldr &&
  !bit (d.get Pg.flt FLT.CLASS_STS_LAT) 4 && decide (d.ldr.confFrom + max 1 (d.get Pg.ldr LDR.POLICY_CONF_TIME) * second ≤ d.freeNs)

/-- The time at which self-confirmation may come is set anew. -/
def Dev.confTimer (d : Dev) : Dev :=
  if d.ldr.jnl.phase = phTrial ∧ d.on Pg.glb GLB.BOOT_STS_BOOT_DONE then
    d.timerTime 0 (d.ldr.confFrom + max 1 (d.get Pg.ldr LDR.POLICY_CONF_TIME) * second - d.freeNs) .selfConfirm
  else d

/-- The loader watchdog runs: in TRIAL whatever EN holds (R431). -/
def Dev.ldrWatched (d : Dev) : Bool := d.on Pg.glb GLB.BOOT_STS_BOOT_DONE && (d.on Pg.ldr LDR.WDOG_EN || d.ldr.jnl.phase == phTrial)

/-- Restart the loader watchdog. -/
def Dev.ldrKick (d : Dev) : Dev := d.timerTime 0 (max 1 (d.get Pg.ldr LDR.WDOG_TMO) * second) .ldrWatchdogExpiry

/-- The trial image is confirmed (R432): OTP rises to its ROLLBACK, and the lock is released. -/
def Dev.confirmNow (d : Dev) : Dev :=
  let rb := (d.ldr.flash.running.map Container.rollback).getD 0
  let d := d.upLdr fun e => { e with otp := some (min 64 (max d.otpCount rb)), jnl := { e.jnl with trial := 0, expired := false } }
  let d := ((d.imageShow.ldrIdle).cancel .selfConfirm).ldrResult lrDone
  let d := if d.ldrWatched then d else d.cancel .ldrWatchdogExpiry
  d.resultRecord lrDone

/-! The calibration set (R16, R423 to R425). -/

/-- The registers whose fields all carry C, by BAR0 byte address. -/
def calRegs : List Nat :=
  [4096 * Pg.gnss 1 + 0x110, 4096 * Pg.gnss 1 + 0x114, 4096 * Pg.plk + 0x138] ++
  ((List.range 4).flatMap fun n => (List.range 32).map fun b => 4096 * Pg.syn n + 0x400 + 4 * b) ++
  ((List.range 16).map fun m => 4096 * Pg.cko + 0x90 + 256 * m) ++ ((List.range 16).map fun m => 4096 * Pg.evo + 0x12C + 64 * m) ++
  ((List.range 16).map fun n => 4096 * Pg.tdc n + 0x148) ++
  ((List.range 24).flatMap fun n => (List.range 20).map fun k => 4096 * Pg.pts n + 0x200 + 4 * k)

/-- The registers of the set that a part has; PWR_COST stands in it once for each kind of R379. -/
def isCal (a : Nat) : Bool := (calRegs.contains a || a == 4096 * Pg.pwr + 0x144) && (regAt (a / 4096) (a % 4096)).isSome

/-- Load a set: its words into their registers, its tables into the units. -/
def Dev.calLoad (d : Dev) (c : Container) : Dev :=
  let words := (c.writes.filter fun e => isCal e.1).map fun e => (e.1, e.2 % 2 ^ 32 &&& (resetWord e.1).toNat)
  let d := d.upLdr fun e => { e with cal := words, tabs := c.tabs, calBody := c.body }
  let d := d.each words fun e d => d.setReg (e.1 / 4096) (e.1 % 4096) (BitVec.ofNat 96 e.2)
  d.each c.tabs fun t d => d.upUnit t.unit fun _ => { ents := t.ents, table := t.counts }

/-- The set CAL_COMMIT collects: the running value of every C field and the tables as they stand (R425). -/
def Dev.calCollect (d : Dev) : Container :=
  let regs := calRegs.filter fun a => (regAt (a / 4096) (a % 4096)).isSome
  { head := [], origin := 1
    writes := (regs.map fun a => (a, (d.reg (a / 4096) (a % 4096)).toNat)) ++ (List.range 17).map fun k => (4096 * Pg.pwr + 0x144, d.cost k)
    tabs := (List.finRange 17).map fun u => ⟨u, d.unit[u].ents, d.unit[u].table⟩
    body := oct 8 (d.get (Pg.key 3) KEY3.UID_UID) ++ (regs.flatMap fun a => oct 4 (d.reg (a / 4096) (a % 4096)).toNat) ++ (List.range 17).flatMap fun k => oct 4 (d.cost k) }

end Sys2Proof.Machine
end

