-- ==== Sys2Proof/Machine/Loader.lean ====
section
/-! DEFINITION. The commands of update sessions (R425, R427 to R433). -/

namespace Sys2Proof.Machine

/-- Record a session's source and container; a partner needs the policy's leave (R427). The lock owner's own OPEN ends the session it had: no body of a header that has not passed is ever loaded (log entry 68). -/
def Dev.openFor (d : Dev) (m : Master) (c : Container) : Dev :=
  if m = .kwager ∧ !d.on Pg.ldr LDR.POLICY_PARTNER then ((d.ldrRefused).sessionRecord m 1 lrPolicy c).ldrResult lrPolicy
  else
    let d := d.when (d.ldr.jnl.owner == masterId m && decide (d.ldr.jnl.phase ≤ phVerified)) fun d => (d.upFlash fun f => { f with staging := none }).ldrIdle
    let d := d.upLdr fun e => { e with sess := (masterId m, c) :: e.sess.filter fun x => x.1 ≠ masterId m }
    if d.ldr.jnl.phase = phIdle then (d.ldrPhase phOpen noOwner).progress else d

/-- R427: OPEN records the source and fetches the header. -/
def execOpenSession (m : Master) (c : Container) (s : State) : Host.Outcome State Fault Refusal :=
  s.run fun d => d.ldrCmd m 1 fun d => d.openFor m c

/-- R421, R428: VERIFY_HDR checks the header; on a pass it takes the lock, or is refused with BUSY. -/
def execVerifyHdr (m : Master) (s : State) : Host.Outcome State Fault Refusal :=
  s.run fun d => d.ldrCmd m 2 fun d =>
    match d.session m with
    | none => d.ldrResult lrFormat
    | some c => d.headVerify m c

/-- R427: LOAD writes the body to staging or to the loader. -/
def execLoadBody (m : Master) (s : State) : Host.Outcome State Fault Refusal :=
  s.run fun d => d.ownerCmd m 3 [phOpen] fun d => match d.ownerBody with
    | some c => d.bodyLoad c
    | none => d.ldrResult lrFormat

/-- The body stands in staging or in the loader, and the phase is LOADED (R427). -/
def Dev.bodyHere (d : Dev) : Dev :=
  let d := (d.cancel .loadComplete).ldrPhase phLoaded d.ldr.jnl.owner
  let d : Dev := match d.ownerBody with
    | some c => if c.typ = 1 then d.upFlash fun f => { f with staging := some c } else d
    | none => d
  ((d.put Pg.ldr LDR.STS_PROGRESS 100).ldrResult lrDone).progress

/-- R427: the body has arrived. -/
def execLoadComplete (s : State) : Host.Outcome State Fault Refusal :=
  s.run fun d =>
    if d.ldr.jnl.phase ≠ phLoading then d
    else if d.powerFails then d.timerTime 0 milli .loadComplete
    else d.bodyHere

/-- R421, R423, R427: VERIFY_BODY checks the stored body. -/
def execVerifyBody (m : Master) (s : State) : Host.Outcome State Fault Refusal :=
  s.run fun d => d.ownerCmd m 4 [phLoaded] fun d => match d.ownerBody with
    | some c =>
      let r := d.bodyCheck c
      if r = 0 then ((d.ldrPhase phVerified d.ldr.jnl.owner).ldrResult lrDone).progress else (d.ldrResult r).progress
    | none => d.ldrResult lrFormat

/-- The running image is copied to the return area, or the slot that does not govern is written (R427). -/
def Dev.copyBegin (d : Dev) (c : Container) : Dev :=
  let own := d.ldr.jnl.owner
  if c.typ = 1 then
    let n := (d.ldr.flash.running.map Container.size).getD 0
    (((d.ldrPhase phCopyRet own).upFlash fun f => { f with ret := none }).imageShow).copyStart n
  else ((d.ldrPhase phSlot own).upLdr fun e => { e with slot := some c }).copyStart c.size

/-- R427: ACTIVATE copies the running image to the return area, or writes the slot that does not govern. -/
def execActivate (m : Master) (s : State) : Host.Outcome State Fault Refusal :=
  s.run fun d => d.ownerCmd m 5 [phVerified] fun d => match d.ownerBody with
    | some c => d.copyBegin c
    | none => d.ldrResult lrFormat

/-- The slot write ends: the new slot verifies and governs; the lock is released (R420, R425). -/
def Dev.slotDone (d : Dev) (cal : Bool) : Dev :=
  let d : Dev := match d.ldr.slot with
    | some c => d.upFlash fun f => if c.typ = 2 then { f with cfg := some c } else { f with cal := some c }
    | none => d
  let gen := d.ldr.gen + 1
  let d := (d.upLdr fun e => { e with slot := none, gen := gen }).when cal fun d => d.record 0xC3 (srcPage Pg.ldr) ([lrDone, 1, 0, 0] ++ oct 4 gen)
  d.ldrIdle.ldrResult lrDone

/-- A package reset that the loader makes. -/
def resetBy (st : Words) (d : Dev) : Words × Dev := packageBegin (st, d)

/-- R427, R429, R431, R433: a copy ends: the next phase, or a package reset. -/
def execCopyDone (s : State) : Host.Outcome State Fault Refusal :=
  s.runReset fun st d =>
    let p := d.ldr.jnl.phase
    let d := d.cancel .copyDone
    if p < phCopyRet ∨ p = phTrial then (st, d)
    else if d.powerFails then (st, d.timerTime 0 milli .copyDone)
    else if p = phCopyRet then
      let n := (d.ldr.flash.staging.map Container.size).getD 0
      let d := d.upFlash fun f => { f with ret := f.running, running := none }
      (st, (d.ldrPhase phOverwrite d.ldr.jnl.owner).copyStart n)
    else if p = phOverwrite then
      let d := (d.upFlash fun f => { f with running := f.staging }).upJnl fun j => { j with trial := 0, expired := false, done := 0 }
      resetBy st (d.ldrPhase phTrial d.ldr.jnl.owner)
    else if p = phRestoring then
      let d := (d.upFlash fun f => { f with running := f.ret, staging := none }).upJnl fun j => { j with trial := 0, expired := false, done := 0, restored := true }
      resetBy st (d.ldrPhase phIdle noOwner)
    else (st, d.slotDone (p == phCal))

/-- R432: CONFIRM from the lock owner. -/
def execConfirm (m : Master) (s : State) : Host.Outcome State Fault Refusal :=
  s.run fun d => d.ownerCmd m 6 [phTrial] fun d => d.confirmNow

/-- R432: the conditions have held for CONF_TIME. -/
def execSelfConfirm (s : State) : Host.Outcome State Fault Refusal :=
  s.run fun d => if d.ldr.jnl.phase = phTrial ∧ d.mayConfirm ∧ !d.powerFails then d.confirmNow else d

/-- R427: ABORT before ACTIVATE. -/
def execLdrAbort (m : Master) (s : State) : Host.Outcome State Fault Refusal :=
  s.run fun d => d.ownerCmd m 7 [phOpen, phLoading, phLoaded, phVerified] fun d =>
    ((d.upFlash fun f => { f with staging := none }).upLdr fun e => { e with sess := e.sess.filter fun x => x.1 ≠ masterId m }).ldrIdle.ldrResult lrDone

/-- R425: CAL_COMMIT by PF0 collects the running calibration and writes it to the slot that does not govern. -/
def execCalCommit (m : Master) (s : State) : Host.Outcome State Fault Refusal :=
  s.run fun d => d.ldrCmd m 8 fun d =>
    if m ≠ .pf0 then d.ldrResult lrOwner
    else if d.ldr.jnl.owner ≠ noOwner then (d.ldrResult lrBusy).record 0xC3 (srcPage Pg.ldr) ([lrBusy, 1, 0, 0] ++ oct 4 d.ldr.gen)
    else
      let c := d.calCollect
      ((d.ldrPhase phCal (masterId m)).upLdr fun e => { e with slot := some c }).copyStart (256 + c.body.length)

/-- R428, R433: RESTORE by PF0 falls back to the return image. -/
def execRestoreImage (m : Master) (s : State) : Host.Outcome State Fault Refusal :=
  s.run fun d => d.ldrCmd m 9 fun d =>
    if m ≠ .pf0 then d.ldrResult lrOwner
    else if d.ldr.jnl.owner ≠ noOwner ∨ d.ldr.jnl.phase ≠ phIdle then d.ldrResult lrBusy
    else if !d.retUsable then d.ldrResult lrRollback
    else (d.ldrPhase phRestoring (masterId m)).copyStart ((d.ldr.flash.ret.map Container.size).getD 0)

/-- R428: 600 s without progress before ACTIVATE. -/
def execSessionTimeout (s : State) : Host.Outcome State Fault Refusal :=
  s.run fun d =>
    if phOpen ≤ d.ldr.jnl.phase ∧ d.ldr.jnl.phase ≤ phVerified then ((d.upFlash fun f => { f with staging := none }).upLdr fun e => { e with sess := [] }).ldrIdle
    else d

/-- R431: a write of LDR_WDOG; KICK, and the setting of EN, restart the watchdog. -/
def execKick (m : Master) (v : Nat) (s : State) : Host.Outcome State Fault Refusal :=
  s.run fun d =>
    let was := d.ldrWatched
    d.ldrWrite m 0x128 v fun d =>
      let d := d.storeReg Pg.ldr 0x128 v
      if !d.ldrWatched then d.cancel .ldrWatchdogExpiry else if bit v 30 || !was then d.ldrKick else d

/-- R431: the loader watchdog expires: the journal is marked in TRIAL, and the package is reset. -/
def execLdrWatchdogExpiry (s : State) : Host.Outcome State Fault Refusal :=
  s.runReset fun st d => if d.ldrWatched then resetBy st (d.upJnl fun j => { j with expired := j.phase == phTrial }) else (st, d)

/-- OPEN, VERIFY_HDR and, with the lock, LOAD of what the partner pushes (R427, R428). -/
def Dev.partnerPush (d : Dev) (c : Container) : Dev :=
  let d := d.openFor .kwager c
  if !d.on Pg.ldr LDR.POLICY_PARTNER then d
  else
    let d := d.headVerify .kwager c
    if d.ldr.jnl.owner = masterId .kwager ∧ d.ldr.jnl.phase = phOpen then d.bodyLoad c else d

/-- R427, R428: the partner pushes a container: OPEN, VERIFY_HDR and, with the lock, LOAD. -/
def execPartnerContainerRx (h : KwgHead) (c : Container) (s : State) : Host.Outcome State Fault Refusal :=
  s.run fun d => d.kwgTake h fun d =>
    if d.link ≠ linkUp then d
    else d.ldrCmd .kwager 1 fun d => d.partnerPush c

end Sys2Proof.Machine
end

