-- ==== Sys2Proof/Machine/Measurement.lean ====
section
/-! DEFINITION. The commands of the measurement array (R164 to R185). -/

namespace Sys2Proof.Machine

/-! Stamps (R166 to R173). -/

/-- An accepted edge is counted in the running gate. -/
def Dev.gateEdge (d : Dev) (n : Fin 16) : Dev := d.upTdc n fun e => { e with gCount := if e.gStamps = 0 then 0 else e.gCount + 1, decim := e.decim + 1 }

/-- Whether an edge is stamped in the channel's mode (R173). -/
def Dev.modeStamps (d : Dev) (n : Fin 16) : Bool :=
  let pg := Pg.tdc n
  if d.tdcCtl n TDC.CTL_MODE = 1 then max 1 (d.tdcCtl n TDC.CTL_DECIM) ≤ d.tdc[n].decim
  else if d.tdcCtl n TDC.CTL_MODE = 2 then d.on pg TDC.STS_ARMED else true

/-- In an overlap the other unit stamps the edge too, unless it is in its own dead time; an edge that both stamp is common, and the first tick after the second one may be that of the switch (R179). `t` is the first unit's stamp, if it took one. -/
def Dev.secondUnit (d : Dev) (n : Fin 16) (arrival bin tag : Nat) (t : Option Int) : Dev :=
  let u := if d.unitOf n = spare then chanUnit n else spare
  if !d.overlapping n || d.deadAt u arrival then d else
  let own := d.stampTime u bin tag 0
  let d := d.upUnit u fun e => { e with last := some arrival }
  match t with
  | none => d
  | some t =>
    let d := d.upTdcs fun e => { e with common := e.common + 1, diff := e.diff + (if u = spare then t - own else own - t) }
    d.when (decide (2 ≤ d.tdcs.common)) fun d => d.after 1 (if d.rotPhase = rotIn then .rotationSwitch else .rotationSwitchBack)

/-- Form a stamp and hand it to the tap, the queue and the stream (R168, R170 to R176). -/
def Dev.takeStamp (d : Dev) (n : Fin 16) (arrival bin bin2 : Nat) (falling : Bool) (lane : Nat) : Dev :=
  let pg := Pg.tdc n
  let u := d.unitOf n
  let src := d.srcNow n
  let group := 0x20 ≤ src ∧ src ≤ 0x23
  let tag := if group then 0x10 + 4 * (src - 0x20) + lane else src
  let ts := d.tdcCtl n TDC.CTL_TS
  let t := d.stampTime u bin tag ts
  let dst := d.tdcCtl n TDC.CTL_DEST
  let s : Stamp := { time := t.toNat, ts := ts, falling := falling, src := tag, lane := if group then lane else 0, bound := d.tdcBound ts }
  let d := (d.stampOut n).upUnit u fun e => { e with last := some arrival }
  let d := d.upTdc n fun e => { e with
    lane := lane, decim := 0, gFirst := if e.gStamps = 0 then t else e.gFirst, gLast := t,
    gCount := if e.gStamps = 0 then 1 else e.gCount, gE := if e.gStamps = 0 then 1 else e.gCount, gStamps := e.gStamps + 1 }
  let d := d.when (d.tdcCtl n TDC.CTL_MODE == 2) fun d => d.put pg TDC.STS_ARMED 0
  let ta := d.stampTime u bin tag 0
  let d := d.secondUnit n arrival bin2 tag (some ta)
  let d := d.each (d.fedBy n) fun (k : Fin 19) d =>
    d.when (!falling) fun d => if k = 0 then { d with gnss := { d.gnss with stamp := some (ta - tdiv d.ts[0].stepSum (2 ^ 32)) } } else d.after 0 (.ppsEdge k ta.toNat)
  if group then d.upTdc n fun e => { e with held := some (arrival, dst, s) } else d.deliver n dst s

/-- A channel looks at an edge: it is in service, its source exists and its edge selection takes the direction (R166, R168). -/
def Dev.tdcTakes (d : Dev) (n : Fin 16) (falling : Bool) : Bool :=
  let sel := d.tdcCtl n TDC.CTL_EDGE
  d.stamps n && tdcSource (d.srcNow n) && !(sel != 2 && falling != (sel == 1))

/-- An edge that a channel looks at: one inside the dead time is counted or collides, any other is counted in the gate and stamped as the mode says (R170 to R176). -/
def Dev.tdcEdge (d : Dev) (n : Fin 16) (phi : Fin 65536) (bin bin2 : Fin 1024) (falling : Bool) (lane : Fin 4) : Dev :=
  let src := d.srcNow n
  let arrival := d.now * 65536 + phi.val
  let other := decide (0x20 ≤ src ∧ src ≤ 0x23) && lane.val != d.tdc[n].lane && d.tdc[n].held.any fun h => decide (arrival ≤ h.1 + 4 * 65536)
  let t := d.stampTime (d.unitOf n) bin src 0 - tdiv d.ts[0].stepSum (2 ^ 32)
  let d := d.each (d.fedBy n) fun (k : Fin 19) d =>
    d.when (decide (3 ≤ k.val) && !falling && d.get (monPg k) REF.IN_CTL_FORMAT == 1 && d.mstate k != monDisabled) fun d => d.refEdge k t
  if other then d.collide n lane
  else if d.deadAt (d.unitOf n) arrival then (d.count (Pg.tdc n) TDC.DEAD_COUNT).secondUnit n arrival bin2 src none
  else
    let d := d.gateEdge n
    if d.modeStamps n then d.takeStamp n arrival bin bin2 falling lane else d

/-- R89, R91, R166, R168, R170 to R176, R193: an edge of a channel's source: `phi` is its place in the tick in 2^-16 ns, `bin` the bin hit, `bin2` the bin hit in the unit it overlaps with (R179), `falling` its direction at the ball, `lane` the input of an EVI group, `ps` how long the new level lasts. -/
def execTdcStamp (n : Fin 16) (phi : Fin 65536) (bin bin2 : Fin 1024) (falling : Bool) (lane : Fin 4) (ps : Nat) (s : State) : Host.Outcome State Fault Refusal :=
  s.run fun d => match d.muxEdge n lane falling ps with
    | (none, d) => d
    | (some f, d) => if !d.tdcTakes n f then d else d.tdcEdge n phi bin bin2 f lane

/-- R173: ARM; one while armed is ignored. -/
def execTdcArm (m : Master) (n : Fin 16) (s : State) : Host.Outcome State Fault Refusal :=
  s.run fun d => d.write m (Pg.tdc n) 0x108 1 fun d => d.put (Pg.tdc n) TDC.STS_ARMED 1

/-- R173: DISARM ends an armed shot. -/
def execTdcDisarm (m : Master) (n : Fin 16) (s : State) : Host.Outcome State Fault Refusal :=
  s.run fun d => d.write m (Pg.tdc n) 0x108 3 fun d => d.put (Pg.tdc n) TDC.STS_ARMED 0

/-- R174: FLUSH empties the queue. -/
def execTdcFlush (m : Master) (n : Fin 16) (s : State) : Host.Outcome State Fault Refusal :=
  s.run fun d => d.write m (Pg.tdc n) 0x108 2 fun d => (d.upTdc n fun e => { e with queue := [] }).tdcShow n

/-- R174: a write of 1 to Q_POP removes the head. -/
def execTdcPop (m : Master) (n : Fin 16) (v : Nat) (s : State) : Host.Outcome State Fault Refusal :=
  s.run fun d => d.write m (Pg.tdc n) 0x120 v fun d =>
    if bit v 0 then (d.upTdc n fun e => { e with queue := e.queue.drop 1 }).tdcShow n else d

/-- The gate of a channel ends: y and E are latched, and the REF frequency monitors that it feeds take y (R169, R173). -/
def Dev.freqGate (d : Dev) (n : Fin 16) : Dev :=
  let pg := Pg.tdc n
  let e := d.tdc[n]
  let dt := e.gLast - e.gFirst
  let nom := d.get pg TDC.NOM_HZ
  let ok := 2 ≤ e.gStamps ∧ 0 < dt ∧ 0 < nom
  let y : Int := if ok then tdiv ((e.gE - 1 : Nat) * (10 ^ 9 * 2 ^ 72)) (nom * dt) - 2 ^ 56 else 0
  let d := ((d.puti pg TDC.FREQ_Y y).put pg TDC.EDGES_E (min e.gE 0xFFFFFFFF)).putb pg TDC.STS_FVALID (decide ok)
  let ts := d.get pg TDC.CTL_TS
  let ya := if ts = 0 then y else ((2 ^ 56 + y) * d.get (Pg.ts 1) TS.INCR_EFF_EFF).tdiv (d.get (Pg.ts 0) TS.INCR_EFF_EFF) - 2 ^ 56
  let d := d.each (d.fedBy n) fun (k : Fin 19) d =>
    d.when (decide (3 ≤ k.val) && d.get (monPg k) REF.IN_CTL_FORMAT == 1 && decide ok && d.mstate k != monDisabled) fun d =>
      d.upMon k fun e => { e with newY := some ya }
  d.upTdc n fun e => { e with gStamps := 0, gCount := 0, gE := 0 }

/-- R173, R169: the second of the chosen timescale ends: y and E are latched; a REF frequency monitor takes y. -/
def execTdcFreqGate (n : Fin 16) (s : State) : Host.Outcome State Fault Refusal :=
  s.run fun d => d.freqGate n

/-! The host stream (R176, R177). -/

/-- Ring size of a channel. -/
def Dev.ringSize (d : Dev) (n : Fin 16) : Nat := 2 ^ clampN 10 24 (d.get (Pg.tdc n) TDC.STR_SIZE_SZ)

/-- The next channel in turn with a waiting stamp (R176). -/
def Dev.streamTurn (d : Dev) : Option (Fin 16) :=
  ((List.range 16).map fun i => Fin.ofNat 16 (d.tdcs.rr + 1 + i)).find? fun n => !d.tdc[n].fifo.isEmpty

/-- The first waiting stamp of a channel is written to its ring, or dropped where the ring is full (R176, R177). -/
def Dev.streamServe (d : Dev) (n : Fin 16) (w : Stamp) (rest : List Stamp) : Dev :=
  let pg := Pg.tdc n
  let d := (d.upTdcs fun e => { e with rr := n.val }).upTdc n fun e => { e with fifo := rest }
  let wp := d.get pg TDC.STR_WP_WP
  let size := d.ringSize n
  if (wp + 1) % size = d.get pg TDC.STR_RP_RP % size then (d.dropStream n).streamKick
  else
    let d := d.emit (.hostMem (d.get pg TDC.STR_BASE_BASE * 4096 + 12 * wp) (streamRecord w d.tdc[n].gapS))
    ((d.upTdc n fun e => { e with gapS := false }).put pg TDC.STR_WP_WP ((wp + 1) % size)).streamKick

/-- R176: the arbiter serves the next channel with a waiting stamp. -/
def execStreamWrite (s : State) : Host.Outcome State Fault Refusal :=
  s.run fun d =>
    if !d.on Pg.hif HIF.STS_LINK_UP then d else
    match d.streamTurn with
    | none => d
    | some n => match d.tdc[n].fifo with
      | [] => d
      | w :: rest => d.streamServe n w rest

/-- R177: a write of STR_BASE or STR_SIZE while DEST includes the stream is discarded and counted. -/
def execStrConfigWrite (m : Master) (n : Fin 16) (off v : Nat) (s : State) : Host.Outcome State Fault Refusal :=
  s.run fun d =>
    let pg := Pg.tdc n
    let dst := d.get pg TDC.CTL_DEST
    let cfg := off = 0x180 ∨ off = 0x188
    d.writeIf m pg off v (decide ¬ (cfg ∧ (dst = 1 ∨ dst = 2))) TDC.STR_DROP_DISC fun d => d.storeReg pg off v

/-- A channel takes a new MUX or CTL (R167, R169, R173). -/
def Dev.muxSet (d : Dev) (n : Fin 16) (off v : Nat) : Dev :=
  d.muxTurn n fun d => if off = 0x104 then d.srcSet n (v % 128) else d.storeReg (Pg.tdc n) off v

/-- R167, R169: a write of TDCn_MUX or TDCn_CTL; 0x7F and the probe channel's MUX are the hardware's own. -/
def execTdcMuxWrite (m : Master) (n : Fin 16) (off v : Nat) (s : State) : Host.Outcome State Fault Refusal :=
  s.run fun d =>
    let pg := Pg.tdc n
    let mine := off = 0x104 ∧ (v % 128 = 0x7F ∨ d.get Pg.tdcCal TDCCAL.PROBE_CTL_CH = n.val)
    d.writeOr m pg off v (decide ¬ mine) (fun d => d.count Pg.tdcCal TDCCAL.PROBE_CTL_DISC) fun d => d.muxSet n off v

/-! Rotation and calibration (R178 to R183). -/

/-- A rotation step may begin (R179, R181). -/
def Dev.rotMay (d : Dev) : Bool :=
  d.on Pg.tdcCal TDCCAL.ROT_CTL_EN && d.rotPerm == 0x1F && d.rotPhase == rotIdle && !d.unit[spare].retired && d.granted kindTdcs 0

/-- The next unit in order is overlapped; TDCS in its turn calibrates itself (R179). -/
def Dev.rotBegin (d : Dev) : Dev :=
  let u := d.rotNext
  let d := d.upTdcs fun e => { e with
    next := if e.front.contains u.val then e.next else (u.val + 1) % 17, front := e.front.filter (· != u.val), passed := false, restoring := false }
  let d := d.put Pg.tdcCal TDCCAL.ROT_STS_CUR u.val
  if u = spare then (d.put Pg.tdcCal TDCCAL.ROT_STS_PHASE rotSelf).upTdcs fun e => { e with began := d.stepFree 0, checked := false }
  else ((d.put Pg.tdcCal TDCCAL.ROT_STS_PHASE rotIn).overlapBegin.afterTime 0 milli .rotationSwitch).afterTime 0 (2100 * milli) .rotationSwitch

/-- R179: a rotation step begins: TDCS overlaps the next unit, or calibrates itself. -/
def execRotationStart (s : State) : Host.Outcome State Fault Refusal :=
  s.run fun d =>
    if d.now < d.tdcs.linkUntil then d.timer (d.tdcs.linkUntil - d.now) .rotationStart
    else
      let d := d.timerTime 0 d.rotPeriod .rotationStart
      if d.rotMay then d.rotBegin else d

/-- The switch: TDCS delivers the stamps, and the channel is connected to the random-edge source (R179). -/
def Dev.rotSwitch (d : Dev) (n : Fin 16) : Dev :=
  (((d.cancel .rotationSwitch).put Pg.tdcCal TDCCAL.ROT_STS_PHASE rotCal).overlap n).calTake n

/-- R179: the switch, once the overlap allows it; within dead time it waits for the next tick. -/
def execRotationSwitch (s : State) : Host.Outcome State Fault Refusal :=
  s.run fun d =>
    if d.rotPhase ≠ rotIn then d else
    let u := d.rotCur
    if h : u.val < 16 then
      let n : Fin 16 := ⟨u.val, h⟩
      if d.overlapOver n (2100 * milli) then d.rotSwitch n else d.when (decide (2 ≤ d.tdcs.common)) fun d => d.after 1 .rotationSwitch
    else d

/-- Ns of engine time since the switch have passed (R179). -/
def Dev.calPast (d : Dev) (ns : Nat) : Bool := decide ((ns * 2 ^ 48 : Nat) ≤ d.stepFree 0 - d.tdcs.began)

/-- A RESTORE that does not pass ends; the channel stays retired, which is no new retirement (R181). -/
def Dev.restoreFail (d : Dev) (u : Fin 17) : Dev := (d.upTdcs fun e => { e with restoring := false, passed := false }).rotDone u

/-- The table of the unit in calibration is installed or rejected; a second rejection in a row retires the unit (R178, R181). -/
def Dev.tableDone (d : Dev) (counts : List Nat) : Dev :=
  let u := d.rotCur
  let bad := tableRejected counts
  let d := d.upUnit u fun e => { e with counts := counts, rejects := if bad then e.rejects + 1 else 0 }
  let d := d.upTdcs fun e => { e with passed := !bad, checked := true }
  if bad then
    if d.unit[u].retired then d.restoreFail u else if 2 ≤ d.unit[u].rejects then d.retireUnit u else d.afterTime 0 4100000 (.precisionTest [])
  else
    let temp := d.pwr.dieT[1]
    (d.upUnit u fun e => { e with table := some counts, ents := [], calAt := some d.freeNs, temp := some temp }).tdcWindow

/-- R178, R179, R181: 2^24 edges are counted and, from 135.22 ms after the switch, the table is checked, once; `counts` gives N_i. A second rejection in a row retires the unit. -/
def execCalTableCheck (counts : List Nat) (s : State) : Host.Outcome State Fault Refusal :=
  s.run fun d => if d.rotPhase ≠ rotCal ∧ d.rotPhase ≠ rotSelf ∨ d.tdcs.checked ∨ !d.calPast 135220000 then d else d.tableDone counts

/-- σ_t in 2^-8 ps, rounded up, of the fine positions of the test edges in 2^-16 ns (R182). -/
def sigmaOfBins (l : List Nat) : Nat :=
  let n := l.length
  let sum := l.foldl (· + ·) 0
  let sq := l.foldl (fun a c => a + c * c) 0
  if n = 0 then 0 else isqrtUp (cdiv (125 * 125 * (n * sq - sum * sum)) (32 * 32 * n * n))

/-- The precision test ends: the unit is degraded or retired, and the overlap out begins (R181, R182). -/
def Dev.precisionDone (d : Dev) (bins : List (Fin 1024)) : Dev :=
  let u := d.rotCur
  let d := if bins.isEmpty then d else
    let sig := sigmaOfBins (bins.map fun (b : Fin 1024) => d.centre u b.val)
    (if u.val < 16 then d.put (Pg.tdc u.val) TDC.SIGMA_SIG sig else d.put Pg.tdcCal TDCCAL.SPARE_SIGMA_SIG sig).degrade u
  let above := !bins.isEmpty && decide (d.get Pg.tdcCal TDCCAL.CAL_LIM_SIG_RET < d.sigmaOf u)
  if above && d.unit[u].retired then d.restoreFail u
  else if above then d.retireUnit u
  else if d.rotPhase = rotSelf then d.rotDone u
  else if d.tdcs.restoring && !d.tdcs.passed then d.restoreFail u
  else ((d.calLeave.put Pg.tdcCal TDCCAL.ROT_STS_PHASE rotOut).overlapBegin.afterTime 0 milli .rotationSwitchBack).afterTime 0 2099980000 .rotationSwitchBack

/-- R179, R181, R182: from 139.32 ms after the switch the precision test of an installed table is complete, with the bins of its 4,096 edges: σ_t is measured, the unit is degraded or retired, and the overlap out begins. An empty list is the place of the test after a rejected table. -/
def execPrecisionTest (bins : List (Fin 1024)) (s : State) : Host.Outcome State Fault Refusal :=
  s.run fun d =>
    if d.rotPhase ≠ rotCal ∧ d.rotPhase ≠ rotSelf ∨ !d.tdcs.checked ∨ bins.length ≠ (if d.tdcs.passed then 4096 else 0) ∨ !d.calPast 139320000 then d
    else d.precisionDone bins

/-- The channel stamps again; after a passed RESTORE it is in service and rotation resumes (R179, R181). -/
def Dev.rotBack (d : Dev) (n : Fin 16) : Dev :=
  let u := chanUnit n
  let d := (d.cancel .rotationSwitchBack).overlap n
  let d := if d.tdcs.restoring then
      let d := (d.upUnit u fun e => { e with retired := false, stopped := false, rejects := 0 }).put Pg.tdcCal TDCCAL.ROT_STS_PERM 0x1F
      ((d.lower (unitPage u) 1 causeRetired).lower (unitPage u) 2 causeRetired).upTdcs fun e => { e with restoring := false }
    else d
  d.rotDone u

/-- R179, R181: the switch back, once the overlap allows it: the channel stamps again, TDCS is free; after a passed RESTORE the channel is in service and rotation resumes. -/
def execRotationSwitchBack (s : State) : Host.Outcome State Fault Refusal :=
  s.run fun d =>
    if d.rotPhase ≠ rotOut then d else
    let u := d.rotCur
    if h : u.val < 16 then
      let n : Fin 16 := ⟨u.val, h⟩
      if d.overlapOver n 2099980000 then d.rotBack n else d.when (decide (2 ≤ d.tdcs.common)) fun d => d.after 1 .rotationSwitchBack
    else d

/-- The value of a command to TDC_CAL_CMD. -/
def calWord (u : Fin 32) (op : Nat) : Nat := u.val <<< 8 + op

/-- R185: CAL_NOW puts a unit at the front of the order; units above 16 do not exist. -/
def execTdcCalNow (m : Master) (u : Fin 32) (s : State) : Host.Outcome State Fault Refusal :=
  s.run fun d => d.write m Pg.tdcCal 0x108 (calWord u 1) fun d =>
    d.when (u.val ≤ 16) fun d => d.upTdcs fun e => { e with front := u.val :: e.front.filter (· != u.val) }

/-- R181: RESTORE calibrates a retired channel while TDCS still covers its source. -/
def execTdcRestore (m : Master) (u : Fin 32) (s : State) : Host.Outcome State Fault Refusal :=
  s.run fun d => d.write m Pg.tdcCal 0x108 (calWord u 2) fun d =>
    if u.val < 16 ∧ d.rotPerm = u.val ∧ d.rotPhase = rotIdle then
      (((d.put Pg.tdcCal TDCCAL.ROT_STS_CUR u.val).put Pg.tdcCal TDCCAL.ROT_STS_PHASE rotCal).upTdcs fun e => { e with restoring := true, passed := false }).calTake (Fin.ofNat 16 u.val)
    else d

/-- R180: a write of the indexed table entry, used from the unit's next stamp. -/
def execCalEntWrite (m : Master) (v : Nat) (s : State) : Host.Outcome State Fault Refusal :=
  s.run fun d => d.writeStore m Pg.tdcCal 0x114 v fun d =>
    let u : Fin 17 := ⟨min 16 (d.get Pg.tdcCal TDCCAL.CAL_IDX_UNIT), by omega⟩
    let b := d.get Pg.tdcCal TDCCAL.CAL_IDX_BIN
    (d.upUnit u fun e => { e with ents := (b, v % 2 ^ 32) :: e.ents.filter fun x => x.1 ≠ b }).tdcWindow

/-! MCLK (R31, R172, R185). -/

/-- Cause number of the C3 of an unlocked MCLK. -/
abbrev causeMclk : Nat := 4

/-- Set the lock of MCLK, its copy on the CLKD page, and the record (R185, R395, R396). -/
def Dev.setMclk (d : Dev) (v : Bool) : Dev :=
  let l := d.get Pg.clkd CLKD.STS_LOCK
  let d := (d.putb Pg.tdcCal TDCCAL.MCLK_STS_LOCK v).int Pg.tdcCal 2
  let d := (d.put Pg.clkd CLKD.STS_LOCK (if v then l ||| 16 else l &&& 47)).int Pg.clkd 1
  d.record 0xA2 (srcPage Pg.clkd) [4, b2n v]

/-- R172, R31: MCLK loses lock: stamps become unbounded, and a C3 is raised on both timescales. -/
def execMclkUnlock (s : State) : Host.Outcome State Fault Refusal :=
  s.run fun d =>
    if !d.on Pg.tdcCal TDCCAL.MCLK_STS_LOCK then d else
    ((((d.setMclk false).count Pg.tdcCal TDCCAL.MCLK_STS_UNLOCKS).raise (Pg.ts 0) 3 causeMclk).raise (Pg.ts 1) 3 causeMclk)

/-- R185: MCLK regains lock; the C3 sources are no longer live. -/
def execMclkRelock (s : State) : Host.Outcome State Fault Refusal :=
  s.run fun d =>
    if d.on Pg.tdcCal TDCCAL.MCLK_STS_LOCK then d else
    ((d.setMclk true).lower (Pg.ts 0) 3 causeMclk).lower (Pg.ts 1) 3 causeMclk

end Sys2Proof.Machine
end

