-- ==== Sys2Proof/Machine/Operands.lean ====
section
/-! DEFINITION. Operand forms of the commands: wide writes in halves (R12) and the management target's transfers (R438). -/

namespace Sys2Proof.Machine

/-- Hold one 32-bit part of a wide register, or complete the write when the last part arrives (R12): the part's value replaces its place in the held value. A lower part that no write has left held counts as 0 (DESIGN CHOICE, log entry 69). -/
def Dev.part (d : Dev) (a v : Nat) : Option (Nat × Nat) × Dev :=
  match regAt (a / 4096) (a % 4096) with
  | none => (some (a, v), d)
  | some r =>
    let o := r.start (a % 4096)
    let k := (a % 4096 - o) / 4
    if r.width ≤ 32 then (some (a, v), d) else
    let key := a - 4 * k
    let held := sget (fun _ => 0) d.half key
    let sh := 2 ^ (32 * k)
    let new := held - (held / sh % 2 ^ 32) * sh + (v % 2 ^ 32) * sh
    if 32 * (k + 1) ≥ r.width then (some (key, new), { d with half := sdel d.half key })
    else (none, { d with half := sset (fun _ => 0) d.half key new })

/-- The address and value of an 8-octet management transfer (R438), least significant octet first. -/
def mgmtOperands (l : List Nat) : Option (Nat × Nat) :=
  if l.length = 8 ∧ unoct (l.take 4) % 4 = 0 then some (unoct (l.take 4), unoct (l.drop 4)) else none

end Sys2Proof.Machine
end

