-- ==== Sys2Proof/Machine/PortStamp.lean ====
section
/-! DEFINITION. The commands of the port timestamp units (R218 to R234). -/

namespace Sys2Proof.Machine

/-- The clock link of a port's die (R24). -/
def clockLink (t : Nat) : Fin 5 := if t < 12 ∨ t = 24 then 3 else 4

/-- A port takes a new ε_tx, after the scheduled frame that is pending (R225, R229). -/
def Dev.probeSet (d : Dev) (p : Fin 24) (eps : Int) : Dev :=
  let d := (d.upPts p fun e => { e with probeAt := some (d.stepFree 0), probeT := d.portTemp p }).timerTime 0 (10001 * milli) (.probeStale p)
  if d.schedPending p then d.upPts p fun e => { e with eps := some eps }
  else (d.puti (tpg p) PTS.EPS_TX_EPS eps).upPts p fun e => { e with eps := none }

/-- A dwell on a tap is complete: the probe channel has stood on it for 1 ms in its turn (R225). -/
def Dev.dwelt (d : Dev) (t : Nat) : Bool :=
  !d.probePaused && d.probeTurn == some t && d.muxSrc (Fin.ofNat 16 (d.get Pg.tdcCal TDCCAL.PROBE_CTL_CH)) == tapCode t &&
    decide (d.tdcs.probeFrom + milli * 2 ^ 48 ≤ d.stepFree 0)

/-- A dwell ends: the mean of its markers against their nominal times, less the delay of the clock link, is the ε_tx of the tap (R25, R225). -/
def Dev.probeDone (d : Dev) (t : Fin 25) (eps : Int) : Dev :=
  let v := eps - d.linkCorr (clockLink t.val)
  let d := (d.upTdcs fun e => { e with probeLast := t.val, probeFrom := d.stepFree 0 })
  (if h : t.val < 24 then d.probeSet ⟨t.val, h⟩ v else { d with plk := { d.plk with eps := v } }).probeGo

/-- R25, R225, R229, R234: a dwell on a tap ends, that of port 0 to 23 or, as 24, of the Kwager lane, with the mean of its markers in 2^-16 ns; before 1 ms, or out of turn, there is no dwell that ends. -/
def execProbeDwell (p : Fin 25) (eps : Int) (s : State) : Host.Outcome State Fault Refusal :=
  s.run fun d => if d.dwelt p.val then d.probeDone p eps else d

/-- R229, R234: PROBE_AGE passes 10 s. -/
def execProbeStale (p : Fin 24) (s : State) : Host.Outcome State Fault Refusal :=
  s.run fun d => if d.probeOld p && d.pts[p].probeAt.isSome then (d.ptsBound p).int (tpg p) 3 else d

/-- The length of a slot in ticks, and how long before its end the loopback is removed (R222, R227). -/
def slotTicks (r : Nat) : Nat := if r = 0 then 24 * micro else 6 * micro
def slotTail (r : Nat) : Nat := if r = 0 then 12 * micro else 2 * micro

/-- A calibration slot runs for its length, with the probe channel on the port's tap (R222, R226, R227). -/
def Dev.slotBegin (d : Dev) (p : Fin 24) : Dev :=
  let l := slotTicks (d.portRate p)
  let d := d.upPts p fun e => { e with
    slot := some (d.portState p == portAlign, d.now, d.now + l), win := (d.now, d.now + l), meas := none, due := false, called := false, lastSlot := d.stepFree 0 }
  (((d.put (tpg p) PTS.STS_SLOT 1).count (tpg p) PTS.SLOT_CNT_COUNT).probeTo (tapCode p.val)).timer l (.calSlotEnd p.castSucc none)

/-- A calibration slot of a port that is UP falls due at its slot point: CAL_NOW called it, PERIOD s have passed since the last slot, or the temperature has moved by more than TEMP_STEP since the last accepted one (R226). A slot point that comes with the tick after it is taken as exact. -/
def Dev.slotDue (d : Dev) (p : Fin 24) : Bool :=
  let e := d.pts[p]
  e.called || (d.on (tpg p) PTS.CTL_SLOT_EN &&
    (decide (e.lastSlot + max 1 (d.get (tpg p) PTS.CTL_PERIOD) * accSecond ≤ d.stepFree 0 + 2 ^ 49) ||
     (e.slotAt.isSome && decide (10 * max 1 (d.get (tpg p) PTS.CTL_TEMP_STEP) < (d.portTemp p - e.slotT).natAbs))))

/-- A calibration slot of a port begins, or waits for the one that runs (R226). -/
def Dev.slotAsk (d : Dev) (p : Fin 24) : Dev :=
  if d.pts[p].slot.isSome || !(d.pts[p].due || (d.portUpQ p && d.slotDue p)) then d
  else if d.slotRuns || decide (d.stepFree 0 < d.tdcs.slotFree) then
    (d.upPts p fun e => { e with due := true }).when (!d.slotRuns) Dev.slotNext
  else d.slotBegin p

/-- A calibration slot of the Kwager lane begins, that of an entry into ALIGN, or waits for the one that runs (R226, R410). -/
def Dev.laneSlotAsk (d : Dev) : Dev :=
  if d.plk.slot.isSome || !d.plk.due then d
  else if d.slotRuns || decide (d.stepFree 0 < d.tdcs.slotFree) then d.when (!d.slotRuns) Dev.slotNext
  else
    let l := slotTicks 2
    ({ d with plk := { d.plk with due := false, meas := none, slot := some (d.now, d.now + l) } }.probeTo (tapCode 24)).timer l (.calSlotEnd 24 none)

/-- R226, R227, R410: a calibration slot begins, that of an entry into ALIGN, one that falls due at its slot point, or one that waited for another, of a port or, as 24, of the Kwager lane; only one runs at a time, each 1 µs after the one before. -/
def execCalSlotStart (p : Fin 25) (s : State) : Host.Outcome State Fault Refusal :=
  s.run fun d => if h : p.val < 24 then d.slotAsk ⟨p.val, h⟩ else d.laneSlotAsk

/-- Cause number of the C1 of a rejected slot (R228). -/
abbrev causeSlot : Nat := 1

/-- A measured A_rx in 2^-16 ns lies within 50 ps of a factory value in ps plus the drift of its temperature coefficient, in 0.01 ps/°C, over a rise in 0.1 °C (R228). -/
def arxWithin (factory tco : Nat) (rise arx : Int) : Bool :=
  decide ((arx * 1000 * 1000 - (factory * 1000 + tco * rise) * 65536).natAbs ≤ 50 * 1000 * 65536)

/-- A measured A_rx of a port is accepted (R228). -/
def Dev.arxOk (d : Dev) (p : Fin 24) (arx : Int) : Bool :=
  let r := d.portRate p
  arxWithin (d.get (tpg p) (PTS.CAL_ARX_F_DLY r)) (d.get (tpg p) (PTS.CAL_TCO_TCO r)) (d.portTemp p - sgn 32 (Config.calib 25 p.val)) arx

/-- The A_rx that a slot has measured, in 2^-16 ns: the loop latency less t_tx after the launch edge, which is ε_tx and A_tx, the loop element and the exact counts (R220, R221, R228). The delays are in ps. -/
def arxFrom (r fec : Nat) (atx loop : Nat) (x : LoopMeas) (eps : Int) : Int :=
  let n := nDes r + nFec r fec x.u
  x.loop - eps - (((atx + loop : Nat) : Int) * 65536 * uiDen r + n * uiNum r * 65536 * 1000).fdiv (1000 * uiDen r)
def Dev.arxOf (d : Dev) (p : Fin 24) (x : LoopMeas) (eps : Int) : Int :=
  let r := d.portRate p
  arxFrom r (d.portFec p) (d.get (tpg p) (PTS.CAL_ATX_DLY r)) (d.get (tpg p) (PTS.CAL_LOOP_DLY r)) x eps

/-- The clock link measured in a slot: its residual delay is installed when it is known to within 5 ps (R25, R26). -/
def Dev.slotLink (d : Dev) (t : Nat) (x : LoopMeas) : Dev :=
  d.when (decide (x.link.2 ≤ 5)) fun d => d.linkGood (clockLink t) x.link.1

/-- A rejected slot: a C1 and a record (R228). -/
def Dev.slotReject (d : Dev) (p : Fin 24) (align : Bool) (arx : Int) : Dev :=
  let d := (d.fault (tpg p) 1 causeSlot).record 0x42 (srcPage (tpg p)) ([p.val, b2n align] ++ oct 8 (unsgn 64 arx))
  d.when align fun d => d.setCal p 0

/-- A slot is over: what it measured is installed, or rejected (R228); one that has measured nothing installs nothing. -/
def Dev.slotFinish (d : Dev) (p : Fin 24) (align : Bool) : Dev :=
  let m := d.pts[p].meas
  let d := d.int (tpg p) 0
  let d : Dev := match m with
    | none => d.slotReject p align 0
    | some x =>
      let d := d.slotLink p.val x
      let eps := x.eps - d.linkCorr (clockLink p.val)
      let arx := d.arxOf p x eps
      if d.arxOk p arx then
        (((d.puti (tpg p) PTS.ARX_ARX arx).puti (tpg p) PTS.EPS_TX_EPS eps).upPts p fun e => { e with slotAt := some (d.stepFree 0), slotT := d.portTemp p, eps := none }).setCal p 1
      else d.slotReject p align arx
  (d.slotOver p).probeGo

/-- The lane's slot is over: a measured A_rx within its window is installed with ε_tx (R228, R410). -/
def Dev.laneSlotFinish (d : Dev) : Dev :=
  let d : Dev := match d.plk.meas with
    | none => d
    | some x =>
      let d := d.slotLink 24 x
      let eps := x.eps - d.linkCorr (clockLink 24)
      let arx := arxFrom 2 0 (laneItem 0) (laneItem 1) x eps
      let ok := arxWithin (laneItem 2) (laneItem 3) (d.pwr.dieT[2] - sgn 32 (Config.calib 25 24)) arx
      d.when ok fun d => { d with plk := { d.plk with arx := arx, eps := eps, cal := true } }
  ({ d with plk := { d.plk with slot := none, meas := none } }.slotFreed).probeGo

/-- What a slot that runs until `stop` gets told: what it has measured, once the loopback is removed, or its end at L (R227). -/
def Dev.slotTold (d : Dev) (r stop : Nat) (x : Option LoopMeas) (keep : LoopMeas → Dev) (fin : Dev) : Dev :=
  match x with
  | some m => if stop ≤ d.now + slotTail r then keep m else d
  | none => if stop ≤ d.now then fin else d

/-- R226 to R229, R234, R410: with a measurement, what the slot has measured once the loopback is removed; without one, the end of the slot at L, where the A_rx and ε_tx measured are installed or rejected. Of the Kwager lane as 24. -/
def execCalSlotEnd (p : Fin 25) (x : Option LoopMeas) (s : State) : Host.Outcome State Fault Refusal :=
  s.run fun d =>
    if h : p.val < 24 then
      let q : Fin 24 := ⟨p.val, h⟩
      match d.pts[q].slot with
      | none => d
      | some (align, _, stop) => d.slotTold (d.portRate q) stop x (fun m => d.upPts q fun e => { e with meas := some m }) (d.slotFinish q align)
    else match d.plk.slot with
      | none => d
      | some (_, stop) => d.slotTold 2 stop x (fun m => { d with plk := { d.plk with meas := some m } }) d.laneSlotFinish

/-- R34, R226: CAL_NOW calls a slot for the next slot point; while one is pending or running it has no effect. -/
def execPtsCalNow (m : Master) (p : Fin 24) (s : State) : Host.Outcome State Fault Refusal :=
  s.run fun d => d.write m (tpg p) 0x108 1 fun d =>
    if d.pts[p].slot.isSome || d.pts[p].due then d else d.upPts p fun e => { e with called := true }

/-- R233: Q_FLUSH empties the stamp queue. -/
def execQFlush (m : Master) (p : Fin 24) (s : State) : Host.Outcome State Fault Refusal :=
  s.run fun d => d.write m (tpg p) 0x108 2 fun d => (d.upPts p fun e => { e with queue := [] }).ptsShow p

/-- R174, R233: a write of 1 to Q_POP removes the head; an empty queue leaves it without effect. -/
def execPtsPop (m : Master) (p : Fin 24) (v : Nat) (s : State) : Host.Outcome State Fault Refusal :=
  s.run fun d => d.write m (tpg p) 0x324 v fun d =>
    if bit v 0 then (d.upPts p fun e => { e with queue := e.queue.drop 1 }).ptsShow p else d

/-- R224: a write of EXT_TX, EXT_RX or ASYM; stamps taken before keep their values. -/
def execPtsDelayWrite (m : Master) (p : Fin 24) (off v : Nat) (s : State) : Host.Outcome State Fault Refusal :=
  s.run fun d => d.writeStore m (tpg p) off v

end Sys2Proof.Machine
end

