-- ==== Sys2Proof/Machine/Ports.lean ====
section
/-! DEFINITION. The commands of the Ethernet ports (R196 to R217). -/

namespace Sys2Proof.Machine

/-! The link (R199). -/

/-- PORT_CTL has taken a value: the port is stopped, started, or restarted where its rate, FEC, AN or training has changed (R197 to R199). -/
def Dev.portCtlSet (d : Dev) (p : Fin 24) (old : Word) : Dev :=
  if !d.on (ppg p) PORT.CTL_EN then d.portStop p
  else if d.portState p = portOff then d.portStart p
  else if d.portState p ≠ portWait ∧ (PORT.CTL_RATE.get old, PORT.CTL_FEC.get old, PORT.CTL_AN_EN.get old, PORT.CTL_TRAIN_EN.get old) ≠
      (d.get (ppg p) PORT.CTL_RATE, d.get (ppg p) PORT.CTL_FEC, d.get (ppg p) PORT.CTL_AN_EN, d.get (ppg p) PORT.CTL_TRAIN_EN) then d.portAgain p pcConfig
  else d

/-- R197 to R199: a write of PORT_CTL with EN = 1 starts a disabled port when its configuration is valid. -/
def execPortEnable (m : Master) (p : Fin 24) (v : Nat) (s : State) : Host.Outcome State Fault Refusal :=
  s.run fun d =>
    let old := d.reg (ppg p) 0x100
    d.writeStore m (ppg p) 0x100 v fun d => d.portCtlSet p old

/-- R199: EN written 0 takes the port to DISABLED from any state. -/
def execPortDisable (m : Master) (p : Fin 24) (v : Nat) (s : State) : Host.Outcome State Fault Refusal :=
  s.run fun d => d.writeStore m (ppg p) 0x100 v fun d => if d.on (ppg p) PORT.CTL_EN then d.portStart p else d.portStop p

/-- A configuration register of a port has taken a value (R199). -/
def Dev.portCfgSet (d : Dev) (p : Fin 24) (off : Nat) (old : Word) : Dev :=
  let now := d.reg (ppg p) 0x100
  let f (w : Word) := (PORT.CTL_RATE.get w, PORT.CTL_FEC.get w, PORT.CTL_AN_EN.get w, PORT.CTL_TRAIN_EN.get w)
  if !d.on (ppg p) PORT.CTL_EN then d.when (PORT.CTL_EN.get old == 1) fun d => d.portStop p
  else if d.portState p = portOff then d.portStart p
  else if d.portState p = portWait then d
  else if off = 0x104 ∨ f old ≠ f now then d.portAgain p pcConfig
  else d

/-- R199: a write of RATE, FEC, AN_EN, TRAIN_EN or PORT_AN_ADV restarts a running link, or disables it when the configuration has become invalid; a disabled port is judged again. -/
def execPortConfigWrite (m : Master) (p : Fin 24) (off v : Nat) (s : State) : Host.Outcome State Fault Refusal :=
  s.run fun d =>
    let old := d.reg (ppg p) 0x100
    d.writeStore m (ppg p) off v fun d => d.portCfgSet p off old

/-- R199: the lane PLL locks; with the cluster granted the port goes to its restart entry. -/
def execLanePllLocked (p : Fin 24) (s : State) : Host.Outcome State Fault Refusal :=
  s.run fun d => if d.portState p = portWait then (d.upPort p fun e => { e with pll := true }).portTry p else d

/-- Clause 73 resolves the highest common ability and the FEC, or begins again when there is none (R197, R199). -/
def Dev.anResolve (d : Dev) (p : Fin 24) (abil : Nat) (reqRs reqBaseR : Bool) : Dev :=
  let d := d.put (ppg p) PORT.STS_LP_AN 1
  match [4, 3, 2, 1, 0].find? fun r => bit (d.get (ppg p) PORT.AN_ADV_ABIL) r && bit abil r with
  | none => ((d.portCause p pcNoHcd).put (ppg p) PORT.STS_LP_AN 0).portEnter p portAn
  | some r =>
    let rs := d.on (ppg p) PORT.AN_ADV_REQ_RS || reqRs
    let br := d.on (ppg p) PORT.AN_ADV_REQ_BASER || reqBaseR
    let fec := if 3 ≤ r then 3 else if r = 2 ∧ rs then 2 else if 1 ≤ r ∧ br then 1 else 0
    (d.setRate p r fec).portEnter p (if r = 0 then portAlign else portTrain)

/-- R197, R199: Clause 73 resolves the highest common ability and the FEC, or starts again when there is none. -/
def execAnComplete (p : Fin 24) (abil : Nat) (reqRs reqBaseR : Bool) (s : State) : Host.Outcome State Fault Refusal :=
  s.run fun d => if d.portState p ≠ portAn then d else d.anResolve p abil reqRs reqBaseR

/-- R199: both ends report training complete. -/
def execTrainComplete (p : Fin 24) (s : State) : Host.Outcome State Fault Refusal :=
  s.run fun d => if d.portState p = portTrain then d.portEnter p portAlign else d

/-- R199: PORT_TRAIN.TMO elapses. -/
def execTrainTimeout (p : Fin 24) (s : State) : Host.Outcome State Fault Refusal :=
  s.run fun d => if d.portState p = portTrain then (d.portCause p pcTrain).portRestart p else d

/-- R199, R227: block lock, FEC alignment and no high BER have held for 10 ms; during a calibration slot they are not evaluated. -/
def execAlignUp (p : Fin 24) (s : State) : Host.Outcome State Fault Refusal :=
  s.run fun d =>
    if d.portState p = portAlign ∧ d.pts[p].slot.isNone ∧ !d.pts[p].due then (d.portEnter p portUp).portRecord p portAlign else d

/-- R199: 1 s in ALIGN without reaching UP. -/
def execAlignTimeout (p : Fin 24) (s : State) : Host.Outcome State Fault Refusal :=
  s.run fun d => if d.portState p = portAlign then (d.portCause p pcBlock).portRestart p else d

/-- Cause number of the C0 notice of a lost link (R199). -/
abbrev causeLink : Nat := 2

/-- A link is lost in a state: its queues are dropped, the port restarts, and a C0 notice is given (R199). -/
def Dev.linkDown (d : Dev) (p : Fin 24) (old : Nat) (cause : Fin 3) : Dev :=
  let d := (((d.portCause p (pcBlock + cause.val)).dropQueues p).flap p old).portRestart p
  (d.portRecord p old).fault (ppg p) 0 causeLink

/-- R199, R227: loss of block lock (0), of FEC alignment (1) or high BER (2); a running calibration slot hides it. -/
def execLinkLoss (p : Fin 24) (cause : Fin 3) (s : State) : Host.Outcome State Fault Refusal :=
  s.run fun d =>
    let old := d.portState p
    if (old ≠ portUp ∧ old ≠ portRfault) ∨ d.pts[p].slot.isSome then d else
    d.linkDown p old cause

/-- R199: a remote fault is received. -/
def execRemoteFault (p : Fin 24) (s : State) : Host.Outcome State Fault Refusal :=
  s.run fun d => if d.portUpQ p && d.pts[p].slot.isNone then d.portEnter p portRfault else d.cancel (.remoteFaultClear p)

/-- R199: no remote fault for 10 ms. -/
def execRemoteFaultClear (p : Fin 24) (s : State) : Host.Outcome State Fault Refusal :=
  s.run fun d => if d.portState p = portRfault then (d.portEnter p portUp).portRecord p portRfault else d

/-- PORT_CMD (R34, R216): a command that the state does not accept is shown in the readback group alone. -/
def Dev.portCmd (d : Dev) (m : Master) (p : Fin 24) (op : Nat) (f : Dev → Dev) : Dev := d.write m (ppg p) 0x10C op f

/-- The states a restart command is accepted in (R199). -/
def Dev.portRuns (d : Dev) (p : Fin 24) : Bool := decide (portAn ≤ d.portState p ∧ d.portState p ≤ portRfault)

/-- R199: RESTART_AN with AN_EN = 1. -/
def execRestartAn (m : Master) (p : Fin 24) (s : State) : Host.Outcome State Fault Refusal :=
  s.run fun d => d.portCmd m p 1 fun d => if d.portRuns p && d.on (ppg p) PORT.CTL_AN_EN then d.portAgain p pcOperator else d

/-- R199: RESTART_LINK. -/
def execRestartLink (m : Master) (p : Fin 24) (s : State) : Host.Outcome State Fault Refusal :=
  s.run fun d => d.portCmd m p 2 fun d => if d.portRuns p then d.portAgain p pcOperator else d

/-- The counters of a port, WRAPPED, HALF, HOLD_MAX and FLAPS are zeroed (R214, R216). -/
def Dev.statZero (d : Dev) (p : Fin 24) : Dev :=
  let d := d.each (List.range 64) fun i d => d.put (ppg p) (PORT.STAT i) 0
  ((((d.put (ppg p) PORT.STAT_HALF0_HALF 0).put (ppg p) PORT.STAT_HALF1_HALF 0).put (ppg p) PORT.HOLD_MAX_NS 0).put (ppg p) PORT.STS_FLAPS 0)

/-- R214, R216: STAT_CLR zeroes the counters, WRAPPED, HALF, HOLD_MAX and FLAPS. -/
def execStatClr (m : Master) (p : Fin 24) (s : State) : Host.Outcome State Fault Refusal :=
  s.run fun d => d.portCmd m p 3 fun d => d.statZero p

/-- R206: PRE_VERIFY starts the handshake again from INITIAL. -/
def execPreVerify (m : Master) (p : Fin 24) (s : State) : Host.Outcome State Fault Refusal :=
  s.run fun d => d.portCmd m p 4 fun d => d.startVerify p

/-- Each enabled port of a cluster goes through DISABLED to WAIT_PWR (R199, R217). -/
def Dev.clusterAgain (d : Dev) (c : Fin 6) : Dev :=
  d.each (List.finRange 24) fun p d => if cluster p = c.val ∧ d.on (ppg p) PORT.CTL_EN then (d.portStop p).portStart p else d

/-- R199, R217: CLUSTER_RESET takes each enabled port through DISABLED to WAIT_PWR; a reset of its region that runs absorbs it (R20). -/
def execClusterReset (m : Master) (c : Fin 6) (s : State) : Host.Outcome State Fault Refusal :=
  s.run fun d => d.write m (Pg.pc c) 0x100 1 fun d => match d.within (Pg.pc c) with
    | some r => d.absorb r
    | none => d.clusterAgain c

/-! Receive (R200 to R215, R236, R237). -/

/-- Index of a size bin (R215). -/
def sizeBin (n : Nat) : Nat := if n ≤ 64 then 0 else if n ≤ 127 then 1 else if n ≤ 255 then 2 else if n ≤ 511 then 3 else if n ≤ 1023 then 4 else if n ≤ 1518 then 5 else 6

/-- MAX_LEN in force (R203). -/
def Dev.maxLen (d : Dev) (p : Fin 24) : Nat := clampN 1518 9216 (d.get (ppg p) PORT.FRAME_MAX_LEN)

/-- R205: a received PAUSE is consumed; with RX_PAUSE = 1 it stops the transmitter after the frame in progress. -/
def Dev.pauseRx (d : Dev) (p : Fin 24) (quanta : Nat) : Dev :=
  let d := d.stat p 5
  if !d.on (ppg p) PORT.CTL_RX_PAUSE then d
  else if quanta = 0 then ((d.cancel (.pauseExpiry p)).upPort p fun e => { e with paused := none }).timer 0 (.frameTx p)
  else
    let t := cdiv (quanta % 65536 * 512) (macRate (d.portRate p))
    (d.upPort p fun e => { e with paused := some (d.now + t) }).timer t (.pauseExpiry p)

/-- The capacity left for one frame on the host path: the port's bucket, then the staging buffer of 1 MiB both rates in step-free time (R60, R212, R452); the wait before it is written, or none when it is dropped. -/
def Dev.hostAdmit (d : Dev) (p : Fin 24) (len : Nat) : Option Nat × Dev :=
  let rate := d.get (ppg p) PORT.HOST_RATE_RATE
  let depth := max 1 (d.get (ppg p) PORT.HOST_RATE_BURST) * 1024 * 8000
  let now := d.freeNs
  let have_ := match d.port[p].tokens with
    | none => depth
    | some (v, t) => min depth (v + rate * (now - t))
  let set (v : Nat) (d : Dev) : Dev := d.upPort p fun e => { e with tokens := some (v, now) }
  if rate = 0 ∨ have_ < len * 8000 then (none, (set have_ d).stat p 57)
  else
    let d := set (have_ - len * 8000) d
    let cap := max 1 (d.get Pg.hif HIF.HRX_CAP_MBPS)
    let up := d.on Pg.hif HIF.STS_LINK_UP
    let st := if up then d.hif.staging - cap * (now - d.hif.stagedAt) else d.hif.staging
    if 2 ^ 20 * 1000 < st + len * 1000 then (none, ((d.count Pg.hif HIF.HRX_DROP_COUNT).stat p 57))
    else (some (cdiv st cap), { d with hif := { d.hif with staging := st + len * 1000, stagedAt := now } })

/-- A frame of the host class goes to the host path (R212). -/
def Dev.hostPath (d : Dev) (p : Fin 24) (f : RxFrame) : Dev :=
  match d.hostAdmit p f.data.length with
  | (some t, d) => d.afterTime 0 t (.hostRxWrite p f.sTci f.cTci f.data d.now)
  | (none, d) => d

/-- A frame of an upstream session is handed to it with its stamp on TSA (R82, R95). -/
def Dev.usHand (d : Dev) (n : Fin 4) (t : Int) : PtpBody → Dev
  | .usSync x => d.after 0 (.usSyncRx n { x with t2 := t })
  | .usFollowUp x => d.after 0 (.usFollowUpRx n x)
  | .usAnnounce x => d.after 0 (.usAnnounceRx n x)
  | .usDelayResp x => d.after 0 (.usDelayRespRx n x)
  | .usGrant typ dur => d.after 0 (.usGrantRx n typ dur)
  | _ => d

/-- Stage 6 of R200: the frame goes where its class says, with the stamps of its timestamp point (R218, R236). -/
def Dev.classified (d : Dev) (p : Fin 24) (f : RxFrame) (k : RxMark) : Dev :=
  let c := d.classOf p f
  let d := d.stat p (40 + c)
  let seq := match f.body with
    | .ptp x => (match x.body with | .delayReq q _ => q | .usSync x => x.seq | .usFollowUp x => x.seq | .usDelayResp x => x.seq | _ => 0)
    | _ => 0
  let d := d.ptsQueue p false c k.own.1 k.own.2 seq
  let go (d : Dev) (g : Dev → Dev) : Dev := match d.police p with
    | (true, d) => g d
    | (false, d) => d.rspDrop cntPolice c p
  let ntp (x : NtpMsg) (d : Dev) : NtpIn := ⟨x, ⟨(d.ntpClass p x).2 % 4, by omega⟩, k.own.1, k.own.2, (k.ts, (k.steps : Int)), f.sTci, f.cTci⟩
  match c, f.body with
  | 0, .ptp x => go d fun d => match x.body, d.domFind p x.domain x.trans with
    | .delayReq q corr, some n => d.after 0 (.delayReqRx p ⟨x, q, corr, n, k.own.1, k.own.2, (k.a.1, k.b.1), (k.a.2, k.b.2), f.sTci, f.cTci⟩)
    | _, _ => d
  | 1, .ptp x => go d fun d => match x.body, d.domFind p x.domain x.trans with
    | .signaling l, some n => d.after 0 (.signalingRx p ⟨x, l, n, f.sTci, f.cTci⟩)
    | _, _ => d.rspDrop cntDropPtp c p
  | 2, .ptp x => (match d.usMatch p x with
    | some n => d.usHand n k.a.1 x.body
    | none => d)
  | 4, _ => d.rspDrop cntDropPtp c p
  | 5, .ntp x => go d fun d => d.after 0 (.ntpRequestRx p (ntp x d))
  | 6, .ntp x => go d fun d => d.after 0 (.ntsRequestRx p (ntp x d))
  | 7, _ => go d fun d => d.rspDrop cntDropNtp c p
  | 8, .esmc ql ext =>
    let l := d.synceOf p
    (d.each l fun n d => d.after 0 (.synceEsmcRx n ql)).when (l.isEmpty || ext) fun d => d.hostPath p f
  | _, _ => d.hostPath p f

/-- Stages 2 to 5 of R200 for a frame of n octets that stage 1 has passed: length and FCS, MAC control, tag discipline, and what is counted (R203, R205, R210, R215). -/
def Dev.rxWhole (d : Dev) (p : Fin 24) (f : RxFrame) (n : Nat) (k : RxMark) : Dev :=
  if n < 64 then d.stat p (if f.fcs then 14 else 15)
  else if d.maxLen p < n then d.stat p (if f.fcs then 16 else 17)
  else if !f.fcs then d.stat p 13
  else match f.body with
  | .pause q => (d.stat p (6 + sizeBin n)).pauseRx p q
  | .macControl => d.stat p 23
  | _ =>
  let tagged := f.sTci.isSome || f.cTci.isSome
  if (tagged && d.on (ppg p) PORT.VLAN_CTL_DROP_TAGGED) || (!tagged && d.on (ppg p) PORT.VLAN_CTL_DROP_UNTAGGED) then d.stat p 24
  else ((d.stat p (2 + f.cast.val)).stat p (6 + sizeBin n)).classified p f k

/-- Octets and frames are counted as they end on the lane, dropped later or not (R215). -/
def Dev.rxCount (d : Dev) (p : Fin 24) (n : Nat) : Dev := (d.statN p 0 n).stat p 1

/-- The errors of the PCS and the FEC in a frame, of which the first in this order is counted: an uncorrectable codeword by codewords, symbol errors, a partial octet (R200, R215). -/
def Dev.rxDecode (d : Dev) (p : Fin 24) (f : RxFrame) : Dev × Bool :=
  let d := (d.statN p 20 f.corrected).statN p 21 f.uncorr
  if 0 < f.uncorr then (d, false)
  else if f.symErr then (d.stat p 19, false)
  else if f.alignErr && d.portRate p == 0 then (d.stat p 18, false)
  else (d, true)

/-- A reassembly error: the frame under reassembly is dropped and counted (R208). -/
def Dev.preDrop (d : Dev) (p : Fin 24) : Dev := (d.upPort p fun e => { e with reasm := none }).stat p 22

/-- A fragment joins the frame under reassembly; the last one brings the frame to the next stages. A non-final fragment carries at least 64 B, and one that the PCS or the FEC has spoilt spoils the frame, which was counted there (R200, R208, R218). -/
def Dev.reasmPut (d : Dev) (p : Fin 24) (f : RxFrame) (r : Reasm) (last ok : Bool) : Dev :=
  let n := r.len + f.len
  if !last && decide (f.len < 64) then d.preDrop p
  else if !last then d.upPort p fun e => { e with reasm := some { r with len := n - 4, bad := r.bad || !ok } }
  else
    let d := (d.upPort p fun e => { e with reasm := none }).rxCount p n
    if r.bad || !ok then d else match r.mark with
      | some k => d.rxWhole p f n k
      | none => d

/-- Reassembly of mPackets (R206, R208): the start of a frame, the continuation the reassembly expects, or an error. With EN = 0 every mPacket without the ordinary start delimiter is dropped and counted. -/
def Dev.rxMpacket (d : Dev) (p : Fin 24) (f : RxFrame) (ok : Bool) : Dev :=
  if !d.on (ppg p) PORT.PRE_CTL_EN then d.stat p 22
  else match f.pre, d.port[p].reasm with
  | .verify, _ => d.when ok fun d => d.emit (.message "respond mPacket" [p])
  | .respond, _ => if ok && d.get (ppg p) PORT.PRE_STS_VERIFY == 2 then (d.cancel (.verifySend p)).setVerify p 3 else d
  | .start num last, old =>
    let d := d.when old.isSome fun d => d.preDrop p
    d.reasmPut p f { num := num, frag := 0, len := 0, bad := false, mark := some (d.rxMark p f) } last ok
  | .cont num frag last, some r =>
    if num = r.num ∧ frag = r.frag then d.reasmPut p f { r with frag := r.frag + 1 } last ok else d.preDrop p
  | .cont .., none => d.stat p 22
  | .unknown, _ => d.preDrop p
  | .plain, _ => d

/-- A calibration slot takes a frame: its timestamp point falls in the slot, where it is counted, or the frame is in progress at the slot's origin (R227). -/
def Dev.slotTakes (d : Dev) (p : Fin 24) (f : RxFrame) : Bool × Bool :=
  let pt := d.rxPoint p f
  let w := d.pts[p].win
  let a : Int := w.1 * 65536
  let stop := pt + (macTicks (d.portRate p) f.len * 65536 : Nat)
  (decide (a ≤ pt ∧ pt < (w.2 * 65536 : Nat)), decide (pt < a ∧ a < stop))

/-- The stages of a frame received by a port that is UP, each drop counted once where it happens (R200, R203, R205, R206, R208, R210, R227). -/
def Dev.rxFrame (d : Dev) (p : Fin 24) (f : RxFrame) : Dev :=
  match d.slotTakes p f with
  | (true, _) => d.count (tpg p) PTS.CAL_LOST_COUNT
  | (_, true) => d.upPort p fun e => { e with reasm := none }
  | _ =>
  let (d, ok) := d.rxDecode p f
  match f.pre with
  | .plain =>
    let d := d.rxCount p f.len
    if ok then d.rxWhole p f f.len (d.rxMark p f) else d
  | _ => d.rxMpacket p f ok

/-- R200, R203, R205, R206, R208, R210, R227: the stages of a received frame or fragment, each drop counted where it happens. -/
def execFrameRx (p : Fin 24) (f : RxFrame) (s : State) : Host.Outcome State Fault Refusal :=
  s.run fun d => if !d.portUpQ p then d else d.rxFrame p f

/-! Transmit (R201 to R207, R211, R230 to R232). -/

/-- R205: the pause time runs out. -/
def execPauseExpiry (p : Fin 24) (s : State) : Host.Outcome State Fault Refusal :=
  s.run fun d =>
    if d.port[p].paused.any fun t => t ≤ d.now then (d.upPort p fun e => { e with paused := none }).timer 0 (.frameTx p) else d

/-- The transmitter looks at its queues at a MEC. -/
def Dev.txAt (d : Dev) (p : Fin 24) (t : Nat) : Dev :=
  if d.agenda.any fun e => e.1 = t ∧ e.2 = .frameTx p then d else d.after (t - d.now) (.frameTx p)

/-- The code of a frame's kind in the output. -/
def TxKind.code : TxKind → Nat
  | .syncOne => 0 | .syncTwo => 1 | .followUp => 2 | .announce => 3 | .delayResp => 4
  | .signaling => 5 | .ntp => 6 | .nts => 7 | .esmc => 8 | .host => 9 | .delayReq => 10 | .usSignaling => 11

/-- An optional tag in the output: 0 for none, TCI + 1 else. -/
def optTci : Option Nat → Nat
  | none => 0
  | some v => v + 1

/-- The 16-bit words of a value, and their sum with end-around carry (R230). -/
def words16 (n v : Nat) : List Nat := (List.range n).map fun i => v / 2 ^ (16 * i) % 65536
def onesSum (l : List Nat) : Nat := let s := l.foldl (· + ·) 0; if s = 0 then 0 else (s - 1) % 65535 + 1

/-- What a one-step frame over UDP carries for its checksum: over IPv4 the checksum 0; over IPv6 the two octets after the message, which keep the checksum of the frame as composed, with its stamp fields 0, valid (R230). -/
def udpFix (trans : Nat) (t : Int) : List Nat :=
  if trans = 1 then [0]
  else if trans = 2 then
    let ns := wholeNs t
    [65535 - onesSum (words16 3 (ns / second) ++ words16 2 (ns % second) ++ words16 4 (fracNs t))]
  else []

/-- The source address of a frame: that of the port for frames the engine originates (R216). -/
def Dev.srcAddr (d : Dev) (p : Fin 24) (f : TxFrame) : Nat :=
  if f.kind = .host then unoct (((f.fields.drop 6).take 6).reverse) else d.get (ppg p) PORT.MAC_ADDR_ADDR

/-- A frame leaves at edge k with its fields, and with its authentication TLV when it has one (R306). -/
def Dev.sendOut (d : Dev) (p : Fin 24) (f : TxFrame) (k : Nat) (fields : List Nat) : Dev :=
  let sig := match f.auth with
    | some (_, mat) => f.tlv ++ icv mat (fields ++ f.tlv)
    | none => []
  d.emit (.message "frame" ([p.val, f.kind.code, f.wire, f.dst, d.srcAddr p f, optTci f.sTci, optTci f.cTci, f.dom, f.seq, k] ++ fields ++ sig))

/-- A committed frame is on its way to its launch. -/
def Dev.flyPut (d : Dev) (p : Fin 24) (x : Flight) : Dev :=
  (d.upPort p fun e => { e with fly := e.fly ++ [x] }).txAt p (max d.now (edgeCeil (d.portRate p) x.edge))

/-- The commit of a frame (R230): its launch edge is fixed, with the values its stamp will take (R224), and a one-step frame carries the stamp of that edge. -/
def Dev.commit (d : Dev) (p : Fin 24) (f : TxFrame) : Dev :=
  let r := d.portRate p
  let k := f.sched.getD (edgeAfter r (d.now * 10 + toLaunch r))
  let t := d.txStamp p k f.fixed
  let x : Flight := { f := f, edge := k, eps := d.geti (tpg p) PTS.EPS_TX_EPS, ps := d.txPs p, t := none }
  match f.kind with
  | .syncOne =>
    let e := d.ebt (d.tsOn p f.fixed) (d.boundOn p f.fixed) 0
    (d.sendOut p f k (if f.sched.isSome then f.fields ++ udpFix f.trans t else f.fields ++ [wholeNs t, fracNs t] ++ e ++ udpFix f.trans t)).flyPut p { x with t := some t }
  | .ntp | .nts => (d.sendOut p f k f.fields).flyPut p { x with t := some t }
  | _ => (d.sendOut p f k f.fields).flyPut p x

/-- A frame has been launched: its stamp goes to the stamp queue, a two-step Sync gets its Follow_Up while the service is READY, and a Delay_Req its t3 (R96, R220, R230, R231, R233, R239). -/
def Dev.launch (d : Dev) (p : Fin 24) (x : Flight) : Dev :=
  let f := x.f
  let t := x.t.getD (d.txStampBy p x.edge f.fixed x.eps x.ps)
  let code := d.boundOn p f.fixed
  let d := d.ptsQueue p true f.cls t code f.seq
  match f.kind with
  | .syncTwo => d.when (d.readyOn p f.fixed) fun d =>
    let e := d.ebt (d.tsOn p f.fixed) code 0
    let len := ptpLen f.trans 44 + e.length + (if f.auth.isSome then 26 else 0)
    let g : TxFrame := { f with kind := .followUp, len := len, released := d.now, sched := none, fields := [f.dom, f.seq, wholeNs t, fracNs t] ++ e }
    d.send p (f.auth.map (·.1)) { g with auth := none }
  | .delayReq => match f.us with
    | some n => d.upUs n fun e => { e with req := some (f.seq, t) }
    | none => d
  | _ => d

/-- The launches of a port that have come (R220). -/
def Dev.launched (d : Dev) (p : Fin 24) : Dev :=
  let gone (x : Flight) : Bool := decide (edgeCeil (d.portRate p) x.edge ≤ d.now)
  let l := d.port[p].fly.filter gone
  (d.upPort p fun e => { e with fly := e.fly.filter fun x => !gone x }).each l fun x d => d.launch p x

/-- An NTP response as it is committed: LI to reference timestamp from the state then, the transmit stamp of its launch edge (R259). Its request waits in `fields`: class, version, poll, transmit timestamp, readiness, receive stamp. -/
def Dev.ntpCommit (d : Dev) (p : Fin 24) (f : TxFrame) : TxFrame :=
  let r := d.portRate p
  let k := edgeAfter r (d.now * 10 + toLaunch r)
  let n := d.tsOn p f.fixed
  let a (i : Nat) := f.fields.getD i 0
  let x : NtpMsg := { v6 := false, src := 0, dst := 0, version := a 1, mode := 3, len := 48, mac := false, poll := a 2, xmit := a 3, nts := none }
  { f with fields := d.ntpFields n (a 0) x (a 4 == 1) (a 5 : Nat) (d.txStamp p k f.fixed) (d.boundOn p f.fixed) }

/-- A step of the response's timescale comes between its receive stamp and its transmit stamp at the coming launch (R61). -/
def Dev.straddles (d : Dev) (p : Fin 24) (f : TxFrame) : Bool :=
  let r := d.portRate p
  let m := edgeTick r (f.sched.getD (edgeAfter r (d.now * 10 + toLaunch r)))
  f.step.any fun x => decide ((d.stepsAt x.1 m : Int) ≠ x.2)

/-- The tick at which a change of the frame's view applies that comes before the launch: at 1 Gb/s a one-step frame waits for it (R230). -/
def Dev.changeSoon (d : Dev) (p : Fin 24) (o : Option Ts) : Option Nat :=
  d.changeIn (d.tsOn p o) (if o.isSome then none else some (portConsumer p)) 56

/-- The frame in progress has been sent; a host frame's descriptor is done with (R213). -/
def Dev.txEnd (d : Dev) (p : Fin 24) : Dev :=
  let e := d.port[p]
  if d.now < e.busy then d
  else (d.when (e.cur.any fun x => x.1.kind == .host) fun d => d.htxDone p).upPort p fun e => { e with cur := none }

/-- A frame starts on the MAC (R201, R202, R204, R215). -/
def Dev.txStart (d : Dev) (p : Fin 24) (f : TxFrame) : Dev :=
  let n := f.wire
  if d.maxLen p < n then ((d.stat p 37).when (f.kind == .host) fun d => (d.stat p 59).htxDone p).txAt p d.now
  else if d.straddles p f then (d.rspCount cntStraddle).txAt p d.now
  else
    let r := d.portRate p
    let hold := d.now - f.released
    let d := d.when (f.level == 1) fun d =>
      (d.put (ppg p) PORT.HOLD_MAX_NS (min 0xFFFFFFFF (max hold (d.get (ppg p) PORT.HOLD_MAX_NS)))).when (decide (100 < hold)) fun d => d.stat p 62
    let bc := f.kind == .host && f.dst == 2 ^ 48 - 1
    let d := (((d.statN p 25 n).stat p 26).stat p (if bc then 29 else if f.mcast then 28 else 27)).stat p (30 + sizeBin n)
    let d := d.when (f.kind == .host) fun d => d.stat p 58
    let stop := d.now + macTicks r (n + 20)
    let d := (d.upPort p fun e => { e with cur := some (f, d.now, 0), busy := stop }).txAt p stop
    d.commit p (if f.kind = .ntp then d.ntpCommit p f else f)

/-- The MEC from which the frame in progress may be cut: its fragment with its mCRC is long enough, and the rest is at least 64 B (R207). -/
def Dev.cutAt (d : Dev) (p : Fin 24) (f : TxFrame) (start sent : Nat) : Option Nat :=
  let r := d.portRate p
  let min_ := (1 + d.get (ppg p) PORT.PRE_CTL_ADD_FRAG) * 64 - 4
  let t := max d.now (start + macTicks r (min_ + 8))
  if f.wire < sent + ((t - start) * macRate r / 8 - 8) + 64 then none else some t

/-- The transmit MAC of a port that is UP cuts a preemptable frame, or starts the next frame of the lowest level number (R201, R202, R205 to R207, R230, R232). -/
def Dev.txTurn (d : Dev) (p : Fin 24) : Dev :=
  let r := d.portRate p
  let e := d.port[p]
  let stopped := e.paused.any fun t => d.now < t
  if d.now < e.busy then
    let d := d.txAt p e.busy
    match e.cur with
    | some (f, start, sent) =>
      if d.preempts p && decide (2 ≤ f.level) && !e.l1.isEmpty && !stopped then
        match d.cutAt p f start sent with
        | some t =>
          if d.now < t then d.txAt p t
          else
            let gone := sent + ((d.now - start) * macRate r / 8 - 8)
            let d := d.when (sent == 0) fun d => d.stat p 39
            let free := d.now + macTicks r 16
            (d.upPort p fun e => { e with cur := none, cut := some (f, gone), busy := free }).txAt p free
        | none => d
      else d
    | none => d
  else
    let d := d.txEnd p
    let d : Dev := match d.pts[p].eps with
      | some x => if d.schedPending p then d else (d.puti (tpg p) PTS.EPS_TX_EPS x).upPts p fun e => { e with eps := none }
      | none => d
    let resume (d : Dev) : Dev := match e.cut with
      | some (f, gone) =>
        let stop := d.now + macTicks r (f.wire - gone + 20)
        (d.upPort p fun e => { e with cur := some (f, d.now, gone), cut := none, busy := stop }).txAt p stop
      | none => d
    if stopped then (if e.cut.isSome then resume d else d)
    else if e.wake.any fun t => d.now < t then d.txAt p (e.wake.getD 0)
    else if d.on (ppg p) PORT.LPI_STS_TX_LPI then d
    else match e.l1 with
    | f :: rest =>
      let pop (d : Dev) : Dev := d.upPort p fun e => { e with l1 := rest }
      (match f.sched with
      | some k =>
        let c := commitAt r k
        if d.now < c then d.txAt p c
        else if c < d.now then (((pop d).count (tpg p) PTS.LATE_DROP_COUNT).rspCount cntLate).txAt p d.now
        else (pop d).txStart p { f with released := c }
      | none =>
        let wait := if r = 0 ∧ (f.kind = .syncOne ∨ f.kind = .ntp) then d.changeSoon p f.fixed else none
        match wait with
        | some t => d.txAt p t
        | none => (pop d).txStart p f)
    | [] =>
      if e.cut.isSome then resume d
      else match e.l2 with
      | f :: rest => (d.upPort p fun e => { e with l2 := rest }).txStart p f
      | [] => match e.l3 with
        | f :: rest => (d.upPort p fun e => { e with l3 := rest }).txStart p f
        | [] => d.lpiArm p

/-- R201, R202, R205 to R207, R220, R230 to R232: the launches that have come are stamped; the transmit MAC cuts a preemptable frame, or starts the next frame of the lowest level number; a scheduled frame is committed at its time or dropped. -/
def execFrameTx (p : Fin 24) (s : State) : Host.Outcome State Fault Refusal :=
  s.run fun d => let d := d.launched p; if !d.portUpQ p then d.txEnd p else d.txTurn p

/-- The verify handshake of a port is under way (R206). -/
def Dev.verifying (d : Dev) (p : Fin 24) : Bool :=
  let v := d.get (ppg p) PORT.PRE_STS_VERIFY
  d.portUpQ p && d.on (ppg p) PORT.PRE_CTL_EN && (v == 1 || v == 2)

/-- R206: a verify mPacket every VERIFY_TIME ms until one is answered; after 3 the result is FAILED. -/
def execVerifySend (p : Fin 24) (s : State) : Host.Outcome State Fault Refusal :=
  s.run fun d =>
    if !d.verifying p then d
    else if 3 ≤ d.port[p].tries then d.setVerify p 4
    else
      let d := ((d.setVerify p 2).emit (.message "verify mPacket" [p])).upPort p fun e => { e with tries := e.tries + 1 }
      d.timerTime 0 (clampN 1 128 (d.get (ppg p) PORT.PRE_CTL_VERIFY_TIME) * milli) (.verifySend p)

/-! Low-power idle (R211). -/

/-- The transmitter of a port may enter low-power idle (R211). -/
def Dev.lpiMay (d : Dev) (p : Fin 24) : Bool :=
  let e := d.port[p]
  d.portUpQ p && e.lpiEn && decide (d.portRate p < 3) && e.l1.isEmpty && e.l2.isEmpty && e.l3.isEmpty && e.cut.isNone && decide (e.busy ≤ d.now) &&
    !d.on (ppg p) PORT.LPI_STS_TX_LPI

/-- R211: nothing has been queued for IDLE µs. -/
def execLpiEntry (p : Fin 24) (s : State) : Host.Outcome State Fault Refusal :=
  s.run fun d =>
    if d.lpiMay p then (d.put (ppg p) PORT.LPI_STS_TX_LPI 1).stat p 60 else d

/-- The wake time of a PHY that IEEE 802.3 gives, in ns (log entry 7). -/
def phyWake (r fec : Nat) : Nat := Config.calib 26 (4 * r + fec)

/-- R202, R211: the transmitter signals the wake and holds the frame for TW. -/
def execLpiWake (p : Fin 24) (s : State) : Host.Outcome State Fault Refusal :=
  s.run fun d =>
    if !d.on (ppg p) PORT.LPI_STS_TX_LPI then d else
    let t := d.now + max d.port[p].lpiTw (phyWake (d.portRate p) (d.portFec p))
    ((d.lpiExit p).upPort p fun e => { e with wake := some t }).txAt p t

/-- R211: a write of PORT_LPI_CTL; EN and TW take effect at the next exit from low-power idle, or at once outside it, and a SyncE slot on the port follows EN (R86). -/
def execLpiCtlWrite (m : Master) (p : Fin 24) (v : Nat) (s : State) : Host.Outcome State Fault Refusal :=
  s.run fun d => d.writeStore m (ppg p) 0x120 v fun d => if d.on (ppg p) PORT.LPI_STS_TX_LPI || d.on (ppg p) PORT.LPI_STS_RX_LPI then d else (d.lpiLoad p).lpiArm p

/-- R211: the link partner enters or leaves low-power idle; it is honoured while the EN in force is 1, and its end brings a written EN and TW into force. -/
def execLpiRxEntry (p : Fin 24) (enter : Bool) (s : State) : Host.Outcome State Fault Refusal :=
  s.run fun d =>
    if enter && d.portUpQ p && d.port[p].lpiEn && decide (d.portRate p < 3) && !d.on (ppg p) PORT.LPI_STS_RX_LPI then
      (d.put (ppg p) PORT.LPI_STS_RX_LPI 1).stat p 61
    else if enter || !d.on (ppg p) PORT.LPI_STS_RX_LPI then d else (d.put (ppg p) PORT.LPI_STS_RX_LPI 0).when (!d.on (ppg p) PORT.LPI_STS_TX_LPI) fun d => (d.lpiLoad p).lpiArm p

/-! The host path (R212, R213). -/

/-- A host frame is written to the port's receive ring when a slot is free and the frame fits, and WP advances (R212, R213). -/
def Dev.hostRxPut (d : Dev) (p : Fin 24) (sTci cTci : Option Nat) (data : List Nat) (mec : Nat) : Dev :=
  let sz := clampN 6 16 (d.get (ppg p) PORT.HRX_CFG_SZ)
  let slot := clampN 11 14 (d.get (ppg p) PORT.HRX_CFG_SLOT)
  let wp := d.get (ppg p) PORT.HRX_WP_WP % 2 ^ sz
  let rp := d.get (ppg p) PORT.HRX_RP_RP % 2 ^ sz
  if (wp + 1) % 2 ^ sz = rp ∨ 2 ^ slot < data.length + 16 then d.stat p 57
  else
    let tags := b2n cTci.isSome + 2 * b2n sTci.isSome
    let head := oct 2 (data.length % 2 ^ 14 + tags <<< 14) ++ [0, 0] ++ oct 2 (cTci.getD 0) ++ oct 2 (sTci.getD 0) ++ oct 8 mec
    let d := d.emit (.hostMem (d.get (ppg p) PORT.HRX_BASE_BASE * 4096 + wp * 2 ^ slot) (head ++ data))
    let d := (d.put (ppg p) PORT.HRX_WP_WP ((wp + 1) % 2 ^ sz)).stat p 56
    d.when (wp == rp) fun d => d.int (ppg p) 4

/-- R212, R213, R452, R453: a host frame is written to the port's receive ring when a slot is free and the frame fits, and WP advances; while the PCIe link is down it waits in the staging buffer. -/
def execHostRxWrite (p : Fin 24) (sTci cTci : Option Nat) (data : List Nat) (mec : Nat) (s : State) : Host.Outcome State Fault Refusal :=
  s.run fun d =>
    if !d.on Pg.hif HIF.STS_LINK_UP then { d with hif := { d.hif with waiting := d.hif.waiting ++ [.hostRxWrite p sTci cTci data mec] } } else d.hostRxPut p sTci cTci data mec

/-- R213: host software advances HTX_WP; the device then takes descriptors (HOST_TX_FRAME). -/
def execHtxWpWrite (m : Master) (p : Fin 24) (v : Nat) (s : State) : Host.Outcome State Fault Refusal :=
  s.run fun d => d.writeStore m (ppg p) 0x1A4 v

/-- No descriptor waits that has not been taken (R213). -/
def Dev.htxEmpty (d : Dev) (p : Fin 24) : Bool :=
  let sz := clampN 6 16 (d.get (ppg p) PORT.HTX_CFG_SZ)
  let e := d.port[p]
  let held := e.l3.length + (if e.cur.any fun x => x.1.kind == .host then 1 else 0) + (if e.cut.any fun x => x.1.kind == .host then 1 else 0)
  decide ((d.get (ppg p) PORT.HTX_RP_RP + held) % 2 ^ sz = d.get (ppg p) PORT.HTX_WP_WP % 2 ^ sz)

/-- R209, R213, R216: the device takes a descriptor with the frame it names, unless the host path is off: dropped when it is shorter than 14 B or the port is not UP, queued on level 3 else. -/
def execHostTxFrame (p : Fin 24) (tag : Bool) (data : List Nat) (s : State) : Host.Outcome State Fault Refusal :=
  s.run fun d =>
    if d.htxEmpty p || d.get (ppg p) PORT.HOST_RATE_RATE == 0 then d
    else if data.length < 14 ∨ !d.portUpQ p then (d.stat p 59).htxDone p
    else
      let tags := if tag then d.portTags p else (none, none)
      let dst := unoct ((data.take 6).reverse)
      d.txPush p { kind := .host, level := 3, cls := 9, len := data.length + 4, released := d.now, dst := dst, mcast := (data.headD 0 % 2 == 1), sTci := tags.1, cTci := tags.2, fields := data }

/-- R213: a write of a ring base or configuration is accepted only while HOST_RATE.RATE = 0. -/
def execRingConfigWrite (m : Master) (p : Fin 24) (off v : Nat) (s : State) : Host.Outcome State Fault Refusal :=
  s.run fun d => d.writeOr m (ppg p) off v (d.get (ppg p) PORT.HOST_RATE_RATE == 0) (fun d => d.stat p 59) fun d => d.storeReg (ppg p) off v

end Sys2Proof.Machine
end

