-- ==== Sys2Proof/Machine/Power.lean ====
section
/-! DEFINITION. The commands of the scheduler, of Cave and of the clock monitors (R374 to R396, R458). -/

namespace Sys2Proof.Machine

/-! Admission (R380 to R383, R393). -/

/-- R380 to R383: an admission cycle: POWER_CAP takes effect, requests are followed, and the waiting ones are served in order. -/
def execAdmissionCycle (s : State) : Host.Outcome State Fault Refusal :=
  s.runStore fun st d =>
    let r := admitAll (followWants (takeCap (st, d)))
    (r.1, (r.2.capShow).pwrShow)

/-- R383: a write of POWER_CAP takes effect at the next admission cycle. -/
def execPowerCapWrite (m : Master) (v : Nat) (s : State) : Host.Outcome State Fault Refusal :=
  s.run fun d => d.writeStore m Pg.pwr 0x104 v

/-- R393: a write of PWR_REQ.MODE changes how the page's block requests from the next admission cycle. -/
def execPwrReqWrite (m : Master) (pg : Page) (v : Nat) (s : State) : Host.Outcome State Fault Refusal :=
  s.run fun d => d.writeStore m pg 0x28 v

/-! Throttling (R384, R385). -/

/-- HOT, COOL and the alarm are judged by a sample (R384, R385). -/
def thermalJudge (r : Words × Dev) (core analog portA portB : Int) (mw : Nat) : Words × Dev :=
  let st := r.1
  let d := r.2
  let pg := Pg.pwr
  let t := max (max core analog) (max portA portB)
  let d := d.upPwr fun e => { e with dieT := #v[core, analog, portA, portB], above := if d.capEff < mw then e.above + 1 else 0 }
  let d := ((d.puti pg PWR.STS_MAIN_TEMP (t.fdiv 10)).put pg PWR.EFF_MEAS (min 0xFFFF mw)).rotTemp analog
  let throt := d.get pg PWR.THERM_T_THROT
  let hot := decide ((10 * throt : Nat) ≤ t) || decide (10 ≤ d.pwr.above)
  let cool := decide (t ≤ (10 * min (d.get pg PWR.THERM_T_REL) (throt - 1) : Nat)) && decide (mw + d.capStepMw ≤ d.capEff)
  let was := d.on pg PWR.STS_MAIN_HOT
  let d := (d.putb pg PWR.STS_MAIN_HOT hot).upPwr fun e => { e with samples := e.samples + 1, cool := e.cool && cool }
  let d := if decide ((10 * d.get pg PWR.THERM_T_ALARM : Nat) ≤ t) then d.raise pg 2 2 else d.lower pg 2 2
  let d := d.when (was != hot) fun d => d.int pg 3
  let d := d.when (!d.waiting .capStep) fun d => d.after (second - d.now % second) .capStep
  if hot && !was then capDown (st, d.timer second .capStep) else (st, d)

/-- R384, R385: a sample of the die temperatures (in 0.1 °C) and of the measured power: HOT, COOL and the alarm are judged. -/
def execThermalSample (core analog portA portB : Int) (mw : Nat) (s : State) : Host.Outcome State Fault Refusal :=
  s.runStore fun st d =>
    thermalJudge (st, d) core analog portA portB mw

/-- R384: a second of the law has passed: a step down while HOT, a step up after a COOL second. -/
def execCapStep (s : State) : Host.Outcome State Fault Refusal :=
  s.runStore fun st d =>
    let cool := d.pwr.cool && d.pwr.samples != 0
    let d := (d.upPwr fun e => { e with samples := 0, cool := true }).timer second .capStep
    if d.on Pg.pwr PWR.STS_MAIN_HOT then capDown (st, d) else if cool then capUp (st, d) else (st, d)

/-! Cave (R386 to R390). -/

/-- R386: PWR_CMD ENTER_CAVE. -/
def execEnterCave (m : Master) (s : State) : Host.Outcome State Fault Refusal :=
  s.run fun d => d.write m Pg.pwr 0x110 1 fun d => d.caveEnter 1

/-- R389: PWR_CMD EXIT_CAVE from PF0, or from the management target whatever its class. -/
def execExitCave (m : Master) (s : State) : Host.Outcome State Fault Refusal :=
  s.run fun d =>
    if m = .mgmt then (if d.on Pg.glb GLB.BOOT_STS_BOOT_DONE then (d.served m Pg.pwr 0x110 2).caveExit else d.discard .preboot Pg.pwr)
    else d.write m Pg.pwr 0x110 2 fun d => if m = .pf0 then d.caveExit else d

/-- R341, R342, R386, R392: PFW is asserted behind its filter: the record, event 5 and the flush, and Cave with PFW_CAVE = 1; a hold before an exit ends (R390). -/
def execPfwAssert (s : State) : Host.Outcome State Fault Refusal :=
  s.run fun d =>
    let d := ((d.upPwr fun e => { e with pfw := true }).cancel .autoExit).powerFail
    if d.on Pg.pwr PWR.CTL_PFW_CAVE then d.caveEnter 2 else d

/-- R342, R389: PFW is deasserted. -/
def execPfwDeassert (s : State) : Host.Outcome State Fault Refusal :=
  s.run fun d => (d.upPwr fun e => { e with pfw := false }).powerBack

/-- R341, R386, R458: the supply monitor trips; it watches the switched rails in RUN and EXITING only. -/
def execMonitorTrip (s : State) : Host.Outcome State Fault Refusal :=
  s.run fun d =>
    if d.caveState = caveIn ∨ d.caveState = caveEntering then d
    else
      let d := ((d.upPwr fun e => { e with trip := true }).cancel .autoExit).powerFail
      if d.on Pg.pwr PWR.CTL_MON_CAVE then d.caveEnter 3 else d

/-- R342, R389, R458: the supply monitor clears. -/
def execMonitorClear (s : State) : Host.Outcome State Fault Refusal :=
  s.run fun d => (d.upPwr fun e => { e with trip := false }).powerBack

/-- R389: power has been back for EXIT_HOLD ms. -/
def execAutoExit (s : State) : Host.Outcome State Fault Refusal :=
  s.run fun d => if d.on Pg.pwr PWR.CTL_AUTO_EXIT && !d.powerFails then d.caveExit else d

/-- What goes at +10 µs of an entry: the units outside the Cave set, from precedence 5 up to precedence 1, and every grant of an exit that the entry broke off (R388, R390). -/
def Dev.caveGoes (d : Dev) : List PwrUnit :=
  ((d.victims 0).filter fun u => !d.caveSet u && u.kind != kindStore) ++
  (d.pwr.units.filter fun u => u.prec == 0 && !d.caveSet u && u.granted.any fun t => d.pwr.left.any fun x => decide (x ≤ t))

/-- R388, R390: units outside the Cave set are revoked, from precedence 5 up to precedence 1, and every grant of an exit that the entry broke off. -/
def execCaveRevoke (s : State) : Host.Outcome State Fault Refusal :=
  s.runStore fun st d =>
    if d.caveState ≠ caveEntering then (st, d) else
    let r := d.caveGoes.foldl revoke (st, d.upPwr fun e => { e with left := none })
    (r.1, r.2.pwrShow)

/-- R333, R388: CCLK to the sequencers stops. -/
def execCaveCclkStop (s : State) : Host.Outcome State Fault Refusal :=
  s.run fun d => if d.caveState = caveEntering then d.seqFreeze else d

/-- The store enters Brine or is switched off, and its unit is revoked (R285, R388). -/
def caveStoreDown (q : Words × Dev) : Words × Dev :=
  let st := q.1
  let d := q.2
  let keep := !d.on Pg.cst CST.CTL_CAVE_OFF
  let r : Words × Dev := if d.cstOn && keep then (st, d.brineIn)
    else if d.get Pg.cst CST.STS_PWR = 0 ∨ (d.get Pg.cst CST.STS_PWR = 3 ∧ keep) then (st, d) else storeOff (st, d)
  let r := (r.2.pwr.units.filter fun u => u.kind == kindStore && u.granted.isSome).foldl revoke r
  (r.1, r.2.pwrShow)

/-- R285, R388: the store enters Brine, or is switched off; a store that is not ON holds nothing to retain. -/
def execCaveStore (s : State) : Host.Outcome State Fault Refusal :=
  s.runStore fun st d =>
    if d.caveState ≠ caveEntering then (st, d)
    else caveStoreDown (st, d)

/-- The monitors whose inputs are off in Cave: REF, upstream and SyncE (R387). -/
def caveLost : List (Fin 19) := (List.finRange 19).filter fun k => 3 ≤ k.val

/-- The domains outside the Cave set go off: their inputs are lost, their pages are held, and STATE is CAVE; an exit that was asked for begins (R387 to R389). -/
def caveDark (q : Words × Dev) : Words × Dev :=
  let st := q.1
  let d := q.2
  let l := (d.pwr.units.filter fun u => u.granted.isSome && !d.caveSet u)
  let r := l.foldl revoke (st, d)
  let d := r.2.plkStop
  let d := d.each caveLost fun (k : Fin 19) d => d.monLose k
  let d := d.put Pg.hif HIF.STS_LINK_UP 0
  let d := d.each allPages fun pg d => d.when (!((pageRow pg).map (·.cave)).getD false) fun d => d.put pg HDR.PAGE_STS_CAVE_HELD 1
  let d : Dev := if d.on (Pg.gnss 6) GNSS6.CAVE_CTL_EN then d.timer (d.toSecond 0) .gnssSleep
    else
      let d := d.when (d.gstate != gnssOff) fun d => (d.gnssStop gnssOff).monLose 0
      d.when (!d.on (Pg.gnss 0) GNSS0.CTL_EN) fun d => d.keptDrop
  let d := ((d.clkLock 1 false).clkLock 3 false).clkLock 5 false
  let d := d.when (d.gstate == gnssOff || d.gstate == gnssSleep) fun d => d.clkLock 2 false
  let d := (d.cyclesAll fun d => d.caveTo caveIn).pwrShow
  (r.1, if d.pwr.exit then d.caveLeave else d)

/-- R388: the domains outside the Cave set are off and STATE is CAVE. -/
def execCaveEntered (s : State) : Host.Outcome State Fault Refusal :=
  s.runStore fun st d =>
    if d.caveState ≠ caveEntering then (st, d)
    else caveDark (st, d)

/-- R389: the PD11 link is up and STATE returns to RUN; resets that a C4 left waiting go ahead (R390). -/
def execCaveExitDone (s : State) : Host.Outcome State Fault Refusal :=
  s.run fun d =>
    if d.caveState = caveExiting ∧ d.on Pg.hif HIF.STS_LINK_UP then
      let d := d.each allPages fun pg d => d.put pg HDR.PAGE_STS_CAVE_HELD 0
      let d := d.each d.pwr.held fun r d => d.after 0 (.c4RegionReset r)
      (d.upPwr fun e => { e with held := [], left := none }).caveTo caveRun
    else d

/-! Clocks (R376, R377, R395). -/

/-- Cause number of the C3 of a lost OSC (R376). -/
abbrev causeOsc : Nat := 0x10

/-- OSC is gone: its loss is counted, recorded, and a C3 stands on both timescales (R376). -/
def Dev.oscGone (d : Dev) : Dev :=
  let d := ((d.cancel .oscReturn).cancel .oscRelock).upPwr fun e => { e with oscLost := some (e.oscLost.getD d.freeNs) }
  let d := d.count Pg.clkd CLKD.OSC_LOSS_COUNT
  let d := d.when (d.on Pg.clkd CLKD.STS_OSC_PRESENT) fun d => (d.put Pg.clkd CLKD.STS_OSC_PRESENT 0).int Pg.clkd 0
  let d := (d.clkLock 0 false).record 0xA2 (srcPage Pg.clkd) [8, 0]
  (d.raise (Pg.ts 0) 3 causeOsc).raise (Pg.ts 1) 3 causeOsc

/-- R376: OSC is lost; TCLK runs on frozen, and C3 is raised on both timescales. -/
def execOscLoss (s : State) : Host.Outcome State Fault Refusal :=
  s.run fun d =>
    d.oscGone

/-- R376: OSC is present again after 1 s of good gates; the PLL walks to relock. -/
def execOscReturn (s : State) : Host.Outcome State Fault Refusal :=
  s.run fun d =>
    if d.on Pg.clkd CLKD.STS_OSC_PRESENT then d
    else (((d.put Pg.clkd CLKD.STS_OSC_PRESENT 1).int Pg.clkd 0).record 0xA2 (srcPage Pg.clkd) [8, 1]).upPwr fun e => { e with oscLost := none }

/-- R376: the PLL has relocked, and the C3 sources are no longer live. -/
def execOscRelock (s : State) : Host.Outcome State Fault Refusal :=
  s.run fun d =>
    if !d.on Pg.clkd CLKD.STS_OSC_PRESENT then d
    else ((d.clkLock 0 true).lower (Pg.ts 0) 3 causeOsc).lower (Pg.ts 1) 3 causeOsc

/-- R377: a write of CLKD_SS_CTL; the spread changes at the next zero crossing of its modulation, and nothing that keeps time counts SCLK cycles. -/
def execSclkSsWrite (m : Master) (v : Nat) (s : State) : Host.Outcome State Fault Refusal :=
  s.run fun d => d.writeStore m Pg.clkd 0x104 v

end Sys2Proof.Machine
end

