-- ==== Sys2Proof/Machine/Pulse.lean ====
section
/-! DEFINITION. The commands of the pulse generators and capture inputs (R186 to R195). -/

namespace Sys2Proof.Machine

/-- ARM is refused (R189). -/
def Dev.evoRefuses (d : Dev) (n : Fin 16) : Bool :=
  let w := d.get Pg.evo (EVO.WIDTH_WIDTH n)
  let p := d.get Pg.evo (EVO.PERIOD_PERIOD n)
  let mode := d.get Pg.evo (EVO.CTL_MODE n)
  let i := evoConsumer n
  decide (w < 4 * 65536) || ((mode == 1 || mode == 2) && (decide (p < 8 * 65536) || decide (p < w + 4 * 65536))) ||
  (d.get (Pg.ts (d.cur i)) TS.BOUND_STS_STATE == 0 && !d.on (Pg.ts 0) (TSA.BIND_FORCE i))

/-- A sequence is latched and what lies within 100 ns is skipped; with nothing left it is late (R188, R189, R192). -/
def Dev.evoLatch (d : Dev) (n : Fin 16) : Dev :=
  let mode := d.get Pg.evo (EVO.CTL_MODE n)
  let d := d.upEvo n fun e => { e with
    start := untime96 (d.get Pg.evo (EVO.START_TIME n)), period := d.get Pg.evo (EVO.PERIOD_PERIOD n), width := d.get Pg.evo (EVO.WIDTH_WIDTH n),
    count := if mode = 1 then some (max 1 (d.get Pg.evo (EVO.COUNT_COUNT n))) else if mode = 2 then none else some 1, next := 0, emitted := false }
  let d := d.evoSkip n (d.evoView n + 100 * 65536)
  if d.evo[n].more then
    (((d.put Pg.evo (EVO.STS_STATE n) (if d.evo[n].next = 0 then evoWait else evoRun)).put Pg.evo (EVO.STS_RESULT n) evoArmed).evoShow n).record
      0x33 (srcPage Pg.evo) [n.val, 1, evoArmed]
  else (d.evoEnd n evoLate).record 0x33 (srcPage Pg.evo) [n.val, 3, evoLate]

/-- R188, R189, R192: ARM latches the sequence, skips what lies within 100 ns, and is refused or late where the rules say. A disabled generator shows the command in its readback alone. -/
def execEvoArm (m : Master) (n : Fin 16) (s : State) : Host.Outcome State Fault Refusal :=
  s.run fun d => d.write m Pg.evo (0x104 + 0x40 * n.val) 1 fun d =>
    if !d.on Pg.evo (EVO.CTL_EN n) then d
    else if d.evoRefuses n then (d.put Pg.evo (EVO.STS_RESULT n) evoConfig).record 0x33 (srcPage Pg.evo) [n.val, 1, evoConfig]
    else d.evoLatch n

/-- R188, R191, R192: STOP, or a write of EVOm_CTL, which with EN = 0 acts as STOP. -/
def execEvoStop (m : Master) (n : Fin 16) (off v : Nat) (s : State) : Host.Outcome State Fault Refusal :=
  s.run fun d =>
    if off = 0x100 + 0x40 * n.val then
      d.writeStore m Pg.evo off v fun d =>
        let d := if bit v 31 then d else d.evoStop n
        (d.evoShow n).evoDriver n
    else d.write m Pg.evo (0x104 + 0x40 * n.val) 2 fun d => d.evoStop n

/-- The pulse in progress ends; a sequence that was stopped, or that has no index left, ends with it (R188). -/
def Dev.evoTrail (d : Dev) (n : Fin 16) (t : Int) : Dev :=
  let d := (d.upEvo n fun e => { e with pulse := none }).evoPlace n t
  let d := if d.evoState n = evoStopping then d.evoEnd n evoStopped else d.evoOut n
  d.evoDriver n

/-- The next leading edge is placed; while a C4 holds the outputs, or a pulse of the sequence before still runs, its index is skipped (R188, R190). -/
def Dev.evoLead (d : Dev) (n : Fin 16) : Dev :=
  let t : Nat := d.evo[n].time d.evo[n].next
  let d := if d.c4Held || d.evo[n].pulse.isSome then d.evoSkip n t
    else
      let d := d.upEvo n fun e => { e with next := e.next + 1, emitted := true, pulse := some ((t : Int) + e.width) }
      ((d.put Pg.evo (EVO.STS_STATE n) evoRun).put Pg.evo (EVO.STS_BOUND n) (d.evoBound n)).evoPlace n t
  (d.evoShow n).evoOut n

/-- An edge of a sequence is placed, ended or skipped (R186, R187, R190). -/
def Dev.evoAdvance (d : Dev) (n : Fin 16) : Dev :=
  let v := d.evoView n
  let d : Dev := match d.evo[n].pulse with
    | some t => if t ≤ v then d.evoTrail n t else d
    | none => d
  let e : EvoEng := d.evo[n]
  if (d.evoState n = evoWait ∨ d.evoState n = evoRun) ∧ e.more ∧ (e.time e.next : Int) ≤ v then d.evoLead n else d

/-- R186, R187, R190: an edge falls due: the trailing edge ends the pulse, the leading edge is placed; while a C4 holds the outputs, or a pulse of the sequence before still runs, the index is skipped. -/
def execEvoEdge (n : Fin 16) (s : State) : Host.Outcome State Fault Refusal :=
  s.run fun d => if !d.evoDue n then d else d.evoAdvance n

/-- R191: the driver is enabled when the generator is at its idle level and may drive. -/
def execEvoDriverEnable (n : Fin 16) (s : State) : Host.Outcome State Fault Refusal :=
  s.run fun d => if d.evoMay n && d.evo[n].pulse.isNone then d.put Pg.evo (EVO.STS_DRIVEN n) 1 else d

/-! Capture inputs (R193, R194). -/

/-- A field of an input's CTL as it is in force in this tick (R193). -/
def Dev.eviCtl (d : Dev) (i : Fin 16) (f : Fld) : Nat :=
  match d.evi[i].old with
  | some (t, w) => if t = d.now then f.get (BitVec.ofNat 96 w) else d.get Pg.evi f
  | none => d.get Pg.evi f

/-- The glitch filter rejects an edge of a short pulse: the first, whose new level does not last, and the second, which returns to the filtered level (R193). -/
def Dev.eviRejects (d : Dev) (i : Fin 16) (falling : Bool) (ps : Nat) : Bool := ps < 100 * d.eviCtl i (EVI.CTL_GLITCH i) || d.evi[i].low == some falling

/-- An edge at an enabled input: the glitch filter and the holdoff reject, an accepted edge is counted and its MEC latched (R193 to R195). -/
def Dev.eviSee (d : Dev) (i : Fin 16) (falling : Bool) (ps : Nat) : Dev :=
  let e := d.evi[i]
  if d.eviRejects i falling ps then
    { d with evi := d.evi.set i { e with low := some (e.low.getD !falling) } }.count Pg.evi (EVI.REJ_COUNT i)
  else
    let d := { d with evi := d.evi.set i { e with low := some falling } }
    let last := if falling then e.fall else e.rise
    if last.any fun t => decide (d.stepFree 0 - t.2 < ((1000 * d.eviCtl i (EVI.CTL_HOLDOFF i) * 2 ^ 48 : Nat) : Int)) then d.count Pg.evi (EVI.REJ_COUNT i)
    else
      let d := { d with evi := d.evi.set i (if falling then { e with low := some true, fall := some (d.now, d.stepFree 0) } else { e with low := some false, rise := some (d.now, d.stepFree 0) }) }
      (((d.count Pg.evi (EVI.CNT_COUNT i)).put Pg.evi (EVI.LAST_MEC i) d.now).int Pg.evi i).event (16 + i)

/-- R193 to R195: an edge at an input; `ps` is how long the new level lasts. The glitch filter and the holdoff reject, an accepted edge is counted and its MEC latched. -/
def execEviEdge (i : Fin 16) (falling : Bool) (ps : Nat) (s : State) : Host.Outcome State Fault Refusal :=
  s.run fun d => if !(d.eviCtl i (EVI.CTL_EN i) != 0 && d.domainOn Pg.evi) then d else d.eviSee i falling ps

/-- A write of EVIi_CTL acts from the next tick on; a disabled input forgets its filtered level (R193, R195). -/
def Dev.eviSet (d : Dev) (i : Fin 16) (v : Nat) : Dev :=
  let off := 0x100 + 0x10 * i.val
  let w := (d.reg Pg.evi off).toNat
  let d := d.storeReg Pg.evi off v
  { d with evi := d.evi.set i { d.evi[i] with
      old := (if d.evi[i].old.any fun o => o.1 == d.now then d.evi[i].old else some (d.now, w)),
      low := if d.on Pg.evi (EVI.CTL_EN i) then d.evi[i].low else none } }

/-- R193: a write of EVIi_CTL; an edge still in the filter is rejected and counted. -/
def execEviCtlWrite (m : Master) (i : Fin 16) (v : Nat) (inFilter : Bool) (s : State) : Host.Outcome State Fault Refusal :=
  s.run fun d => d.write m Pg.evi (0x100 + 0x10 * i.val) v fun d => (d.eviSet i v).when inFilter fun d => d.count Pg.evi (EVI.REJ_COUNT i)

end Sys2Proof.Machine
end

