-- ==== Sys2Proof/Machine/Recorder.lean ====
section
/-! DEFINITION. The commands of the event recorder (R341 to R351). -/

namespace Sys2Proof.Machine

/-- R341: REC_CMD FLUSH. -/
def execRecFlush (m : Master) (s : State) : Host.Outcome State Fault Refusal :=
  s.run fun d => d.write m Pg.rec 0x10C 1 Dev.flush

/-- The clear commits: a new epoch and Rind size, and the CLEAR record at once in the first line (R350). -/
def Dev.clearCommit (d : Dev) (slot : Nat) : Dev :=
  let pg := Pg.rec
  let last := d.highestSeq.getD ((d.get pg REC.NEXT_SEQ_SEQ + 2 ^ 32 - 1) % 2 ^ 32)
  let size := min 114688 (d.get pg REC.RIND_SIZE) / 1024 * 1024
  let d := { d with rcd := { d.rcd with epoch := d.rcd.epoch + 1, wheelNewest := none, clearing := none } }
  let d := (d.put pg REC.STS_RIND_SIZE size).put pg REC.LVL_RIND_USED 0
  let q := d.get pg REC.NEXT_SEQ_SEQ
  let w : Record := { typ := 3, gap := d.rcd.gapNext, source := srcPage pg, mec := d.now, cal := d.cal, seqNo := q, payload := oct 4 last ++ [slot] }
  let d := ({ d with rcd := { d.rcd with gapNext := false } }.put pg REC.NEXT_SEQ_SEQ ((q + 1) % 2 ^ 32)).writeLine w
  (d.put pg REC.CLR_RES_RESULT 1).int pg 2

/-- A flush of n records ends: their lines are written and their slots freed; what waited on it goes ahead (R341, R342, R347, R350, R392). -/
def Dev.flushDone (d : Dev) (n : Nat) : Dev :=
  let pg := Pg.rec
  let d := d.cancel .flushComplete
  let rows := d.rcd.buf.take n
  let again := d.rcd.flushAgain
  let d := { d with rcd := { d.rcd with buf := d.rcd.buf.drop n, flushing := none, flushAgain := false } }
  let d := d.each rows fun w d => d.writeLine w
  let d := (d.put pg REC.STS_FLUSHING 0).put pg REC.BUF_LVL_BUF_LVL d.rcd.buf.length
  let d := (d.int pg 0).event 79
  let d := d.when d.powerFails fun d => d.put pg REC.STS_WT 1
  if (again || d.powerFails || d.rcd.buf.length ≥ clampN 256 4095 (d.get pg REC.HWM_HWM)) && !d.rcd.buf.isEmpty then d.flush
  else
    let d := d.when d.pwr.rst fun d => d.timer 0 .pkgRstN
    match d.rcd.clearing with
    | some slot => (d.clearCommit slot).c4Go
    | none => d.c4Go

/-- R341, R342, R347, R350, R392: the flush has written its records in SEQ order and freed their slots; event 79; after PFW write-through begins; a reset that waited follows, and a waiting clear commits. -/
def execFlushComplete (s : State) : Host.Outcome State Fault Refusal :=
  s.run fun d =>
    match d.rcd.flushing with
    | none => d
    | some n => d.flushDone n

/-- The token of R310 for a nonce under a key. -/
def Dev.clearToken (d : Dev) (k : Nat) : List Nat :=
  let text := [72, 84, 50, 52, 32, 82, 69, 67, 32, 67, 76, 69, 65, 82]
  (stdOctets fnHmac (d.keyMat k ++ text ++ oct 8 (d.get (Pg.key 3) KEY3.UID_UID) ++ d.octets Pg.rec REC.CLR_NONCE_NONCE 4)).take 16

/-- A CLEAR of PF0 is judged by its token; the nonce is renewed, and an accepted one flushes first (R310, R350). -/
def Dev.clearAsk (d : Dev) : Dev :=
  let pg := Pg.rec
  let k := d.get (Pg.key 3) KEY3.RCA_CTL_SLOT
  let tok := (List.range 4).flatMap fun j => oct 4 (sget (fun _ => 0) d.rcd.token j)
  let ok := d.loadable k destClear useMac && tok == d.clearToken k
  let r := if d.powerFails then 4 else if d.rcd.clearing.isSome then 5 else if ok then 0 else 2
  let n := d.drawNonce
  let d := n.2.putOctets pg REC.CLR_NONCE_NONCE 4 n.1
  if r ≠ 0 then (d.put pg REC.CLR_RES_RESULT r).int pg 2
  else { d with rcd := { d.rcd with clearing := some k } }.flush

/-- R310, R350: CLEAR with a valid token from PF0 flushes and commits a new epoch; from another master it is discarded. -/
def execRecClear (m : Master) (s : State) : Host.Outcome State Fault Refusal :=
  s.run fun d => d.write m Pg.rec 0x10C 2 fun d =>
    let pg := Pg.rec
    if m ≠ .pf0 then ((d.count pg REC.CLR_RES_DISC).put pg REC.CLR_RES_RESULT 3).int pg 2
    else d.clearAsk

/-- R348: REC_CMD SNAP asks for a snapshot of a list. -/
def execRecSnap (m : Master) (l : Fin 16) (s : State) : Host.Outcome State Fault Refusal :=
  s.run fun d => d.write m Pg.rec 0x10C (3 + 4 * l.val) fun d => d.askSnap ⟨l, 2, srcMaster m⟩

/-- Groups of four pairs, the last padded with zero pairs (R348). -/
def chunk4 : Nat → List Nat → List (List Nat)
  | 0, _ => []
  | n + 1, l => (l.take 32 ++ List.replicate (32 - (l.take 32).length) 0) :: chunk4 n (l.drop 32)

/-- The reads of a snapshot are complete: its group is entered, or dropped as a whole, and the next request starts (R344, R348). -/
def Dev.snapGroup (d : Dev) (r : SnapRun) : Dev :=
  let pg := Pg.rec
  let d := d.cancel .snapshotComplete
  let rows := chunk4 (cdiv r.pairs.length 32) r.pairs
  let n := 1 + rows.length
  let d : Dev := if 4096 - d.rcd.buf.length < n then
      let d := d.each (List.range n) fun _ d => d.lose
      (d.count pg REC.SNAP_LOST_COUNT).int pg 3
    else
      let first := (d.get pg REC.NEXT_SEQ_SEQ + 1) % 2 ^ 32
      let d := d.enter 0x04 r.req.source ([r.req.list, r.req.kind] ++ oct 2 r.count ++ oct 4 (if rows.isEmpty then 0 else first) ++ oct 8 r.start) true
      d.each rows fun p d => d.enter 0x05 r.req.source p
  match d.rcd.snapQ with
  | [] => ({ d with rcd := { d.rcd with snapRun := none } }.put pg REC.SNAP_STS_BUSY 0).c4Go
  | x :: rest => ({ d with rcd := { d.rcd with snapQ := rest } }.put pg REC.SNAP_STS_QLVL rest.length).snapBegin x

/-- R344, R348: the reads are complete; the whole group is entered, or dropped as a whole, and the next request starts. -/
def execSnapshotComplete (s : State) : Host.Outcome State Fault Refusal :=
  s.run fun d =>
    match d.rcd.snapRun with
    | none => d
    | some r => if r.left.isEmpty then d.snapGroup r else d

/-- R349: a write of REC_CURSOR restarts the walk. -/
def execRecCursorWrite (m : Master) (v : Nat) (s : State) : Host.Outcome State Fault Refusal :=
  s.run fun d => d.writeStore m Pg.rec 0x160 v fun d => { d with rcd := { d.rcd with shown := none } }

end Sys2Proof.Machine
end

