-- ==== Sys2Proof/Machine/Fault.lean ====
section
/-! DEFINITION. The commands of the fault collector and of the performance counters (R21, R352 to R373). -/

namespace Sys2Proof.Machine

/-! Clearing (R357, R360, R361). -/

/-- A clear on the SVC, LDR or any page's C4 breaks the time for which the conditions of a self-confirmation have held (R432). -/
def Dev.confBreak (d : Dev) (pg ok : Nat) : Dev :=
  if d.ldr.jnl.phase = 7 ∧ (bit ok 4 ∨ (4 ≤ ok ∧ (pg = Pg.svc 0 ∨ pg = Pg.svc 1 ∨ pg = Pg.ldr))) then
    ({ d with ldr := { d.ldr with confFrom := d.freeNs } }).timerTime 0 (max 1 (d.get Pg.ldr LDR.POLICY_CONF_TIME) * second) .selfConfirm
  else d

/-- Clear the named classes of a page: what is latched and not live in this CCLK cycle is cleared, what is live is refused, and what latches in this cycle stands; one record for each result (R357). -/
def Dev.fltClear (d : Dev) (m : Master) (pg classes : Nat) : Dev :=
  let just := d.justSet (4096 * pg + HDR.FLT_STS_LAT.off)
  let want := d.get pg HDR.FLT_STS_LAT &&& classes &&& (0x1F - just % 32)
  let no := want &&& (d.get pg HDR.FLT_STS_LIVE ||| just / 256)
  let ok := want - no
  let row (c r : Nat) : List Nat := oct 2 pg ++ [c, r, masterId m]
  let d := d.when (ok != 0) fun d =>
    let d := (d.put pg HDR.FLT_STS_LAT (d.get pg HDR.FLT_STS_LAT - ok)).record 0x91 (srcPage pg) (row ok 1)
    let d := d.when (pg == Pg.glb) fun d => d.put Pg.flt FLT.DIE_STS_PIN 0
    let d := d.each [0, 1] fun (n : Ts) d => d.when (pg == Pg.svc n.val && bit ok 2) fun d => d.coreResume n
    d.confBreak pg ok
  let d := d.when (no != 0) fun d =>
    ((d.count Pg.flt FLT.CLR_REFUSED_COUNT).int Pg.flt 5).record 0x91 (srcPage pg) (row no 2)
  d.fltView pg

/-- Outputs held by a C4 resume once no C4 is latched (R361); the claim is judged anew. -/
def Dev.fltAfter (d : Dev) : Dev :=
  let d : Dev := if d.c4Held && !bit (d.get Pg.flt FLT.CLASS_STS_LAT) 4 then (({ d with c4Held := false }.each (List.finRange 4) fun n d => (d.when d.syn[n].again fun d => (d.upSyn n fun e => { e with again := false }).synTryStart n)).ckoAll).evoAll else d
  d.plkEval

/-- The masters that may clear or force (R364). -/
def mayClear : Master → Bool
  | .pf0 | .pf1 | .seq _ => true
  | _ => false
def mayForce : Master → Bool
  | .pf0 | .seq _ => true
  | _ => false

/-- R357, R364: a write of FLT_CLR. -/
def execFltClr (m : Master) (pg : Page) (v : Nat) (s : State) : Host.Outcome State Fault Refusal :=
  s.run fun d => d.writeOr m pg 0x24 v (mayClear m) (fun d => d.count Pg.flt FLT.WR_DISC_COUNT) fun d => (d.fltClear m pg (v % 32)).fltAfter

/-- R357: FLT_CLR_ALL judges each page separately. -/
def execFltClrAll (m : Master) (v : Nat) (s : State) : Host.Outcome State Fault Refusal :=
  s.run fun d => d.write m Pg.flt 0x104 v fun d => (d.each allPages fun pg d => d.fltClear m pg (v % 32)).fltAfter

/-- Bring the forced sources of a page up to date: what becomes live latches (R356, R364). -/
def Dev.forceFollow (d : Dev) (pg : Nat) : Dev :=
  d.each [0, 1, 2, 3, 4] fun c d =>
    let was := bit (d.get pg HDR.FLT_STS_LIVE) c
    let d := d.relive pg c
    if !was && bit (d.get pg HDR.FLT_STS_LIVE) c then d.becameLive pg c true false else d.fltView pg

/-- R356, R364: a write of FLT_FORCE; a 1 for class 4 is taken only with C4_FORCE = 1. -/
def execFltForceWrite (m : Master) (pg : Page) (v : Nat) (s : State) : Host.Outcome State Fault Refusal :=
  s.run fun d => d.writeOr m pg 0x20 v (mayForce m) (fun d => d.count Pg.flt FLT.WR_DISC_COUNT) fun d =>
    let old := d.get pg HDR.FLT_FORCE_FORCE
    let stop := bit v 4 && !d.on Pg.flt FLT.CTL_C4_FORCE
    let w := if stop then v % 16 + (old - old % 16) else v % 32
    ((d.put pg HDR.FLT_FORCE_FORCE w).when stop fun d => d.count Pg.flt FLT.WR_DISC_COUNT).forceFollow pg

/-! The collector (R21, R353 to R355, R363). -/

abbrev causeRail : Nat := 0x40
abbrev causeCollector : Nat := 0x42
abbrev causeWord : Nat := 0x43
abbrev causeResync : Nat := 0x44

/-- R21, R353: a rail fault takes the class of its signal, and never one lower than C1. -/
def execRailFault (pg : Page) (c : Fin 5) (s : State) : Host.Outcome State Fault Refusal :=
  s.run fun d => (d.raise pg (max 1 c.val) causeRail true).lower pg (max 1 c.val) causeRail

/-- R354: every 1 ms the collector takes FLT_STS of each marked page in place of its pin: what has become live there since the last poll latches. -/
def execPinPoll (s : State) : Host.Outcome State Fault Refusal :=
  s.run fun d =>
    let l := d.flt.late
    let d := { d with flt := { d.flt with late := [] } }.cancel .pinPoll
    let d := d.each l fun x d => d.takeUp x.1 x.2.1 x.2.2.1 x.2.2.2
    d.when (allPages.any fun pg => d.pinBad pg) fun d => d.afterTime 0 milli .pinPoll

/-- Every source of a page counts as latched (R355). -/
def Dev.latchAll (d : Dev) (pg : Nat) : Dev :=
  d.when (pageRow pg).isSome fun d => d.each [0, 1, 2, 3, 4] fun c d => d.fault pg c causeCollector

/-- R355: the rails of the collector disagree: every source of the affected pages counts as latched, and C2 is raised on the FLT page. -/
def execCollectorRailDisagree (pages : List Page) (s : State) : Host.Outcome State Fault Refusal :=
  s.run fun d => (d.each pages fun pg d => d.latchAll pg).fault Pg.flt 2 causeCollector

/-- The dies of a link, as bits of FLT_DIE_STS (R24, R366). -/
def linkDies (n : Fin 5) : Nat := [0x9, 0x3, 0x5, 0xA, 0xC].getD n.val 0

/-- R363: a word of a die link fails its check: it is retried, counted, and raises C1 on GLB. -/
def execLinkWordError (n : Fin 5) (s : State) : Host.Outcome State Fault Refusal :=
  s.run fun d => ((d.count Pg.flt (FLT.LINK_ERR_COUNT n)).put Pg.flt FLT.DIE_STS_PIN (d.get Pg.flt FLT.DIE_STS_PIN ||| linkDies n)).fault Pg.glb 1 causeWord

/-- The regions with their home or a fragment on the far die of a link (R22, R363). -/
def farRegions (n : Fin 5) : List Region :=
  if n = 0 then [.measurement, .synthesis, .gnss, .audio, .time, .control]
  else if n = 1 ∨ n = 3 then [.portA, .control] else [.portB]

/-- A region waits for the reset that a C4 asks for, 2 ms later (R361). -/
def Dev.regionLater (d : Dev) (r : Region) : Dev :=
  if r ∈ d.flt.c4Wait then d else { d with flt := { d.flt with c4Wait := d.flt.c4Wait ++ [r] } }.timerTime 0 (2 * milli) (.c4RegionReset r)

/-- R363: a link cannot resynchronise: C4 on GLB, and the regions of the far die are reset as one. -/
def execLinkResyncTimeout (n : Fin 5) (s : State) : Host.Outcome State Fault Refusal :=
  s.run fun d =>
    ((d.put Pg.flt FLT.DIE_STS_PIN (d.get Pg.flt FLT.DIE_STS_PIN ||| linkDies n)).fault Pg.glb 4 causeResync).each (farRegions n) fun r d => d.regionLater r

/-! Performance counters (R369 to R373). -/

/-- A new selection of counter k, in force in the cycle of its write (R370): with CLR the count and WRAPPED are zeroed, else they stand at what they were before the write, and the write itself is counted under the new selection. -/
def Dev.pmcSelect (d : Dev) (m : Master) (pg : Nat) (k : Fin 4) (v : Nat) (was : Word) : Dev :=
  let d := (d.storeReg pg (0x30 + 4 * k) v).setReg pg (0x40 + 8 * k) (if bit v 29 then 0 else was)
  let d := ({ d with cyc := d.cyc.filter fun e => e.1 ≠ 4 * pg + k.val }).cycleFollow pg k
  d.when (d.on pg (HDR.PMC_SEL_EN k) && d.get pg (HDR.PMC_SEL_EVENT k) == 3 && !d.on pg HDR.PAGE_CTL_FREEZE && d.domainOn pg &&
    (!d.on pg (HDR.PMC_SEL_FILT k) || d.passes { master := some m, addr := some (4096 * pg + 0x30 + 4 * k) })) fun d => d.pmcStep pg k

/-- R370, R371: a write of PMC_SELk; with CLR the count and WRAPPED are zeroed. -/
def execPmcSelWrite (m : Master) (pg : Page) (k : Fin 4) (v : Nat) (s : State) : Host.Outcome State Fault Refusal :=
  s.run fun d =>
    let d := d.cycleSync pg k
    d.write m pg (0x30 + 4 * k) v fun e => e.pmcSelect m pg k v (d.reg pg (0x40 + 8 * k))

/-- R372: PMC_RD_CMD LATCH. -/
def execPmcLatch (m : Master) (s : State) : Host.Outcome State Fault Refusal :=
  s.run fun d => d.write m Pg.pmc 0x104 1 fun d => d.readerCopy (d.granted kindReader 0)

/-- R372: with AUTO = 1 the copy is made every PERIOD ms. -/
def execPmcAutoLatch (s : State) : Host.Outcome State Fault Refusal :=
  s.run fun d =>
    if d.on Pg.pmc PMC.CTL_AUTO then (d.readerCopy (d.granted kindReader 0)).timer (max 1 (d.get Pg.pmc PMC.CTL_PERIOD) * milli) .pmcAutoLatch else d

/-- R369: a write of the filter applies from the next cycle. -/
def execPmcFilterWrite (m : Master) (off v : Nat) (s : State) : Host.Outcome State Fault Refusal :=
  s.run fun d => d.writeStore m Pg.pmc off v

end Sys2Proof.Machine
end

