-- ==== Sys2Proof/Machine/Snap.lean ====
section
/-! DEFINITION. Page snapshots (R73, R445): the values that are computed at the moment of a snapshot, and the latched set. -/

namespace Sys2Proof.Machine

/-- The offsets at which the registers of a row start. -/
def RegDesc.starts (r : RegDesc) : List Nat :=
  (List.range r.count).flatMap fun i => (List.range r.count2).map fun j => r.off + r.stride * i + r.stride2 * j

/-- Bring the registers of a timescale page up to date (R43, R73, R74). -/
def Dev.refreshTs (d : Dev) (n : Ts) : Dev :=
  let pg := Pg.ts n
  let d := (d.put pg TS.TIME_SNAP (time96 (d.time16 n))).put pg TS.MEC_SNAP_MEC d.now
  let d := (d.showSlew n).puti pg TS.STEP_ACC_ACC (tdiv d.ts[n].stepSum (2 ^ 48))
  let d := d.put pg TS.STEP_STS_ARM_LEFT (d.armLeft n)
  if n = 0 then
    (d.puti pg TSA.XTS_OFF_OFF (tdiv d.xts (2 ^ 32))).each (List.finRange 48) fun i d => d.showCorr i
  else d

/-- The tokens and drops of the fairness bucket shown (R248, R266). -/
def Dev.bucketShow (d : Dev) : Dev :=
  let pg := Pg.rsp 1
  let k := sget (fun _ => ({} : Bucket)) d.rsp.buckets (d.get pg RSP1.FB_IDX_B)
  let whole (t : Nat) := min 0xFFFF (t / token)
  ((d.put pg RSP1.FB_TOK_PIPE (whole k.pipe)).put pg RSP1.FB_TOK_CRYPTO (whole k.crypto)).put pg RSP1.FB_DROP_COUNT k.drops

/-- The spares and corrected errors of the bank shown: the spares are fuses of the bank (R16, R284, R288). -/
def Dev.bankShow (d : Dev) : Dev :=
  let b := d.get Pg.cst CST.RPR_IDX_BANK
  (d.put Pg.cst CST.BANK_CE_COUNT (sget (fun _ => 0) d.cst.bankCe b)).setReg Pg.cst 0x184
    (BitVec.ofNat 96 (Config.fuse (4096 * Pg.cst + 0x184 + 2 ^ 32 * b) &&& 0x87FFFFFF))

/-- The entry of a lane queue shown (R291). -/
def Dev.queueShow (d : Dev) (n : Fin 16) : Dev :=
  let pg := Pg.cl n
  match d.lane[n].queue[d.get pg CL.QIDX_IDX]? with
  | some o => ((d.put pg CL.QENT (o.op * 2 ^ 28 + o.slot % 256 * 2 ^ 20 + o.port * 2 ^ 15)).put pg CL.QEP_EPOCH o.epoch)
  | none => (d.put pg CL.QENT 0).put pg CL.QEP_EPOCH 0

/-- The check value of the key shown (R315). -/
def Dev.kcvShow (d : Dev) : Dev :=
  let pg := Pg.key 3
  let k := d.get pg KEY3.IDX_SLOT
  let st := d.keyState k
  d.put pg KEY3.KCV_KCV (if st = keyActive ∨ st = keyStale then unoct ((stdOctets fnHmac (d.keyMat k ++ [75, 67, 86])).take 4) else 0)

/-- The journal phase of the key command in progress (R300, R314). -/
def Dev.journalShow (d : Dev) : Dev :=
  d.put (Pg.key 0) KEY0.JRNL_STS_PHASE (match d.key.run with
    | none => 0
    | some r => if d.freeNs < r.start + 6 * micro then 0 else if d.freeNs < r.start + 9 * micro then 1 else 2)

/-- Percent of the loader's running stage (R434). -/
def Dev.progressShow (d : Dev) : Dev :=
  let p := d.ldr.jnl.phase
  let left := d.left (if p = phLoading then .loadComplete else .copyDone)
  let spent := d.freeNs - d.ldr.began
  if p = phLoading ∨ (phCopyRet ≤ p ∧ p ≠ phTrial) then d.put Pg.ldr LDR.STS_PROGRESS (100 * spent / max 1 (spent + left)) else d

/-- τ as SVCn_TAU shows it: the engine time since the last update in µs, rounded up (R49, R116). -/
def Dev.tauShow (d : Dev) (n : Ts) : Dev := d.put (Pg.svc n) SVC.TAU_TAU (cdiv (d.stepFree n - d.svc[n].updAt).toNat (micro * 2 ^ 48))

/-- Age of the newest kept ephemeris in minutes (R141, R147). -/
def Dev.keptAge (d : Dev) : Dev :=
  match d.gnss.eph.map (·.2) with
  | [] => d
  | x :: l => d.put (Pg.gnss 6) GNSS6.KEPT_STS_AGE (min 0xFFFF (((d.stepFree 0).toNat / accSecond - l.foldl max x) / 60))

/-- The cave oscillator is calibrated against OSC while it is present and not replaced by the crystal (R376, R396). -/
def Dev.caveCal (d : Dev) : Bool :=
  !d.on Pg.clkd CLKD.CAVE_CTL_XTAL && (d.on Pg.clkd CLKD.STS_OSC_PRESENT || d.pwr.oscLost.any fun t => decide (d.freeNs ≤ t + 2 * second))

/-- Bring the registers of a page that follow the time, or are computed when they are shown, up to date. -/
def Dev.refresh (d : Dev) (pg : Nat) : Dev :=
  let d := d.cyclesOf pg
  if pg = Pg.ts 0 then d.refreshTs 0
  else if pg = Pg.ts 1 then d.refreshTs 1
  else if pg = Pg.svc 0 ∨ pg = Pg.svc 1 then d.tauShow (Fin.ofNat 2 (pg - Pg.svc 0))
  else if pg = Pg.hld then (d.hldFollow 0).hldFollow 1
  else if pg = Pg.cko then d.each (List.finRange 16) fun (m : Fin 16) d =>
    d.when (d.on Pg.cko (CKO.STS_RUNNING m)) fun d => d.put Pg.cko (CKO.STS_PH_CUR m) (d.ckoPhase m)
  else if Pg.tdc 0 ≤ pg ∧ pg ≤ Pg.tdcCal then d.tdcRefresh pg
  else if pg = Pg.rsp 1 then d.bucketShow.reservedShow
  else if pg = Pg.rsp 3 then (d.smearShow 0).smearShow 1
  else if pg = Pg.cst then d.bankShow
  else if pg = Pg.key 0 then d.journalShow
  else if pg = Pg.key 3 then d.kcvShow
  else if pg = Pg.gnss 3 then
    let i := d.get pg GNSS3.CH_IDX_IDX
    (d.upGnss fun g => { g with chLat := g.ch }).setReg pg 0x104 (BitVec.ofNat 96 (if i < 96 then d.chan i else 0))
  else if pg = Pg.gnss 6 then d.keptAge
  else if pg = Pg.rec then d.recWindow
  else if pg = Pg.clkd then d.putb pg CLKD.STS_CAVE_CAL d.caveCal
  else if pg = Pg.plk then d.putb pg PLK.STS_FIT d.fit
  else if pg = Pg.ldr then d.progressShow
  else
    let d := d.each (List.finRange 19) fun (k : Fin 19) d => d.when (monPg k.val == pg) fun d => d.mput k MON.STS_TIMER (d.timerLeft k)
    let d := d.each (List.finRange 24) fun (p : Fin 24) d => d.when (Pg.pts p.val == pg) fun d => d.ptsRefresh p
    let d := d.each (List.finRange 16) fun (n : Fin 16) d => d.when (Pg.cl n.val == pg) fun d => d.queueShow n
    d.each (List.finRange 4) fun (p : Fin 4) d => d.when (Pg.aud p.val == pg) fun d => d.audRefresh p

/-- The latched values of a page as they stand; those of a dark block are its reset values (R445). -/
def Dev.latchedSet (d : Dev) (pg : Nat) : List (Nat × Word) :=
  ((pageRegs pg).filter (·.latched)).flatMap fun r => r.starts.map fun o =>
    (4096 * pg + o, if d.domainOn pg || o < 0x100 then d.reg pg o else resetWord (4096 * pg + o))

/-- Start a snapshot of a page; one in progress absorbs it (R445). -/
def Dev.snapStart (d : Dev) (pg : Nat) : Dev :=
  if pg ∈ d.snapping then d else
  let d := d.refresh pg
  ({ d with snapping := d.snapping ++ [pg], shadow := d.shadow ++ d.latchedSet pg }.put pg HDR.SNAP_STS_VALID 0).stampAs pg 3 d.now |>.after 16 (.snapDone ⟨pg % 1024, by omega⟩)

/-- Complete a snapshot: the set changes at once, VALID is set and SEQ counts (R445). -/
def Dev.snapFinish (d : Dev) (pg : Nat) : Dev :=
  if pg ∈ d.snapping then
    let mine := d.shadow.filter fun e => e.1 / 4096 = pg
    let d := { d with
      snapping := d.snapping.filter (· ≠ pg), shadow := d.shadow.filter fun e => e.1 / 4096 ≠ pg,
      lat := mine.foldl (fun l (e : Nat × Word) => sset resetWord l e.1 e.2) d.lat }
    (d.put pg HDR.SNAP_STS_VALID 1).put pg HDR.SNAP_STS_SEQ (d.get pg HDR.SNAP_STS_SEQ + 1)
  else d

/-- A write of SNAP_CTL; JOINT on the TSA page takes TSB at the same MEC (R73, R445). -/
def Dev.writeSnap (d : Dev) (m : Master) (pg v : Nat) : Dev :=
  d.write m pg 0x70 v fun d =>
    if bit v 0 then
      let d := d.snapStart pg
      if bit v 1 && pg == Pg.ts 0 then d.snapStart (Pg.ts 1) else d
    else d

end Sys2Proof.Machine
end

