-- ==== Sys2Proof/Machine/Host.lean ====
section
/-! DEFINITION. The commands of the host interface (R436 to R454): snapshots, the common header, interrupts and the PCIe link. -/

namespace Sys2Proof.Machine

/-! Snapshots (R445). -/

/-- R445: a write of SNAP_CTL. -/
def execSnap (m : Master) (pg : Fin 1024) (v : Nat) (s : State) : Host.Outcome State Fault Refusal :=
  s.run fun d => d.writeSnap m pg v

/-- R445: the latched set is complete. -/
def execSnapDone (pg : Page) (s : State) : Host.Outcome State Fault Refusal :=
  s.run fun d => d.snapFinish pg

/-! The common header (R442, R443). -/

/-- PAGE_CTL takes a value: EN and FREEZE are stored, and the counters of the page follow (R443). -/
def Dev.pageCtlSet (d : Dev) (pg v : Nat) : Dev :=
  (((d.cyclesOf pg).storeReg pg 0x08 v).each [0, 1, 2, 3] fun k d => d.cycleFollow pg k).resum pg

/-- A write of PAGE_CTL: EN and FREEZE are stored, and SOFT_RST resets the page (R443). -/
def pageCtl (r : Words × Dev) (m : Master) (pg v : Nat) : Words × Dev :=
  match r.2.gate m pg 0x08 with
  | .served =>
    let q : Words × Dev := (r.1, (r.2.served m pg 0x08 v).pageCtlSet pg v)
    if bit v 0 then (match q.2.within pg with
      | some r => (q.1, q.2.absorb r)
      | none => softPage q pg) else q
  | g => (r.1, r.2.discard g pg)

/-- R443: PAGE_CTL written with SOFT_RST = 1. -/
def execSoftRst (m : Master) (pg : Page) (v : Nat) (s : State) : Host.Outcome State Fault Refusal :=
  s.runStore fun st d => pageCtl (st, d) m pg (v ||| 1)

/-- R443: PAGE_CTL written with a value of FREEZE, which stops or restarts the counters of the page. -/
def execFreezeWrite (m : Master) (pg : Page) (v : Nat) (s : State) : Host.Outcome State Fault Refusal :=
  s.runStore fun st d => pageCtl (st, d) m pg v

/-- A vector that was asserted and is left so by a served write sends a further message (R451). -/
def Dev.resend (d : Dev) (pg : Nat) (f : Dev → Dev) : Dev :=
  match d.route (slotOf pg) with
  | none => f d
  | some fv =>
    let was := d.asserted fv
    let d := f d
    d.when (was && d.asserted fv) fun d => d.sendMsix fv

/-- R442, R451: a W1C of INT_STS. -/
def execIntStsClear (m : Master) (pg : Page) (v : Nat) (s : State) : Host.Outcome State Fault Refusal :=
  s.run fun d => d.write m pg 0x10 v fun d => d.resend pg fun d => (d.storeReg pg 0x10 v).resum pg

/-- Set the bits of INT_STS that are 1 in a value (R442). -/
def Dev.forceInt (d : Dev) (pg v : Nat) : Dev :=
  if v % 2 ^ 32 = 0 then d
  else d.intBits pg (v % 2 ^ 32)

/-- R442: a write of INT_FORCE sets the bits of INT_STS that are 1. -/
def execIntForce (m : Master) (pg : Page) (v : Nat) (s : State) : Host.Outcome State Fault Refusal :=
  s.run fun d => d.write m pg 0x18 v fun d => d.forceInt pg v

/-- R442, R451: a write of INT_EN. -/
def execIntEnWrite (m : Master) (pg : Page) (v : Nat) (s : State) : Host.Outcome State Fault Refusal :=
  s.run fun d => d.write m pg 0x14 v fun d => d.resend pg fun d => (d.storeReg pg 0x14 v).resum pg

/-! MSI-X (R439, R451, R453). -/

/-- The function of an external PCIe master. -/
def pfOf : Master → Option Nat
  | .pf0 => some 0
  | .pf1 => some 1
  | .pf2 => some 2
  | _ => none

/-- The mask bit of a vector fell: a pending message is sent while the vector is still asserted (R451). -/
def Dev.unmasked (d : Dev) (fv : Nat × Nat) : Dev :=
  if d.masked fv || !d.hif.pba.contains fv then d
  else ({ d with hif := { d.hif with pba := d.hif.pba.filter (· ≠ fv) } }).when (d.asserted fv) fun d => d.sendMsix fv

/-- A write to the MSI-X table or the PBA, at GLB offsets 0x800 to 0xC07: each function reaches its own, and the PBA is read only (R437, R439, R451). -/
def Dev.msixWrite (d : Dev) (m : Master) (off v : Nat) : Dev :=
  match pfOf m with
  | none => d.discard .refused Pg.glb
  | some f =>
    if d.inCave then d
    else
      let d := d.served m Pg.glb off v
      if 0xC00 ≤ off then d
      else
        let k := (off - 0x800) / 4
        let d := { d with hif := { d.hif with msix := sset (fun k => if k % 4 = 3 then 1 else 0) d.hif.msix (256 * f + k) (v % 2 ^ 32) } }
        d.when (k % 4 == 3) fun d => d.unmasked (f, k / 4)

/-- R451: a vector is unmasked. -/
def execMsixUnmask (m : Master) (vec : Fin 64) (s : State) : Host.Outcome State Fault Refusal :=
  s.run fun d => d.msixWrite m (0x80C + 16 * vec.val) 0

/-- The endpoint and its MSI-X tables return to reset; messages that were pending stay so behind the masks (R467, log entry 31). -/
def Dev.perst (d : Dev) : Dev :=
  let d := (d.put Pg.hif HIF.STS_LINK_UP 0).put Pg.hif HIF.STS_WIDTH 0
  { (d.put Pg.hif HIF.STS_SPEED 0) with hif := { d.hif with msix := [], held := [], pba := d.hif.pba ++ d.hif.held.filter fun fv => !d.hif.pba.contains fv } }

/-- R467: PCIE_PERST_N resets the endpoint and its MSI-X tables alone. -/
def execPciePerst (s : State) : Host.Outcome State Fault Refusal :=
  s.run Dev.perst

/-- The link is up with its width and speed: what waited is written and held messages are sent (R389, R453). -/
def Dev.pcieUp (d : Dev) (width speed : Nat) : Dev :=
  let held := d.hif.held
  let frames := d.hif.waiting
  let d := ((d.put Pg.hif HIF.STS_LINK_UP 1).put Pg.hif HIF.STS_WIDTH width).put Pg.hif HIF.STS_SPEED speed
  let d := { d with hif := { d.hif with held := [], waiting := [], stagedAt := d.freeNs } }
  let d := d.each held fun fv d => d.sendMsix fv
  let d := d.audFlush
  let d := d.streamKick
  d.each frames fun i d => d.after 0 i

/-- R389, R453: the link is up, and Cave's exit may end. -/
def execPcieLinkUp (width speed : Nat) (s : State) : Host.Outcome State Fault Refusal :=
  s.run fun d => (d.pcieUp width speed).when (d.caveState == caveExiting) fun d => d.after 0 .caveExitDone

/-- R453: the link goes down or retrains. -/
def execPcieLinkDown (s : State) : Host.Outcome State Fault Refusal :=
  s.run fun d => d.put Pg.hif HIF.STS_LINK_UP 0

/-- R449: TEST_DIS, which PF0 alone writes. -/
def execTestDis (m : Master) (s : State) : Host.Outcome State Fault Refusal :=
  s.run fun d => d.writeOr m Pg.glb 0x124 1 (m == .pf0) (fun d => d.count Pg.glb HDR.PAGE_STS_WR_DISC) fun d => d.storeReg Pg.glb 0x124 1

end Sys2Proof.Machine
end

