-- ==== Sys2Proof/Machine/Reset.lean ====
section
/-! DEFINITION. The resets (R17 to R21, R361, R392, R449, R456, R458) and the die links that are measured again (R26). -/

namespace Sys2Proof.Machine

/-- R456: the supplies have risen: the package starts from its power-on reset. -/
def execPowerOn (s : State) : Host.Outcome State Fault Refusal :=
  s.runReset fun st d => packageBegin (st, d) true

/-- R392: PKG_RST_N makes a package reset; during the flush of a power failure it waits for the flush to end, at most 1 ms. -/
def execPkgRstN (s : State) : Host.Outcome State Fault Refusal :=
  s.runReset fun st d =>
    if d.powerFails && d.rcd.flushing.isSome && !d.pwr.rst then (st, (d.upPwr fun e => { e with rst := true }).timerTime 0 milli .pkgRstN)
    else if d.pwr.rst && d.waiting .pkgRstN then (st, d)
    else packageBegin (st, d)

/-- R458: a Cave rail fails: an internal power-on reset. -/
def execCaveBrownout (s : State) : Host.Outcome State Fault Refusal :=
  s.runReset fun st d => if d.inCave then packageBegin (st, d) else (st, d)

/-- The value of a GLB_RST_CMD write (R449). -/
def rstWord (key target op : Nat) : Nat := (key % 256) <<< 24 + (target % 16) <<< 16 + op

/-- A write of GLB_RST_CMD: without its key it is ignored; a reset command served sets INT_STS bit 2 (R449). -/
def rstCmd (r : Words × Dev) (m : Master) (key target op : Nat) (eff : Words × Dev → Words × Dev) : Words × Dev :=
  match r.2.gate m Pg.glb 0x108 with
  | .served =>
    let d := r.2.served m Pg.glb 0x108 (rstWord key target op)
    if key % 256 = 0xC3 then eff (r.1, d.int Pg.glb 2) else (r.1, d)
  | g => (r.1, r.2.discard g Pg.glb)

/-- R17, R449: PACKAGE. -/
def execPackageReset (m : Master) (key : Nat) (s : State) : Host.Outcome State Fault Refusal :=
  s.runReset fun st d => rstCmd (st, d) m key 0 3 fun r => packageBegin r

/-- R17, R20, R449: REGION. -/
def execRegionCmd (m : Master) (key target : Nat) (s : State) : Host.Outcome State Fault Refusal :=
  s.runStore fun st d => rstCmd (st, d) m key target 1 fun r => match regionOf (target % 16) with
    | some x => regionAsk r x
    | none => r

/-- R17, R20, R449: DIE. -/
def execDieCmd (m : Master) (key target : Nat) (s : State) : Host.Outcome State Fault Refusal :=
  s.runStore fun st d => rstCmd (st, d) m key target 2 fun r =>
    if target % 16 = 0 then dieAsk r 0 else if target % 16 = 1 then dieAsk r 1 else r

/-- R361, R390: a C4's region reset begins; that of a region that is dark in Cave waits until Cave is left. -/
def execC4RegionReset (r : Region) (s : State) : Host.Outcome State Fault Refusal :=
  s.runStore fun st d =>
    let d := d.cancel (.c4RegionReset r)
    if r ∉ d.flt.c4Wait then (st, d)
    else if d.inCave && darkInCave r then (st, d.upPwr fun e => { e with held := if r ∈ e.held then e.held else e.held ++ [r] })
    else regionAsk (st, { d with flt := { d.flt with c4Wait := d.flt.c4Wait.filter (· ≠ r) } }) r

/-- R361: a region reset completes. -/
def execRegionResetComplete (r : Region) (s : State) : Host.Outcome State Fault Refusal :=
  s.run fun d =>
    let d := d.cancel (.regionResetComplete r)
    { d with flt := { d.flt with resetting := d.flt.resetting.filter (· ≠ r), dies := d.flt.dies.filter fun n => dieRegion n ≠ r } }

/-- R26: TDCS measures an UNCALIBRATED link again, 10 s of engine time after its last attempts and between two rotation steps, in at most three attempts and 2 ms. -/
def execLinkRemeasure (n : Fin 5) (tries : List (Int × Nat)) (s : State) : Host.Outcome State Fault Refusal :=
  s.run fun d =>
    if !d.on Pg.glb GLB.BOOT_STS_BOOT_DONE || !d.uncal n.val || d.rotPhase != 0 || decide (d.stepFree 0 < d.links[n].tried + 10 * accSecond) then d
    else
      let d := ({ d with links := d.links.set n { d.links[n] with tried := d.stepFree 0 } }).upTdcs fun e => { e with linkUntil := d.now + 2 * milli, probeFrom := d.stepFree 0 }
      let d := d.probeTo (Config.linkTap n.val % 128)
      match linkBest tries with
      | some x => d.linkGood n x
      | none => d

end Sys2Proof.Machine
end

