-- ==== Sys2Proof/Machine/Sequencer.lean ====
section
/-! DEFINITION. The commands of the sequencers: their control, their instructions, and what ends a wait or a run (R329 to R338). -/

namespace Sys2Proof.Machine

/-! Control (R330). -/

/-- The effect of a CTL write on the state (R330). -/
def Dev.seqCtl (d : Dev) (n : Fin 8) (en : Bool) : Dev :=
  let st := d.seqState n
  if !en then
    let d := d.when (st == seqFaulted) fun d => d.seqLower n
    ((d.seqUnfetch n).cancel (.triggerStart n)).seqEnter n seqOff
  else if st = seqOff ∧ d.on Pg.glb GLB.BOOT_STS_BOOT_DONE then d.seqToIdle n
  else d

/-- R330: EN written 1. -/
def execSeqEnable (m : Master) (n : Fin 8) (v : Nat) (s : State) : Host.Outcome State Fault Refusal :=
  s.run fun d => d.writeStore m (Pg.seq n) 0x100 (v % 2 ^ 31 + 2 ^ 31) fun d => d.seqCtl n true

/-- R330: EN written 0. -/
def execSeqDisable (m : Master) (n : Fin 8) (v : Nat) (s : State) : Host.Outcome State Fault Refusal :=
  s.run fun d => d.writeStore m (Pg.seq n) 0x100 (v % 2 ^ 31) fun d => d.seqCtl n false

/-- R330: START in IDLE. -/
def execSeqStart (m : Master) (n : Fin 8) (s : State) : Host.Outcome State Fault Refusal :=
  s.run fun d => d.write m (Pg.seq n) 0x104 1 fun d => d.when (d.seqState n == seqIdle) fun d => d.seqBegin n 4 (d.get (Pg.seq n) SEQ.START_ENTRY)

/-- R330: STOP in RUN or WAIT; a wait is abandoned with V7 = 0. -/
def execSeqStop (m : Master) (n : Fin 8) (s : State) : Host.Outcome State Fault Refusal :=
  s.run fun d => d.write m (Pg.seq n) 0x104 2 fun d =>
    if d.seqState n = seqRun then d.seqToIdle n
    else if d.seqState n = seqWaiting then (d.setV n 7 0).seqToIdle n else d

/-- R330: CLR_FAULT in FAULT. -/
def execClrFault (m : Master) (n : Fin 8) (s : State) : Host.Outcome State Fault Refusal :=
  s.run fun d => d.write m (Pg.seq n) 0x104 3 fun d => d.when (d.seqState n == seqFaulted) fun d => ((d.seqLower n).put (Pg.seq n) SEQ.STS_CAUSE 0).seqToIdle n

/-- R330: in IDLE the lowest enabled trigger whose event is pending starts its recipe. -/
def execTriggerStart (n : Fin 8) (s : State) : Host.Outcome State Fault Refusal :=
  s.run fun d =>
    let pg := Pg.seq n
    if d.seqState n ≠ seqIdle ∨ d.seq[n].frozen then d else
    match [0, 1, 2, 3].find? fun k => d.on pg (SEQ.TRIG_EN k) && d.evPending n (d.get pg (SEQ.TRIG_EVT k)) with
    | none => d
    | some k => (d.evClear n (d.get pg (SEQ.TRIG_EVT k))).seqBegin n k (d.get pg (SEQ.TRIG_ENTRY k))

/-- A run has gone on longer than its budget (R330). -/
def Dev.seqOverdue (d : Dev) (n : Fin 8) : Bool :=
  let e := d.seq[n]
  (d.seqState n == seqRun || d.seqState n == seqWaiting) && !e.frozen && e.budget != 0 && decide (e.runStart + e.budget * milli < d.freeNs)

/-- R330: the run has gone on longer than its budget. -/
def execSeqBudgetExpiry (n : Fin 8) (s : State) : Host.Outcome State Fault Refusal :=
  s.run fun d =>
    if d.seqOverdue n then d.seqFault n causeBudget else d

/-- A wait is judged: its condition, then its timeout; otherwise it goes on (R330, R332). -/
def Dev.seqJudge (d : Dev) (st : Words) (n : Fin 8) (w : SeqWait) : Dev :=
  let r := d.seqHolds st n w
  let d := r.2
  if r.1 then d.seqWaitOver n w true
  else if d.seq[n].deadline.any fun t => t ≤ d.now then d.seqWaitOver n w false
  else d.seqLook n w

/-- R330, R332: a wait is judged: its condition, then its timeout. -/
def execSeqWaitEnd (n : Fin 8) (s : State) : Host.Outcome State Fault Refusal :=
  s.run fun d =>
    match d.seq[n].wait with
    | none => d
    | some w => if d.seqState n ≠ seqWaiting ∨ d.seq[n].frozen then d else d.seqJudge s.store n w

/-- R337: an instruction word is written only while EN = 0, and only by PF0 and the loader. -/
def execSeqInstrWrite (m : Master) (n : Fin 8) (i : Fin 512) (v : Nat) (s : State) : Host.Outcome State Fault Refusal :=
  s.run fun d =>
    let ok := !d.on (Pg.seq n) SEQ.CTL_EN && (m == .pf0 || m == .loader)
    d.writeIf m (Pg.seq n) (0x800 + 4 * i.val) v ok SEQ.DENY_COUNT fun d => d.storeReg (Pg.seq n) (0x800 + 4 * i.val) v

/-! Instructions (R334). Each issues in RUN; in any other state it has no effect. -/

/-- R334, NOP: none. -/
def execSeqNop (n : Fin 8) (s : State) : Host.Outcome State Fault Refusal :=
  s.run fun d => d.seqIssue n fun d => d.seqNext n 1 2

/-- R334 to R337, WR: writes Va or D[d]; the address in the second word is checked as one in a data word. -/
def execSeqWr (n : Fin 8) (sp src : Bool) (va : Fin 8) (w : Fin 64) (addr : Nat) (s : State) : Host.Outcome State Fault Refusal :=
  s.run fun d => d.seqIssue n fun d =>
    if !seqAddrOk sp addr then d.seqFault n causeOperand
    else if !d.seqMayWrite n sp addr then d.seqDenied n
    else (d.seqPost n sp addr (if src then d.dataWord n w else d.v n va)).seqNext n 2 4

/-- R334 to R337, RD: a data word, or a register of BAR0 or BAR2. -/
def execSeqRd (n : Fin 8) (mode : Fin 4) (va : Fin 8) (w : Fin 64) (vb : Fin 8) (s : State) : Host.Outcome State Fault Refusal :=
  s.run fun d => d.seqIssue n fun d =>
    let st : Words := s.store
    let sp := mode == 2
    let a := if mode = 3 then d.v n vb else d.dataWord n w
    if mode = 0 then (d.setV n va (d.dataWord n w)).seqNext n 1 2
    else if !seqAddrOk sp a then d.seqFault n causeOperand
    else if !d.seqMayRead n sp then d.seqDenied n
    else
      let r := d.seqRead st n sp a
      (r.2.setV n va r.1).seqNext n 1 32

/-- R334, R336, SETB: writes 1 to bit b of [D[d]]. -/
def execSeqSetb (n : Fin 8) (sp : Bool) (b : Fin 32) (w : Fin 64) (s : State) : Host.Outcome State Fault Refusal :=
  s.run fun d => d.seqIssue n fun d => d.seqBit n sp b w true

/-- R334, R336, CLRB: writes 0 to bit b of [D[d]]. -/
def execSeqClrb (n : Fin 8) (sp : Bool) (b : Fin 32) (w : Fin 64) (s : State) : Host.Outcome State Fault Refusal :=
  s.run fun d => d.seqIssue n fun d => d.seqBit n sp b w false

/-- R334, R335, WAITB: waits until bit b of [D[d]] reads VAL. -/
def execSeqWaitb (n : Fin 8) (sp : Bool) (b : Fin 32) (val : Bool) (w : Fin 64) (unit : Fin 4) (tmo : Nat) (s : State) : Host.Outcome State Fault Refusal :=
  s.run fun d => d.seqIssue n fun d =>
    let a := d.dataWord n w
    if !seqAddrOk sp a then d.seqFault n causeOperand
    else if !d.seqMayRead n sp then d.seqDenied n
    else d.seqWait s.store n (.bit sp b a val) (seqTimeout unit tmo)

/-- R334, R335, WAITT: waits for an engine time, or for a MEC after the issue. -/
def execSeqWaitt (n : Fin 8) (rel : Bool) (ts : Ts) (w : Fin 64) (s : State) : Host.Outcome State Fault Refusal :=
  s.run fun d => d.seqIssue n fun d =>
    if rel then d.seqWait s.store n (.mec (d.now + d.dataWord n w)) none
    else if 61 < w.val then d.seqFault n causeOperand
    else
      let t := d.dataWord n w + d.dataWord n (w + 1) * 2 ^ 32 + d.dataWord n (w + 2) * 2 ^ 64
      d.seqWait s.store n (.time ts (untime96 t)) none

/-- R332, R334, WAITE: waits for an occurrence; with OLD = 0 an older one is cleared first. -/
def execSeqWaite (n : Fin 8) (e : Fin 128) (old : Bool) (unit : Fin 4) (tmo : Nat) (s : State) : Host.Outcome State Fault Refusal :=
  s.run fun d => d.seqIssue n fun d => (if old then d else d.evClear n e).seqWait s.store n (.event e) (seqTimeout unit tmo)

/-- R334, JMP. -/
def execSeqJmp (n : Fin 8) (t : Fin 512) (s : State) : Host.Outcome State Fault Refusal :=
  s.run fun d => d.seqIssue n fun d => d.seqFetch n t 2

/-- R334, JZ. -/
def execSeqJz (n : Fin 8) (va : Fin 8) (t : Fin 512) (s : State) : Host.Outcome State Fault Refusal :=
  s.run fun d => d.seqIssue n fun d => if d.v n va = 0 then d.seqFetch n t 2 else d.seqNext n 1 2

/-- R334, JNZ. -/
def execSeqJnz (n : Fin 8) (va : Fin 8) (t : Fin 512) (s : State) : Host.Outcome State Fault Refusal :=
  s.run fun d => d.seqIssue n fun d => if d.v n va ≠ 0 then d.seqFetch n t 2 else d.seqNext n 1 2

/-- R334, DJNZ: modulo 2^32. -/
def execSeqDjnz (n : Fin 8) (va : Fin 8) (t : Fin 512) (s : State) : Host.Outcome State Fault Refusal :=
  s.run fun d => d.seqIssue n fun d =>
    let x := (d.v n va + 2 ^ 32 - 1) % 2 ^ 32
    let d := d.setV n va x
    if x ≠ 0 then d.seqFetch n t 2 else d.seqNext n 1 2

/-- The operand of an ALU instruction: K zero-extended, or Vb. -/
def Dev.seqOperand (d : Dev) (n : Fin 8) (imm : Bool) (vb : Fin 8) (k : Nat) : Nat := if imm then k % 2 ^ 16 else d.v n vb

/-- R334, ADD. -/
def execSeqAdd (n : Fin 8) (va : Fin 8) (imm : Bool) (vb : Fin 8) (k : Nat) (s : State) : Host.Outcome State Fault Refusal :=
  s.run fun d => d.seqIssue n fun d => (d.setV n va (d.v n va + d.seqOperand n imm vb k)).seqNext n 1 2

/-- R334, SUB. -/
def execSeqSub (n : Fin 8) (va : Fin 8) (imm : Bool) (vb : Fin 8) (k : Nat) (s : State) : Host.Outcome State Fault Refusal :=
  s.run fun d => d.seqIssue n fun d => (d.setV n va (d.v n va + 2 ^ 32 - d.seqOperand n imm vb k)).seqNext n 1 2

/-- R334, AND. -/
def execSeqAnd (n : Fin 8) (va : Fin 8) (imm : Bool) (vb : Fin 8) (k : Nat) (s : State) : Host.Outcome State Fault Refusal :=
  s.run fun d => d.seqIssue n fun d => (d.setV n va (d.v n va &&& d.seqOperand n imm vb k)).seqNext n 1 2

/-- R334, OR. -/
def execSeqOr (n : Fin 8) (va : Fin 8) (imm : Bool) (vb : Fin 8) (k : Nat) (s : State) : Host.Outcome State Fault Refusal :=
  s.run fun d => d.seqIssue n fun d => (d.setV n va (d.v n va ||| d.seqOperand n imm vb k)).seqNext n 1 2

/-- R338, REC: a SEQ_USER record with TAG, PC and V0 to V6. -/
def execSeqRec (n : Fin 8) (tag : Nat) (s : State) : Host.Outcome State Fault Refusal :=
  s.run fun d => d.seqIssue n fun d =>
    let vs := (List.finRange 7).flatMap fun j => oct 4 (d.v n ⟨j.val, by omega⟩)
    (d.record 0x81 (srcMaster (.seq n)) (oct 4 (tag % 2 ^ 16 + d.seqPc n * 2 ^ 16) ++ vs)).seqNext n 1 2

/-- R334, R348, SNAP: a recorder snapshot of list l. -/
def execSeqSnap (n : Fin 8) (l : Fin 16) (s : State) : Host.Outcome State Fault Refusal :=
  s.run fun d => d.seqIssue n fun d => (d.askSnap ⟨l, 0, srcMaster (.seq n)⟩).seqNext n 1 2

/-- R334, R335, R364, RAISE: a software event, or a fault pulse on the own page; class 4 only under C4_FORCE. -/
def execSeqRaise (n : Fin 8) (kind : Bool) (x : Fin 16) (s : State) : Host.Outcome State Fault Refusal :=
  s.run fun d => d.seqIssue n fun d =>
    if !kind then ((d.event (96 + x)).int (Pg.seq n) 3).seqNext n 1 2
    else if 4 < x.val then d.seqFault n causeOperand
    else if x.val = 4 ∧ !d.on Pg.flt FLT.CTL_C4_FORCE then (d.count Pg.flt FLT.WR_DISC_COUNT).seqNext n 1 2
    else (d.fault (Pg.seq n) x causeForce).seqNext n 1 2

/-- R330, HALT. -/
def execSeqHalt (n : Fin 8) (s : State) : Host.Outcome State Fault Refusal :=
  s.run fun d => d.seqIssue n fun d => (d.int (Pg.seq n) 1).seqToIdle n

/-- The stack with the address after this instruction on top (R330). -/
def Dev.seqPushed (d : Dev) (n : Fin 8) : Nat :=
  let k := d.get (Pg.seq n) SEQ.STS_DEPTH
  let r := d.get (Pg.seq n) SEQ.STACK_RET
  r - (r &&& 511 <<< (9 * k)) + ((d.seqPc n + 1) % 512) <<< (9 * k)

/-- R330, R334, CALL. -/
def execSeqCall (n : Fin 8) (t : Fin 512) (s : State) : Host.Outcome State Fault Refusal :=
  s.run fun d => d.seqIssue n fun d =>
    let pg := Pg.seq n
    let k := d.get pg SEQ.STS_DEPTH
    if 4 ≤ k then d.seqFault n causeStack
    else
      ((d.put pg SEQ.STACK_RET (d.seqPushed n)).put pg SEQ.STS_DEPTH (k + 1)).seqFetch n t 2

/-- R330, R334, RET. -/
def execSeqRet (n : Fin 8) (s : State) : Host.Outcome State Fault Refusal :=
  s.run fun d => d.seqIssue n fun d =>
    let pg := Pg.seq n
    let k := d.get pg SEQ.STS_DEPTH
    if k = 0 then d.seqFault n causeStack
    else
      let t := (d.get pg SEQ.STACK_RET >>> (9 * (k - 1))) % 512
      (d.put pg SEQ.STS_DEPTH (k - 1)).seqFetch n t 2

/-- R330: a fetched word that cannot run: opcode 0x15 to 0x1F, or a parity error. -/
def execSeqIllegal (n : Fin 8) (parity : Bool) (s : State) : Host.Outcome State Fault Refusal :=
  s.run fun d => d.seqIssue n fun d => d.seqFault n (if parity then causeParity else causeOpcode)

end Sys2Proof.Machine
end

