-- ==== Sys2Proof/Machine/Service.lean ====
section
/-! DEFINITION. The commands of the responder (R235 to R271). -/

namespace Sys2Proof.Machine

/-- R239, R240, R243, R246 to R248, R257, R258: a Delay_Req is admitted and answered, or dropped. -/
def execDelayReqRx (p : Fin 24) (x : DreqIn) (s : State) : Host.Outcome State Fault Refusal :=
  s.runStore fun st d => delayReq (st, d) p x

/-- R239, R247, R248, R259: an NTP request is admitted and answered, or dropped. -/
def execNtpRequestRx (p : Fin 24) (x : NtpIn) (s : State) : Host.Outcome State Fault Refusal :=
  s.run fun d => d.ntpRequest p x

/-- R239, R262, R290, R304: an NTS request enters a lane, receives a NAK, or is dropped. -/
def execNtsRequestRx (p : Fin 24) (x : NtpIn) (s : State) : Host.Outcome State Fault Refusal :=
  s.run fun d => d.ntsRequest p x

/-- R235, R252, R258: a Signaling message is answered, waits for the engine or a lane, or is dropped. -/
def execSignalingRx (p : Fin 24) (x : SigIn) (s : State) : Host.Outcome State Fault Refusal :=
  s.runStore fun st d => signaling (st, d) p x

/-- Divide an epoch's capacity among the active buckets: each takes its share up to the depth, the rest is the carry (R248). -/
def shareOut (u n depth : Nat) (get : Bucket → Nat) (set : Bucket → Nat → Bucket) (act : Bucket → Bool) (l : List (Nat × Bucket)) : List (Nat × Bucket) × Nat :=
  if n = 0 then (l, 0) else
  let q := u / n
  l.foldr (fun e (r : List (Nat × Bucket) × Nat) =>
    if act e.2 then
      let v := min (max depth (get e.2)) (get e.2 + q)
      ((e.1, set e.2 v) :: r.1, r.2 - (v - get e.2))
    else (e :: r.1, r.2)) ([], u)

/-- The buckets that the reserved work of an epoch beyond its capacity sheds: in ascending order from a position, until what they asked for makes up the excess (R248). -/
def shedOf (pos xp xc : Nat) (asked : List (Nat × Nat × Nat)) : List Nat :=
  let order := (asked.filter fun e => pos ≤ e.1) ++ asked.filter fun e => e.1 < pos
  (order.foldl (fun (a : Nat × Nat × List Nat) e => if a.1 = 0 ∧ a.2.1 = 0 then a else (a.1 - e.2.1, a.2.1 - e.2.2, a.2.2 ++ [e.1])) (xp, xc, [])).2.2

/-- The capacity that reserved work left in an epoch is shared among the active buckets, and the next epoch begins; where reserved work alone went beyond the capacity, the next one sheds the excess by buckets (R248). -/
def Dev.epochShare (d : Dev) : Dev :=
  let e := d.rsp
  let idle := max 1 (d.get (Pg.rsp 1) RSP1.FB_CTL_IDLE) * milli
  let depth := max 1 (d.get (Pg.rsp 1) RSP1.FB_CTL_DEPTH) * token
  let act (b : Bucket) : Bool := decide (d.freeNs ≤ b.last + idle)
  let n := (e.buckets.filter fun b => act b.2).length
  let up := d.epochP + e.carryP - e.usedP
  let uc := d.epochC + e.carryC - e.usedC
  let (l, cp) := shareOut up n depth (·.pipe) (fun b v => { b with pipe := v }) act e.buckets
  let (l, cc) := shareOut uc n depth (·.crypto) (fun b v => { b with crypto := v }) act l
  d.upRsp fun e => { e with
    buckets := l, carryP := cp, carryC := cc,
    prevP := e.usedP, prevC := e.usedC, usedP := 0, usedC := 0, lackP := 0, lackC := 0, asked := [],
    pos := (e.pos + 1) % 4096, shed := shedOf ((e.pos + 1) % 4096) (e.usedP + e.lackP - d.epochP) (e.usedC + e.lackC - d.epochC) e.asked, epP := d.epochP, epC := d.epochC }

/-- R248: every 1 µs the capacity that reserved work left is shared among the buckets with a request in the last IDLE ms. -/
def execAdmissionEpoch (s : State) : Host.Outcome State Fault Refusal :=
  s.run fun d => d.epochShare

/-- The slot that the timing wheel serves next (R254). -/
def Dev.nextSlot (d : Dev) : Nat :=
  match d.rsp.slot with
  | some k => k + 1
  | none => d.wheelNow

/-- The timing wheel serves a slot, shows it with the lag, and goes on at once with one that waits (R254, R255). -/
def wheelServe (slot : Nat) (q : Words × Dev) : Words × Dev :=
  let d := q.2
  let now := d.wheelNow
  let lag := min 0xFFFF (max (now - slot) (d.get (Pg.rsp 7) RSP7.WHEEL_STS_LAG))
  let d := ((d.upRsp fun e => { e with slot := some slot }).put (Pg.rsp 7) RSP7.WHEEL_STS_SLOT (slot % 65536)).put (Pg.rsp 7) RSP7.WHEEL_STS_LAG lag
  let r := wheel slot (q.1, d)
  (r.1, r.2.when (decide (slot < now)) fun d => d.timer 0 .wheelSlot)

/-- R235, R250, R254, R255: the timing wheel serves the next slot of step-free time; while it is not admitted its slots wait, and LAG shows the largest delay. -/
def execWheelSlot (s : State) : Host.Outcome State Fault Refusal :=
  s.runStore fun st d =>
    let now := d.wheelNow
    let slot := d.nextSlot
    if !d.granted kindSignal 0 || decide (now < slot) then (st, d)
    else wheelServe slot (st, d)

/-- An ESMC information PDU, or an event PDU when the QL has changed, is queued (R239, R263). -/
def Dev.esmcSend (d : Dev) (p : Fin 24) : Dev :=
  let q := d.qlOf p
  let event := d.rsp.ql[p].any fun v => v != q
  let tags := d.portTags p
  let d := d.upRsp fun e => { e with ql := e.ql.set p (some q) }
  (d.rspCount cntEsmc (some 8)).txPush p { kind := .esmc, level := 2, cls := 8, len := 64, released := d.now, dst := 0x0180C2000002, mcast := true, sTci := tags.1, cTci := tags.2, fields := [b2n event, q] }

/-- R239, R263: an ESMC information PDU, or an event PDU when the QL has changed, leaves on a port. -/
def execEsmcInfoPdu (p : Fin 24) (s : State) : Host.Outcome State Fault Refusal :=
  s.run fun d => if !d.esmcOn p then d else d.esmcSend p

/-- A TSA second ends: an overload second is recorded or repeats its record, and the counts of the second start again (R239, R246, R251). -/
def Dev.secondEnds (d : Dev) : Dev :=
  let run := d.get (Pg.rsp 1) RSP1.OVL_STS_RUN
  let above := d.rsp.overload
  let pay := [6, 7, 8, 9, 10, 11, 12].flatMap fun i => oct 4 (sget (fun _ => 0) d.rsp.drops i)
  let d := if above then
      let d := ((d.put (Pg.rsp 1) RSP1.OVL_STS_OVERLOAD 1).put (Pg.rsp 1) RSP1.OVL_STS_RUN (min (run + 1) (2 ^ 30 - 1))).record 0x51 (srcPage (Pg.rsp 0)) pay (named := run != 0)
      d.when (run == 0) fun d => (d.int (Pg.rsp 0) 1).event 78
    else (d.put (Pg.rsp 1) RSP1.OVL_STS_OVERLOAD 0).put (Pg.rsp 1) RSP1.OVL_STS_RUN 0
  d.upRsp fun e => { e with nr := Vector.replicate 24 0, mcUsed := [], drops := [], overload := false }

/-- R239, R246, R251: a TSA second ends: an overload second is recorded or repeats its record, and the counts of the second start again. -/
def execOverloadSecond (s : State) : Host.Outcome State Fault Refusal :=
  s.run fun d => d.secondEnds

/-- A unit's grant has held for 1 s of engine time (R9, R250). -/
def Dev.heldLong (d : Dev) (kind inst : Nat) : Bool :=
  d.pwr.units.any fun u => u.kind == kind && u.inst == inst && u.granted.isSome && decide (u.held + second ≤ d.freeNs)

/-- R250: a unit is counted in capacity once its grant has held for 1 s without a break. -/
def execCapacityCount (kind inst : Nat) (s : State) : Host.Outcome State Fault Refusal :=
  s.run fun d =>
    if d.heldLong kind inst && !d.unitCounted kind inst then ((d.upRsp fun e => { e with counted := e.counted ++ [(kind, inst)] }).capShow).reservedShow else d

/-- Cause number of the C1 of a responder enabled without an identity (R265). -/
abbrev causeClockId : Nat := 1

/-- R238, R264, R265: a write of RSP_CTL; EN = 1 is refused while RSP_CLOCK_ID = 0. -/
def execRspEnWrite (m : Master) (v : Nat) (s : State) : Host.Outcome State Fault Refusal :=
  s.run fun d => d.write m (Pg.rsp 0) 0x100 v fun d =>
    if bit v 31 && d.get (Pg.rsp 0) RSP0.CLOCK_ID_ID == 0 then d.fault (Pg.rsp 0) 1 causeClockId
    else (d.storeReg (Pg.rsp 0) 0x100 v).readyShow

/-- The counters, their half-range bits and the lag are zeroed (R255, R270). -/
def Dev.cntZero (d : Dev) : Dev :=
  let d := d.each (List.range 32) fun i d => d.put (Pg.rsp 6) (RSP6.CNT i) 0
  (d.put (Pg.rsp 6) RSP6.CNT_HALF_HALF 0).put (Pg.rsp 7) RSP7.WHEEL_STS_LAG 0

/-- R255, R265, R270: CNT_CLR clears the counters, their half-range bits and the lag. -/
def execCntClr (m : Master) (s : State) : Host.Outcome State Fault Refusal :=
  s.run fun d => d.write m (Pg.rsp 0) 0x114 1 fun d => d.cntZero

/-- The fields of RSP_DOMd_CTL whose change removes the grants of the domain (R254). -/
def Dev.domFields (d : Dev) (k : Nat) : List Nat :=
  [RSP2.DOM_CTL_EN k, RSP2.DOM_CTL_DOMAIN k, RSP2.DOM_CTL_PROFILE k, RSP2.DOM_CTL_TRANS k, RSP2.DOM_CTL_MCAST k, RSP2.DOM_CTL_UCAST k].map fun f => d.get (Pg.rsp 2) f

/-- The grants of a domain are removed without messages (R254). -/
def domDrop (q : Words × Dev) (k : Nat) : Words × Dev :=
  let r := releaseAll q fun s i => s.fld i eDom == k && s.fld i eGranted != 0
  (r.1, (r.2.upRsp fun e => { e with mc := e.mc.filter fun x => x.1 % 8 ≠ k }).reservedShow)

/-- The fields of RSP_DOMd_CTL that decide what its grants count for in Q_p and Q_c (R246). -/
def Dev.domFlags (d : Dev) (k : Nat) : Bool × Bool := (d.on (Pg.rsp 2) (RSP2.DOM_CTL_TWO_STEP k), d.on (Pg.rsp 2) (RSP2.DOM_CTL_AUTH_REQ k))

/-- The unicast reserved work is summed again when what its grants count for has changed (R246). -/
def domRecount (changed : Bool) (q : Words × Dev) : Words × Dev := if changed then (q.1, (q.2.recount q.1).reservedShow) else q

/-- R246, R253, R254: a write of RSP_DOMd_CTL; a change of service removes the domain's grants without messages. -/
def execDomCtlWrite (m : Master) (k : Fin 8) (v : Nat) (s : State) : Host.Outcome State Fault Refusal :=
  s.runStore fun st d =>
    let old := d.domFields k
    let flags := d.domFlags k
    let d := d.writeStore m (Pg.rsp 2) (0x100 + 0x40 * k.val) v fun d => d.domCheck
    domRecount (d.domFlags k != flags) (if d.domFields k = old then (st, d) else domDrop (st, d) k)

end Sys2Proof.Machine
end

