-- ==== Sys2Proof/Machine/Synthesis.lean ====
section
/-! DEFINITION. The commands of the synthesizers and clock outputs (R149 to R163). -/

namespace Sys2Proof.Machine

/-! Writes (R155, R156, R158). -/

/-- A spread change waits for the next zero crossing of the modulation, which for a period that is no whole number of ns is found exactly; with no modulation running that is at once (R158). -/
def Dev.spreadWait (d : Dev) (n : Fin 4) : Dev :=
  match d.syn[n].spread with
  | none => d.timer 0 (.ssApply n)
  | some (c, f, _) =>
    let p := if c then 500000 else 1000000
    let t := d.now - d.syn[n].spreadAt
    d.timer (cdiv ((t * f / p + 1) * p) f - t) (.ssApply n)

/-- The effect of a write of SYNn_CTL: CLASS = 0 is refused while SS_EN = 1 (R158); EN starts or releases the synthesizer (R155). -/
def Dev.synCtl (d : Dev) (n : Fin 4) (v : Nat) : Dev :=
  let pg := Pg.syn n
  let refused := d.on pg SYN.SS_CTL_SS_EN && !bit v 30
  let d := d.storeReg pg 0x100 (if refused then v ||| 2 ^ 30 else v)
  let d := d.putb pg SYN.STS_SS_REFUSED refused
  if bit v 31 then d.synTryStart n else d.when (d.synState n != synOff) fun d => d.synRelease n

/-- R155: a write of SYNn_CTL with EN = 1. -/
def execSynEnable (m : Master) (n : Fin 4) (v : Nat) (s : State) : Host.Outcome State Fault Refusal :=
  s.run fun d => let w := v ||| 2 ^ 31; d.write m (Pg.syn n) 0x100 w fun d => d.synCtl n w

/-- R155: a write of SYNn_CTL with EN = 0. -/
def execSynDisable (m : Master) (n : Fin 4) (v : Nat) (s : State) : Host.Outcome State Fault Refusal :=
  s.run fun d => let w := v % 2 ^ 31; d.write m (Pg.syn n) 0x100 w fun d => d.synCtl n w

/-- A write that returns a running synthesizer to START with outputs held, and retries a start (R155). -/
def Dev.synReconfig (d : Dev) (n : Fin 4) : Dev :=
  let st := d.synState n
  if st = synStart then d.timer 20000 (.vcoCalDone n)
  else if st = synLocking ∨ st = synLocked ∨ st = synCoast ∨ st = synFreeze then d.synBegin n
  else d

/-- The effect of a write of SYNn_REF_CTL: a new SRC reconfigures; SCALE applies in OFF, START and TEST, and is held elsewhere (R155, R156). -/
def Dev.synRefCtl (d : Dev) (n : Fin 4) (v : Nat) : Dev :=
  let pg := Pg.syn n
  let old := d.get pg SYN.REF_CTL_SRC
  let st := d.synState n
  let d := d.storeReg pg 0x104 v
  let now := st = synOff ∨ st = synStart ∨ st = synTest
  let d := if now then d.synScale n else d.putb pg SYN.STS_SCALE_PEND (d.get pg SYN.REF_CTL_SCALE != d.syn[n].scale)
  if d.get pg SYN.REF_CTL_SRC ≠ old ∨ st = synStart then d.synReconfig n else d

/-- R155, R157: a write of REF_CTL, FREQ_INT, FREQ_FRAC or a BAND entry. -/
def execSynConfigWrite (m : Master) (n : Fin 4) (off v : Nat) (s : State) : Host.Outcome State Fault Refusal :=
  s.run fun d =>
    let pg := Pg.syn n
    if off = 0x104 then d.write m pg off v fun d => d.synRefCtl n v
    else d.writeStore m pg off v fun d =>
      if off = 0x108 ∨ off = 0x110 ∨ (0x400 ≤ off ∧ off < 0x480) then d.synReconfig n else d

/-- R156: a write of REF_CTL that changes SCALE. -/
def execScaleWrite (m : Master) (n : Fin 4) (v : Nat) (s : State) : Host.Outcome State Fault Refusal :=
  s.run fun d => d.write m (Pg.syn n) 0x104 v fun d => d.synRefCtl n v

/-- R158: a write of SS_CTL: SS_EN = 1 is refused on a precision synthesizer; an accepted change waits for its zero crossing. A write of SYNn_CTL carries CLASS. -/
def execSsCtlWrite (m : Master) (n : Fin 4) (off v : Nat) (s : State) : Host.Outcome State Fault Refusal :=
  s.run fun d =>
    let pg := Pg.syn n
    if off = 0x100 then d.write m pg 0x100 v fun d => d.synCtl n v
    else d.write m pg 0x124 v fun d =>
      let refused := bit v 31 && !d.on pg SYN.CTL_CLASS
      let d := (d.storeReg pg 0x124 (if refused then v - 2 ^ 31 else v)).putb pg SYN.STS_SS_REFUSED refused
      d.spreadWait n

/-- R158: the spread in SS_CTL comes into force at a zero crossing; while it runs ALIGNED reads 0. -/
def execSsApply (n : Fin 4) (s : State) : Host.Outcome State Fault Refusal :=
  s.run fun d =>
    let pg := Pg.syn n
    let new := if d.on pg SYN.SS_CTL_SS_EN && d.on pg SYN.CTL_CLASS then
      some (d.on pg SYN.SS_CTL_CENTER, clampN 30 63 (d.get pg SYN.SS_CTL_FMOD), min 50 (d.get pg SYN.SS_CTL_DEPTH)) else none
    let d := d.upSyn n fun e => { e with spread := new, spreadAt := d.now, eSum := 0, eNum := 0, ePer := 0 }
    d.when new.isSome fun d => d.setAligned n false

/-! The state machine (R153 to R157). -/

/-- R155, R157: the VCO is calibrated in the lowest band that fits and the loop closes, its first gate beginning when the APLL has settled in 200 µs, or no band fits. -/
def execVcoCalDone (n : Fin 4) (s : State) : Host.Outcome State Fault Refusal :=
  s.run fun d =>
    let pg := Pg.syn n
    if d.synState n ≠ synStart then d else
    match d.synBand n with
    | some b =>
      let d := d.upSyn n fun e => { e with gateAt := d.now + 200000, neffGate := e.neff, lockWord := d.get pg SYN.LOCK_CTL }
      (((d.put pg SYN.STS_BAND_SEL b).lower pg 1 synBandCause).lower pg 1 synConfig).synEnter n synLocking
    | none => d.synFail n synBandCause

/-- The outputs of a first lock: phase set, outputs start (R155). -/
def Dev.synLockedNow (d : Dev) (n : Fin 4) : Dev :=
  let first := d.syn[n].first
  let d := d.each [1, 2] fun c d => d.lower (Pg.syn n) c synUnlock
  let d := d.when first fun d => (d.phaseSet n).upSyn n fun e => { e with first := false }
  (d.lower (Pg.syn n) 1 synRefLossCause).synEnter n synLocked

/-- E of R153, rounded to the nearest count. -/
def lockTarget (gate n : Nat) : Nat := (2 ^ gate * n + 2 ^ 43) / 2 ^ 44

/-- The count error of a gate against its expected count (R153). -/
def Dev.gateDiff (d : Dev) (n : Fin 4) (count : Nat) : Int :=
  (count : Int) - lockTarget (d.synGate n) (if d.synState n = synTest then d.synNom n else d.syn[n].neffGate)

/-- What a gate of a loop in operation leads to: unlock, loss of the source, or progress toward LOCKED (R153 to R155). -/
def Dev.lockJudge (d : Dev) (n : Fin 4) (diff : Int) (y : Int) (tune : Nat) : Dev :=
  let pg := Pg.syn n
  let st := d.synState n
  let e := d.syn[n]
  let lockTol := d.lockFld n SYN.LOCK_CTL_LOCK_TOL
  let unlockTol := d.lockFld n SYN.LOCK_CTL_UNLOCK_TOL
  let lockN := max 1 (d.lockFld n SYN.LOCK_CTL_LOCK_N)
  let inLock : Bool := decide (diff.natAbs ≤ lockTol)
  let outLock : Bool := decide (max lockTol unlockTol < diff.natAbs)
  let far := !d.synOsc n && Nat.blt (clampN 1 200 (d.get pg SYN.REF_CTL_TOL) * 2 ^ 56) (y.natAbs * 10 ^ 6)
  let d := d.upSyn n fun e => { e with good := if far then 0 else e.good + 1 }
  if st = synLocked ∧ outLock then
    let d := (d.put pg SYN.STS_CAUSE synUnlock).raise pg (if d.on pg SYN.CTL_CLASS then 1 else 2) synUnlock
    ((d.upSyn n fun e => { e with frozeAt := d.freeNs }).synEnter n synFreeze).timerTime 0 (100 * milli) (.freezeTimeout n)
  else if far then d.synLose n
  else
    let d := d.upSyn n fun e => { e with tune := tune, tunes := (tune :: e.tunes).take 16 }
    if st = synLocking then
      let run := if inLock then e.inLock + 1 else if outLock then 0 else e.inLock
      let d := d.upSyn n fun e => { e with inLock := run, tried := e.tried + 1 }
      if lockN ≤ run then d.synLockedNow n
      else d.when (decide (256 ≤ d.syn[n].tried)) fun d => d.after 0 (.lockingTimeout n)
    else if st = synCoast ∧ d.synPresent n then (d.synScale n).synLock n
    else d.when (st == synFreeze && d.synPresent n && decide (d.syn[n].frozeAt + 100 * milli ≤ d.freeNs)) fun d => d.timer 0 (.freezeTimeout n)

/-- R153 to R155: a lock gate ends, judged by the N_eff and the SYNn_LOCK_CTL of its start, and the next begins. `count` is the count of VCO/16 cycles, `y` the source's departure from nominal against TCLK in 2^-56, `tune` the tuning word now. -/
def execLockGate (n : Fin 4) (count : Nat) (y : Int) (tune : Nat) (s : State) : Host.Outcome State Fault Refusal :=
  s.run fun d =>
    let st := d.synState n
    if st = synOff ∨ st = synStart then d else
    let diff := d.gateDiff n count
    let d := d.puti (Pg.syn n) SYN.CNTERR_DIFF diff
    let d := if st = synTest then d else d.lockJudge n diff y tune
    d.upSyn n fun e => { e with gateAt := d.now, neffGate := e.neff, lockWord := d.get (Pg.syn n) SYN.LOCK_CTL }

/-- R155: 256 gates without LOCKED return to START with CAUSE UNLOCK. -/
def execLockingTimeout (n : Fin 4) (s : State) : Host.Outcome State Fault Refusal :=
  s.run fun d => if d.synState n = synLocking ∧ 256 ≤ d.syn[n].tried then (d.synFail n synUnlock).synBegin n else d

/-- R154, R155: no edge of the source within 8 nominal periods; OSC and TCLK ÷ 10 are never lost. -/
def execSynRefLoss (n : Fin 4) (s : State) : Host.Outcome State Fault Refusal :=
  s.run fun d => if d.synOsc n then d else d.synLose n

/-- R155: 100 ms in FREEZE with the reference present. -/
def execFreezeTimeout (n : Fin 4) (s : State) : Host.Outcome State Fault Refusal :=
  s.run fun d => if d.synState n = synFreeze ∧ d.synPresent n ∧ d.syn[n].frozeAt + 100 * milli ≤ d.freeNs then (d.synScale n).synLock n else d

/-- A command of SYNn_CMD; one the state does not accept has no effect but its readback (R156). -/
def Dev.synCmd (d : Dev) (m : Master) (n : Fin 4) (op : Nat) (ok : Bool) (eff : Dev → Dev) : Dev :=
  d.write m (Pg.syn n) 0x128 op fun d => if ok then eff d else d

/-- Ticks of one period of the slowest enabled output of a synthesizer, rounded up. -/
def Dev.slowest (d : Dev) (n : Fin 4) : Nat :=
  (List.range 16).foldl (fun a m =>
    if d.on Pg.cko (CKO.CTL_EN m) && d.ckoSyn m == n then max a (cdiv (d.ckoDiv m * 2 ^ 57 * second) (max 1 (d.ckoVco m))) else a) 0

/-- R152, R155: ALIGN in LOCKED: outputs held for one period of the slowest, phase set, outputs start. -/
def execAlign (m : Master) (n : Fin 4) (s : State) : Host.Outcome State Fault Refusal :=
  s.run fun d => d.synCmd m n 1 (d.synState n == synLocked) fun d =>
    let t := d.slowest n
    (d.upSyn n fun e => { e with alignAt := some (d.now + t) }).ckoFollow n

/-- R155: TEST_ENTER in OFF or LOCKED. -/
def execTestEnter (m : Master) (n : Fin 4) (s : State) : Host.Outcome State Fault Refusal :=
  s.run fun d => d.synCmd m n 2 (d.synState n == synOff || d.synState n == synLocked) fun d =>
    let d := d.put (Pg.syn n) SYN.STS_BAND_SEL (d.get (Pg.syn n) SYN.TEST_BAND)
    ((d.synScale n).upSyn n fun e => { e with tune := d.get (Pg.syn n) SYN.TEST_TUNE }).synEnter n synTest

/-- R155: TEST_EXIT returns to START. -/
def execTestExit (m : Master) (n : Fin 4) (s : State) : Host.Outcome State Fault Refusal :=
  s.run fun d => d.synCmd m n 3 (d.synState n == synTest) fun d => d.synBegin n

/-- R155: RELOCK in FREEZE. -/
def execRelock (m : Master) (n : Fin 4) (s : State) : Host.Outcome State Fault Refusal :=
  s.run fun d => d.synCmd m n 4 (d.synState n == synFreeze) fun d => (d.synScale n).synLock n

/-! The DPLL (R151, R152, R158). -/

/-- R_V in 2^-48: the bound timescale's increment, its slew and the walk of the binding's correction (R151). -/
def Dev.synRate (d : Dev) (n : Fin 4) : Int :=
  let i := synConsumer n
  let walk := if d.walks i then walkTick (slewAdj d.ts[0].walkRate) d.corr[i] else 0
  d.tickAdd (d.cur i) - walk

/-- The spread of N_eff in 2^-40 at a time since it began: a triangle of the period 1/FMOD (R158). -/
def spreadOf (nom : Nat) (sp : Bool × Nat × Nat) (t : Nat) : Int :=
  let (c, f, depth) := sp
  let x := t * f % 1000000
  let full : Int := nom * depth
  if c then
    let k : Int := if x ≤ 250000 then x else if x ≤ 750000 then 500000 - x else (x : Int) - 1000000
    (full * k).tdiv (10000 * 500000)
  else
    let k : Int := if x ≤ 500000 then x else 1000000 - x
    (-full * k).tdiv (10000 * 500000)

/-- ω² e Δ and 2ζω e of the phase loop in 2^-80, for e in 2^-16 ns, a bandwidth in Hz, Δ = 1 µs and ζ = 0.707 (R151). -/
def phaseInt (e : Int) (bw : Nat) : Int := rdiv (e * (4 * piSq30 * bw * bw * 2 ^ 64 : Nat)) (10 ^ 45)
def phaseProp (e : Int) (bw : Nat) : Int := rdiv (e * (4 * 707 * pi30 * bw * 2 ^ 64 : Nat)) (10 ^ 42)

/-- One update of the type-2 phase loop: the new integrator and the fraction u of N_nom that N_φ adds, both in 2^-80. What walks the phase is held to RATE; with a source that is not derived from OSC the integrator takes in its offset, to 200 ppm (R151, R152). The discrete form is that of R115 (DEDUCED, log entry 47). -/
def phaseLaw (y e : Int) (bw rate : Nat) (osc : Bool) : Int × Int :=
  let lim : Int := (rate * 2 ^ 80 / 10 ^ 9 : Nat)
  let pull : Int := if osc then lim else (200 * 2 ^ 80 / 10 ^ 6 : Nat)
  let y := clampI (-pull) pull (y + phaseInt e bw)
  let u := y + clampI (-lim) lim (phaseProp e bw)
  (y, if osc then clampI (-lim) lim u else u)

/-- PERR and ALIGNED of a measured phase: while the spread runs PERR is the mean over a modulation period, and ALIGNED reads 0 (R152, R158, R160). -/
def Dev.dpllShow (d : Dev) (n : Fin 4) (e : Int) : Dev :=
  let pg := Pg.syn n
  match d.syn[n].spread with
  | some (_, f, _) =>
    let per := (d.now - d.syn[n].spreadAt) * f / 1000000
    if per = d.syn[n].ePer then d.upSyn n fun g => { g with eSum := g.eSum + e, eNum := g.eNum + 1 }
    else (d.when (d.syn[n].eNum != 0) fun d => d.puti pg SYN.PERR_E (tdiv d.syn[n].eSum d.syn[n].eNum)).upSyn n fun g => { g with eSum := e, eNum := 1, ePer := per }
  | none => (d.puti pg SYN.PERR_E e).setAligned n (!(d.synState n == synLocking && d.syn[n].first) && decide (e.natAbs * 1000 ≤ 10 * 65536))

/-- The update of N_eff: N_nom × R_V, the phase loop acting on PERR, and the spread (R151, R152, R158). -/
def Dev.dpllPhase (d : Dev) (n : Fin 4) (sp e : Int) : Dev :=
  let pg := Pg.syn n
  let d := d.dpllShow n e
  let nom : Int := d.synNom n
  let r := phaseLaw d.syn[n].yint (d.geti pg SYN.PERR_E) (max 1 (d.get pg SYN.DPLL_BW)) (clampN 1 100000 (d.get pg SYN.PSLEW_RATE)) (d.synOsc n)
  (d.upSyn n fun g => { g with yint := r.1 }).setNeff n ((nom * d.synRate n).tdiv (2 ^ 48) + tdiv (nom * r.2) (2 ^ 80) + sp).toNat

/-- The spread of N_eff now, 0 with none in force (R158). -/
def Dev.spreadNow (d : Dev) (n : Fin 4) : Int :=
  match d.syn[n].spread with
  | some sp => spreadOf (d.synNom n) sp (d.now - d.syn[n].spreadAt)
  | none => 0

/-- R151, R152, R158: the 1 µs update. `e` is the measured phase in 2^-16 ns. Updates are suspended in COAST (R155). -/
def execDpllUpdate (n : Fin 4) (e : Int) (s : State) : Host.Outcome State Fault Refusal :=
  s.run fun d =>
    let st := d.synState n
    if st = synOff ∨ st = synStart ∨ st = synCoast ∨ st = synTest then d
    else if d.get (Pg.syn n) SYN.CTL_MODE = 1 then (d.setNeff n ((d.synNom n : Int) + d.spreadNow n).toNat).setAligned n false
    else d.dpllPhase n (d.spreadNow n) e

/-! Clock outputs (R161). -/

/-- R161: a write of CKOm_CTL; a new SRC holds a running output and restarts it at its next grid edge. -/
def execCkoCtlWrite (m : Master) (n : Fin 16) (v : Nat) (s : State) : Host.Outcome State Fault Refusal :=
  s.run fun d =>
    let src := d.get Pg.cko (CKO.CTL_SRC n)
    let t := d.ckoEdge n (d.ckoPhase n)
    d.writeStore m Pg.cko (0x80 + 0x100 * n.val) v fun d =>
      if d.get Pg.cko (CKO.CTL_SRC n) ≠ src then d.ckoRestart n t else d.ckoEval n

/-- R161: a write of DIV holds a running output and restarts it at its next grid edge. -/
def execCkoDivWrite (m : Master) (n : Fin 16) (v : Nat) (s : State) : Host.Outcome State Fault Refusal :=
  s.run fun d =>
    let t := d.ckoEdge n (d.ckoPhase n)
    d.writeStore m Pg.cko (0x84 + 0x100 * n.val) v fun d => d.ckoRestart n t

/-- R161: a write of PHASE moves a running output by one VCO cycle per period toward it. -/
def execCkoPhaseWrite (m : Master) (n : Fin 16) (v : Nat) (s : State) : Host.Outcome State Fault Refusal :=
  s.run fun d =>
    let was := d.ckoPhase n
    d.writeStore m Pg.cko (0x8C + 0x100 * n.val) v fun d =>
      d.upCko n fun e => { e with phBase := if d.on Pg.cko (CKO.STS_RUNNING n) then was else d.get Pg.cko (CKO.PHASE_PH n) % d.ckoDiv n, phAt := d.now }

end Sys2Proof.Machine
end

