-- ==== Sys2Proof/Machine/Timescale.lean ====
section
/-! DEFINITION. The commands of the timescales (R28, R38 to R80). -/

namespace Sys2Proof.Machine

/-- Cause number of the C3 of a replica that departs from its timescale (R28). -/
abbrev causeReplica : Nat := 3

/-- R28: CORE compares a replica with its timescale: a difference above 2^-16 ns raises C3 and reloads the replica. `upset` is what the replica has departed by since the last comparison, in 2^-48 ns; the comparison of every second carries 0 (log entry 40). -/
def execReplicaCheck (n : Ts) (die : Fin 2) (upset : Int) (s : State) : Host.Outcome State Fault Refusal :=
  s.run fun d =>
    let diff := d.ts[n].replica[die] + upset
    if 2 ^ 32 < diff.natAbs then
      (d.upTs n fun e => { e with replica := e.replica.set die 0 }).fault (Pg.ts n) 3 causeReplica
    else d.upTs n fun e => { e with replica := e.replica.set die diff }

/-! Leaps (R43 to R45). -/

/-- A leap is pending (R43: 0x3 is treated as none). -/
def Dev.leapPending (d : Dev) (n : Ts) : Bool := d.get (Pg.ts n) TS.LEAP_CTL_PENDING == 1 || d.get (Pg.ts n) TS.LEAP_CTL_PENDING == 2

/-- A pending leap takes effect (R44). -/
def Dev.applyLeap (d : Dev) (n : Ts) : Dev :=
  let pg := Pg.ts n
  let kind := d.get pg TS.LEAP_CTL_PENDING
  let ofs := d.geti pg TS.UTC_OFFSET_OFFSET + (if kind = 1 then 1 else -1)
  let at_ := d.get pg TS.LEAP_AT_SEC
  let d := ((d.puti pg TS.UTC_OFFSET_OFFSET ofs).put pg TS.LEAP_CTL_PENDING 0).raiseBits pg TS.LEAP_CTL_DONE 1
  let d := d.upRsp fun e => { e with leap := e.leap.set n (some (kind, at_, d.sec n)), unsmear := e.unsmear.set n none }
  (d.record 0x11 (srcPage pg) ([n.val, kind] ++ oct 2 (unsgn 16 ofs))).event (13 + n)

/-- R44: SEC reaches LEAP_AT (or the next second after a late setting, R45) and the pending leap applies. -/
def execLeapApply (n : Ts) (s : State) : Host.Outcome State Fault Refusal :=
  s.run fun d => if d.leapPending n && decide (d.get (Pg.ts n) TS.LEAP_AT_SEC ≤ d.sec n) then d.applyLeap n else d

/-- R43, R45: a write of UTC_OFFSET stands, and clears a pending leap without applying it. -/
def execUtcOffsetWrite (m : Master) (n : Ts) (v : Nat) (s : State) : Host.Outcome State Fault Refusal :=
  s.run fun d => d.writeStore m (Pg.ts n) 0x300 v fun d =>
    let kind := d.get (Pg.ts n) TS.LEAP_CTL_PENDING
    if kind = 0 then d else ((d.smearCancel n).put (Pg.ts n) TS.LEAP_CTL_PENDING 0).record 0x12 (srcPage (Pg.ts n)) [n.val, kind]

/-- R43, R45, R261: a write of LEAP_CTL sets PENDING and clears DONE by W1C; a leap already due applies at the next second, and one taken back lets its smear walk back. -/
def execLeapPendingWrite (m : Master) (n : Ts) (v : Nat) (s : State) : Host.Outcome State Fault Refusal :=
  s.run fun d =>
    let was := d.leapPending n
    let gone := d.smearCancel n
    d.writeStore m (Pg.ts n) 0x304 v fun d =>
      if was && !d.leapPending n then d.upRsp fun e => { e with unsmear := gone.rsp.unsmear } else d

/-- R43, R45: a write of LEAP_AT. -/
def execLeapAtWrite (m : Master) (n : Ts) (v : Nat) (s : State) : Host.Outcome State Fault Refusal :=
  s.run fun d => d.writeStore m (Pg.ts n) 0x308 v

/-! Increments, modes and slews (R63 to R69). -/

/-- R63 to R65, R119: a write of TSA_INCR, applied 32 ticks later within its limits. The write of I_avg at an entry into holdover is the holdover unit's own. -/
def execIncrWrite (m : Master) (n : Ts) (v : Nat) (s : State) : Host.Outcome State Fault Refusal :=
  s.run fun d =>
    if m = .svc n ∧ d.hld[n].entryWrite = some v then
      (d.upHld n fun e => { e with entryWrite := none }).writeIncr n m (v % 2 ^ 64) true
    else d.writeIncr n m (v % 2 ^ 64)

/-- R65, R66: a write of TSA_CTL by PF0 or the loader; MODE changes at its application tick. -/
def execModeWrite (m : Master) (n : Ts) (v : Nat) (s : State) : Host.Outcome State Fault Refusal :=
  s.run fun d => d.writeIf m (Pg.ts n) 0x130 v (m == .pf0 || m == .loader) TS.WR_DISC_COUNT fun d =>
    (d.storeReg (Pg.ts n) 0x130 v).register n (.mode (v % 2))

/-- R65, R68, R69: a write of TSA_SLEW_AMT. -/
def execSlewStart (m : Master) (n : Ts) (v : Nat) (s : State) : Host.Outcome State Fault Refusal :=
  s.run fun d => d.writeSlew n m (sgn 64 v)

/-- R68: the final tick of a slew adds the exact remainder, which is at most one tick's adjustment. The tick that leaves such a remainder calls for it. -/
def execSlewComplete (n : Ts) (s : State) : Host.Outcome State Fault Refusal :=
  s.runTime fun d =>
    if d.ts[n].ending then
      let d := { d with clk := { d.clk with acc := d.clk.acc.set n ((d.acc n : Int) + d.ts[n].slewRem).toNat } }
      (((d.upTs n fun e => { e with slewRem := 0, ending := false }).showSlew n).put (Pg.ts n) TS.STS_SLEW_RES 0)
    else d

/-! Steps (R70 to R72, R54, R60). -/

/-- The effects of an applied step on what is measured in step-free time or holds a phase (R54, R60, R111, R115). -/
def Dev.afterStep (d : Dev) (n : Ts) (delta : Int) : Dev :=
  let code := d.btsCode n
  let d := d.upTs n fun e => { e with stepSum := e.stepSum + delta, steps := e.steps + 1, stepMecs := d.now :: e.stepMecs.filter fun m => d.now < m + pastTicks, stepHold := some (max code ((e.stepHold.map (·.1)).getD 0), d.now) }
  let d := (d.puti (Pg.ts n) TS.STEP_ACC_ACC (tdiv d.ts[n].stepSum (2 ^ 48))).cancelSlew n 2
  let d := (d.upSel n fun e => { e with stepped := true }).synStep n delta
  let d := (d.evoStep n delta).plkStep n delta
  let d := d.each (List.finRange 19) fun (k : Fin 19) d =>
    d.when (d.owner k == n && d.mon[k].hasLast) fun d =>
      d.puti Pg.sel (SEL.XLAST_X k) (d.geti Pg.sel (SEL.XLAST_X k) - tdiv delta (2 ^ 32))
  let x := tdiv delta (2 ^ 32)
  let d := d.each (List.finRange 19) fun (k : Fin 19) d => d.upMon k fun e =>
    if n = 0 then { e with sumX := e.sumX - e.numX * x, sumD := e.sumD - e.numX * x, prevX := e.prevX.map fun p => p - x }
    else { e with sumD := e.sumD + e.numX * x }
  d

/-- Apply the step that is pending: out of range is refused, zero leaves no record (R60, R72); a leap the step passes applies with it, so that every record of the tick shows the new offset (R42, R45). -/
def Dev.applyStep (d : Dev) (n : Ts) : Dev :=
  match d.ts[n].step with
  | none => d
  | some (op, _, _) =>
    let pg := Pg.ts n
    let acc : Int := d.acc n
    let delta := d.stepDelta n op
    let d := (d.upTs n fun e => { e with step := none, stepSec := none }).put pg TS.STEP_STS_PENDING 0
    if acc + delta < 0 ∨ (2 ^ 48 * accSecond : Nat) ≤ acc + delta then d.put pg TS.STEP_STS_RESULT 4
    else
      let d := d.put pg TS.STEP_STS_RESULT 5
      if delta = 0 then d.cancelSlew n 2
      else
        let before := d.time16 n
        let was := (d.acc n - d.get pg TS.INCR_EFF_EFF) / accSecond
        let d := { d with clk := { d.clk with acc := d.clk.acc.set n (acc + delta).toNat } }
        let d := d.when (d.leapPending n && decide (was < d.get pg TS.LEAP_AT_SEC ∧ d.get pg TS.LEAP_AT_SEC ≤ d.sec n)) fun d => d.applyLeap n
        (d.record 0x10 (srcPage pg) ([n.val, d.trace n] ++ oct 12 (time96 before) ++ oct 12 (time96 (d.time16 n)))).afterStep n delta

/-- R60, R72: the application tick of an accepted step. -/
def execStepApply (n : Ts) (s : State) : Host.Outcome State Fault Refusal :=
  s.runTime fun d => d.applyStep n

/-- The value written by a step command. -/
def stepWord (key op : Nat) : Nat := (key % 256) <<< 8 + op

/-- R70: ARM with its key; an accepted one replaces any arm held and runs 10 s. -/
def execStepArm (m : Master) (n : Ts) (key : Nat) (s : State) : Host.Outcome State Fault Refusal :=
  s.run fun d => d.writeIf m (Pg.ts n) 0x188 (stepWord key 1) (d.mayStep n m) TS.WR_DISC_COUNT fun d =>
    if key % 256 = 0x5A then
      let d := d.upTs n fun e => { e with arm := some (m, d.now + 10 * second) }
      (((d.put (Pg.ts n) TS.STEP_STS_ARMED 1).put (Pg.ts n) TS.STEP_STS_ARM_MASTER (masterId m)).put (Pg.ts n) TS.STEP_STS_RESULT 6).timer
        (10 * second) (.stepArmExpiry n)
    else d.put (Pg.ts n) TS.STEP_STS_RESULT 1

/-- The arm is given up. -/
def Dev.disarm (d : Dev) (n : Ts) : Dev :=
  let d := (d.upTs n fun e => { e with arm := none }).cancel (.stepArmExpiry n)
  ((d.put (Pg.ts n) TS.STEP_STS_ARMED 0).put (Pg.ts n) TS.STEP_STS_ARM_MASTER 0).put (Pg.ts n) TS.STEP_STS_ARM_LEFT 0

/-- An EXEC with its operand: refused while a step is pending or without the master's own arm; it clears the arm (R70, R72). An automatic step of a servo core needs none (R71). -/
def Dev.execStep (d : Dev) (n : Ts) (m : Master) (op : StepOp) : Dev :=
  let mine := (match d.ts[n].arm with
    | some (a, t) => a == m && decide (d.now ≤ t)
    | none => false) || (match m with | .svc _ => true | _ => false)
  let busy := d.ts[n].step.isSome
  let d := d.disarm n
  if busy then d.put (Pg.ts n) TS.STEP_STS_RESULT 3
  else if !mine then d.put (Pg.ts n) TS.STEP_STS_RESULT 2
  else d.acceptStep n op (d.on (Pg.ts n) TS.STEP_CTL_AT_SEC)

/-- R70, R72: EXEC_REL steps by TSA_STEP_AMT as it stands now. -/
def execExecRel (m : Master) (n : Ts) (key : Nat) (s : State) : Host.Outcome State Fault Refusal :=
  s.run fun d => d.writeIf m (Pg.ts n) 0x188 (stepWord key 2) (d.mayStep n m) TS.WR_DISC_COUNT fun d =>
    d.execStep n m (.rel (d.geti (Pg.ts n) TS.STEP_AMT_AMT))

/-- R70, R72: EXEC_ABS sets the time to TSA_SET_TIME as it stands now. -/
def execExecAbs (m : Master) (n : Ts) (key : Nat) (s : State) : Host.Outcome State Fault Refusal :=
  s.run fun d => d.writeIf m (Pg.ts n) 0x188 (stepWord key 3) (d.mayStep n m) TS.WR_DISC_COUNT fun d =>
    d.execStep n m (.abs (untime96 (d.get (Pg.ts n) TS.SET_TIME_TIME)))

/-- R70, R74: DISARM. -/
def execDisarm (m : Master) (n : Ts) (key : Nat) (s : State) : Host.Outcome State Fault Refusal :=
  s.run fun d => d.writeIf m (Pg.ts n) 0x188 (stepWord key 4) (d.mayStep n m) TS.WR_DISC_COUNT fun d =>
    (d.disarm n).put (Pg.ts n) TS.STEP_STS_RESULT 7

/-- R70: 10 s pass without an EXEC. -/
def execStepArmExpiry (n : Ts) (s : State) : Host.Outcome State Fault Refusal :=
  s.run fun d => match d.ts[n].arm with
    | some (_, t) => if t ≤ d.now then d.disarm n else d
    | none => d

/-! Application ticks (R64, R76, R79). -/

/-- Apply one registered change. -/
def Dev.applyChange (d : Dev) (n : Ts) : TsChange → Dev
  | .incr v => d.applyIncr n v
  | .mode v => d.applyMode n v
  | .slew a => d.applySlew n a
  | .bind i sel => d.applyBind i sel
  | .xtsRate r => (d.each ((List.finRange 48).filter fun i => d.corr[i] != 0) fun i d => d.viewKeep i).upTs n fun e => { e with walkRate := r }

/-- R64: the changes registered 32 ticks ago or earlier apply, in the order of their registration; a step of the same tick has been applied before (R79, log entry 2), and readiness follows a rebinding (R238). -/
def execApplicationTick (n : Ts) (s : State) : Host.Outcome State Fault Refusal :=
  s.run fun d =>
    let due := d.ts[n].changes.filter fun e => e.1 ≤ d.now
    let d := d.upTs n fun e => { e with changes := e.changes.filter fun e => ¬ e.1 ≤ d.now }
    let d := d.each due fun e d => d.applyChange n e.2
    d.when (due.any fun e => match e.2 with | .bind _ _ => true | _ => false) Dev.readyShow

/-! Bounds (R48 to R59, R67). -/

/-- R53: the bound of a timescale is published, the class judged (R59) and steering followed (R93); readiness, quality levels, port bounds, audio and the pair follow it (R229, R238, R263, R318, R405). -/
def execBoundPublish (n : Ts) (s : State) : Host.Outcome State Fault Refusal :=
  s.run fun d =>
    let d := (d.publish n).each [0, 1] fun j d => d.steerShow j
    let d := d.when (n == 0) Dev.probeGo
    ((((d.readyShow).qlFollow).each (List.finRange 24) fun p d => d.ptsBound p).audFollow).plkEval

/-- R59: a better class has matched without interruption for HOLD seconds; where HOLD has grown meanwhile it waits on. -/
def execClockClassHoldExpiry (n : Ts) (s : State) : Host.Outcome State Fault Refusal :=
  s.run fun d => if d.ts[n].clsBetter.isSome then d.judgeClass n else d

/-- R48, R54, R67: a write of TSA_MAN_UNC restarts the host-mode bound, and in host mode a finite code qualifies and ends the hold after a step. -/
def execManUncWrite (m : Master) (n : Ts) (v : Nat) (s : State) : Host.Outcome State Fault Refusal :=
  s.run fun d => d.writeStore m (Pg.ts n) 0x190 v fun d =>
    let finite := (decodeBound v).isSome
    d.upTs n fun e => { e with
      manT0 := d.stepFree n, qualified := e.qualified || (d.hostMode n && finite),
      stepHold := if d.hostMode n then none else e.stepHold }

/-- R73: a snapshot of both timescale pages at one MEC. -/
def execSnapJoint (m : Master) (s : State) : Host.Outcome State Fault Refusal :=
  s.run fun d => d.writeSnap m (Pg.ts 0) 3

/-! Bindings (R75 to R78). -/

/-- R76, R77: a write of a binding entry; a refused SEL leaves SEL, CUR and the correction as they are. -/
def execBindWrite (m : Master) (i : Fin 48) (v : Nat) (s : State) : Host.Outcome State Fault Refusal :=
  s.run fun d => d.write m (Pg.ts 0) (0x440 + 4 * i.val) v fun d =>
    let pg := Pg.ts 0
    let sel := v % 2
    let old := d.get pg (TSA.BIND_SEL i)
    let st := d.get (Pg.ts sel) TS.BOUND_STS_STATE
    let refused := sel != old && (st == 0 || st == 3) && !bit v 5
    let d := ((d.when (d.corr[i] != 0) fun d => d.viewKeep i).storeReg pg (0x440 + 4 * i.val) v).putb pg (TSA.BIND_REFUSED i) refused
    if refused then d.put pg (TSA.BIND_SEL i) old
    else d.when (sel != old) fun d => d.register 0 (.bind i sel)

/-- R76: a correction reaches zero: its last tick removes what remains, at most one tick's adjustment. -/
def execWalkComplete (n : Fin 48) (s : State) : Host.Outcome State Fault Refusal :=
  s.run fun d =>
    if d.corr[n] ≠ 0 ∧ !d.on (Pg.ts 0) (TSA.BIND_HOLD n) ∧ d.corr[n].natAbs ≤ clampN 1 1000 d.ts[0].walkRate * 2 ^ 48 / second then
      { d.viewKeep n with corr := d.corr.set n 0 }.showCorr n
    else d

/-- R76: a write of TSA_XTS_CTL.RATE applies from its application tick. -/
def execXtsRateWrite (m : Master) (v : Nat) (s : State) : Host.Outcome State Fault Refusal :=
  s.run fun d => d.writeStore m (Pg.ts 0) 0x408 v fun d => d.register 0 (.xtsRate (d.get (Pg.ts 0) TSA.XTS_CTL_RATE))

end Sys2Proof.Machine
end

