-- ==== Sys2Proof/Machine/Access.lean ====
section
/-! DEFINITION. A write to any BAR0 address (R12, R437 to R441): which command an address spells, what a plain register write brings, and the transfers of the management target. -/

namespace Sys2Proof.Machine

/-! Plain registers: what a stored value brings with it. -/

/-- The effect of a write of HIF_IVECk beside its storage: a vector that becomes asserted sends its message (R450, R451). -/
def Dev.routeChanged (d : Dev) (k : Nat) (f : Dev → Dev) : Dev :=
  let before := d
  let d := f d
  match d.route k with
  | some fv => d.when (d.sum k && !before.asserted fv) fun d => d.sendMsix fv
  | none => d

/-- Store a written value and let what depends on it follow. -/
def Dev.plainStore (d : Dev) (pg off v : Nat) : Dev :=
  let st (d : Dev) := d.storeReg pg off v
  if pg = Pg.hld then ((st d).hldFollow 0).hldFollow 1
  else if (pg = Pg.ts 0 ∨ pg = Pg.ts 1) ∧ 0x320 ≤ off ∧ off < 0x334 then (st d).judgeClass (Fin.ofNat 2 (pg - Pg.ts 0))
  else if pg = Pg.hif ∧ 0x400 ≤ off then d.routeChanged ((off - 0x400) / 4) st
  else if pg = Pg.pmc ∧ off = 0x100 then
    let was := d.on pg PMC.CTL_AUTO
    let d := st d
    d.when (!was && d.on pg PMC.CTL_AUTO) fun d => d.timer (max 1 (d.get pg PMC.CTL_PERIOD) * milli) .pmcAutoLatch
  else if pg = Pg.plk then
    let was := d.get pg PLK.FOLLOW_TS + 2 * d.get pg PLK.FOLLOW_SRC
    (((st d).followWritten was).plkEval).when (off == 0x12C) Dev.selectLost
  else if pg = Pg.rsp 2 ∨ pg = Pg.rsp 5 then ((st d).domCheck.reservedShow).qlFollow
  else if pg = Pg.tdcCal then (st d).tdcWindow.when (off == 0x10C) Dev.limitsApply
  else if pg = Pg.rec ∧ off = 0x104 then (st d).markMoved
  else if pg = Pg.cko then (st d).ckoAll
  else if inBlock (Pg.syn 0) (Pg.syn 3) pg ∧ off = 0x118 then
    let n : Fin 4 := Fin.ofNat 4 (pg - Pg.syn 0)
    (st d).upSyn n fun e => { e with lockWord := if d.now ≤ e.gateAt then v % 2 ^ 32 else e.lockWord }
  else if pg = Pg.evo then (st d).evoAll
  else if pg = Pg.atm 0 ∨ pg = Pg.atm 1 then
    let n : Fin 2 := Fin.ofNat 2 (pg - Pg.atm 0)
    let tmo := d.get pg ATM.TLM_CTL_TMO
    let d := st d
    if off = 0x234 then d.when (d.get pg ATM.TLM_CTL_TMO != tmo) fun d => d.tlmTimer n
    else if off = 0x250 then d.steerShow n else d
  else if Pg.seq 0 ≤ pg ∧ pg ≤ Pg.seq 7 then
    let n : Fin 8 := Fin.ofNat 8 (pg - Pg.seq 0)
    if 0x120 ≤ off ∧ off < 0x130 then (st d).seqArm n else st d
  else if Pg.port 0 ≤ pg ∧ pg < Pg.pc 0 then
    let p : Fin 24 := Fin.ofNat 24 ((pg - Pg.port 0) / 2)
    if off = 0x118 ∧ pg % 2 = 0 then
      let was := d.on pg PORT.PRE_CTL_EN
      let d := st d
      if !d.on pg PORT.PRE_CTL_EN then (d.cancel (.verifySend p)).setVerify p 0 else if was then d else d.startVerify p
    else st d
  else st d

/-- A write of a register whose fields have no command of their own. -/
def execPlain (m : Master) (pg off v : Nat) (s : State) : Host.Outcome State Fault Refusal :=
  s.run fun d => d.write m pg off v fun d => d.plainStore pg off v

/-- A write that has the fabric's effect alone: a command register with a code that names no command. -/
def execNone (m : Master) (pg off v : Nat) (s : State) : Host.Outcome State Fault Refusal :=
  s.run fun d => d.write m pg off v id

/-! The commands that an address and a value spell, block by block. -/

/-- The common header (R442). -/
def routeHeader (m : Master) (pg off v : Nat) (s : State) : Host.Outcome State Fault Refusal :=
  let p : Page := Fin.ofNat 1024 pg
  if off = 0x08 then (if bit v 0 then execSoftRst m p v s else execFreezeWrite m p v s)
  else if off = 0x10 then execIntStsClear m p v s
  else if off = 0x14 then execIntEnWrite m p v s
  else if off = 0x18 then execIntForce m p v s
  else if off = 0x20 then execFltForceWrite m p v s
  else if off = 0x24 then execFltClr m p v s
  else if off = 0x28 then execPwrReqWrite m p v s
  else if 0x30 ≤ off ∧ off < 0x40 then execPmcSelWrite m p (Fin.ofNat 4 ((off - 0x30) / 4)) v s
  else if off = 0x70 then execSnap m p v s
  else execPlain m pg off v s

/-- GLB, PWR and CLKD (R393, R395, R449). -/
def routeGlobal (m : Master) (pg off v : Nat) (s : State) : Host.Outcome State Fault Refusal :=
  if pg = Pg.glb then
    if off = 0x108 then
      let key := v / 2 ^ 24 % 256
      let target := v / 2 ^ 16 % 16
      if v % 4 = 1 then execRegionCmd m key target s
      else if v % 4 = 2 then execDieCmd m key target s
      else if v % 4 = 3 then execPackageReset m key s
      else execNone m pg off v s
    else if off = 0x124 ∧ bit v 0 then execTestDis m s
    else execPlain m pg off v s
  else if pg = Pg.pwr then
    if off = 0x104 then execPowerCapWrite m v s
    else if off = 0x110 then (if v % 4 = 1 then execEnterCave m s else if v % 4 = 2 then execExitCave m s else execNone m pg off v s)
    else execPlain m pg off v s
  else if off = 0x104 then execSclkSsWrite m v s
  else execPlain m pg off v s

/-- A timescale page (R43, R74, R76). -/
def routeTime (m : Master) (n : Ts) (off v : Nat) (s : State) : Host.Outcome State Fault Refusal :=
  let pg := Pg.ts n
  if off = 0x300 then execUtcOffsetWrite m n v s
  else if off = 0x304 then execLeapPendingWrite m n v s
  else if off = 0x308 then execLeapAtWrite m n v s
  else if off = 0x120 then execIncrWrite m n v s
  else if off = 0x130 then execModeWrite m n v s
  else if off = 0x140 then execSlewStart m n v s
  else if off = 0x188 then
    let key := v / 2 ^ 8 % 256
    if v % 8 = 1 then execStepArm m n key s
    else if v % 8 = 2 then execExecRel m n key s
    else if v % 8 = 3 then execExecAbs m n key s
    else if v % 8 = 4 then execDisarm m n key s
    else s.run fun d => d.writeIf m pg off v (d.mayStep n m) TS.WR_DISC_COUNT id
  else if off = 0x190 then execManUncWrite m n v s
  else if off = 0x408 then execXtsRateWrite m v s
  else if 0x440 ≤ off ∧ off < 0x500 then execBindWrite m (Fin.ofNat 48 ((off - 0x440) / 4)) v s
  else execPlain m pg off v s

/-- The monitor whose registers hold an offset of a page (R83). -/
def monAt (pg off : Nat) : Option (Fin 19) :=
  (List.finRange 19).find? fun (k : Fin 19) => monPg k == pg && monBase k ≤ off && off < monBase k + 0x34

/-- A monitor's registers (R83, R84). -/
def routeMonitor (m : Master) (k : Fin 19) (off v : Nat) (s : State) : Host.Outcome State Fault Refusal :=
  let o := off - monBase k
  if o = 0 then execForceDqWrite m k v s
  else if o = 4 then execMonWtrWrite m k v s
  else if o = 0xC then
    if v % 8 = 1 then execAccept m k s else if v % 8 = 2 then execSkipWtr m k s else if v % 8 = 3 then execRestart m k s
    else execNone m (monPg k) off v s
  else execPlain m (monPg k) off v s

/-- REF, ATM and US pages (R82, R91, R98). -/
def routeReference (m : Master) (pg off v : Nat) (s : State) : Host.Outcome State Fault Refusal :=
  if pg < Pg.atm 0 then execRefConfigWrite m (Fin.ofNat 19 (3 + pg - Pg.ref 0)) off v s
  else if pg < Pg.us 0 then
    let n : Fin 2 := Fin.ofNat 2 (pg - Pg.atm 0)
    if off = 0x220 then execUartEnWrite m n v s
    else if off = 0x228 then execUartPop m n v s
    else if off = 0x22C then execUartTxWrite m n v s
    else if off = 0x254 then execSteerValWrite m n v s
    else if off < 0x210 then execRefConfigWrite m (Fin.ofNat 19 (1 + n.val)) off v s
    else execPlain m pg off v s
  else execUsConfigWrite m (Fin.ofNat 4 (pg - Pg.us 0)) off v s

/-- GNSS pages (R145 to R148). -/
def routeGnss (m : Master) (p : Fin 8) (off v : Nat) (s : State) : Host.Outcome State Fault Refusal :=
  if p = 4 ∧ off < 0x114 then execGnssPosWrite m off v s
  else if p = 6 ∧ off = 0x108 then (if v % 4 = 1 then execKeptClear m s else execNone m (Pg.gnss 6) off v s)
  else if p = 7 then execHt4Write m off v s
  else execGnssConfigWrite m p off v s

/-- SYN and CKO pages (R155 to R163). -/
def routeSynthesis (m : Master) (pg off v : Nat) (s : State) : Host.Outcome State Fault Refusal :=
  if pg = Pg.cko then
    let n : Fin 16 := Fin.ofNat 16 (off / 256)
    let o := off % 256
    if o = 0x80 then execCkoCtlWrite m n v s
    else if o = 0x84 then execCkoDivWrite m n v s
    else if o = 0x8C then execCkoPhaseWrite m n v s
    else execPlain m pg off v s
  else
    let n : Fin 4 := Fin.ofNat 4 (pg - Pg.syn 0)
    if off = 0x100 then (if bit v 31 then execSynEnable m n v s else execSynDisable m n v s)
    else if off = 0x124 then execSsCtlWrite m n off v s
    else if off = 0x128 then
      if v % 8 = 1 then execAlign m n s else if v % 8 = 2 then execTestEnter m n s else if v % 8 = 3 then execTestExit m n s
      else if v % 8 = 4 then execRelock m n s else execNone m pg off v s
    else execSynConfigWrite m n off v s

/-- TDC pages (R174, R177, R184, R185). -/
def routeTdc (m : Master) (pg off v : Nat) (s : State) : Host.Outcome State Fault Refusal :=
  if pg = Pg.tdcCal then
    if off = 0x108 then
      let u : Fin 32 := Fin.ofNat 32 (v / 256)
      if v % 4 = 1 then execTdcCalNow m u s else if v % 4 = 2 then execTdcRestore m u s else execNone m pg off v s
    else if off = 0x114 then execCalEntWrite m v s
    else execPlain m pg off v s
  else
    let n : Fin 16 := Fin.ofNat 16 (pg - Pg.tdc 0)
    if off = 0x108 then
      if v % 4 = 1 then execTdcArm m n s else if v % 4 = 2 then execTdcFlush m n s else if v % 4 = 3 then execTdcDisarm m n s
      else execNone m pg off v s
    else if off = 0x120 then execTdcPop m n v s
    else if 0x180 ≤ off ∧ off < 0x194 then execStrConfigWrite m n off v s
    else if off < 0x108 then execTdcMuxWrite m n off v s
    else execPlain m pg off v s

/-- EVO and EVI pages (R192, R195). -/
def routePulse (m : Master) (pg off v : Nat) (s : State) : Host.Outcome State Fault Refusal :=
  if pg = Pg.evi then
    if off < 0x200 ∧ off % 16 = 0 then execEviCtlWrite m (Fin.ofNat 16 ((off - 0x100) / 16)) v false s else execPlain m pg off v s
  else
    let n : Fin 16 := Fin.ofNat 16 ((off - 0x100) / 64)
    if 0x500 ≤ off then execPlain m pg off v s
    else if off % 64 = 0 then execEvoStop m n off v s
    else if off % 64 = 4 then (if v % 4 = 1 then execEvoArm m n s else if v % 4 = 2 then execEvoStop m n off v s else execNone m pg off v s)
    else execPlain m pg off v s

/-- Port, PTS and PC pages (R214, R217, R234). -/
def routePort (m : Master) (pg off v : Nat) (s : State) : Host.Outcome State Fault Refusal :=
  if Pg.pc 0 ≤ pg then (if off = 0x100 ∧ v % 4 = 1 then execClusterReset m (Fin.ofNat 6 (pg - Pg.pc 0)) s else execNone m pg off v s)
  else
    let p : Fin 24 := Fin.ofNat 24 ((pg - Pg.port 0) / 2)
    if pg % 2 = 0 then
      if off = 0x100 then execPortEnable m p v s
      else if off = 0x104 then execPortConfigWrite m p off v s
      else if off = 0x10C then
        if v % 8 = 1 then execRestartAn m p s else if v % 8 = 2 then execRestartLink m p s else if v % 8 = 3 then execStatClr m p s
        else if v % 8 = 4 then execPreVerify m p s else execNone m pg off v s
      else if off = 0x120 then execLpiCtlWrite m p v s
      else if off = 0x1A4 then execHtxWpWrite m p v s
      else if off = 0x180 ∨ off = 0x188 ∨ off = 0x198 ∨ off = 0x1A0 then execRingConfigWrite m p off v s
      else execPlain m pg off v s
    else if off = 0x108 then (if v % 4 = 1 then execPtsCalNow m p s else if v % 4 = 2 then execQFlush m p s else execNone m pg off v s)
    else if off = 0x324 then execPtsPop m p v s
    else if 0x110 ≤ off ∧ off < 0x11C then execPtsDelayWrite m p off v s
    else execPlain m pg off v s

/-- RSP and CST pages (R264 to R271, R288). -/
def routeService (m : Master) (pg off v : Nat) (s : State) : Host.Outcome State Fault Refusal :=
  if pg = Pg.cst then
    if off = 0x100 then (if bit v 31 then execBrineEnter m v s else execBrineExit m v s)
    else if off = 0x108 then (if v % 4 = 1 then execLookup m s else if v % 4 = 2 then execScrubNow m s else execNone m pg off v s)
    else if off = 0x140 then execHashSeedWrite m v s
    else execPlain m pg off v s
  else if pg = Pg.rsp 0 ∧ off = 0x100 then execRspEnWrite m v s
  else if pg = Pg.rsp 0 ∧ off = 0x114 then (if v % 4 = 1 then execCntClr m s else execNone m pg off v s)
  else if pg = Pg.rsp 2 ∧ off % 64 = 0 then execDomCtlWrite m (Fin.ofNat 8 ((off - 0x100) / 64)) v s
  else execPlain m pg off v s

/-- A crypto lane page (R293). -/
def routeLane (m : Master) (n : Fin 16) (off v : Nat) (s : State) : Host.Outcome State Fault Refusal :=
  if off = 0x100 then execFenceWrite m n v s
  else if off = 0x104 then (if v % 4 = 1 then execKatNow m n s else if v % 4 = 2 then execUnfence m n s else execNone m (Pg.cl n) off v s)
  else execPlain m (Pg.cl n) off v s

/-- A KEY register without a command: staged words and token words are held out of the registers, which read 0 (R297, R298, R311). -/
def execKeyPlain (m : Master) (pg off v : Nat) (s : State) : Host.Outcome State Fault Refusal :=
  s.run fun d =>
    let chal := pg == Pg.key 3 && decide (0x140 ≤ off) && decide (off < 0x150)
    d.keyWrite m pg off v (m == .pf0 || (m == .pf1 && chal)) fun d =>
      if pg = Pg.key 0 ∧ 0x110 ≤ off ∧ off < 0x130 then
        let k := (off - 0x110) / 4
        d.upKey fun e => { e with staged := (k, v % 2 ^ 32) :: e.staged.filter fun x => x.1 ≠ k }
      else if pg = Pg.key 0 ∧ 0x200 ≤ off ∧ off < 0x340 then
        d.upKey fun e => { e with token := sset (fun _ => 0) e.token ((off - 0x200) / 4) (v % 2 ^ 32) }
      else (d.storeReg pg off v).ntsShow

/-- KEY pages (R314 to R316). -/
def routeKey (m : Master) (pg off v : Nat) (s : State) : Host.Outcome State Fault Refusal :=
  if pg = Pg.key 0 ∧ off = 0x100 then
    let slot : Fin 256 := Fin.ofNat 256 (v / 2 ^ 16)
    let op := v % 16
    if op = 1 then execImportKey m slot s else if op = 2 then execDeriveKey m slot s else if op = 3 then execRetireKey m slot s
    else if op = 4 then execDestroyKey m slot s else if op = 5 then execUnwrapKey m slot [] s else if op = 6 then execKeyAbort m s
    else s.run fun d => d.keyWrite m pg off v (m == .pf0) id
  else if pg = Pg.key 0 ∧ off = 0x340 ∧ bit v 0 then execSubmitToken m s
  else if pg = Pg.key 3 ∧ off = 0x108 then execKeyNtsCurWrite m v s
  else if pg = Pg.key 3 ∧ off = 0x150 ∧ bit v 0 then execAttest m s
  else execKeyPlain m pg off v s

/-- AUD pages (R328); ring bases and sizes are written only while the direction is off. -/
def routeAudio (m : Master) (p : Fin 4) (off v : Nat) (s : State) : Host.Outcome State Fault Refusal :=
  let pg := Pg.aud p
  if 0x300 ≤ off then execPlain m pg off v s
  else
    let rx := decide (0x200 ≤ off)
    let o := off % 256
    if o = 0 ∨ o = 4 ∨ o = 0x20 then execAudConfigWrite m p rx off v s
    else if o = 8 then execAudMaskWrite m p rx v s
    else if o = 0xC then (if v % 4 = 1 then execRealign m p rx s else if v % 4 = 2 then execAudCntClr m p rx s else execNone m pg off v s)
    else if o = 0x40 ∨ o = 0x48 then
      s.run fun d => d.writeIf m pg off v (!d.aon p rx AUD.CTL_EN) (AUD.DISC_COUNT (dirOf rx)) fun d => d.storeReg pg off v
    else execPlain m pg off v s

/-- SEQ pages (R337, R338): triggers and windows are PF0's and the loader's alone. -/
def routeSequencer (m : Master) (n : Fin 8) (off v : Nat) (s : State) : Host.Outcome State Fault Refusal :=
  let pg := Pg.seq n
  if off = 0x100 then (if bit v 31 then execSeqEnable m n v s else execSeqDisable m n v s)
  else if off = 0x104 then
    if v % 4 = 1 then execSeqStart m n s else if v % 4 = 2 then execSeqStop m n s else if v % 4 = 3 then execClrFault m n s
    else execNone m pg off v s
  else if 0x120 ≤ off ∧ off < 0x160 ∧ m ≠ .pf0 ∧ m ≠ .loader then s.run fun d => d.writeIf m pg off v false SEQ.DENY_COUNT id
  else if 0x800 ≤ off then execSeqInstrWrite m n (Fin.ofNat 512 ((off - 0x800) / 4)) v s
  else execPlain m pg off v s

/-- REC, FLT and PMC pages (R351, R366, R373). -/
def routeControl (m : Master) (pg off v : Nat) (s : State) : Host.Outcome State Fault Refusal :=
  if pg = Pg.rec then
    if off = 0x10C then
      if v % 4 = 1 then execRecFlush m s else if v % 4 = 2 then execRecClear m s
      else if v % 4 = 3 then execRecSnap m (Fin.ofNat 16 (v / 4)) s else execNone m pg off v s
    else if 0x150 ≤ off ∧ off < 0x160 then
      s.run fun d => d.write m pg off v fun d => { d with rcd := { d.rcd with token := sset (fun _ => 0) d.rcd.token ((off - 0x150) / 4) (v % 2 ^ 32) } }
    else if off = 0x160 then execRecCursorWrite m v s
    else execPlain m pg off v s
  else if pg = Pg.flt ∧ off = 0x104 then execFltClrAll m v s
  else if pg = Pg.pmc ∧ off = 0x104 then (if bit v 0 then execPmcLatch m s else execNone m pg off v s)
  else if pg = Pg.pmc ∧ 0x108 ≤ off ∧ off < 0x11C then execPmcFilterWrite m off v s
  else execPlain m pg off v s

/-- PLK page (R414). -/
def routePair (m : Master) (off v : Nat) (s : State) : Host.Outcome State Fault Refusal :=
  if off = 0x100 then (if bit v 31 then execPlkEnable m v s else execPlkDisable m v s)
  else if off = 0x104 then
    if v % 4 = 1 then execTake m (bit v 2) s else if v % 4 = 2 then execHandover m s else if v % 4 = 3 then execPlkAbort m s
    else execNone m Pg.plk off v s
  else execPlain m Pg.plk off v s

/-- LDR page (R427, R434). A bare OPEN names a container that no one has supplied. -/
def routeLoader (m : Master) (off v : Nat) (s : State) : Host.Outcome State Fault Refusal :=
  if off = 0x104 then
    let op := v % 16
    if op = 1 then execOpenSession m ⟨[], [], [], [], 0⟩ s else if op = 2 then execVerifyHdr m s else if op = 3 then execLoadBody m s
    else if op = 4 then execVerifyBody m s else if op = 5 then execActivate m s else if op = 6 then execConfirm m s
    else if op = 7 then execLdrAbort m s else if op = 8 then execCalCommit m s else if op = 9 then execRestoreImage m s
    else s.run fun d => d.ldrWrite m off v id
  else if off = 0x128 then execKick m v s
  else s.run fun d => d.ldrWrite m off v fun d => (d.storeReg Pg.ldr off v).when (off == 0x100) Dev.confTimer

/-- A whole register is written: the command its address and value spell. -/
def routeReg (m : Master) (pg off v : Nat) (s : State) : Host.Outcome State Fault Refusal :=
  if off < 0x100 ∧ ¬ (pg = Pg.cko ∧ 0x80 ≤ off ∧ off < 0xC0) then routeHeader m pg off v s
  else match monAt pg off with
    | some k => routeMonitor m k off v s
    | none =>
      if pg < Pg.ts 0 then routeGlobal m pg off v s
      else if pg ≤ Pg.ts 1 then routeTime m (Fin.ofNat 2 (pg - Pg.ts 0)) off v s
      else if pg = Pg.svc 0 ∨ pg = Pg.svc 1 then
        let n : Ts := Fin.ofNat 2 (pg - Pg.svc 0)
        if off = 0x100 then execSvcRunWrite m n v s else if off = 0x104 then execSvcHeartbeat m n v s else execPlain m pg off v s
      else if pg < Pg.ref 0 then execPlain m pg off v s
      else if pg < Pg.gnss 0 then routeReference m pg off v s
      else if pg < Pg.syn 0 then routeGnss m (Fin.ofNat 8 (pg - Pg.gnss 0)) off v s
      else if pg < Pg.tdc 0 then routeSynthesis m pg off v s
      else if pg < Pg.evo then routeTdc m pg off v s
      else if pg < Pg.port 0 then routePulse m pg off v s
      else if pg < Pg.rsp 0 then routePort m pg off v s
      else if pg < Pg.cl 0 then routeService m pg off v s
      else if pg < Pg.key 0 then routeLane m (Fin.ofNat 16 (pg - Pg.cl 0)) off v s
      else if pg < Pg.aud 0 then routeKey m pg off v s
      else if pg < Pg.seq 0 then routeAudio m (Fin.ofNat 4 (pg - Pg.aud 0)) off v s
      else if pg < Pg.rec then routeSequencer m (Fin.ofNat 8 (pg - Pg.seq 0)) off v s
      else if pg < Pg.plk then routeControl m pg off v s
      else if pg = Pg.plk then routePair m off v s
      else if pg = Pg.ldr then routeLoader m off v s
      else execPlain m pg off v s

/-! Access sizes (R12, R439, R440). -/

/-- A 32-bit write: a part of a wide register is held until the last part completes it (R12). A part that is held enters neither LAST_WR nor the write counters: the write is accepted when its last part is (DESIGN CHOICE, log entry 69). -/
def writeWord (m : Master) (a v : Nat) (s : State) : Host.Outcome State Fault Refusal :=
  let pg := a / 4096
  let off := a % 4096
  if pg = Pg.glb ∧ 0x800 ≤ off ∧ off < 0xC08 then s.run fun d => d.msixWrite m off v
  else match regAt pg off with
    | none => s.run fun d => d.write m pg off v id
    | some r =>
      if r.width ≤ 32 then routeReg m pg off (v % 2 ^ 32) s
      else match s.dev.gate m pg off with
        | .served =>
          let q := s.dev.part a v
          let s : State := { s with dev := { s.dev with half := q.2.half } }
          match q.1 with
          | some w => routeReg m pg (r.start off) w.2 s
          | none => .next s
        | g => s.run fun d => d.discard g pg

/-- The second half of an access, on the state the first half left. -/
def andThen (o : Host.Outcome State Fault Refusal) (f : State → Host.Outcome State Fault Refusal) : Host.Outcome State Fault Refusal :=
  match o with
  | .next s => f s
  | x => x

/-- A write access to BAR0: of another size or alignment it is discarded (R440); one of 64 bits writes a wide register whole, or two registers, lower first. -/
def routeWrite (m : Master) (a : Nat) (wide : Bool) (v : Nat) (s : State) : Host.Outcome State Fault Refusal :=
  if s.dev.inCave && (pfOf m).isSome then .next s
  else if a % (if wide then 8 else 4) ≠ 0 ∨ 2 ^ 25 ≤ a then s.run fun d => d.discard .unimpl 0
  else if !wide then writeWord m a v s
  else
    let whole := (regAt (a / 4096) (a % 4096)).any fun r => decide (32 < r.width)
    if whole && s.dev.gate m (a / 4096) (a % 4096) != .served then s.run fun d => d.discard (d.gate m (a / 4096) (a % 4096)) (a / 4096)
    else andThen (writeWord m a (v % 2 ^ 32) s) fun s => writeWord m (a + 4) (v / 2 ^ 32) s

/-- R437, R440, R441, R476: a write of a register. -/
def execRegisterWrite (m : Master) (addr : Nat) (wide : Bool) (v : Nat) (s : State) : Host.Outcome State Fault Refusal :=
  routeWrite m addr wide v s

/-- R438: a write transfer of the management target: 8 octets with an aligned address write a register, any other is discarded and counted; with EN = 0 the target does not answer. -/
def execMgmtWriteTransfer (octets : List Nat) (s : State) : Host.Outcome State Fault Refusal :=
  if !s.dev.on Pg.hif HIF.MGMT_CTL_EN then .next s
  else match mgmtOperands octets with
    | some (a, v) => routeWrite .mgmt a false v s
    | none => s.run fun d => d.discard .unimpl 0

end Sys2Proof.Machine
end

