-- ==== Sys2Proof/Machine/Boot.lean ====
section
/-! DEFINITION. The boot (R416 to R418, R424, R426, R429, R431): from a package reset to BOOT_DONE, and the boot watchdog. -/

namespace Sys2Proof.Machine

/-! What the flash and the journal ask for first (R429, R431, R433). -/

/-- The stages of a boot by their times in µs from the lock of the TCLK PLL, which is 0.5 ms after the origin of R416: OTP, key memory, journal, record memory, image, calibration set, store, links, configuration, cores. -/
def bootPlan : List Nat := [0, 100, 500, 1500, 4500, 47500, 49500, 51500, 54500, 59500, 61500]

/-- The stage of a boot that waits for a copy, at whose end the loader makes a package reset. -/
abbrev bootHeld : Nat := 99

/-- The boot waits for the end of a copy; its time does not count (R417). -/
def Dev.bootHold (d : Dev) : Dev :=
  (d.upLdr fun e => { e with boot := e.boot.map fun b => { b with stage := bootHeld } }).cancel .bootWatchdogExpiry

/-- A copy into an area, from a container. -/
def copySize (c : Option Container) : Nat := (c.map Container.size).getD 0

/-- Fall back to the return image (R431). With no usable one the boot goes on; an image that a copy has broken is given up unless `keep` says that it is whole. -/
def Dev.bootRestore (d : Dev) (keep : Bool) : Dev :=
  if d.retUsable then ((d.ldrPhase phRestoring d.ldr.jnl.owner).copyStart (copySize d.ldr.flash.ret)).bootHold
  else (d.upFlash fun f => if keep then f else { f with running := none }).upJnl fun j => { j with trial := 0 }

/-- An interrupted stage is resolved: a copy goes on, and the boot waits for it (R429, R431). -/
def Dev.bootResolve (d : Dev) : Dev :=
  let f := d.ldr.flash
  let j := d.ldr.jnl
  if j.phase = phCopyRet then (((d.upFlash fun f => { f with ret := none }).ldrPhase phCopyRet j.owner).copyStart (copySize f.running)).bootHold
  else if j.phase = phOverwrite then
    if f.staging.any fun c => d.bodyCheck c == 0 then ((d.ldrPhase phOverwrite j.owner).copyOn (copySize f.staging)).bootHold else d.bootRestore false
  else if j.phase = phTrial then (if j.expired ∨ 3 ≤ j.trial then d.bootRestore true else d.upJnl fun j => { j with trial := j.trial + 1 })
  else if j.phase = phRestoring then
    if d.retUsable then ((d.ldrPhase phRestoring j.owner).copyOn (copySize f.ret)).bootHold else d.bootRestore false
  else d

/-! The steps of R416. -/

/-- OTP is read: the life cycle, the root and the owner hash (R311, R416). -/
def Dev.bootOtp (d : Dev) : Dev :=
  (match d.key.lc with
    | some v => d.put (Pg.key 0) KEY0.LC_STS v
    | none => d).showLife

/-- The record memory is scanned; the first SEQ, and the BOOT record (R345); the clear nonce is renewed (R350). -/
def Dev.bootRecorder (d : Dev) : Dev :=
  let pg := Pg.rec
  let hi := d.highestSeq.getD 0
  let d := d.upLdr fun e => { e with boots := e.boots + 1 }
  let d := d.put pg REC.NEXT_SEQ_SEQ ((hi + 4097) % 2 ^ 32)
  let d := d.put pg REC.LVL_RIND_USED ((d.rcd.lines.filter fun e => e.1 < d.rind ∧ d.rcd.valid e.2).length)
  let d := d.record 0x01 (srcPage pg) (oct 4 hi ++ oct 4 d.ldr.boots)
  let d := (d.put Pg.ldr LDR.BOOTS_COUNT (min 0xFFFF d.ldr.boots)).put Pg.ldr LDR.BOOTS_FAILED (min 0xFFFF d.ldr.failed)
  let n := d.drawNonce
  n.2.putOctets pg REC.CLR_NONCE_NONCE 4 n.1

/-- An ACTIVE slot whose parent does not stand as it did at the derivation (R295). -/
def Dev.orphan (d : Dev) (k : Nat) : Bool :=
  let p := d.keyParent k
  d.keyState k == keyActive && decide (p < 256) && !(d.keyState p == keyActive && d.keyEpoch p == d.get (keyPg k) (KEY1.ATTR3_PEPOCH (k % 128)))

/-- A first start: BLANK with no root area marked OK (R418). -/
def Dev.firstStart (d : Dev) : Bool := d.lifeCycle == 0 && d.rootState == 0

/-- Slots are restored from key memory, and the STALE state of descendants derived; a torn PREPARE is discarded; at a first start the key store begins to create the root (R295, R301, R308, R315). -/
def Dev.bootKeys (d : Dev) : Dev :=
  let pg := Pg.key 0
  let d := d.each d.key.nv fun e d => d.showSlot e.1 e.2
  let d := d.each [1, 2, 3, 4] fun _ d =>
    d.each ((d.key.nv.map (·.1)).filter d.orphan) fun k d => d.put (keyPg k) (KEY1.ATTR0_STATE (k % 128)) keyStale
  let d := d.when d.key.torn.isSome fun d => (d.put pg KEY0.JRNL_STS_DISCARD 1).int pg 3
  d.renewNonce.upKey fun e => { e with rooting := d.firstStart && decide (e.spent < 2) }

/-- The record of a discarded PREPARE, once the record memory is scanned (R301). -/
def Dev.bootTorn (d : Dev) : Dev :=
  match d.key.torn with
  | some k => (d.upKey fun e => { e with torn := none }).record 0x62 (srcPage (Pg.key 0)) [k]
  | none => d

/-- Causes of the faults that a boot raises, which stay until the next package reset. -/
abbrev causeRoot : Nat := 0x50
abbrev causePinTest : Nat := 0x51
abbrev causeImage : Nat := 0x52
abbrev causeCal : Nat := 0x53
abbrev causeCfg : Nat := 0x54

/-- The root area that a first start marks OK, 1 for area 0 and 2 for area 1, or 3 when none takes the root or the TRNG fails (R308). -/
def rootArea (spent : Nat) (x : BootIn) : Nat :=
  if !x.trng then 3 else if spent = 0 ∧ x.blows.1 then 1 else if spent ≤ 1 ∧ x.blows.2 then 2 else 3

/-- R308, R418: a first start has created the root, or has failed to. -/
def Dev.bootRoot (d : Dev) (x : BootIn) : Dev :=
  let pg := Pg.key 0
  if !d.firstStart then d
  else
    let v := rootArea d.key.spent x
    let d := (d.put pg KEY0.LC_STS_ROOT v).upKey fun e => { e with rooting := false }
    let d := if v = 3 then d.upKey fun e => { e with spent := if x.trng then 2 else e.spent } else d.upKey fun e => { e with lc := some (d.get pg KEY0.LC_STS) }
    d.showLife

/-- The C2 of a root that could not be created (R308). -/
def Dev.bootRootFault (d : Dev) : Dev := d.when (d.rootState == 3) fun d => d.raise (Pg.key 0) 2 causeRoot

/-- R354: the pins that failed their test. -/
def Dev.bootPins (d : Dev) (pins : List (Page × Fin 5 × Bool)) : Dev :=
  let d := d.when (!pins.isEmpty) fun d => d.timerTime 0 milli .pinPoll
  d.each (pins.filter fun x => (pageRow x.1).isSome) fun x d =>
    let k := slotOf x.1
    let f := FLT.PINBAD_BAD (k / 32)
    let d := (d.put Pg.flt f (d.get Pg.flt f ||| 1 <<< (k % 32))).raise Pg.flt 2 causePinTest
    (d.record 0x92 (srcPage Pg.flt) (oct 2 x.1 ++ [x.2.1.val, b2n x.2.2])).int Pg.flt 6

/-- R429, R431: the journal's phase as the boot found it: a trial goes on, everything else ends; the outcome of a fall-back is shown. -/
def Dev.bootJournal (d : Dev) : Dev :=
  let pg := Pg.ldr
  let j := d.ldr.jnl
  let d := if j.phase = phTrial ∧ 1 ≤ j.trial then ((d.put pg LDR.STS_PHASE phTrial).put pg LDR.STS_OWNER j.owner).put pg LDR.STS_TRIAL j.trial
    else if j.phase = phIdle then d
    else (d.when (j.phase == phOpen || j.phase == phLoading) fun d => d.upFlash fun f => { f with staging := none }).ldrIdle
  if j.restored then (((d.upJnl fun j => { j with restored := false }).put pg LDR.STS_IMAGE 1).ldrResult lrRestored) else d

/-- R417, R421: the running image is verified; with a usable return image in its place that is restored first, and with neither IMAGE reads NONE. -/
def Dev.bootImage (d : Dev) : Dev :=
  let pg := Pg.ldr
  let restored := d.get pg LDR.STS_IMAGE == 1
  let good := d.ldr.flash.running.any fun c => d.verified 1 c
  if !good && d.retUsable then d.bootRestore true
  else
    let d := if good then d else (d.put pg LDR.STS_IMAGE 2).raise pg 2 causeImage
    d.imageShow.when restored fun d => d.resultRecord lrRestored

/-- R424: the calibration set is verified and loaded. -/
def Dev.bootCal (d : Dev) : Dev :=
  let pg := Pg.ldr
  match d.ldr.flash.cal with
  | some c => if d.verified 3 c then (d.calLoad c).put pg LDR.STS_CAL_ORIGIN (c.origin % 2) else (d.put pg LDR.STS_CAL_BAD 1).raise pg 2 causeCal
  | none => (d.put pg LDR.STS_CAL_BAD 1).raise pg 2 causeCal

/-- R287: the store is initialised, and its hash seed drawn. -/
def Dev.bootStore (d : Dev) : Dev :=
  let n := d.drawNonce
  let d := n.2.put Pg.cst CST.HASH_SEED_SEED (unoct (n.1.take 4))
  if d.get Pg.cst CST.STS_PWR = 0 then (d.cstEnter 1).timerTime 0 104858 (.brineExit .collector 0) else d

/-- R25, R26: the die links are measured: each correction is stored, and a link whose attempts fail is marked. -/
def Dev.bootLinks (d : Dev) (links : List (Fin 5 × List (Int × Nat))) : Dev :=
  let bad := links.filter fun e => (linkBest e.2).isNone
  let d := d.each links fun e d =>
    let d := d.probeTo (Config.linkTap e.1.val % 128)
    { d with links := d.links.set e.1 { corr := (linkBest e.2).getD 0, tried := d.stepFree 0 } }
  let d := d.each bad fun e d => d.put Pg.glb GLB.LINK_STS_UNCAL (d.get Pg.glb GLB.LINK_STS_UNCAL ||| 1 <<< e.1.val)
  if bad.isEmpty then d else d.linkFaults.int Pg.glb 1

/-- The clocks have locked, MCLK among them (R185, R391, R395, R416). -/
def Dev.bootClocks (d : Dev) : Dev :=
  let d := (((d.put Pg.clkd CLKD.STS_OSC_PRESENT 1).put Pg.clkd CLKD.STS_LOCK 0x3F).int Pg.clkd 0).int Pg.clkd 1
  ((d.put Pg.tdcCal TDCCAL.MCLK_STS_LOCK 1).int Pg.tdcCal 2).pwrShow

/-- Registers that a configuration may not write (R426). -/
def cfgBarred (a : Nat) : Bool :=
  let pg := a / 4096
  (decide (Pg.key 0 ≤ pg) && decide (pg ≤ Pg.key 3)) || pg == Pg.ldr || (pg == Pg.glb && decide (0x120 ≤ a % 4096) && decide (a % 4096 < 0x128))

/-- One record of a configuration, as master 0x31; a record that resets the package ends the boot it stands in. -/
def cfgWrite (r : Words × Dev) (e : Nat × Nat) : Words × Dev :=
  if r.2.ldr.boot.isNone then r
  else if cfgBarred e.1 then (r.1, r.2.count Pg.ldr LDR.REFUSED_CFG)
  else match routeWrite .loader e.1 ((regAt (e.1 / 4096) (e.1 % 4096)).any fun x => decide (32 < x.width)) e.2 ⟨r.2, r.1, []⟩ with
    | .next s => (s.store, s.dev)
    | _ => r

/-- R426: the configuration is verified and applied. -/
def bootConfig (r : Words × Dev) : Words × Dev :=
  let bad (d : Dev) : Dev := (d.put Pg.ldr LDR.STS_CFG_BAD 1).raise Pg.ldr 1 causeCfg
  match r.2.ldr.flash.cfg with
  | some c => if r.2.verified 2 c then c.writes.foldl cfgWrite r else (r.1, bad r.2)
  | none => (r.1, bad r.2)

/-- R116, R417: the servo cores are loaded from a valid image and run. -/
def Dev.bootCores (d : Dev) : Dev :=
  match d.ldr.flash.running with
  | some c =>
    if d.get Pg.ldr LDR.STS_IMAGE = 2 then d
    else d.each [0, 1] fun (n : Ts) d => ((d.put (Pg.svc n) SVC.STS_FW_VER (c.num 8 1)).put (Pg.svc n) SVC.CTL_RUN 1).coreRun n true
  | none => d

/-- The record memory is scanned; then what the stages before it have found is recorded, the error pins are tested, and the journal is shown (R345, R354, R429). -/
def Dev.bootScanned (d : Dev) (x : BootIn) : Dev := ((d.bootRecorder.bootTorn.bootRootFault).bootPins x.pins).bootJournal

/-- What a stage of the boot does (R416). -/
def bootStage (k : Nat) (x : BootIn) (r : Words × Dev) : Words × Dev :=
  let d := r.2
  match k with
  | 0 => (r.1, d.bootClocks)
  | 1 => (r.1, d.bootOtp)
  | 2 => (r.1, d.bootKeys)
  | 3 => (r.1, (d.bootRoot x).bootResolve)
  | 4 => (r.1, d.bootScanned x)
  | 5 => (r.1, d.bootImage)
  | 6 => (r.1, d.bootCal)
  | 7 => (r.1, d.bootStore)
  | 8 => (r.1, d.bootLinks x.links)
  | 9 => bootConfig r
  | _ => (r.1, d.bootCores)

/-- The time from a stage to the next, in ns; the creation of a root takes 40 ms of its own, which the watchdog does not count (R417, R418). The last leads to BOOT_DONE. -/
def bootGap (k : Nat) (rooting : Bool) : Nat := (bootPlan.getD (k + 1) 64500 - bootPlan.getD k 0) * micro + (if rooting then 40 * milli else 0)

/-- The next stage falls due, unless the boot waits for a copy or has ended in a reset. -/
def Dev.bootNext (d : Dev) (k : Nat) : Dev :=
  match d.ldr.boot with
  | none => d
  | some b =>
    if b.stage ≠ k then d
    else
      let gap := bootGap k d.key.rooting
      let d := d.upLdr fun e => { e with boot := some { b with stage := k + 1, due := d.freeNs + gap } }
      let d := d.when d.key.rooting fun d => d.timerTime 0 (d.left .bootWatchdogExpiry + 40 * milli) .bootWatchdogExpiry
      d.afterTime 0 gap (if k + 1 < bootPlan.length then .boot b.x else .bootDone)

/-- A stage of the boot that is due runs. -/
def bootRun (r : Words × Dev) (b : BootRun) : Words × Dev :=
  let q := bootStage b.stage b.x r
  (q.1, q.2.bootNext b.stage)

/-- A boot begins at the lock of the TCLK PLL, with the flash as it was programmed since the last one, and with the boot watchdog, which counts from the origin 0.5 ms before (R416, R417, R419). -/
def Dev.bootBegin (d : Dev) (x : BootIn) : Dev :=
  ((d.upFlash fun f => x.flash.getD f).upLdr fun e => { e with boot := some ⟨x, 0, d.freeNs⟩ }).timerTime 0 (1999500 * micro) .bootWatchdogExpiry

/-- R416 to R418: the loader boots the device, once after each package reset; the command begins the boot, and brings each of its stages when it is due. -/
def execBoot (x : BootIn) (s : State) : Host.Outcome State Fault Refusal :=
  s.runReset fun st d =>
    if d.on Pg.glb GLB.BOOT_STS_BOOT_DONE then (st, d)
    else match d.ldr.boot with
      | none => bootRun (st, d.bootBegin x) ⟨x, 0, d.freeNs⟩
      | some b => if b.stage < bootPlan.length ∧ b.due ≤ d.freeNs then bootRun (st, d) b else (st, d)

/-- BOOT_DONE: event 6; TDC rotation starts, the ports that the configuration enabled start (R199), the sequencers that the configuration enabled go to IDLE, and the pair may begin (R416). -/
def Dev.bootFinish (d : Dev) : Dev :=
  let d := (((d.cancel .bootWatchdogExpiry).put Pg.glb GLB.BOOT_STS_BOOT_DONE 1).event 6).int Pg.glb 0
  let d := d.each (List.finRange 8) fun (n : Fin 8) d => d.when (d.on (Pg.seq n) SEQ.CTL_EN && d.seqState n == seqOff) fun d => d.seqToIdle n
  let d := d.each (List.finRange 24) fun p d => d.portStart p
  let d := ((d.after 0 .rotationStart).scrubLater).plkStart
  let d := (d.upLdr fun e => { e with confFrom := d.freeNs, boot := none }).confTimer
  d.when d.ldrWatched Dev.ldrKick

/-- The stages of the boot are over. -/
def Dev.bootThrough (d : Dev) : Bool := !d.on Pg.glb GLB.BOOT_STS_BOOT_DONE && d.ldr.boot.any fun b => b.stage == bootPlan.length && decide (b.due ≤ d.freeNs)

/-- R416: the boot ends, once after each package reset. -/
def execBootDone (s : State) : Host.Outcome State Fault Refusal :=
  s.run fun d => if d.bootThrough then (d.cancel .bootDone).bootFinish else d

/-- R417: the boot watchdog makes a package reset and counts it; while a copy is waited for it does not run. -/
def execBootWatchdogExpiry (s : State) : Host.Outcome State Fault Refusal :=
  s.runReset fun st d =>
    if d.ldr.boot.all fun b => b.stage == bootHeld then (st, d)
    else packageBegin (st, d.upLdr fun e => { e with failed := e.failed + 1 })

end Sys2Proof.Machine
end

