-- ==== Sys2Proof/Machine/Dispatch.lean ====
section
/-! DEFINITION. The dispatch: one arm for each command, each one direct call of its meaning. -/

namespace Sys2Proof.Machine

/-- The effect of a command on everything but the queue. -/
def exec (i : Instr) (s : State) : Host.Outcome State Fault Refusal :=
  match i with
  | .powerOn => Sys2Proof.Machine.execPowerOn s
  | .pkgRstN => Sys2Proof.Machine.execPkgRstN s
  | .packageReset m key => Sys2Proof.Machine.execPackageReset m key s
  | .regionCmd m key target => Sys2Proof.Machine.execRegionCmd m key target s
  | .dieCmd m key target => Sys2Proof.Machine.execDieCmd m key target s
  | .railFault pg c => Sys2Proof.Machine.execRailFault pg c s
  | .c4RegionReset r => Sys2Proof.Machine.execC4RegionReset r s
  | .regionResetComplete r => Sys2Proof.Machine.execRegionResetComplete r s
  | .linkRemeasure n tries => Sys2Proof.Machine.execLinkRemeasure n tries s
  | .replicaCheck n die upset => Sys2Proof.Machine.execReplicaCheck n die upset s
  | .applicationTick n => Sys2Proof.Machine.execApplicationTick n s
  | .boundPublish n => Sys2Proof.Machine.execBoundPublish n s
  | .clockClassHoldExpiry n => Sys2Proof.Machine.execClockClassHoldExpiry n s
  | .leapApply n => Sys2Proof.Machine.execLeapApply n s
  | .utcOffsetWrite m n v => Sys2Proof.Machine.execUtcOffsetWrite m n v s
  | .leapPendingWrite m n v => Sys2Proof.Machine.execLeapPendingWrite m n v s
  | .leapAtWrite m n v => Sys2Proof.Machine.execLeapAtWrite m n v s
  | .incrWrite m n v => Sys2Proof.Machine.execIncrWrite m n v s
  | .modeWrite m n v => Sys2Proof.Machine.execModeWrite m n v s
  | .slewStart m n v => Sys2Proof.Machine.execSlewStart m n v s
  | .slewComplete n => Sys2Proof.Machine.execSlewComplete n s
  | .stepArm m n key => Sys2Proof.Machine.execStepArm m n key s
  | .execRel m n key => Sys2Proof.Machine.execExecRel m n key s
  | .execAbs m n key => Sys2Proof.Machine.execExecAbs m n key s
  | .disarm m n key => Sys2Proof.Machine.execDisarm m n key s
  | .stepArmExpiry n => Sys2Proof.Machine.execStepArmExpiry n s
  | .stepApply n => Sys2Proof.Machine.execStepApply n s
  | .manUncWrite m n v => Sys2Proof.Machine.execManUncWrite m n v s
  | .snap m pg v => Sys2Proof.Machine.execSnap m pg v s
  | .snapJoint m => Sys2Proof.Machine.execSnapJoint m s
  | .snapDone pg => Sys2Proof.Machine.execSnapDone pg s
  | .bindWrite m k v => Sys2Proof.Machine.execBindWrite m k v s
  | .walkComplete n => Sys2Proof.Machine.execWalkComplete n s
  | .xtsRateWrite m v => Sys2Proof.Machine.execXtsRateWrite m v s
  | .monEnable m k v => Sys2Proof.Machine.execMonEnable m k v s
  | .monDisable m k v => Sys2Proof.Machine.execMonDisable m k v s
  | .forceDqWrite m k v => Sys2Proof.Machine.execForceDqWrite m k v s
  | .accept m k => Sys2Proof.Machine.execAccept m k s
  | .skipWtr m k => Sys2Proof.Machine.execSkipWtr m k s
  | .restart m k => Sys2Proof.Machine.execRestart m k s
  | .monWtrWrite m k v => Sys2Proof.Machine.execMonWtrWrite m k v s
  | .ppsEdge k t => Sys2Proof.Machine.execPpsEdge k t s
  | .pulseMissed k => Sys2Proof.Machine.execPulseMissed k s
  | .refFreqTimeout k => Sys2Proof.Machine.execRefFreqTimeout k s
  | .acquireExpiry k => Sys2Proof.Machine.execAcquireExpiry k s
  | .wtrExpiry k => Sys2Proof.Machine.execWtrExpiry k s
  | .dqHoldExpiry k => Sys2Proof.Machine.execDqHoldExpiry k s
  | .monitorSecond k y => Sys2Proof.Machine.execMonitorSecond k y s
  | .refConfigWrite m k off v => Sys2Proof.Machine.execRefConfigWrite m k off v s
  | .uartRxByte n b => Sys2Proof.Machine.execUartRxByte n b s
  | .uartPop m n v => Sys2Proof.Machine.execUartPop m n v s
  | .uartTxWrite m n v => Sys2Proof.Machine.execUartTxWrite m n v s
  | .uartEnWrite m n v => Sys2Proof.Machine.execUartEnWrite m n v s
  | .tlmTimeout n => Sys2Proof.Machine.execTlmTimeout n s
  | .steerValWrite m n v => Sys2Proof.Machine.execSteerValWrite m n v s
  | .usConfigWrite m n off v => Sys2Proof.Machine.execUsConfigWrite m n off v s
  | .usSyncRx n x => Sys2Proof.Machine.execUsSyncRx n x s
  | .usFollowUpRx n x => Sys2Proof.Machine.execUsFollowUpRx n x s
  | .usAnnounceRx n x => Sys2Proof.Machine.execUsAnnounceRx n x s
  | .usDelayReqTx n => Sys2Proof.Machine.execUsDelayReqTx n s
  | .usDelayRespRx n x => Sys2Proof.Machine.execUsDelayRespRx n x s
  | .usGrantRx n typ dur => Sys2Proof.Machine.execUsGrantRx n typ dur s
  | .usGrantRenew n typ => Sys2Proof.Machine.execUsGrantRenew n typ s
  | .usGrantRetry n typ => Sys2Proof.Machine.execUsGrantRetry n typ s
  | .usGrantLapse n typ => Sys2Proof.Machine.execUsGrantLapse n typ s
  | .usSyncTimeout n => Sys2Proof.Machine.execUsSyncTimeout n s
  | .usAnnounceTimeout n => Sys2Proof.Machine.execUsAnnounceTimeout n s
  | .synceEsmcRx n ql => Sys2Proof.Machine.execSynceEsmcRx n ql s
  | .esmcTimeout n => Sys2Proof.Machine.execEsmcTimeout n s
  | .synceGate n y => Sys2Proof.Machine.execSynceGate n y s
  | .gnssMeasurement => Sys2Proof.Machine.execGnssMeasurement s
  | .ensembleEval => Sys2Proof.Machine.execEnsembleEval s
  | .selectorEval n => Sys2Proof.Machine.execSelectorEval n s
  | .switchEnd n => Sys2Proof.Machine.execSwitchEnd n s
  | .lockAchieved n => Sys2Proof.Machine.execLockAchieved n s
  | .servoUpdate n => Sys2Proof.Machine.execServoUpdate n s
  | .svcRunWrite m n v => Sys2Proof.Machine.execSvcRunWrite m n v s
  | .svcHeartbeat m n v => Sys2Proof.Machine.execSvcHeartbeat m n v s
  | .svcWatchdogExpiry n => Sys2Proof.Machine.execSvcWatchdogExpiry n s
  | .holdoverBin n => Sys2Proof.Machine.execHoldoverBin n s
  | .gnssConfigWrite m p off v => Sys2Proof.Machine.execGnssConfigWrite m p off v s
  | .gnssPosWrite m off v => Sys2Proof.Machine.execGnssPosWrite m off v s
  | .gnssStart visible => Sys2Proof.Machine.execGnssStart visible s
  | .searchDwell e found => Sys2Proof.Machine.execSearchDwell e found s
  | .bandBHandover c cn0 => Sys2Proof.Machine.execBandBHandover c cn0 s
  | .gnssPulse sec => Sys2Proof.Machine.execGnssPulse sec s
  | .gnssSolution x => Sys2Proof.Machine.execGnssSolution x s
  | .raimHoldExpiry sat => Sys2Proof.Machine.execRaimHoldExpiry sat s
  | .surveyComplete => Sys2Proof.Machine.execSurveyComplete s
  | .surveyRestart => Sys2Proof.Machine.execSurveyRestart s
  | .jamAlarm band gain => Sys2Proof.Machine.execJamAlarm band gain s
  | .antBiasFault a b => Sys2Proof.Machine.execAntBiasFault a b s
  | .alarmWithdraw a => Sys2Proof.Machine.execAlarmWithdraw a s
  | .gnssUtcDecode ofs leap sec => Sys2Proof.Machine.execGnssUtcDecode ofs leap sec s
  | .keptClear m => Sys2Proof.Machine.execKeptClear m s
  | .gnssWake => Sys2Proof.Machine.execGnssWake s
  | .gnssSleep => Sys2Proof.Machine.execGnssSleep s
  | .ht4Write m off v => Sys2Proof.Machine.execHt4Write m off v s
  | .synEnable m n v => Sys2Proof.Machine.execSynEnable m n v s
  | .synDisable m n v => Sys2Proof.Machine.execSynDisable m n v s
  | .vcoCalDone n => Sys2Proof.Machine.execVcoCalDone n s
  | .lockGate n count y tune => Sys2Proof.Machine.execLockGate n count y tune s
  | .lockingTimeout n => Sys2Proof.Machine.execLockingTimeout n s
  | .synRefLoss n => Sys2Proof.Machine.execSynRefLoss n s
  | .freezeTimeout n => Sys2Proof.Machine.execFreezeTimeout n s
  | .align m n => Sys2Proof.Machine.execAlign m n s
  | .testEnter m n => Sys2Proof.Machine.execTestEnter m n s
  | .testExit m n => Sys2Proof.Machine.execTestExit m n s
  | .relock m n => Sys2Proof.Machine.execRelock m n s
  | .synConfigWrite m n off v => Sys2Proof.Machine.execSynConfigWrite m n off v s
  | .scaleWrite m n v => Sys2Proof.Machine.execScaleWrite m n v s
  | .ssCtlWrite m n off v => Sys2Proof.Machine.execSsCtlWrite m n off v s
  | .ssApply n => Sys2Proof.Machine.execSsApply n s
  | .dpllUpdate n e => Sys2Proof.Machine.execDpllUpdate n e s
  | .ckoCtlWrite m n v => Sys2Proof.Machine.execCkoCtlWrite m n v s
  | .ckoDivWrite m n v => Sys2Proof.Machine.execCkoDivWrite m n v s
  | .ckoPhaseWrite m n v => Sys2Proof.Machine.execCkoPhaseWrite m n v s
  | .tdcStamp n phi bin bin2 falling lane ps => Sys2Proof.Machine.execTdcStamp n phi bin bin2 falling lane ps s
  | .tdcArm m n => Sys2Proof.Machine.execTdcArm m n s
  | .tdcDisarm m n => Sys2Proof.Machine.execTdcDisarm m n s
  | .tdcFlush m n => Sys2Proof.Machine.execTdcFlush m n s
  | .tdcPop m n v => Sys2Proof.Machine.execTdcPop m n v s
  | .tdcFreqGate n => Sys2Proof.Machine.execTdcFreqGate n s
  | .streamWrite => Sys2Proof.Machine.execStreamWrite s
  | .strConfigWrite m n off v => Sys2Proof.Machine.execStrConfigWrite m n off v s
  | .tdcMuxWrite m n off v => Sys2Proof.Machine.execTdcMuxWrite m n off v s
  | .rotationStart => Sys2Proof.Machine.execRotationStart s
  | .rotationSwitch => Sys2Proof.Machine.execRotationSwitch s
  | .calTableCheck counts => Sys2Proof.Machine.execCalTableCheck counts s
  | .precisionTest bins => Sys2Proof.Machine.execPrecisionTest bins s
  | .rotationSwitchBack => Sys2Proof.Machine.execRotationSwitchBack s
  | .tdcCalNow m u => Sys2Proof.Machine.execTdcCalNow m u s
  | .tdcRestore m u => Sys2Proof.Machine.execTdcRestore m u s
  | .mclkUnlock => Sys2Proof.Machine.execMclkUnlock s
  | .calEntWrite m v => Sys2Proof.Machine.execCalEntWrite m v s
  | .evoArm m n => Sys2Proof.Machine.execEvoArm m n s
  | .evoStop m n off v => Sys2Proof.Machine.execEvoStop m n off v s
  | .evoEdge n => Sys2Proof.Machine.execEvoEdge n s
  | .evoDriverEnable n => Sys2Proof.Machine.execEvoDriverEnable n s
  | .eviEdge k falling ps => Sys2Proof.Machine.execEviEdge k falling ps s
  | .eviCtlWrite m k v inFilter => Sys2Proof.Machine.execEviCtlWrite m k v inFilter s
  | .portEnable m p v => Sys2Proof.Machine.execPortEnable m p v s
  | .portDisable m p v => Sys2Proof.Machine.execPortDisable m p v s
  | .lanePllLocked p => Sys2Proof.Machine.execLanePllLocked p s
  | .anComplete p abil reqRs reqBaseR => Sys2Proof.Machine.execAnComplete p abil reqRs reqBaseR s
  | .trainComplete p => Sys2Proof.Machine.execTrainComplete p s
  | .trainTimeout p => Sys2Proof.Machine.execTrainTimeout p s
  | .alignUp p => Sys2Proof.Machine.execAlignUp p s
  | .alignTimeout p => Sys2Proof.Machine.execAlignTimeout p s
  | .linkLoss p cause => Sys2Proof.Machine.execLinkLoss p cause s
  | .remoteFault p => Sys2Proof.Machine.execRemoteFault p s
  | .remoteFaultClear p => Sys2Proof.Machine.execRemoteFaultClear p s
  | .portConfigWrite m p off v => Sys2Proof.Machine.execPortConfigWrite m p off v s
  | .restartAn m p => Sys2Proof.Machine.execRestartAn m p s
  | .restartLink m p => Sys2Proof.Machine.execRestartLink m p s
  | .statClr m p => Sys2Proof.Machine.execStatClr m p s
  | .preVerify m p => Sys2Proof.Machine.execPreVerify m p s
  | .clusterReset m c => Sys2Proof.Machine.execClusterReset m c s
  | .frameRx p f => Sys2Proof.Machine.execFrameRx p f s
  | .pauseExpiry p => Sys2Proof.Machine.execPauseExpiry p s
  | .frameTx p => Sys2Proof.Machine.execFrameTx p s
  | .verifySend p => Sys2Proof.Machine.execVerifySend p s
  | .lpiEntry p => Sys2Proof.Machine.execLpiEntry p s
  | .lpiWake p => Sys2Proof.Machine.execLpiWake p s
  | .lpiCtlWrite m p v => Sys2Proof.Machine.execLpiCtlWrite m p v s
  | .hostRxWrite p sTci cTci data mec => Sys2Proof.Machine.execHostRxWrite p sTci cTci data mec s
  | .htxWpWrite m p v => Sys2Proof.Machine.execHtxWpWrite m p v s
  | .hostTxFrame p tag data => Sys2Proof.Machine.execHostTxFrame p tag data s
  | .ringConfigWrite m p off v => Sys2Proof.Machine.execRingConfigWrite m p off v s
  | .probeDwell p eps => Sys2Proof.Machine.execProbeDwell p eps s
  | .probeStale p => Sys2Proof.Machine.execProbeStale p s
  | .calSlotStart p => Sys2Proof.Machine.execCalSlotStart p s
  | .calSlotEnd p x => Sys2Proof.Machine.execCalSlotEnd p x s
  | .ptsCalNow m p => Sys2Proof.Machine.execPtsCalNow m p s
  | .qFlush m p => Sys2Proof.Machine.execQFlush m p s
  | .ptsPop m p v => Sys2Proof.Machine.execPtsPop m p v s
  | .ptsDelayWrite m p off v => Sys2Proof.Machine.execPtsDelayWrite m p off v s
  | .delayReqRx p x => Sys2Proof.Machine.execDelayReqRx p x s
  | .ntpRequestRx p x => Sys2Proof.Machine.execNtpRequestRx p x s
  | .ntsRequestRx p x => Sys2Proof.Machine.execNtsRequestRx p x s
  | .signalingRx p x => Sys2Proof.Machine.execSignalingRx p x s
  | .admissionEpoch => Sys2Proof.Machine.execAdmissionEpoch s
  | .wheelSlot => Sys2Proof.Machine.execWheelSlot s
  | .esmcInfoPdu p => Sys2Proof.Machine.execEsmcInfoPdu p s
  | .overloadSecond => Sys2Proof.Machine.execOverloadSecond s
  | .capacityCount kind inst => Sys2Proof.Machine.execCapacityCount kind inst s
  | .rspEnWrite m v => Sys2Proof.Machine.execRspEnWrite m v s
  | .cntClr m => Sys2Proof.Machine.execCntClr m s
  | .domCtlWrite m k v => Sys2Proof.Machine.execDomCtlWrite m k v s
  | .cstWrite m addr wide v => Sys2Proof.Machine.execCstWrite m addr wide v s
  | .cstSetWrite m addr wide v => Sys2Proof.Machine.execCstSetWrite m addr wide v s
  | .cstClearWrite m addr wide v => Sys2Proof.Machine.execCstClearWrite m addr wide v s
  | .lookup m => Sys2Proof.Machine.execLookup m s
  | .scrubNow m => Sys2Proof.Machine.execScrubNow m s
  | .scrubPass errs => Sys2Proof.Machine.execScrubPass errs s
  | .brineEnter m v => Sys2Proof.Machine.execBrineEnter m v s
  | .brineExit m v => Sys2Proof.Machine.execBrineExit m v s
  | .hashSeedWrite m v => Sys2Proof.Machine.execHashSeedWrite m v s
  | .katDone n pass => Sys2Proof.Machine.execKatDone n pass s
  | .fenceWrite m n v => Sys2Proof.Machine.execFenceWrite m n v s
  | .unfence m n => Sys2Proof.Machine.execUnfence m n s
  | .katNow m n => Sys2Proof.Machine.execKatNow m n s
  | .cryptoOp n ok => Sys2Proof.Machine.execCryptoOp n ok s
  | .importKey m slot => Sys2Proof.Machine.execImportKey m slot s
  | .deriveKey m slot => Sys2Proof.Machine.execDeriveKey m slot s
  | .retireKey m slot => Sys2Proof.Machine.execRetireKey m slot s
  | .destroyKey m slot => Sys2Proof.Machine.execDestroyKey m slot s
  | .unwrapKey m slot blob => Sys2Proof.Machine.execUnwrapKey m slot blob s
  | .keyAbort m => Sys2Proof.Machine.execKeyAbort m s
  | .keyCommit => Sys2Proof.Machine.execKeyCommit s
  | .keyNtsCurWrite m v => Sys2Proof.Machine.execKeyNtsCurWrite m v s
  | .attest m => Sys2Proof.Machine.execAttest m s
  | .submitToken m => Sys2Proof.Machine.execSubmitToken m s
  | .audEnable m p rx v => Sys2Proof.Machine.execAudEnable m p rx v s
  | .audDisable m p rx v => Sys2Proof.Machine.execAudDisable m p rx v s
  | .audOscLock p rx => Sys2Proof.Machine.execAudOscLock p rx s
  | .audStart p rx => Sys2Proof.Machine.execAudStart p rx s
  | .audFrameBoundary p rx recs samples => Sys2Proof.Machine.execAudFrameBoundary p rx recs samples s
  | .audMaskWrite m p rx v => Sys2Proof.Machine.execAudMaskWrite m p rx v s
  | .wsEdge p rx => Sys2Proof.Machine.execWsEdge p rx s
  | .audInputLoss p rx => Sys2Proof.Machine.execAudInputLoss p rx s
  | .audRateMeasure p rx => Sys2Proof.Machine.execAudRateMeasure p rx s
  | .realign m p rx => Sys2Proof.Machine.execRealign m p rx s
  | .audCntClr m p rx => Sys2Proof.Machine.execAudCntClr m p rx s
  | .audConfigWrite m p rx off v => Sys2Proof.Machine.execAudConfigWrite m p rx off v s
  | .seqEnable m n v => Sys2Proof.Machine.execSeqEnable m n v s
  | .seqDisable m n v => Sys2Proof.Machine.execSeqDisable m n v s
  | .seqStart m n => Sys2Proof.Machine.execSeqStart m n s
  | .seqStop m n => Sys2Proof.Machine.execSeqStop m n s
  | .clrFault m n => Sys2Proof.Machine.execClrFault m n s
  | .triggerStart n => Sys2Proof.Machine.execTriggerStart n s
  | .seqNop n => Sys2Proof.Machine.execSeqNop n s
  | .seqWr n sp src va w addr => Sys2Proof.Machine.execSeqWr n sp src va w addr s
  | .seqRd n mode va w vb => Sys2Proof.Machine.execSeqRd n mode va w vb s
  | .seqSetb n sp b w => Sys2Proof.Machine.execSeqSetb n sp b w s
  | .seqClrb n sp b w => Sys2Proof.Machine.execSeqClrb n sp b w s
  | .seqWaitb n sp b val w unit tmo => Sys2Proof.Machine.execSeqWaitb n sp b val w unit tmo s
  | .seqWaitt n rel ts w => Sys2Proof.Machine.execSeqWaitt n rel ts w s
  | .seqWaite n e old unit tmo => Sys2Proof.Machine.execSeqWaite n e old unit tmo s
  | .seqJmp n t => Sys2Proof.Machine.execSeqJmp n t s
  | .seqJz n va t => Sys2Proof.Machine.execSeqJz n va t s
  | .seqJnz n va t => Sys2Proof.Machine.execSeqJnz n va t s
  | .seqDjnz n va t => Sys2Proof.Machine.execSeqDjnz n va t s
  | .seqAdd n va imm vb k => Sys2Proof.Machine.execSeqAdd n va imm vb k s
  | .seqSub n va imm vb k => Sys2Proof.Machine.execSeqSub n va imm vb k s
  | .seqAnd n va imm vb k => Sys2Proof.Machine.execSeqAnd n va imm vb k s
  | .seqOr n va imm vb k => Sys2Proof.Machine.execSeqOr n va imm vb k s
  | .seqRec n tag => Sys2Proof.Machine.execSeqRec n tag s
  | .seqSnap n l => Sys2Proof.Machine.execSeqSnap n l s
  | .seqRaise n kind x => Sys2Proof.Machine.execSeqRaise n kind x s
  | .seqHalt n => Sys2Proof.Machine.execSeqHalt n s
  | .seqCall n t => Sys2Proof.Machine.execSeqCall n t s
  | .seqRet n => Sys2Proof.Machine.execSeqRet n s
  | .seqIllegal n parity => Sys2Proof.Machine.execSeqIllegal n parity s
  | .seqWaitEnd n => Sys2Proof.Machine.execSeqWaitEnd n s
  | .seqBudgetExpiry n => Sys2Proof.Machine.execSeqBudgetExpiry n s
  | .seqInstrWrite m n k v => Sys2Proof.Machine.execSeqInstrWrite m n k v s
  | .recFlush m => Sys2Proof.Machine.execRecFlush m s
  | .flushComplete => Sys2Proof.Machine.execFlushComplete s
  | .recClear m => Sys2Proof.Machine.execRecClear m s
  | .recSnap m l => Sys2Proof.Machine.execRecSnap m l s
  | .snapshotComplete => Sys2Proof.Machine.execSnapshotComplete s
  | .recCursorWrite m v => Sys2Proof.Machine.execRecCursorWrite m v s
  | .fltClr m pg v => Sys2Proof.Machine.execFltClr m pg v s
  | .fltClrAll m v => Sys2Proof.Machine.execFltClrAll m v s
  | .fltForceWrite m pg v => Sys2Proof.Machine.execFltForceWrite m pg v s
  | .pinPoll => Sys2Proof.Machine.execPinPoll s
  | .collectorRailDisagree pages => Sys2Proof.Machine.execCollectorRailDisagree pages s
  | .linkWordError n => Sys2Proof.Machine.execLinkWordError n s
  | .linkResyncTimeout n => Sys2Proof.Machine.execLinkResyncTimeout n s
  | .pmcSelWrite m pg k v => Sys2Proof.Machine.execPmcSelWrite m pg k v s
  | .pmcLatch m => Sys2Proof.Machine.execPmcLatch m s
  | .pmcAutoLatch => Sys2Proof.Machine.execPmcAutoLatch s
  | .pmcFilterWrite m off v => Sys2Proof.Machine.execPmcFilterWrite m off v s
  | .admissionCycle => Sys2Proof.Machine.execAdmissionCycle s
  | .powerCapWrite m v => Sys2Proof.Machine.execPowerCapWrite m v s
  | .pwrReqWrite m pg v => Sys2Proof.Machine.execPwrReqWrite m pg v s
  | .thermalSample core analog portA portB mw => Sys2Proof.Machine.execThermalSample core analog portA portB mw s
  | .capStep => Sys2Proof.Machine.execCapStep s
  | .enterCave m => Sys2Proof.Machine.execEnterCave m s
  | .exitCave m => Sys2Proof.Machine.execExitCave m s
  | .pfwAssert => Sys2Proof.Machine.execPfwAssert s
  | .pfwDeassert => Sys2Proof.Machine.execPfwDeassert s
  | .monitorTrip => Sys2Proof.Machine.execMonitorTrip s
  | .autoExit => Sys2Proof.Machine.execAutoExit s
  | .caveRevoke => Sys2Proof.Machine.execCaveRevoke s
  | .caveCclkStop => Sys2Proof.Machine.execCaveCclkStop s
  | .caveStore => Sys2Proof.Machine.execCaveStore s
  | .caveEntered => Sys2Proof.Machine.execCaveEntered s
  | .caveExitDone => Sys2Proof.Machine.execCaveExitDone s
  | .oscLoss => Sys2Proof.Machine.execOscLoss s
  | .oscReturn => Sys2Proof.Machine.execOscReturn s
  | .oscRelock => Sys2Proof.Machine.execOscRelock s
  | .sclkSsWrite m v => Sys2Proof.Machine.execSclkSsWrite m v s
  | .caveBrownout => Sys2Proof.Machine.execCaveBrownout s
  | .plkEnable m v => Sys2Proof.Machine.execPlkEnable m v s
  | .plkDisable m v => Sys2Proof.Machine.execPlkDisable m v s
  | .kwgBlockLock lock => Sys2Proof.Machine.execKwgBlockLock lock s
  | .kwgAlignTimeout => Sys2Proof.Machine.execKwgAlignTimeout s
  | .helloTx => Sys2Proof.Machine.execHelloTx s
  | .helloRx h uid epoch => Sys2Proof.Machine.execHelloRx h uid epoch s
  | .kwgTagFail replay => Sys2Proof.Machine.execKwgTagFail replay s
  | .kwgLinkTimeout => Sys2Proof.Machine.execKwgLinkTimeout s
  | .hbToggle => Sys2Proof.Machine.execHbToggle s
  | .partnerLost => Sys2Proof.Machine.execPartnerLost s
  | .take m force => Sys2Proof.Machine.execTake m force s
  | .handover m => Sys2Proof.Machine.execHandover m s
  | .plkAbort m => Sys2Proof.Machine.execPlkAbort m s
  | .takeCondition => Sys2Proof.Machine.execTakeCondition s
  | .claimWaitEnd => Sys2Proof.Machine.execClaimWaitEnd s
  | .witGrantFall => Sys2Proof.Machine.execWitGrantFall s
  | .reqTimeout => Sys2Proof.Machine.execReqTimeout s
  | .handoverRequestRx h => Sys2Proof.Machine.execHandoverRequestRx h s
  | .healthTx => Sys2Proof.Machine.execHealthTx s
  | .healthRx h x => Sys2Proof.Machine.execHealthRx h x s
  | .kwgSyncTx => Sys2Proof.Machine.execKwgSyncTx s
  | .kwgSyncRx h f => Sys2Proof.Machine.execKwgSyncRx h f s
  | .kwgRespRx h sync t2 t3 f => Sys2Proof.Machine.execKwgRespRx h sync t2 t3 f s
  | .mirrorEntryRx h x => Sys2Proof.Machine.execMirrorEntryRx h x s
  | .selftest ok => Sys2Proof.Machine.execSelftest ok s
  | .boot x => Sys2Proof.Machine.execBoot x s
  | .bootDone => Sys2Proof.Machine.execBootDone s
  | .bootWatchdogExpiry => Sys2Proof.Machine.execBootWatchdogExpiry s
  | .openSession m c => Sys2Proof.Machine.execOpenSession m c s
  | .verifyHdr m => Sys2Proof.Machine.execVerifyHdr m s
  | .loadBody m => Sys2Proof.Machine.execLoadBody m s
  | .loadComplete => Sys2Proof.Machine.execLoadComplete s
  | .verifyBody m => Sys2Proof.Machine.execVerifyBody m s
  | .activate m => Sys2Proof.Machine.execActivate m s
  | .copyDone => Sys2Proof.Machine.execCopyDone s
  | .confirm m => Sys2Proof.Machine.execConfirm m s
  | .selfConfirm => Sys2Proof.Machine.execSelfConfirm s
  | .ldrAbort m => Sys2Proof.Machine.execLdrAbort m s
  | .calCommit m => Sys2Proof.Machine.execCalCommit m s
  | .restoreImage m => Sys2Proof.Machine.execRestoreImage m s
  | .sessionTimeout => Sys2Proof.Machine.execSessionTimeout s
  | .kick m v => Sys2Proof.Machine.execKick m v s
  | .ldrWatchdogExpiry => Sys2Proof.Machine.execLdrWatchdogExpiry s
  | .partnerContainerRx h c => Sys2Proof.Machine.execPartnerContainerRx h c s
  | .registerWrite m addr wide v => Sys2Proof.Machine.execRegisterWrite m addr wide v s
  | .mgmtWriteTransfer octets => Sys2Proof.Machine.execMgmtWriteTransfer octets s
  | .softRst m pg v => Sys2Proof.Machine.execSoftRst m pg v s
  | .freezeWrite m pg v => Sys2Proof.Machine.execFreezeWrite m pg v s
  | .intStsClear m pg v => Sys2Proof.Machine.execIntStsClear m pg v s
  | .intForce m pg v => Sys2Proof.Machine.execIntForce m pg v s
  | .intEnWrite m pg v => Sys2Proof.Machine.execIntEnWrite m pg v s
  | .msixUnmask m vec => Sys2Proof.Machine.execMsixUnmask m vec s
  | .pciePerst => Sys2Proof.Machine.execPciePerst s
  | .pcieLinkUp width speed => Sys2Proof.Machine.execPcieLinkUp width speed s
  | .testDis m => Sys2Proof.Machine.execTestDis m s
  | .mclkRelock => Sys2Proof.Machine.execMclkRelock s
  | .witGrantRise => Sys2Proof.Machine.execWitGrantRise s
  | .claimInChange high => Sys2Proof.Machine.execClaimInChange high s
  | .hbInEdge => Sys2Proof.Machine.execHbInEdge s
  | .monitorClear => Sys2Proof.Machine.execMonitorClear s
  | .lpiRxEntry p enter => Sys2Proof.Machine.execLpiRxEntry p enter s
  | .pcieLinkDown => Sys2Proof.Machine.execPcieLinkDown s

end Sys2Proof.Machine
end

