-- ==== Sys2Proof/Safety.lean ====
section
/-! DEFINITION. What counts as a safe step, and the terms the statements use: a write that is served, the device behind it, and the state an effect leaves. -/

namespace Sys2Proof

/-- A command completes in a state: exec answers a next state and leaves the queue alone. -/
def Completes (c : Instr) (s : Machine.State) : Prop :=
  ∃ t, Machine.exec c s = .next t ∧ t.pending = s.pending

/-- The commands that may bring about a package reset (R17, R417, R432, R456, R458): the only ones after which the MEC may stand lower (R40). -/
def mayReset : Instr → Bool
  | .powerOn | .pkgRstN | .caveBrownout | .packageReset _ _ | .boot _ | .bootWatchdogExpiry | .copyDone | .ldrWatchdogExpiry => true
  | .registerWrite _ _ _ _ | .mgmtWriteTransfer _ => true
  | _ => false

/-- The commands that may move a timescale: a step, and the last tick of a slew (R27). -/
def movesTime : Instr → Bool
  | .stepApply _ | .slewComplete _ => true
  | _ => false

namespace Machine

/-- The state that holds this device, with the client store and the queue as they were; the clock is the one before, since no command but a step, the last tick of a slew and a package reset moves it (R18, R27, R40). -/
def State.withDev (s : State) (d : Dev) : State := { s with dev := { d with clk := s.dev.clk } }

/-- As `withDev`, for a command that changes the client store too. -/
def State.withStore (s : State) (r : List (Nat × BitVec 64) × Dev) : State :=
  { s with dev := { r.2 with clk := s.dev.clk }, store := r.1 }

/-- As `withDev`, for a command that may move a timescale; the MEC stays (R40). -/
def State.withTime (s : State) (d : Dev) : State := { s with dev := { d with clk := { d.clk with mec := s.dev.clk.mec } } }

/-- The state after a package reset: its device with the clock at its reset value (R18, R40). -/
def State.afterReset (s : State) (r : List (Nat × BitVec 64) × Dev) : State :=
  { s with dev := { r.2 with clk := {} }, store := r.1 }

/-- The state after a command that may or may not make a package reset: its clock is at its reset value exactly where the reset was made (R18, R40). -/
def State.withReset (s : State) (r : List (Nat × BitVec 64) × Dev) : State :=
  { s with dev := { r.2 with clk := if r.2.clk = {} then {} else s.dev.clk }, store := r.1 }

/-- A write by a master to an offset of a page is served (R34, R437, R440, R441, R454), and the lock of the page's block is off (R476). -/
def Served (s : State) (m : Master) (pg off : Nat) : Prop := s.dev.gate m pg off = .served ∧ s.dev.locked pg = false

/-- The device once the fabric has served a write: LAST_WR, the readback group and the counted event (R35, R444). -/
abbrev State.took (s : State) (m : Master) (pg off v : Nat) : Dev := s.dev.served m pg off v

/-- A plain register write of a command: the register takes the value by its access types (R13, R14), every other own register of every page stays, and nothing beyond registers and the stamps and marks of their writes differs (R14, R32). -/
def WritesOnly (s : State) (c : Instr) (pg off v : Nat) : Prop :=
  ∀ r, regAt pg off = some r → 0x100 ≤ r.start off → ∃ t, exec c s = .next t ∧ t = { s with dev := { s.dev with regs := t.dev.regs, events := t.dev.events, hwSet := t.dev.hwSet } } ∧
    t.dev.reg pg (r.start off) = r.store (r.start off) false (s.dev.justSet (4096 * pg + r.start off)) v (s.dev.reg pg (r.start off)) ∧
    ∀ pg' off', 0x100 ≤ off' → off' < 4096 → pg' ≠ pg ∨ off' ≠ r.start off → t.dev.reg pg' off' = s.dev.reg pg' off'

/-- A sequencer in RUN has gone on (R330, R334): it stays in RUN at a program counter with these values of V0 to V7; the store, the clock, the other sequencers and the registers of every other page are as before. -/
def SeqWent (s t : State) (n : Fin 8) (pc : Nat) (v : Fin 8 → Nat) : Prop :=
  t.store = s.store ∧ t.pending = s.pending ∧ t.dev = { s.dev with regs := t.dev.regs, agenda := t.dev.agenda, alarms := t.dev.alarms, events := t.dev.events, hwSet := t.dev.hwSet, seq := t.dev.seq } ∧
  t.dev.seqState n = seqRun ∧ t.dev.seqPc n = pc ∧ (∀ j, t.dev.v n j = v j) ∧ (∀ k : Fin 8, k ≠ n → t.dev.seq[k] = s.dev.seq[k]) ∧
  ∀ pg off, off < 4096 → pg ≠ Pg.seq n → t.dev.reg pg off = s.dev.reg pg off

/-- The memory of the client store has its canonical form: addresses rise, and no listed word equals the 0 that an unlisted one reads as. -/
def Memory.wf (m : List (Nat × BitVec 64)) : Bool := swf (fun _ => 0) m

end Machine

end Sys2Proof
end

