-- ==== Sys2Proof/Certificates/Slice0/Obligations.lean ====
section
/-! DEFINITION. The statements for the provers, from the numbered rules of the spec. -/

open Sys2Proof Sys2Proof.Machine

/-- With a command at the front of the queue, a step is exec of that command on the state with the rest of the queue; the queue itself is the model's own (log entry 1). -/
def Obligations.StepRunsFrontCommand : Prop :=
  ∀ (s : State) (c : Instr) (rest : List Instr), step { s with pending := c :: rest } = exec c { s with pending := rest }

/-- In every state every command of the table answers a next state whose queue is the queue it found: the spec gives each error an effect on registers and counters, and none stops the block. -/
def Obligations.EveryCommandAnswers : Prop :=
  ∀ (c : Instr) (s : State), Completes c s

/-- After reset the MEC is 0, nothing is stored and no command waits; every register of every page reads the reset value of its row in the register map, among them TSA_INCR and TSA_INCR_EFF at the nominal 2^48, TSA_SLEW_MAX.RATE at 50 ns/s, the published bound unbounded and BOOT_DONE 0. The accumulators at 0 and the empty client store are the model's choice (log entry 3 and the reset lines of INVENTORY.md). -/
def Obligations.ResetState : Prop :=
  State.reset.pending = [] ∧ State.reset.store = [] ∧ State.reset.dev.now = 0 ∧
  (∀ n : Ts, State.reset.dev.acc n = 0) ∧
  (∀ pg off : Nat, State.reset.dev.reg pg off = resetWord (4096 * pg + off)) ∧
  (∀ n : Ts, State.reset.dev.get (Pg.ts n) TS.INCR_INCR = 2 ^ 48 ∧ State.reset.dev.get (Pg.ts n) TS.INCR_EFF_EFF = 2 ^ 48 ∧
    State.reset.dev.get (Pg.ts n) TS.SLEW_MAX_RATE = 50 ∧ State.reset.dev.get (Pg.ts n) TS.BOUND_STS_CODE = 0xFFFF) ∧
  State.reset.dev.get Pg.glb GLB.BOOT_STS_BOOT_DONE = 0

/-- The memory of the client store after reset has the canonical form that every step keeps. -/
def Obligations.ResetMeetsForm : Prop :=
  Memory.wf State.reset.store = true

/-- From every state whose client store has its canonical form (word addresses rising, no listed word equal to the 0 of an unlisted one), every step, whichever command it runs, leaves a client store in that form. -/
def Obligations.StoreKeepsForm : Prop :=
  ∀ s t : State, Memory.wf s.store = true → step s = .next t → Memory.wf t.store = true

/-- A power-on leaves the MEC at 0; a tick advances it by exactly 1; every command that cannot make a package reset leaves it as it is, and one that can leaves it as it is or at 0. -/
def Obligations.MecCountsTicks : Prop :=
  (∀ s : State, ∃ t, exec .powerOn s = .next t ∧ t.dev.now = 0) ∧
  (∀ s : State, s.pending = [] → ∃ t, step s = .next t ∧ t.dev.now = s.dev.now + 1) ∧
  (∀ (c : Instr) (s t : State), exec c s = .next t → mayReset c = false → t.dev.now = s.dev.now) ∧
  (∀ (c : Instr) (s t : State), exec c s = .next t → mayReset c = true → t.dev.now = s.dev.now ∨ t.dev.now = 0)

/-- A command that is no step, no last tick of a slew and cannot make a package reset leaves the MEC and both accumulators exactly as they are; what can make a package reset leaves them as they are or all at 0. -/
def Obligations.OnlyStepsAndSlewsMoveTime : Prop :=
  (∀ (c : Instr) (s t : State), exec c s = .next t → mayReset c = false → movesTime c = false → t.dev.clk = s.dev.clk) ∧
  (∀ (c : Instr) (s t : State), exec c s = .next t → mayReset c = true → t.dev.clk = s.dev.clk ∨ t.dev.clk = {})

/-- With nothing waiting a step is one tick: each accumulator, held as SEC, NS below 10^9 and 48 fraction bits, grows by its effective increment plus its slew adjustment, which is ADJ toward the end of the slew while more than ADJ remains and 0 otherwise (the last tick of a slew is the command SLEW_COMPLETE); the client store is untouched. -/
def Obligations.IdleTickAdvancesTime : Prop :=
  ∀ s : State, s.pending = [] → ∃ t, step s = .next t ∧ t.store = s.store ∧ ∀ n : Ts,
    let rem := s.dev.ts[n].slewRem;
    let adj := clampN 1 1000 (s.dev.get (Pg.ts n) TS.SLEW_MAX_RATE) * 2 ^ 48 / 10 ^ 9;
    let inc := s.dev.get (Pg.ts n) TS.INCR_EFF_EFF;
      (rem.natAbs ≤ adj → t.dev.acc n = s.dev.acc n + inc) ∧
      (adj < rem.natAbs → 0 < rem → t.dev.acc n = s.dev.acc n + inc + adj) ∧
      (adj < rem.natAbs → rem < 0 → t.dev.acc n = s.dev.acc n + inc - adj) ∧
      (∃ ns frac, ns < 10 ^ 9 ∧ frac < 2 ^ 48 ∧ t.dev.acc n = t.dev.sec n * (10 ^ 9 * 2 ^ 48) + ns * 2 ^ 48 + frac)

/-- At every tick, what a slew adds is what its remainder loses: accumulator plus remainder grows by the effective increment alone, wherever the accumulator does not fall below 0; and the last tick of a slew adds exactly the remainder. -/
def Obligations.SlewRemovesItsAmount : Prop :=
  ∀ (s : State) (n : Ts),
    (s.pending = [] → ∃ t, step s = .next t ∧
      (0 ≤ (s.dev.acc n : Int) + s.dev.tickAdd n →
        (t.dev.acc n : Int) + t.dev.ts[n].slewRem = s.dev.acc n + s.dev.get (Pg.ts n) TS.INCR_EFF_EFF + s.dev.ts[n].slewRem)) ∧
    (∀ t, exec (.slewComplete n) s = .next t → 0 ≤ (s.dev.acc n : Int) + s.dev.ts[n].slewRem →
      (t.dev.acc n : Int) + t.dev.ts[n].slewRem = s.dev.acc n + s.dev.ts[n].slewRem)

/-- For a bound of b units of 2^-8 ps: the code holds the smallest exponent e of 0 to 30 that leaves a mantissa of at most 2,047, and that mantissa rounded up; a bound above 2,047 × 2^30 ps and an unbounded one give 0xFFFF; a code with exponent 31 decodes as unbounded, every other as mantissa × 2^e ps; no code below 0x0001 is given, and no code decodes below the bound it was made from. -/
def Obligations.BoundCodes : Prop :=
  (∀ b e : Nat, 0 < b → e ≤ 30 → cdiv b (2 ^ (e + 8)) ≤ 2047 → (∀ k < e, 2047 < cdiv b (2 ^ (k + 8))) → encodeBound (some b) = e * 2048 + cdiv b (2 ^ (e + 8))) ∧
  (∀ b : Nat, 2047 * 2 ^ 30 * 256 < b → encodeBound (some b) = 0xFFFF) ∧
  (∀ b : Nat, b ≤ 2047 * 2 ^ 30 * 256 → encodeBound (some b) < 31 * 2048) ∧
  encodeBound none = 0xFFFF ∧
  (∀ e m : Nat, e ≤ 30 → m < 2048 → decodeBound (e * 2048 + m) = some (m * 2 ^ e * 256)) ∧
  (∀ m : Nat, m < 2048 → decodeBound (31 * 2048 + m) = none) ∧
  (∀ b : Bound, 0x0001 ≤ encodeBound b) ∧
  (∀ b c : Nat, decodeBound (encodeBound (some b)) = some c → b ≤ c) ∧
  encodeBound (some (137400 * 256)) = 0x3C32

/-- An engine time below 2^48 s has FRAC in bits 15:0, NS in bits 45:16 and below 10^9, SEC in bits 93:46, and 0 in bits 95:94; reading the form back gives the time; and what is read out of an accumulator is the last multiple of 2^-16 ns not after it. -/
def Obligations.TimeFormat : Prop :=
  (∀ t : Nat, t < 2 ^ 48 * (10 ^ 9 * 2 ^ 16) →
    time96 t % 2 ^ 16 = t % 2 ^ 16 ∧ time96 t / 2 ^ 16 % 2 ^ 30 = t / 2 ^ 16 % 10 ^ 9 ∧ time96 t / 2 ^ 46 % 2 ^ 48 = t / (10 ^ 9 * 2 ^ 16) ∧
    time96 t < 2 ^ 94 ∧ untime96 (time96 t) = t) ∧
  (∀ (d : Dev) (n : Ts), d.time16 n * 2 ^ 32 ≤ d.acc n ∧ d.acc n < (d.time16 n + 1) * 2 ^ 32)

/-- The calendar word of an engine time holds the nanosecond in bits 29:0 of CAL0 and VALID in bit 31, SECOND, MINUTE, HOUR, DAY and MONTH in CAL1 at their places and in their ranges, with SECOND 60 exactly in the engine second before a pending insertion, and the year in 14 bits of CAL2; day 0 is 1970-01-01, and leap days fall as the Gregorian rule says. -/
def Obligations.CalendarWord : Prop :=
  (∀ (d : Dev) (acc : Nat),
    let w := d.calAt acc;
      w % 2 ^ 30 = acc % accSecond / 2 ^ 48 ∧ w % 2 ^ 30 < 10 ^ 9 ∧ w / 2 ^ 30 % 2 = 0 ∧ w / 2 ^ 31 % 2 = d.get (Pg.ts 0) TS.UTC_OFFSET_VALID ∧
      (w / 2 ^ 32 % 2 ^ 6 = 60 ↔ (d.get (Pg.ts 0) TS.LEAP_CTL_PENDING = 1 ∧ acc / accSecond + 1 = d.get (Pg.ts 0) TS.LEAP_AT_SEC)) ∧
      w / 2 ^ 32 % 2 ^ 6 ≤ 60 ∧ w / 2 ^ 38 % 2 ^ 6 < 60 ∧ w / 2 ^ 44 % 2 ^ 5 < 24 ∧
      1 ≤ w / 2 ^ 49 % 2 ^ 5 ∧ w / 2 ^ 49 % 2 ^ 5 ≤ 31 ∧ 1 ≤ w / 2 ^ 54 % 2 ^ 4 ∧ w / 2 ^ 54 % 2 ^ 4 ≤ 12 ∧ w / 2 ^ 58 % 2 ^ 6 = 0 ∧ w / 2 ^ 64 < 2 ^ 14) ∧
  civil 0 = (1970, 1, 1) ∧ civil 19782 = (2024, 2, 29) ∧ civil 47540 = (2100, 2, 28) ∧ civil 47541 = (2100, 3, 1)

/-- For a served TSA_STEP_CMD of a master that may step: an ARM with a wrong key gives RESULT 0x1 and leaves any arm in place; one with its key gives RESULT 0x6 and an arm of this master for 10 s. An EXEC clears the arm whatever becomes of it: RESULT 0x3 and the pending step kept while one is pending; RESULT 0x2 and no step without this master's own arm in its 10 s; with it, or by the servo core whose automatic step needs no arm, the step is pending with the operand that stands in its register now. None of them moves a timescale. -/
def Obligations.StepArming : Prop :=
  ∀ (s : State) (m : Master) (n : Ts) (key : Nat), s.dev.gate m (Pg.ts n) 0x188 = .served → s.dev.mayStep n m = true →
    (key % 256 ≠ 0x5A → ∃ t, exec (.stepArm m n key) s = .next t ∧ t.dev.get (Pg.ts n) TS.STEP_STS_RESULT = 1 ∧ t.dev.ts[n] = s.dev.ts[n] ∧ t.dev.clk = s.dev.clk) ∧
    (key % 256 = 0x5A → ∃ t, exec (.stepArm m n key) s = .next t ∧ t.dev.get (Pg.ts n) TS.STEP_STS_RESULT = 6 ∧ t.dev.get (Pg.ts n) TS.STEP_STS_ARMED = 1 ∧
      t.dev.get (Pg.ts n) TS.STEP_STS_ARM_MASTER = masterId m ∧ t.dev.ts[n].arm = some (m, s.dev.now + 10 * 10 ^ 9) ∧ t.dev.ts[n].step = s.dev.ts[n].step ∧ t.dev.clk = s.dev.clk) ∧
    (s.dev.ts[n].step.isSome = true → ∃ t u, exec (.execRel m n key) s = .next t ∧ exec (.execAbs m n key) s = .next u ∧
      t.dev.get (Pg.ts n) TS.STEP_STS_RESULT = 3 ∧ u.dev.get (Pg.ts n) TS.STEP_STS_RESULT = 3 ∧ t.dev.ts[n].step = s.dev.ts[n].step ∧ u.dev.ts[n].step = s.dev.ts[n].step ∧
      t.dev.ts[n].arm = none ∧ u.dev.ts[n].arm = none) ∧
    (s.dev.ts[n].step = none → (∀ x, s.dev.ts[n].arm = some (m, x) → x < s.dev.now) → (∀ k, m ≠ .svc k) → ∃ t u, exec (.execRel m n key) s = .next t ∧ exec (.execAbs m n key) s = .next u ∧
      t.dev.get (Pg.ts n) TS.STEP_STS_RESULT = 2 ∧ u.dev.get (Pg.ts n) TS.STEP_STS_RESULT = 2 ∧ t.dev.ts[n].step = none ∧ u.dev.ts[n].step = none ∧
      t.dev.ts[n].arm = none ∧ u.dev.ts[n].arm = none ∧ t.dev.clk = s.dev.clk ∧ u.dev.clk = s.dev.clk) ∧
    (s.dev.ts[n].step = none → ((∃ x, s.dev.ts[n].arm = some (m, x) ∧ s.dev.now ≤ x) ∨ ∃ k, m = .svc k) → ∃ t u, exec (.execRel m n key) s = .next t ∧ exec (.execAbs m n key) s = .next u ∧
      t.dev.ts[n].step = some (.rel (s.dev.geti (Pg.ts n) TS.STEP_AMT_AMT), s.dev.now, s.dev.on (Pg.ts n) TS.STEP_CTL_AT_SEC) ∧
      u.dev.ts[n].step = some (.abs (untime96 (s.dev.get (Pg.ts n) TS.SET_TIME_TIME)), s.dev.now, s.dev.on (Pg.ts n) TS.STEP_CTL_AT_SEC) ∧
      t.dev.ts[n].arm = none ∧ u.dev.ts[n].arm = none ∧ t.dev.get (Pg.ts n) TS.STEP_STS_PENDING = 1 ∧ u.dev.get (Pg.ts n) TS.STEP_STS_PENDING = 1 ∧ t.dev.clk = s.dev.clk ∧ u.dev.clk = s.dev.clk)

/-- A pending leap whose second has come moves OFFSET up by 1 for an insertion and down by 1 for a deletion, returns PENDING to 0 and sets DONE; a served write of TSA_UTC_OFFSET leaves the written OFFSET and VALID and clears a pending leap. Both leave the MEC, the accumulators, the client store, every other register of the timescale page, and the own registers of every page but GLB, REC and SEQ alone. -/
def Obligations.LeapTakesEffect : Prop :=
  ∀ (s : State) (n : Ts),
    (s.dev.leapPending n = true → s.dev.get (Pg.ts n) TS.LEAP_AT_SEC ≤ s.dev.sec n → ∃ t, exec (.leapApply n) s = .next t ∧
      t.dev.get (Pg.ts n) TS.UTC_OFFSET_OFFSET = (s.dev.get (Pg.ts n) TS.UTC_OFFSET_OFFSET + (if s.dev.get (Pg.ts n) TS.LEAP_CTL_PENDING = 1 then 1 else 2 ^ 16 - 1)) % 2 ^ 16 ∧
      t.dev.get (Pg.ts n) TS.UTC_OFFSET_VALID = s.dev.get (Pg.ts n) TS.UTC_OFFSET_VALID ∧
      t.dev.get (Pg.ts n) TS.LEAP_CTL_PENDING = 0 ∧ t.dev.get (Pg.ts n) TS.LEAP_CTL_DONE = 1 ∧ t.dev.clk = s.dev.clk ∧ t.store = s.store ∧
      (∀ pg off, 0x100 ≤ off → off < 4096 → pg ≠ Pg.glb → pg ≠ Pg.rec → ¬ (Pg.seq 0 ≤ pg ∧ pg ≤ Pg.seq 7) → ¬ (pg = Pg.ts n ∧ (off = 0x300 ∨ off = 0x304)) →
        t.dev.reg pg off = s.dev.reg pg off)) ∧
    (∀ (m : Master) (v : Nat), Served s m (Pg.ts n) 0x300 → ∃ t, exec (.utcOffsetWrite m n v) s = .next t ∧
      t.dev.get (Pg.ts n) TS.UTC_OFFSET_OFFSET = v % 2 ^ 16 ∧ t.dev.get (Pg.ts n) TS.UTC_OFFSET_VALID = v / 2 ^ 31 % 2 ∧
      t.dev.get (Pg.ts n) TS.LEAP_CTL_PENDING = 0 ∧ t.dev.clk = s.dev.clk ∧ t.store = s.store ∧
      (∀ pg off, 0x100 ≤ off → off < 4096 → pg ≠ Pg.glb → pg ≠ Pg.rec → ¬ (Pg.seq 0 ≤ pg ∧ pg ≤ Pg.seq 7) → ¬ (pg = Pg.ts n ∧ (off = 0x300 ∨ off = 0x304)) →
        t.dev.reg pg off = s.dev.reg pg off))

/-- A served write of any register but SNAP_CTL leaves its MEC, its offset and its master in LAST_WR (its MEC is this one, or 2 ticks after that of the write served before it on the page, where that is later), and its event stamp; one that R444 counts as a command, of a register whose value may be read back, leaves offset, value, MEC and master in the readback group, and any other leaves the group alone. A write of SNAP_CTL changes neither. No own register of any page, and nothing beyond registers and event stamps, changes. -/
def Obligations.ServedWriteIsShown : Prop :=
  ∀ (d : Dev) (m : Master) (pg off v : Nat), off < 4096 → v < 2 ^ 64 → d.serveMec pg < 2 ^ 64 →
    let e := d.served m pg off v;
      (off ≠ 0x70 → e.get pg HDR.LAST_WR_MEC_MEC = d.serveMec pg ∧ e.stampOf pg 0 = some ⟨d.serveMec pg, d.calOf (d.serveMec pg)⟩ ∧ e.get pg HDR.LAST_WR_MASTER_OFS = off ∧ e.get pg HDR.LAST_WR_MASTER_MASTER = masterId m) ∧
      (∀ r, off ≠ 0x70 → regAt pg off = some r → isCommand r v = true → noReadback pg off = false →
        e.get pg HDR.CMD_RB_OFS_OFS = off ∧ e.get pg HDR.CMD_RB_VAL_VAL = v ∧ e.get pg HDR.CMD_RB_MEC_MEC = d.serveMec pg ∧ e.get pg HDR.CMD_RB_MASTER_MASTER = masterId m) ∧
      ((∀ r, regAt pg off = some r → isCommand r v = false ∨ noReadback pg off = true) → ∀ o, 0xC0 ≤ o → o < 0xE0 → e.reg pg o = d.reg pg o) ∧
      (off = 0x70 → ∀ p o, 0x60 ≤ o → o < 4096 → e.reg p o = d.reg p o) ∧
      (∀ p o, 0x60 ≤ o → o < 4096 → p ≠ pg ∨ 0x100 ≤ o → e.reg p o = d.reg p o) ∧
      d.now ≤ d.serveMec pg ∧ (∀ x, d.stampOf pg 0 = some x → x.mec + 2 ≤ d.serveMec pg) ∧
      e = { d with regs := e.regs, events := e.events }

/-- A write that the fabric does not serve is counted where its reason says (before BOOT_DONE, at no register, unreachable in Cave, or refused by class, each saturating, while the page of the counter is not frozen), whatever effect it would have had; LAST_WR, the readback group and every own register but the three discard counters of GLB stay. -/
def Obligations.DiscardedWriteIsCountedOnly : Prop :=
  ∀ (d : Dev) (m : Master) (pg off v : Nat) (eff : Dev → Dev),
    let e := d.write m pg off v eff;
      (d.gate m pg off ≠ .served → (∀ p o, 0x60 ≤ o → o < 4096 → ¬ (p = Pg.glb ∧ 0x114 ≤ o ∧ o ≤ 0x11C) → e.reg p o = d.reg p o) ∧ e = { d with regs := e.regs }) ∧
      (d.on Pg.glb HDR.PAGE_CTL_FREEZE = false →
        (d.gate m pg off = .preboot → e.get Pg.glb GLB.PREBOOT_DISC_COUNT = min (d.get Pg.glb GLB.PREBOOT_DISC_COUNT + 1) (2 ^ 32 - 1)) ∧
        (d.gate m pg off = .unimpl → e.get Pg.glb GLB.UNIMPL_DISC_COUNT = min (d.get Pg.glb GLB.UNIMPL_DISC_COUNT + 1) (2 ^ 32 - 1)) ∧
        (d.gate m pg off = .cave → e.get Pg.glb GLB.CAVE_DISC_COUNT = min (d.get Pg.glb GLB.CAVE_DISC_COUNT + 1) (2 ^ 32 - 1))) ∧
      (d.on pg HDR.PAGE_CTL_FREEZE = false → d.gate m pg off = .refused → e.get pg HDR.PAGE_STS_WR_DISC = min (d.get pg HDR.PAGE_STS_WR_DISC + 1) (2 ^ 16 - 1))

/-- Before BOOT_DONE a write of any page but GLB by a master other than the loader and the collector is discarded as such, and a read there gives all-ones. In Cave a register write of a PCIe function changes nothing (log entry 20), and the management target finds only the pages R454 names: at another implemented page its write is discarded and its read gives all-ones. An offset without a register, on an open page, discards writes and reads 0. -/
def Obligations.BootAndCaveCloseTheFabric : Prop :=
  ∀ (s : State) (m : Master) (pg off : Nat),
    (s.dev.on Pg.glb GLB.BOOT_STS_BOOT_DONE = false → pg ≠ Pg.glb → m ≠ .loader → m ≠ .collector →
      s.dev.readWord m pg off = 0xFFFFFFFF ∧ (s.dev.inCave = false → (pageRow pg).isSome = true → s.dev.gate m pg off = .preboot)) ∧
    (s.dev.inCave = true →
      (∀ (addr v : Nat) (wide : Bool), (m = .pf0 ∨ m = .pf1 ∨ m = .pf2) → exec (.registerWrite m addr wide v) s = .next s) ∧
      (∀ r, pageRow pg = some r → r.cave = false → s.dev.on Pg.glb GLB.BOOT_STS_BOOT_DONE = true →
        s.dev.gate .mgmt pg off = .cave ∧ s.dev.readWord .mgmt pg off = 0xFFFFFFFF)) ∧
    (s.dev.on Pg.glb GLB.BOOT_STS_BOOT_DONE = true → s.dev.inCave = false → regAt pg off = none →
      s.dev.gate m pg off = .unimpl ∧ s.dev.readWord m pg off = 0)

/-- After BOOT_DONE and out of Cave, at an implemented register: PF0 is served everywhere. PF2 is served at SNAP_CTL, FLT_FORCE, FLT_CLR (which R364 judges further) and REC_CURSOR, and refused elsewhere. PF1 is served at the own registers of the pages open to Operator, at REC_CURSOR and at the KEY attestation challenge and command, and refused at every other own register. The management target is served as PF1 or PF2, by HIF_MGMT_CTL.CLASS; internal masters are served everywhere. -/
def Obligations.ClassesDecideWrites : Prop :=
  ∀ (s : State) (pg off : Nat), s.dev.on Pg.glb GLB.BOOT_STS_BOOT_DONE = true → s.dev.inCave = false → (regAt pg off).isSome = true →
    s.dev.gate .pf0 pg off = .served ∧
    s.dev.gate .pf2 pg off = (if off = 0x70 ∨ off = 0x20 ∨ off = 0x24 ∨ (pg = Pg.rec ∧ 0x160 ≤ off ∧ off < 0x164) then .served else .refused) ∧
    (∀ r, pageRow pg = some r → 0x100 ≤ off → s.dev.gate .pf1 pg off =
      (if r.oper = true ∨ (pg = Pg.rec ∧ 0x160 ≤ off ∧ off < 0x164) ∨ (pg = Pg.key 3 ∧ 0x140 ≤ off ∧ off < 0x154) then .served else .refused)) ∧
    s.dev.gate .mgmt pg off = (if s.dev.on Pg.hif HIF.MGMT_CTL_CLASS = true then s.dev.gate .pf1 pg off else s.dev.gate .pf2 pg off) ∧
    (∀ n : Fin 8, s.dev.gate (.seq n) pg off = .served) ∧ s.dev.gate .kwager pg off = .served ∧ s.dev.gate .loader pg off = .served

/-- A stored value changes each bit by its access type: RW takes the written bit, W1C is cleared by a 1, but where hardware set it in the same CCLK cycle, and W1S set by a 1, both kept by a 0, any other bit keeps its value; an RWL bit is as RW while unlocked and keeps its value while locked. While the lock of its block is set, a served write of a register of RWL fields alone has no effect but its count; one of a register with other fields is served; and both are counted in PAGE_STS.WR_DISC exactly when the value differs from what some RWL bit holds. -/
def Obligations.LockedFieldsKeep : Prop :=
  (∀ (r : RegDesc) (o : Nat) (locked : Bool) (just v i : Nat) (w : Word), i < 96 →
    let x := (r.store o locked just v w).getLsbD i;
      (bit r.w1s i = true → bit v i = true → x = true) ∧
      (bit r.w1c i = true → bit r.w1s i = false → bit v i = true → bit just i = false → x = false) ∧
      (bit (r.rwAt o) i = true → bit r.w1c i = false → bit r.w1s i = false → x = bit v i) ∧
      (bit r.rwl i = true → bit (r.rwAt o) i = false → bit r.w1c i = false → bit r.w1s i = false → x = (if locked then w.getLsbD i else bit v i)) ∧
      (bit (r.rwAt o) i = false → bit r.rwl i = false → (bit v i = false ∨ ((bit r.w1c i = false ∨ bit just i = true) ∧ bit r.w1s i = false)) → x = w.getLsbD i)) ∧
  (∀ (d : Dev) (m : Master) (pg off v : Nat) (r : RegDesc) (eff : Dev → Dev), d.gate m pg off = .served → regAt pg off = some r → d.locked pg = true →
    (r.rwl ≠ 0 → (r.rw ||| r.w1c ||| r.w1s ||| r.wo) = 0 → d.write m pg off v eff = d.lockMiss pg off v) ∧
    ((r.rw ||| r.w1c ||| r.w1s ||| r.wo) ≠ 0 → d.write m pg off v eff = eff ((d.lockMiss pg off v).served m pg off v)) ∧
    (d.lockMiss pg off v).get pg HDR.PAGE_STS_WR_DISC =
      (if ((v ^^^ (d.reg pg (r.start off)).toNat) &&& r.rwl) = 0 ∨ d.on pg HDR.PAGE_CTL_FREEZE = true then d.get pg HDR.PAGE_STS_WR_DISC
       else min (d.get pg HDR.PAGE_STS_WR_DISC + 1) (2 ^ 16 - 1)))

/-- A served write of the counter filter, of POWER_CAP, of the SCLK spread, of a port's stamp delays, of TSA_LEAP_AT or of the host transmit write pointer stores its value by the access types of the register; every other own register of every page, the clock, the store, the queue and all state beyond registers stay as they are. -/
def Obligations.PlainWritesTouchOneRegister : Prop :=
  ∀ (s : State) (m : Master) (v : Nat),
    (∀ off, off < 4096 → Served s m Pg.pmc off → WritesOnly s (.pmcFilterWrite m off v) Pg.pmc off v) ∧
    (Served s m Pg.pwr 0x104 → WritesOnly s (.powerCapWrite m v) Pg.pwr 0x104 v) ∧
    (Served s m Pg.clkd 0x104 → WritesOnly s (.sclkSsWrite m v) Pg.clkd 0x104 v) ∧
    (∀ (p : Fin 24) (off : Nat), off < 4096 → Served s m (Pg.pts p) off → WritesOnly s (.ptsDelayWrite m p off v) (Pg.pts p) off v) ∧
    (∀ n : Ts, Served s m (Pg.ts n) 0x308 → WritesOnly s (.leapAtWrite m n v) (Pg.ts n) 0x308 v) ∧
    (∀ p : Fin 24, Served s m (Pg.port p) 0x1A4 → WritesOnly s (.htxWpWrite m p v) (Pg.port p) 0x1A4 v)

/-- An access to the MSI-X area by a function changes no table word of another function, whatever it writes; by a master that is no PCIe function it is refused and changes no table word at all. Out of Cave, a function's write of a word of its table, 64 vectors of four words, is what the word then holds. -/
def Obligations.MsixTablesAreSeparate : Prop :=
  ∀ (d : Dev) (m : Master) (off v : Nat), 0x800 ≤ off → off < 0xC08 →
    let dflt : Nat → Nat := fun k => if k % 4 = 3 then 1 else 0;
      (∀ g k, k < 256 → pfOf m ≠ some g → sget dflt (d.msixWrite m off v).hif.msix (256 * g + k) = sget dflt d.hif.msix (256 * g + k)) ∧
      (pfOf m = none → d.msixWrite m off v = d.discard .refused Pg.glb) ∧
      (∀ f, pfOf m = some f → d.inCave = false → off < 0xC00 → sget dflt (d.msixWrite m off v).hif.msix (256 * f + (off - 0x800) / 4) = v % 2 ^ 32)

/-- For a sequencer in RUN before word 510: ADD, SUB, AND and OR leave in Va the sum and the difference modulo 2^32, the bitwise AND and OR with K zero-extended or Vb, and go to the next word; NOP changes no register; DJNZ counts Va down modulo 2^32 and jumps while it is not zero; JMP, JZ and JNZ jump as their condition says. Each leaves the other registers of the sequencer, every other sequencer, every other page, the store and the clock alone. A jump to word 511 goes there too when no WR stands in it. -/
def Obligations.SequencerArithmetic : Prop :=
  ∀ (s : State) (n a b : Fin 8) (imm : Bool) (k : Nat) (T : Fin 512), s.dev.seqState n = seqRun → s.dev.seq[n].frozen = false → s.dev.seqPc n < 510 →
    (T.val = 511 → s.dev.instrWord n 511 / 2 ^ 27 ≠ 1) →
    let x := s.dev.v n a;
    let y := if imm then k % 2 ^ 16 else s.dev.v n b;
    let pc := s.dev.seqPc n;
    let V := s.dev.v n;
    let upd : Nat → Fin 8 → Nat := fun z j => if j = a then z else V j;
      (∃ t, exec (.seqAdd n a imm b k) s = .next t ∧ SeqWent s t n (pc + 1) (upd ((x + y) % 2 ^ 32))) ∧
      (∃ t, exec (.seqSub n a imm b k) s = .next t ∧ SeqWent s t n (pc + 1) (upd ((x + 2 ^ 32 - y) % 2 ^ 32))) ∧
      (∃ t, exec (.seqAnd n a imm b k) s = .next t ∧ SeqWent s t n (pc + 1) (upd (x &&& y))) ∧
      (∃ t, exec (.seqOr n a imm b k) s = .next t ∧ SeqWent s t n (pc + 1) (upd (x ||| y))) ∧
      (∃ t, exec (.seqNop n) s = .next t ∧ SeqWent s t n (pc + 1) V) ∧
      (∃ t, exec (.seqDjnz n a T) s = .next t ∧
        SeqWent s t n (if (x + 2 ^ 32 - 1) % 2 ^ 32 = 0 then pc + 1 else T.val) (upd ((x + 2 ^ 32 - 1) % 2 ^ 32))) ∧
      (∃ t, exec (.seqJmp n T) s = .next t ∧ SeqWent s t n T.val V) ∧
      (∃ t, exec (.seqJz n a T) s = .next t ∧ SeqWent s t n (if x = 0 then T.val else pc + 1) V) ∧
      (∃ t, exec (.seqJnz n a T) s = .next t ∧ SeqWent s t n (if x = 0 then pc + 1 else T.val) V)

/-- In RUN, a CALL at a depth below 4 goes to its target, a word that holds no WR at 511, with the address after the CALL on top of the stack and the entries below as they were; a RET at depth 1 to 4 goes to the address on top, one deeper entry less; neither changes V0 to V7. A CALL at depth 4 and a RET at depth 0 enter FAULT with CAUSE STACK. -/
def Obligations.SequencerStack : Prop :=
  ∀ (s : State) (n : Fin 8) (T : Fin 512), s.dev.seqState n = seqRun → s.dev.seq[n].frozen = false →
    let k := s.dev.get (Pg.seq n) SEQ.STS_DEPTH;
    let entry : Dev → Nat → Nat := fun d j => d.get (Pg.seq n) SEQ.STACK_RET / 2 ^ (9 * j) % 512;
      (k < 4 → (T.val = 511 → s.dev.instrWord n 511 / 2 ^ 27 ≠ 1) → ∃ t, exec (.seqCall n T) s = .next t ∧ SeqWent s t n T.val (s.dev.v n) ∧
        t.dev.get (Pg.seq n) SEQ.STS_DEPTH = k + 1 ∧ entry t.dev k = (s.dev.seqPc n + 1) % 512 ∧ ∀ j < k, entry t.dev j = entry s.dev j) ∧
      (1 ≤ k → k ≤ 4 → (entry s.dev (k - 1) = 511 → s.dev.instrWord n 511 / 2 ^ 27 ≠ 1) → ∃ t, exec (.seqRet n) s = .next t ∧
        SeqWent s t n (entry s.dev (k - 1)) (s.dev.v n) ∧ t.dev.get (Pg.seq n) SEQ.STS_DEPTH = k - 1) ∧
      (k = 4 → ∃ t, exec (.seqCall n T) s = .next t ∧ t.dev.seqState n = seqFaulted ∧ t.dev.get (Pg.seq n) SEQ.STS_CAUSE = 3) ∧
      (k = 0 → ∃ t, exec (.seqRet n) s = .next t ∧ t.dev.seqState n = seqFaulted ∧ t.dev.get (Pg.seq n) SEQ.STS_CAUSE = 3)

/-- One word of each form, written field by field from the encoding table, decodes to the instruction it stands for, and the opcodes 0x15 to 0x1F are illegal. -/
def Obligations.SequencerWordsDecode : Prop :=
  seqDecode 2 0 0 = .seqNop 2 ∧
  seqDecode 2 (0x01 * 2 ^ 27 + 1 * 2 ^ 25 + 3 * 2 ^ 22 + 5 * 2 ^ 16) 0x28010C = .seqWr 2 false true 3 5 0x28010C ∧
  seqDecode 2 (0x02 * 2 ^ 27 + 3 * 2 ^ 25 + 1 * 2 ^ 22 + 63 * 2 ^ 16 + 6 * 2 ^ 13) 0 = .seqRd 2 3 1 63 6 ∧
  seqDecode 2 (0x03 * 2 ^ 27 + 31 * 2 ^ 21 + 40 * 2 ^ 15) 0 = .seqSetb 2 false 31 40 ∧
  seqDecode 2 (0x04 * 2 ^ 27 + 1 * 2 ^ 26 + 9 * 2 ^ 21 + 2 * 2 ^ 15) 0 = .seqClrb 2 true 9 2 ∧
  seqDecode 2 (0x05 * 2 ^ 27 + 31 * 2 ^ 21 + 1 * 2 ^ 20 + 7 * 2 ^ 14 + 2 * 2 ^ 12 + 100) 0 = .seqWaitb 2 false 31 true 7 2 100 ∧
  seqDecode 2 (0x06 * 2 ^ 27 + 1 * 2 ^ 25 + 61 * 2 ^ 16) 0 = .seqWaitt 2 false 1 61 ∧
  seqDecode 2 (0x07 * 2 ^ 27 + 79 * 2 ^ 20 + 1 * 2 ^ 19 + 3 * 2 ^ 12 + 5) 0 = .seqWaite 2 79 true 3 5 ∧
  seqDecode 2 (0x08 * 2 ^ 27 + 511) 0 = .seqJmp 2 511 ∧
  seqDecode 2 (0x09 * 2 ^ 27 + 7 * 2 ^ 24 + 10) 0 = .seqJz 2 7 10 ∧
  seqDecode 2 (0x0A * 2 ^ 27 + 4 * 2 ^ 24 + 11) 0 = .seqJnz 2 4 11 ∧
  seqDecode 2 (0x0B * 2 ^ 27 + 5 * 2 ^ 24 + 300) 0 = .seqDjnz 2 5 300 ∧
  seqDecode 2 (0x0C * 2 ^ 27 + 1 * 2 ^ 24 + 1 * 2 ^ 23 + 2 * 2 ^ 20 + 0xFFFF) 0 = .seqAdd 2 1 true 2 0xFFFF ∧
  seqDecode 2 (0x0D * 2 ^ 27 + 1 * 2 ^ 24 + 6 * 2 ^ 20) 0 = .seqSub 2 1 false 6 0 ∧
  seqDecode 2 (0x0E * 2 ^ 27 + 3 * 2 ^ 24 + 4 * 2 ^ 20) 0 = .seqAnd 2 3 false 4 0 ∧
  seqDecode 2 (0x0F * 2 ^ 27 + 6 * 2 ^ 24 + 1 * 2 ^ 23 + 9) 0 = .seqOr 2 6 true 0 9 ∧
  seqDecode 2 (0x10 * 2 ^ 27 + 0xBEEF) 0 = .seqRec 2 0xBEEF ∧
  seqDecode 2 (0x11 * 2 ^ 27 + 13) 0 = .seqSnap 2 13 ∧
  seqDecode 2 (0x12 * 2 ^ 27 + 15) 0 = .seqRaise 2 false 15 ∧
  seqDecode 2 (0x12 * 2 ^ 27 + 1 * 2 ^ 26 + 3) 0 = .seqRaise 2 true 3 ∧
  seqDecode 2 (0x13 * 2 ^ 27) 0 = .seqHalt 2 ∧
  seqDecode 2 (0x14 * 2 ^ 27 + 200) 0 = .seqCall 2 200 ∧
  seqDecode 2 (0x14 * 2 ^ 27 + 1 * 2 ^ 26) 0 = .seqRet 2 ∧
  (∀ op : Fin 11, seqDecode 2 ((0x15 + op.val) * 2 ^ 27) 0 = .seqIllegal 2 false)

/-- An IMPORT of PF0 that finds no command running, no failing power and a life cycle before RETURNED gives the RESULT of the first check that fails: slot state for an ACTIVE target, USAGE or DEST zero, epoch not greater, staging incomplete; with none it is busy with RESULT none, and the image that waits for the commit holds the new attributes, no parent and the staged material. Either way KEY_RES names the slot and the command, the staging is cleared, and key memory is as before. -/
def Obligations.KeyImportIsChecked : Prop :=
  ∀ (s : State) (slot : Fin 256), s.dev.gate .pf0 (Pg.key 0) 0x100 = .served → s.dev.on (Pg.key 0) KEY0.RES_BUSY = false → s.dev.powerFails = false → s.dev.lifeCycle < 3 →
    let attr := s.dev.get (Pg.key 0) KEY0.NEW_ATTR;
    let ep := s.dev.get (Pg.key 0) KEY0.NEW_EPOCH_EPOCH;
    let words := (List.range 8).map fun k => (s.dev.key.staged.find? fun e => e.1 = k).map (·.2);
    let r := if s.dev.keyState slot = keyActive then 3 else if attr / 2 ^ 26 % 16 = 0 ∨ attr % 256 = 0 then 0xC else if ep ≤ s.dev.keyEpoch slot then 5 else if words.all (·.isSome) then 0 else 8;
      ∃ t, exec (.importKey .pf0 slot) s = .next t ∧ t.dev.get (Pg.key 0) KEY0.RES_RESULT = r ∧ t.dev.get (Pg.key 0) KEY0.RES_SLOT = slot ∧
        t.dev.get (Pg.key 0) KEY0.RES_OP = 1 ∧ t.dev.on (Pg.key 0) KEY0.RES_BUSY = decide (r = 0) ∧ t.dev.key.staged = [] ∧ t.dev.key.nv = s.dev.key.nv ∧
        (r ≠ 0 → t.dev.key.run = s.dev.key.run) ∧
        (r = 0 → t.dev.key.run = some ⟨1, slot, s.dev.freeNs, keyImage attr 0x1FF 0 ep (s.dev.get (Pg.key 0) KEY0.NEW_ID_ID) 0 (words.flatMap fun w => oct 4 (w.getD 0))⟩) ∧
        t.dev.clk = s.dev.clk ∧ t.store = s.store

/-- While KEY_RES.BUSY is 1 every key command of PF0 is refused with RESULT BUSY: the command in progress, key memory, the slots blocked for it and every slot attribute stay, BUSY stays 1, and the staging is cleared. -/
def Obligations.BusyKeyStoreRefuses : Prop :=
  ∀ (s : State) (slot : Fin 256) (blob : List Nat) (c : Instr), s.dev.gate .pf0 (Pg.key 0) 0x100 = .served → s.dev.on (Pg.key 0) KEY0.RES_BUSY = true →
    c ∈ [.importKey .pf0 slot, .deriveKey .pf0 slot, .retireKey .pf0 slot, .destroyKey .pf0 slot, .unwrapKey .pf0 slot blob, .keyAbort .pf0] →
    ∃ t, exec c s = .next t ∧ t.dev.get (Pg.key 0) KEY0.RES_RESULT = 2 ∧ t.dev.on (Pg.key 0) KEY0.RES_BUSY = true ∧
      t.dev.key = { s.dev.key with staged := [] } ∧ t.dev.agenda = s.dev.agenda ∧ t.store = s.store ∧ t.dev.clk = s.dev.clk ∧
      ∀ pg off, 0x100 ≤ off → off < 4096 → ¬ (pg = Pg.key 0 ∧ off = 0x1A0) → t.dev.reg pg off = s.dev.reg pg off

/-- Whatever token is submitted, by whatever master, the life-cycle state afterwards is the state before, or the next one in order, never beyond SCRAPPED; the queue, the clock and the client store stay. -/
def Obligations.LifeCycleMovesForward : Prop :=
  ∀ (m : Master) (s : State), ∃ t, exec (.submitToken m) s = .next t ∧ t.store = s.store ∧ t.dev.clk = s.dev.clk ∧
    (t.dev.lifeCycle = s.dev.lifeCycle ∨ (t.dev.lifeCycle = s.dev.lifeCycle + 1 ∧ t.dev.lifeCycle ≤ 4))

/-- A served POP with its bit set removes the head alone and shows the level that is left; FLUSH empties the queue; ARM and DISARM set and clear ARMED and leave the queue. A stamp enters behind those held, marked GAP when one was lost before it, and one that finds 256 is dropped, leaving the queue and noting the gap. None touches another channel. -/
def Obligations.StampQueueOfAChannel : Prop :=
  (∀ (s : State) (m : Master) (n : Fin 16) (v : Nat),
    (Served s m (Pg.tdc n) 0x120 → ∃ t, exec (.tdcPop m n v) s = .next t ∧ t.dev.tdc[n].queue = (if bit v 0 then s.dev.tdc[n].queue.drop 1 else s.dev.tdc[n].queue) ∧
      (bit v 0 = true → s.dev.tdc[n].queue.length ≤ 256 → t.dev.get (Pg.tdc n) TDC.STS_Q_LVL = s.dev.tdc[n].queue.length - 1) ∧
      (∀ k : Fin 16, k ≠ n → t.dev.tdc[k] = s.dev.tdc[k]) ∧ t.dev.clk = s.dev.clk ∧ t.store = s.store) ∧
    (Served s m (Pg.tdc n) 0x108 →
      (∃ t, exec (.tdcFlush m n) s = .next t ∧ t.dev.tdc[n].queue = [] ∧ t.dev.get (Pg.tdc n) TDC.STS_Q_LVL = 0 ∧ (∀ k : Fin 16, k ≠ n → t.dev.tdc[k] = s.dev.tdc[k])) ∧
      (∃ t, exec (.tdcArm m n) s = .next t ∧ t.dev.tdc = s.dev.tdc ∧ t.dev.get (Pg.tdc n) TDC.STS_ARMED = 1) ∧
      (∃ t, exec (.tdcDisarm m n) s = .next t ∧ t.dev.tdc = s.dev.tdc ∧ t.dev.get (Pg.tdc n) TDC.STS_ARMED = 0))) ∧
  (∀ (d : Dev) (n : Fin 16) (x : Stamp),
    (d.tdc[n].queue.length < 256 → (d.toQueue n x).tdc[n].queue = d.tdc[n].queue ++ [{ x with gap := d.tdc[n].gapQ }] ∧ (d.toQueue n x).tdc[n].gapQ = false) ∧
    (256 ≤ d.tdc[n].queue.length → (d.toQueue n x).tdc[n].queue = d.tdc[n].queue ∧ (d.toQueue n x).tdc[n].gapQ = true) ∧
    (∀ k : Fin 16, k ≠ n → (d.toQueue n x).tdc[k] = d.tdc[k]))

/-- A record that finds 4,096 in the buffer is dropped and counted, and the next carries GAP; the buffer is as it was. Any other enters, outside write-through, behind those held but for the last of its own tick that come from sources of a higher rank, each of which takes a SEQ one higher; it carries its payload (a SNAPSHOT with the SEQ of its chain in it), the SEQ of its place, the MEC, the calendar word and the GAP that was due, and SEQ counts 1 modulo 2^32. A repeat within its limits of a record in the buffer with the same type, source and payload enters no record: REPEAT of that record counts 1 and no SEQ is used. -/
def Obligations.RecorderBuffer : Prop :=
  ∀ (d : Dev) (typ src : Nat) (p : List Nat),
    let e := d.enter typ src p;
    let g := d.behind src;
    let k := d.rcd.buf.length - g;
      (4096 ≤ d.rcd.buf.length → e.rcd.buf = d.rcd.buf ∧ e.rcd.gapNext = true ∧ e.get Pg.rec REC.NEXT_SEQ_SEQ = d.get Pg.rec REC.NEXT_SEQ_SEQ ∧
        (d.on Pg.rec HDR.PAGE_CTL_FREEZE = false → e.get Pg.rec REC.LOST_COUNT = min (d.get Pg.rec REC.LOST_COUNT + 1) (2 ^ 32 - 1))) ∧
      (d.rcd.buf.length < 4096 → d.on Pg.rec REC.STS_WT = false → (∀ x ∈ d.rcd.buf.drop k, x.mec = d.now ∧ srcRank src < srcRank x.source) ∧
        ∃ w : Record, e.rcd.buf = d.rcd.buf.take k ++ [w] ++ (d.rcd.buf.drop k).map (fun (x : Record) => x.numbered (x.seqNo + 1)) ∧ w.typ = typ ∧ w.source = src ∧ (typ ≠ 0x04 → w.payload = p) ∧
        w.seqNo = (d.get Pg.rec REC.NEXT_SEQ_SEQ + 2 ^ 32 - g) % 2 ^ 32 ∧ w.mec = d.now ∧ w.cal = d.cal ∧ w.gap = d.rcd.gapNext ∧ w.rpt = 0 ∧ e.rcd.gapNext = false ∧
        e.get Pg.rec REC.NEXT_SEQ_SEQ = (d.get Pg.rec REC.NEXT_SEQ_SEQ + 1) % 2 ^ 32) ∧
      (∀ w q, (d.rcd.track.find? fun t => t.1 = typ ∧ t.2.1 = src) = some (typ, src, q) → (d.rcd.buf.find? fun r => r.seqNo = q) = some w →
        w.payload = p → w.rpt < 65535 → cdiv (d.now - w.mec) (2 ^ 24) ≤ 65535 →
        let f := d.record typ src p;
          f.regs = d.regs ∧ f.rcd.buf.map (·.seqNo) = d.rcd.buf.map (·.seqNo) ∧ (f.rcd.buf.find? fun r => r.seqNo = q).map (·.rpt) = some (w.rpt + 1))

/-- Clearing classes of a page clears exactly those LAT bits that are named, not live and not latched by hardware in this cycle, whatever master clears; LIVE stays. A clear that finds a named class latched before this cycle and live, now or earlier in this cycle, is counted once in FLT_CLR_REFUSED while the FLT page is not frozen, and one that finds none is not counted. -/
def Obligations.FaultClearSparesLive : Prop :=
  ∀ (d : Dev) (m : Master) (pg classes : Nat),
    let e := d.fltClear m pg classes;
    let just := d.justSet (4096 * pg + HDR.FLT_STS_LAT.off);
    let live := d.get pg HDR.FLT_STS_LIVE ||| just / 256;
    let refused := d.get pg HDR.FLT_STS_LAT &&& classes &&& (0x1F - just % 32) &&& live;
      (∀ c < 5, bit (e.get pg HDR.FLT_STS_LAT) c = (bit (d.get pg HDR.FLT_STS_LAT) c && !(bit classes c && !bit just c && !bit live c))) ∧
      e.get pg HDR.FLT_STS_LIVE = d.get pg HDR.FLT_STS_LIVE ∧
      (refused = 0 → e.get Pg.flt FLT.CLR_REFUSED_COUNT = d.get Pg.flt FLT.CLR_REFUSED_COUNT) ∧
      (refused ≠ 0 → d.on Pg.flt HDR.PAGE_CTL_FREEZE = false → e.get Pg.flt FLT.CLR_REFUSED_COUNT = min (d.get Pg.flt FLT.CLR_REFUSED_COUNT + 1) (2 ^ 32 - 1)) ∧
      e.clk = d.clk

/-- A counted event adds 1 to a local counter; at 2^48 − 1 it returns to 0 and sets WRAPPED, which otherwise stays. A served write of PMC_SELk with CLR leaves WRAPPED 0 and the count 0, but 1 when the new selection, without a filter and with the page powered and not frozen, counts accepted writes. -/
def Obligations.CountersRollOver : Prop :=
  (∀ (d : Dev) (pg k : Nat), k < 4 →
    (d.get pg (HDR.PMC_CNT_COUNT k) < 2 ^ 48 - 1 → (d.pmcStep pg k).get pg (HDR.PMC_CNT_COUNT k) = d.get pg (HDR.PMC_CNT_COUNT k) + 1 ∧
      (d.pmcStep pg k).get pg (HDR.PMC_CNT_WRAPPED k) = d.get pg (HDR.PMC_CNT_WRAPPED k)) ∧
    (d.get pg (HDR.PMC_CNT_COUNT k) = 2 ^ 48 - 1 → (d.pmcStep pg k).get pg (HDR.PMC_CNT_COUNT k) = 0 ∧ (d.pmcStep pg k).get pg (HDR.PMC_CNT_WRAPPED k) = 1)) ∧
  (∀ (s : State) (m : Master) (pg : Page) (k : Fin 4) (v : Nat), Served s m pg (0x30 + 4 * k) → bit v 29 = true → bit v 30 = false →
    ∃ t, exec (.pmcSelWrite m pg k v) s = .next t ∧ t.dev.get pg (HDR.PMC_CNT_WRAPPED k) = 0 ∧ t.dev.get pg (HDR.PMC_CNT_COUNT k) =
      (if bit v 31 = true ∧ v % 4096 = 3 ∧ s.dev.on pg HDR.PAGE_CTL_FREEZE = false ∧ s.dev.domainOn pg = true then 1 else 0))

/-- A write of PF0, PF1 or a sequencer through any of the three windows, other than one that frees a locked ACTIVE entry, changes no word of the store but the one that holds the address, and there only bits that R273 lets the host write; outside those bits the word keeps its value, and a 32-bit access keeps the other half. No write changes a word of another entry, and one by any other master, beyond the table, or while the store is not ON changes no word at all. -/
def Obligations.StoreWriteTouchesOneWord : Prop :=
  ∀ (r : Words × Dev) (m : Master) (form : CstForm) (addr v : Nat) (wide : Bool),
    let q := cstWrite r m form addr wide v;
    let k := addr / 8;
      (∀ j, j / 8 ≠ k / 8 → q.1.word j = r.1.word j) ∧
      ((mayStore m = false ∨ 2 ^ 26 ≤ addr ∨ r.2.cstOn = false) → q.1 = r.1) ∧
      ((k % 8 ≠ 0 ∨ r.1.fld (k / 8) eState ≠ entActive ∨ r.1.fld (k / 8) eLock = 0) →
        (∀ j, j ≠ k → q.1.word j = r.1.word j) ∧
        (∀ i, bit (hostMask (k % 8)) i = false → bit (q.1.word k) i = bit (r.1.word k) i) ∧
        (wide = false → (addr % 8 < 4 → q.1.word k / 2 ^ 32 = r.1.word k / 2 ^ 32) ∧ (4 ≤ addr % 8 → q.1.word k % 2 ^ 32 = r.1.word k % 2 ^ 32)) ∧
        q.2.clk = r.2.clk)

/-- A link message whose MEC is not above that of the last accepted one, on a link past ALIGN whose key serves, is counted as a replay and has none of its effects: the state of the pair and every own register but the replay count stay. -/
def Obligations.ReplaysAreDropped : Prop :=
  ∀ (d : Dev) (h : KwgHead) (f : Dev → Dev), linkHello ≤ d.link → d.linkKey.isSome = true → h.mec ≤ d.plk.lastMec →
    d.kwgTake h f = { d with regs := (d.kwgTake h f).regs } ∧
    (d.on Pg.plk HDR.PAGE_CTL_FREEZE = false → (d.kwgTake h f).get Pg.plk (PLK.CNT_COUNT 2) = min (d.get Pg.plk (PLK.CNT_COUNT 2) + 1) (2 ^ 32 - 1)) ∧
    ∀ pg off, 0x100 ≤ off → off < 4096 → ¬ (pg = Pg.plk ∧ off = (PLK.CNT_COUNT 2).off) → (d.kwgTake h f).reg pg off = d.reg pg off

/-- A replica check takes what the replica has departed by: a sum of at most 2^-16 ns is kept, and a greater one reloads the replica and raises C3 on the timescale. A leap that is due applies, and one that is not leaves the state as it is. A served write of TSA_UTC_OFFSET stands, and clears a pending leap with a LEAP_CANCEL record; one of TSA_LEAP_CTL stands, and where it takes a pending leap back the smear walks back from where it stood; one of TSA_LEAP_AT stands. -/
def Obligations.TimescaleCommandsComplete : Prop :=
  ∀ s : State,
    (∀ (n : Ts) (die : Fin 2) (upset : Int),
      let diff := s.dev.ts[n].replica[die] + upset;
        (diff.natAbs ≤ 2 ^ 32 → exec (.replicaCheck n die upset) s = .next (s.withDev (s.dev.upTs n fun e => { e with replica := e.replica.set die diff }))) ∧
        (2 ^ 32 < diff.natAbs → exec (.replicaCheck n die upset) s =
          .next (s.withDev ((s.dev.upTs n fun e => { e with replica := e.replica.set die 0 }).fault (Pg.ts n) 3 causeReplica)))) ∧
    (∀ n : Ts,
      (s.dev.leapPending n = true → s.dev.get (Pg.ts n) TS.LEAP_AT_SEC ≤ s.dev.sec n → exec (.leapApply n) s = .next (s.withDev (s.dev.applyLeap n))) ∧
      (s.dev.leapPending n = false ∨ s.dev.sec n < s.dev.get (Pg.ts n) TS.LEAP_AT_SEC → exec (.leapApply n) s = .next s)) ∧
    (∀ (m : Master) (n : Ts) (v : Nat), Served s m (Pg.ts n) 0x300 →
      let d := (s.took m (Pg.ts n) 0x300 v).storeReg (Pg.ts n) 0x300 v;
        (d.get (Pg.ts n) TS.LEAP_CTL_PENDING = 0 → exec (.utcOffsetWrite m n v) s = .next (s.withDev d)) ∧
        (∀ kind, d.get (Pg.ts n) TS.LEAP_CTL_PENDING = kind → kind ≠ 0 → exec (.utcOffsetWrite m n v) s =
          .next (s.withDev (((d.smearCancel n).put (Pg.ts n) TS.LEAP_CTL_PENDING 0).record 0x12 (srcPage (Pg.ts n)) [n.val, kind])))) ∧
    (∀ (m : Master) (n : Ts) (v : Nat), Served s m (Pg.ts n) 0x304 →
      let d := (s.took m (Pg.ts n) 0x304 v).storeReg (Pg.ts n) 0x304 v;
        (s.dev.leapPending n = false ∨ d.leapPending n = true → exec (.leapPendingWrite m n v) s = .next (s.withDev d)) ∧
        (s.dev.leapPending n = true → d.leapPending n = false → exec (.leapPendingWrite m n v) s =
          .next (s.withDev (d.upRsp fun e => { e with unsmear := (s.dev.smearCancel n).rsp.unsmear })))) ∧
    (∀ (m : Master) (n : Ts) (v : Nat), Served s m (Pg.ts n) 0x308 →
      exec (.leapAtWrite m n v) s = .next (s.withDev ((s.took m (Pg.ts n) 0x308 v).storeReg (Pg.ts n) 0x308 v)))

/-- A served write of TSA_INCR by a master that may make it (PF0 and the sequencers in host mode, the timescale's own servo core otherwise, and not while unaided holdover blocks it) is read back whole at once, sets or clears CLAMPED and the C1 of its clamp, and is registered for 32 ticks later; the increment in force and the accumulators wait for that tick. The holdover unit's own write of I_avg at an entry has the same effect, and is spent by it. A served write of TSA_CTL by PF0 or the loader stores its value and registers the mode; the mode in force waits for that tick. -/
def Obligations.IncrementAndModeWritesComplete : Prop :=
  ∀ s : State,
    (∀ (m : Master) (n : Ts) (v : Nat), s.dev.gate m (Pg.ts n) 0x120 = .served → s.dev.mayIncr n m = true →
      let w := v % 2 ^ 64;
      let unit := m = .svc n ∧ s.dev.hld[n].entryWrite = some v;
      let went (d0 : Dev) := (d0.served m (Pg.ts n) 0x120 w).putIncr n w;
        (¬ unit → s.dev.hldBlocks n = false → exec (.incrWrite m n v) s = .next (s.withDev (went s.dev))) ∧
        (unit → exec (.incrWrite m n v) s = .next (s.withDev (went (s.dev.upHld n fun e => { e with entryWrite := none })))) ∧
        (unit ∨ s.dev.hldBlocks n = false → ∃ t, exec (.incrWrite m n v) s = .next t ∧ t.dev.get (Pg.ts n) TS.INCR_INCR = w ∧
          t.dev.get (Pg.ts n) TS.STS_CLAMPED = (if w < incrMin ∨ incrMax < w then 1 else 0) ∧
          t.dev.get (Pg.ts n) TS.INCR_EFF_EFF = s.dev.get (Pg.ts n) TS.INCR_EFF_EFF ∧ t.dev.clk = s.dev.clk ∧
          t.dev.ts[n].changes = s.dev.ts[n].changes ++ [(s.dev.now + 32, .incr w)])) ∧
    (∀ (m : Master) (n : Ts) (v : Nat), m = .pf0 ∨ m = .loader → s.dev.gate m (Pg.ts n) 0x130 = .served →
      exec (.modeWrite m n v) s = .next (s.withDev (((s.took m (Pg.ts n) 0x130 v).storeReg (Pg.ts n) 0x130 v).register n (.mode (v % 2)))) ∧
      ∃ t, exec (.modeWrite m n v) s = .next t ∧ t.dev.get (Pg.ts n) TS.CTL_MODE = v % 2 ∧ t.dev.hostMode n = s.dev.hostMode n ∧ t.dev.clk = s.dev.clk ∧
        t.dev.ts[n].changes = s.dev.ts[n].changes ++ [(s.dev.now + 32, .mode (v % 2))])

/-- A served write of TSA_SLEW_AMT by a master that may make it, not while unaided holdover blocks it: an amount of more than 1 s either way leaves SLEW_RES 1 and starts nothing; any other leaves SLEW_RES 0 and is registered for 32 ticks later. A servo core's write that holdover blocks is counted alone. The last tick of a slew adds exactly what remains to its own accumulator, leaves nothing remaining and shows the slew ended; where no slew is at its last tick the command leaves the state as it is. -/
def Obligations.SlewCommandsComplete : Prop :=
  ∀ s : State,
    (∀ (m : Master) (n : Ts) (v : Nat), s.dev.gate m (Pg.ts n) 0x140 = .served → s.dev.mayIncr n m = true → s.dev.hldBlocks n = false →
      let a := sgn 64 v;
      let d := s.took m (Pg.ts n) 0x140 (unsgn 64 a);
        (second * 2 ^ 16 < a.natAbs → exec (.slewStart m n v) s = .next (s.withDev (d.put (Pg.ts n) TS.STS_SLEW_RES 1))) ∧
        (a.natAbs ≤ second * 2 ^ 16 → exec (.slewStart m n v) s = .next (s.withDev ((d.put (Pg.ts n) TS.STS_SLEW_RES 0).register n (.slew a))))) ∧
    (∀ (n : Ts) (v : Nat), s.dev.mayIncr n (.svc n) = true → s.dev.hldBlocks n = true →
      exec (.slewStart (.svc n) n v) s = .next (s.withDev (s.dev.count Pg.hld (HLD.BLOCK_BLOCK n)))) ∧
    (∀ n : Ts, s.dev.ts[n].ending = true → ∃ t, exec (.slewComplete n) s = .next t ∧
      t.dev.clk.acc[n] = ((s.dev.clk.acc[n] : Int) + s.dev.ts[n].slewRem).toNat ∧ (∀ k : Ts, k ≠ n → t.dev.clk.acc[k] = s.dev.clk.acc[k]) ∧ t.dev.clk.mec = s.dev.clk.mec ∧
      t.dev.ts[n].slewRem = 0 ∧ t.dev.ts[n].ending = false ∧ t.dev.get (Pg.ts n) TS.STS_SLEWING = 0 ∧ t.dev.get (Pg.ts n) TS.STS_SLEW_RES = 0 ∧
      t.dev.get (Pg.ts n) TS.SLEW_REM_REM = 0) ∧
    (∀ n : Ts, s.dev.ts[n].ending = false → exec (.slewComplete n) s = .next s)

/-- Steps, arms, application ticks, publications, bindings and their walks answer the next state that the rules give: ARM with its key holds the arm for 10 s, an EXEC of the armed master is accepted, and a rebinding is registered, or refused where R77 refuses it. -/
def Obligations.StepAndBindingCommandsComplete : Prop :=
  ∀ s : State,
    (∀ n : Ts, exec (.stepApply n) s = .next (s.withTime (s.dev.applyStep n))) ∧
    (∀ (m : Master) (n : Ts) (key : Nat), s.dev.gate m (Pg.ts n) 0x188 = .served → s.dev.mayStep n m = true → key % 256 = 0x5A →
      let d := (s.took m (Pg.ts n) 0x188 (stepWord key 1)).upTs n fun e => { e with arm := some (m, (s.took m (Pg.ts n) 0x188 (stepWord key 1)).now + 10 * second) };
        exec (.stepArm m n key) s = .next (s.withDev ((((d.put (Pg.ts n) TS.STEP_STS_ARMED 1).put (Pg.ts n) TS.STEP_STS_ARM_MASTER (masterId m)).put (Pg.ts n) TS.STEP_STS_RESULT 6).timer
            (10 * second) (.stepArmExpiry n)))) ∧
    (∀ (m : Master) (n : Ts) (key : Nat) (t : Nat), s.dev.gate m (Pg.ts n) 0x188 = .served → s.dev.mayStep n m = true →
      s.dev.ts[n].step = none → s.dev.ts[n].arm = some (m, t) → s.dev.now ≤ t →
      let d1 := s.took m (Pg.ts n) 0x188 (stepWord key 2);
      let d2 := s.took m (Pg.ts n) 0x188 (stepWord key 3);
        exec (.execRel m n key) s = .next (s.withDev ((d1.disarm n).acceptStep n (.rel (d1.geti (Pg.ts n) TS.STEP_AMT_AMT)) ((d1.disarm n).on (Pg.ts n) TS.STEP_CTL_AT_SEC))) ∧
        exec (.execAbs m n key) s = .next (s.withDev ((d2.disarm n).acceptStep n (.abs (untime96 (d2.get (Pg.ts n) TS.SET_TIME_TIME))) ((d2.disarm n).on (Pg.ts n) TS.STEP_CTL_AT_SEC)))) ∧
    (∀ (m : Master) (n : Ts) (key : Nat), s.dev.gate m (Pg.ts n) 0x188 = .served → s.dev.mayStep n m = true →
      exec (.disarm m n key) s = .next (s.withDev (((s.took m (Pg.ts n) 0x188 (stepWord key 4)).disarm n).put (Pg.ts n) TS.STEP_STS_RESULT 7))) ∧
    (∀ (m : Master) (n : Ts) (t : Nat), s.dev.ts[n].arm = some (m, t) → t ≤ s.dev.now →
      exec (.stepArmExpiry n) s = .next (s.withDev (s.dev.disarm n))) ∧
    (∀ n : Ts,
      let due := s.dev.ts[n].changes.filter fun e => e.1 ≤ s.dev.now;
      let d := (s.dev.upTs n fun e => { e with changes := e.changes.filter fun e => ¬ e.1 ≤ s.dev.now }).each due fun e d => d.applyChange n e.2;
      let binds := due.any fun e => match e.2 with | .bind _ _ => true | _ => false;
        exec (.applicationTick n) s = .next (s.withDev (if binds then d.readyShow else d))) ∧
    (∀ n : Ts, exec (.boundPublish n) s = .next (s.withDev
      (((((((s.dev.publish n).each [0, 1] fun j d => d.steerShow j).when (n == 0) Dev.probeGo).readyShow).qlFollow).each (List.finRange 24) fun p d => d.ptsBound p).audFollow.plkEval))) ∧
    (∀ (n : Ts) (c : Nat) (t : Int), s.dev.ts[n].clsBetter = some (c, t) → s.dev.classNow n = c → c ≠ s.dev.ts[n].cls →
      t + s.dev.get (Pg.ts n) TS.CC_CTL_HOLD * accSecond ≤ s.dev.stepFree n →
      exec (.clockClassHoldExpiry n) s = .next (s.withDev (s.dev.setClass n c))) ∧
    (∀ (m : Master) (n : Ts) (v : Nat), Served s m (Pg.ts n) 0x190 →
      let d := (s.took m (Pg.ts n) 0x190 v).storeReg (Pg.ts n) 0x190 v;
      exec (.manUncWrite m n v) s = .next (s.withDev (d.upTs n fun e => { e with
        manT0 := d.stepFree n, qualified := e.qualified || (d.hostMode n && (decodeBound v).isSome), stepHold := if d.hostMode n then none else e.stepHold }))) ∧
    (∀ m : Master, Served s m (Pg.ts 0) 0x70 →
      exec (.snapJoint m) s = .next (s.withDev (((s.took m (Pg.ts 0) 0x70 3).snapStart (Pg.ts 0)).snapStart (Pg.ts 1)))) ∧
    (∀ (m : Master) (i : Fin 48) (v : Nat), Served s m (Pg.ts 0) (0x440 + 4 * i.val) →
      let d := s.took m (Pg.ts 0) (0x440 + 4 * i.val) v;
      let old := d.get (Pg.ts 0) (TSA.BIND_SEL i);
      let st := d.get (Pg.ts (v % 2)) TS.BOUND_STS_STATE;
      let e := (if d.corr[i] = 0 then d else d.viewKeep i).storeReg (Pg.ts 0) (0x440 + 4 * i.val) v;
        ((v % 2 ≠ old ∧ (st = 0 ∨ st = 3) ∧ bit v 5 = false) → exec (.bindWrite m i v) s = .next (s.withDev
          ((e.putb (Pg.ts 0) (TSA.BIND_REFUSED i) true).put (Pg.ts 0) (TSA.BIND_SEL i) old))) ∧
        ((v % 2 ≠ old ∧ ((st ≠ 0 ∧ st ≠ 3) ∨ bit v 5 = true)) → exec (.bindWrite m i v) s = .next (s.withDev
          ((e.putb (Pg.ts 0) (TSA.BIND_REFUSED i) false).register 0 (.bind i (v % 2))))) ∧
        (v % 2 = old → exec (.bindWrite m i v) s = .next (s.withDev (e.putb (Pg.ts 0) (TSA.BIND_REFUSED i) false)))) ∧
    (∀ n : Fin 48, s.dev.corr[n] ≠ 0 → s.dev.on (Pg.ts 0) (TSA.BIND_HOLD n) = false →
      s.dev.corr[n].natAbs ≤ clampN 1 1000 s.dev.ts[0].walkRate * 2 ^ 48 / second →
      exec (.walkComplete n) s = .next (s.withDev ({ s.dev.viewKeep n with corr := s.dev.corr.set n 0 }.showCorr n))) ∧
    (∀ (m : Master) (v : Nat), Served s m (Pg.ts 0) 0x408 →
      let d := (s.took m (Pg.ts 0) 0x408 v).storeReg (Pg.ts 0) 0x408 v;
      exec (.xtsRateWrite m v) s = .next (s.withDev (d.register 0 (.xtsRate (d.get (Pg.ts 0) TSA.XTS_CTL_RATE)))))

/-- Served writes of a monitor's registers, its edges, its timers, its second boundary and the ensemble's evaluation answer the next state of the transition table of R84 in the states named: EN leaves DISABLED for LOST, ACCEPT, SKIP_WTR and RESTART act as the table says, ACQUIRE ends in QUALIFIED or WTR, and WTR ends as the return check decides. -/
def Obligations.MonitorCommandsComplete : Prop :=
  ∀ (s : State) (k : Fin 19),
    (∀ (m : Master) (v v' : Nat), v' = v % 2 ^ 31 + 2 ^ 31 → Served s m (monPg k) (monBase k) →
      let d := (s.took m (monPg k) (monBase k) v').storeReg (monPg k) (monBase k) v';
      d.mstate k = monDisabled → exec (.monEnable m k v) s = .next (s.withDev
        ((((d.upMon k fun e => { e with seen := false, edge := none }).monSession k true).monEnter k monLost 0).monTry k))) ∧
    (∀ (m : Master) (v v' : Nat), v' = v % 2 ^ 31 → Served s m (monPg k) (monBase k) →
      let d := (s.took m (monPg k) (monBase k) v').storeReg (monPg k) (monBase k) v';
      d.mstate k ≠ monDisabled → exec (.monDisable m k v) s = .next (s.withDev
        ((((d.dropPresence k).monSession k false).monEnter k monDisabled (d.mcause k)).clearFlags k))) ∧
    (∀ (m : Master) (v : Nat), Served s m (monPg k) (monBase k) → bit v 31 = true →
      let d := (s.took m (monPg k) (monBase k) v).storeReg (monPg k) (monBase k) v;
      (d.mstate k = monQualified → exec (.forceDqWrite m k v) s = .next (s.withDev (d.qualCheck k))) ∧
      (d.mstate k = monDisqualified → d.mcause k = 7 → bit v 29 = false → exec (.forceDqWrite m k v) s = .next (s.withDev (d.monEnter k monWtr 7)))) ∧
    (∀ m : Master, Served s m (monPg k) (monBase k + 0x0C) →
      let d := s.took m (monPg k) (monBase k + 0x0C) 1;
      d.mstate k = monDisqualified →
        ((d.mcause k = 3 ∨ d.mcause k = 9) → exec (.accept m k) s = .next (s.withDev (d.qualify k))) ∧
        (d.mcause k = 2 → exec (.accept m k) s = .next (s.withDev (d.monEnter k monWtr 2)))) ∧
    (∀ m : Master, Served s m (monPg k) (monBase k + 0x0C) →
      exec (.skipWtr m k) s = .next (s.withDev ((s.took m (monPg k) (monBase k + 0x0C) 2).endWtr k))) ∧
    (∀ m : Master, Served s m (monPg k) (monBase k + 0x0C) →
      let d := s.took m (monPg k) (monBase k + 0x0C) 3;
      exec (.restart m k) s = .next (s.withDev (d.monReturn k (d.mcause k)))) ∧
    (∀ (m : Master) (v : Nat), Served s m (monPg k) (monBase k + 4) →
      let d := (s.took m (monPg k) (monBase k + 4) v).storeReg (monPg k) (monBase k + 4) v;
      d.mstate k = monWtr →
        let d1 := d.upMon k fun e => { e with span := min 86400 (d.mget k MON.WTR_WTR) };
        exec (.monWtrWrite m k v) s = .next (s.withDev (d1.mput k MON.STS_TIMER (d1.timerLeft k)))) ∧
    (∀ t : Nat, (k.val = 1 ∨ k.val = 2 ∨ (3 ≤ k.val ∧ k.val ≤ 10 ∧ s.dev.get (monPg k) REF.IN_CTL_FORMAT = 0)) → s.dev.mstate k ≠ monDisabled →
      exec (.ppsEdge k t) s = .next (s.withDev (s.dev.ppsEdge k ((t : Int) - tdiv (s.dev.pinDelay k * 2 ^ 16) 1000)))) ∧
    (s.dev.mon[k].pps = true → s.dev.mon[k].last.isSome = true →
      let d := (s.dev.count (monPg k) (MON.MISS_CNT_COUNT (monBase k))).upMon k fun e => { e with missed := e.missed + 1 };
      (2 ≤ d.mon[k].missed → exec (.pulseMissed k) s = .next (s.withDev (d.monLose k))) ∧
      (d.mon[k].missed < 2 → exec (.pulseMissed k) s = .next (s.withDev (d.armWindow k)))) ∧
    (s.dev.waiting (.refFreqTimeout k) = false →
      (s.dev.mon[k].freq = true → exec (.refFreqTimeout k) s = .next (s.withDev (s.dev.monLose k))) ∧
      (s.dev.mon[k].freq = false → exec (.refFreqTimeout k) s = .next (s.withDev (s.dev.upMon k fun e => { e with runFrom := none, runTo := 0 })))) ∧
    (s.dev.mstate k = monAcquire →
      (s.dev.mon[k].seen = true → exec (.acquireExpiry k) s = .next (s.withDev (s.dev.monEnter k monWtr (s.dev.mcause k)))) ∧
      (s.dev.mon[k].seen = false → exec (.acquireExpiry k) s = .next (s.withDev (s.dev.qualify k)))) ∧
    (s.dev.mstate k = monWtr →
      (s.dev.returnCheck k = some true → exec (.wtrExpiry k) s = .next (s.withDev (s.dev.qualify k))) ∧
      (s.dev.returnCheck k = some false → exec (.wtrExpiry k) s = .next (s.withDev (s.dev.monEnter k monDisqualified 3)))) ∧
    (s.dev.mstate k = monDisqualified → heldCause (s.dev.mcause k) = true → s.dev.dqCond k (s.dev.mcause k) = false →
      exec (.dqHoldExpiry k) s = .next (s.withDev (s.dev.monEnter k monWtr (s.dev.mcause k)))) ∧
    (s.dev.mstate k ≠ monDisabled → exec (.monitorSecond k none) s = .next (s.withDev (s.dev.monSecond k)) ∧
      ∀ y : Int, exec (.monitorSecond k (some y)) s = .next (s.withDev (s.dev.atmCount k y))) ∧
    (∀ (m : Master) (off v : Nat), Served s m (monPg k) off → 3 ≤ k.val → k.val ≤ 10 → 0x200 ≤ off → off < 0x20C →
      let d0 := (s.took m (monPg k) off v).storeReg (monPg k) off v;
      let d := if d0.carries k then d0 else d0.mputi k MON.PHASE_X 0;
      (monLost < d.mstate k → exec (.refConfigWrite m k off v) s = .next (s.withDev (d.monReturn k 0xA))) ∧
      (d.mstate k ≤ monLost → exec (.refConfigWrite m k off v) s = .next (s.withDev (d.monTry k)))) ∧
    exec .ensembleEval s = .next (s.withDev s.dev.ensEval)

/-- Telemetry bytes, UART and steering writes, the messages, grants and timeouts of an upstream session that runs, ESMC messages and gates of a SyncE slot, and a GNSS measurement answer the next state the rules give; the offset of an exchange is half of ((t2 - t1 - c_s) - (t4 - t3 - c_d)). -/
def Obligations.SourceInputCommandsComplete : Prop :=
  ∀ s : State,
    (∀ (n : Fin 2) (b : Fin 256), s.dev.on (Pg.atm n) ATM.UART_CTL_EN = true →
      let d := s.dev.tlmRestart n;
      d.atm[n].rx.length < 256 → ((d.upAtm n fun e => { e with rx := e.rx ++ [b.val] }).uartShow n).on (Pg.atm n) ATM.TLM_CTL_MATCH_EN = false →
      exec (.uartRxByte n b) s = .next (s.withDev ((d.upAtm n fun e => { e with rx := e.rx ++ [b.val] }).uartShow n))) ∧
    (∀ (m : Master) (n : Fin 2) (v : Nat), Served s m (Pg.atm n) 0x228 → bit v 0 = true →
      exec (.uartPop m n v) s = .next (s.withDev (((s.took m (Pg.atm n) 0x228 v).upAtm n fun e => { e with rx := e.rx.tail }).uartShow n))) ∧
    (∀ (m : Master) (n : Fin 2) (v : Nat), s.dev.gate m (Pg.atm n) 0x22C = .served → s.dev.atm[n].tx = [] →
      let d := s.took m (Pg.atm n) 0x22C v;
      exec (.uartTxWrite m n v) s = .next (s.withDev ((d.upAtm n fun e => { e with tx := [match d.atm[n].tx.getLast? with
        | some t => max d.now (t + s.dev.uartBits n * max 0x32 (s.dev.get (Pg.atm n) ATM.UART_CTL_DIV) * 2)
        | none => d.now] }).emit (.uart n (v % 256))))) ∧
    (∀ (m : Master) (n : Fin 2) (v : Nat), Served s m (Pg.atm n) 0x220 →
      let d := (s.took m (Pg.atm n) 0x220 v).storeReg (Pg.atm n) 0x220 v;
      d.get (Pg.atm n) ATM.UART_CTL_EN ≠ s.dev.get (Pg.atm n) ATM.UART_CTL_EN →
        exec (.uartEnWrite m n v) s = .next (s.withDev ((d.upAtm n fun e => { e with group := none }).tlmRestart n))) ∧
    (∀ n : Fin 2, s.dev.on (Pg.atm n) ATM.UART_CTL_EN = true → s.dev.get (Pg.atm n) ATM.TLM_CTL_TMO ≠ 0 →
      exec (.tlmTimeout n) s = .next (s.withDev ((s.dev.put (Pg.atm n) ATM.UART_STS_TLM_LOST 1).raise (Pg.atm n) 1 causeTlm))) ∧
    (∀ (n : Fin 2) (c : Fin 2) (v : Nat), s.dev.gate (.svc c) (Pg.atm n) 0x254 = .served →
      let d := (s.took (.svc c) (Pg.atm n) 0x254 v).storeReg (Pg.atm n) 0x254 v;
      (d.steering n = true → exec (.steerValWrite (.svc c) n v) s = .next (s.withDev (d.steerSend n))) ∧
      (d.steering n = false → exec (.steerValWrite (.svc c) n v) s = .next (s.withDev (d.upAtm n fun e => { e with held := true })))) ∧
    (∀ (m : Master) (n : Fin 4) (v : Nat), Served s m (Pg.us n) 0x200 →
      let d := (s.took m (Pg.us n) 0x200 v).storeReg (Pg.us n) 0x200 v;
      d.mstate (usK n) ≠ monDisabled → exec (.usConfigWrite m n 0x200 v) s = .next (s.withDev ((d.usStart n).monReturn (usK n) 0xA))) ∧
    (∀ (n : Fin 4) (x : PtpSync), s.dev.usRuns n = true → s.dev.us[n].followed = some x.tt → 
      let d0 := s.dev.putb (Pg.us n) US.STS_TWO_STEP x.twoStep;
      let d := (d0.timerTime 0 (logTicks (d0.get (Pg.us n) US.INTV_LOG_SYNC)) (.usSyncTimeout n)).usFirstReq n;
        (x.twoStep = false → exec (.usSyncRx n x) s = .next (s.withDev (((d.upUs n fun e => { e with
          gotSync := true, missed := 0, two := none, sync := some (x.t1 + x.corr, x.t2) }).usTlv n 0 x.tlv).usPresence n))) ∧
        (x.twoStep = true → exec (.usSyncRx n x) s = .next (s.withDev ((d.upUs n fun e => { e with
          gotSync := true, missed := 0, two := some (x.seq, x.t2, x.corr), sync := e.sync }).usPresence n)))) ∧
    (∀ (n : Fin 4) (x : PtpFollowUp) (t2 c : Int), s.dev.usRuns n = true → s.dev.us[n].followed = some x.tt → s.dev.us[n].two = some (x.seq, t2, c) →
      exec (.usFollowUpRx n x) s = .next (s.withDev ((s.dev.upUs n fun e => { e with two := none, sync := some (x.t1 + c + x.corr, t2) }).usTlv n 0 x.tlv))) ∧
    (∀ (n : Fin 4) (x : PtpAnnounce), s.dev.usRuns n = true → s.dev.get (Pg.us n) US.TT_ID_CLOCK_ID ≠ 0 → s.dev.get (Pg.us n) US.TT_ID_CLOCK_ID = x.tt →
      s.dev.us[n].followed = some x.tt →
      let d0 := s.dev.upUs n fun e => { e with heard := (x.tt, [x.priority1, x.cls, x.acc] ++ x.rest ++ [x.tt], s.dev.stepFree 0) :: (s.dev.usHears n).filter fun h => h.1 ≠ x.tt };
      let d1 := (d0.put (Pg.us n) US.STS_UP_CLASS x.cls).put (Pg.us n) US.STS_UP_ACC x.acc;
      let d2 := (d1.usTlv n 2 x.tlv).timerTime 0 (3 * d1.annNs n) (.usAnnounceTimeout n);
      exec (.usAnnounceRx n x) s = .next (s.withDev ((((d2.upMon (usK n) fun e => { e with
        upstream := decide (d2.get (Pg.us n) US.UP_CTL_CLASS_MAX < x.cls) }).noteCond (usK n)).upUs n fun e => { e with gotAnn := true }).usPresence n))) ∧
    (∀ n : Fin 4, s.dev.usRuns n = true → s.dev.us[n].followed.isSome = true → s.dev.get (Pg.us n) US.CFG_MODE ≠ 1 ∨ s.dev.us[n].grants[2] ≠ 0 →
      exec (.usDelayReqTx n) s = .next (s.withDev ((s.dev.timerTime 0 (logTicks (s.dev.get (Pg.us n) US.INTV_LOG_DREQ)) (.usDelayReqTx n)).usSend n .delayReq 44 []))) ∧
    (∀ (n : Fin 4) (x : PtpDelayResp) (t1 t2 t3 : Int), s.dev.usRuns n = true → s.dev.us[n].followed = some x.tt → s.dev.us[n].sync = some (t1, t2) →
      s.dev.us[n].req = some (x.seq, t3) →
      let o := tdiv ((t2 - t1) - (x.t4 - t3 - x.corr)) 2;
      exec (.usDelayRespRx n x) s = .next (s.withDev (((((s.dev.upUs n fun e => { e with
        req := none, gotResp := true, offs := (o :: e.offs).take 16, sumMpd := e.sumMpd + tdiv ((t2 - t1) + (x.t4 - t3 - x.corr)) 2 }).usTlv n 1 x.tlv)).sampleX (usK n) (-o)).usPresence n))) ∧
    (∀ (n : Fin 4) (typ : Fin 3), s.dev.usRuns n = true → s.dev.get (Pg.us n) US.CFG_MODE = 1 →
      exec (.usGrantRx n typ 0) s = .next (s.withDev ((s.dev.usNeg n 3).timerTime 0 (8 * second) (.usGrantRetry n typ))) ∧
      exec (.usGrantRetry n typ) s = .next (s.withDev ((s.dev.usNeg n 1).usAsk n typ)) ∧
      (s.dev.us[n].grants[typ] ≠ 0 → exec (.usGrantRenew n typ) s = .next (s.withDev (s.dev.usAsk n typ)))) ∧
    (∀ (n : Fin 4) (typ : Fin 3), s.dev.usRuns n = true → s.dev.us[n].grants[typ] ≠ 0 → typ ≠ 2 → exec (.usGrantLapse n typ) s = .next (s.withDev
      ((((s.dev.upUs n fun e => { e with grants := e.grants.set typ 0 }).usNeg n 4).timerTime 0 (8 * second) (.usGrantRetry n typ)).monLose (usK n)))) ∧
    (∀ n : Fin 4, s.dev.usRuns n = true → s.dev.us[n].gotSync = true →
      let d := (s.dev.count (Pg.us n) (MON.MISS_CNT_COUNT 0x100)).upUs n fun e => { e with missed := e.missed + 1 };
      3 ≤ d.us[n].missed → exec (.usSyncTimeout n) s = .next (s.withDev (d.monLose (usK n)))) ∧
    (∀ n : Fin 4, s.dev.usRuns n = true → s.dev.us[n].gotAnn = true → exec (.usAnnounceTimeout n) s = .next (s.withDev
      ((s.dev.upUs n fun e => { e with heard := e.heard.filter fun h => some h.1 ≠ s.dev.us[n].followed }).usFollowed n none))) ∧
    (∀ (n : Fin 4) (ql : Fin 16),
      let d := ((s.dev.put (Pg.us n) US.SYNCE_STS_QL ql).put (Pg.us n) US.SYNCE_STS_ESMC_TMO 0).timerTime 0 (5 * second) (.esmcTimeout n);
      exec (.synceEsmcRx n ql) s = .next (s.withDev (((d.upMon (synceK n) fun e => { e with
        pps := true, alarm := decide (qlRank (d.get (Pg.us n) US.SYNCE_CFG_QL_MIN) < qlRank ql) }).noteCond (synceK n)).monTry (synceK n)))) ∧
    (∀ n : Fin 4, s.dev.waiting (.esmcTimeout n) = false →
      exec (.esmcTimeout n) s = .next (s.withDev ((s.dev.put (Pg.us n) US.SYNCE_STS_ESMC_TMO 1).monLose (synceK n)))) ∧
    (∀ (n : Fin 4) (y : Int), exec (.synceGate n y) s = .next (s.withDev (s.dev.upMon (synceK n) fun e => { e with newY := some (s.dev.yTsa y) }))) ∧
    (∀ (x : Int) (gt : Bound) (at_ : Int), s.dev.gnss.meas = some (x, gt, at_) → s.dev.inCave = false →
      let d := { s.dev with gnss := { s.dev.gnss with meas := none, hist := ((x, at_) :: s.dev.gnss.hist).take 3600 } };
      d.mstate 0 ≠ monDisabled → exec .gnssMeasurement s = .next (s.withDev (((d.upMon 0 fun e => { e with pps := true, missed := 0, gt := gt }).sampleX 0 (x - tdiv d.ts[0].stepSum (2 ^ 32))).monTry 0)))

/-- Selector evaluations, the end of a switch, entry into LOCKED, servo updates, served writes of SVCn_CTL and SVCn_WDOG, the expiry of a running core's watchdog and the end of a holdover bin answer the next state that the rules give. -/
def Obligations.SelectionCommandsComplete : Prop :=
  ∀ (s : State) (n : Ts),
    exec (.selectorEval n) s = .next (s.withDev (s.dev.selEval n)) ∧
    (s.dev.selState n = selSwitching → s.dev.ts[n].slewRem = 0 →
      (s.dev.sel[n].settle = none ∨ s.dev.sel[n].settle = some 0 → exec (.switchEnd n) s = .next (s.withDev (s.dev.endSwitch n))) ∧
      (∀ t, s.dev.sel[n].settle = some (t + 1) → exec (.switchEnd n) s = .next (s.withDev (s.dev.switchSettle n (t + 1))))) ∧
    (s.dev.selState n = selAcquire → max 1 (s.dev.get Pg.sel (SEL.LOCK_TIME n)) ≤ s.dev.sel[n].lock →
      exec (.lockAchieved n) s = .next (s.withDev (s.dev.selEnter n selLocked))) ∧
    (s.dev.selState n = selRelock → s.dev.slewLeft n = 0 → max 1 (s.dev.get Pg.sel (SEL.LOCK_TIME n)) ≤ s.dev.sel[n].lock →
      exec (.lockAchieved n) s = .next (s.withDev (s.dev.selEnter n selLocked))) ∧
    (let d := s.dev.servoUpdate n;
      exec (.servoUpdate n) s = .next (s.withDev (if d.get Pg.plk PLK.FOLLOW_TS = n.val then { d with plk := { d.plk with freshX := false } } else d))) ∧
    (∀ (m : Master) (v : Nat), Served s m (Pg.svc n) 0x100 →
      exec (.svcRunWrite m n v) s = .next (s.withDev (((s.took m (Pg.svc n) 0x100 v).storeReg (Pg.svc n) 0x100 v).coreRun n (bit v 31)))) ∧
    (∀ (m : Master) (v : Nat), Served s m (Pg.svc n) 0x104 →
      let d := (s.took m (Pg.svc n) 0x104 v).storeReg (Pg.svc n) 0x104 v;
      d.coreRuns n = true → exec (.svcHeartbeat m n v) s = .next (s.withDev (d.timerTime 0 (d.wdogTime n) (.svcWatchdogExpiry n)))) ∧
    (s.dev.coreRuns n = true → exec (.svcWatchdogExpiry n) s = .next (s.withDev (s.dev.coreHalt n true))) ∧
    exec (.holdoverBin n) s = .next (s.withDev (s.dev.closeBin n))

/-- Served writes of the GNSS pages, a start, a dwell that finds or does not find its signal, the band B handover, the alarms, the internal pulse, a second's solution in fixed and survey mode, the survey, the UTC decode, and sleep and wake in Cave answer the next state that the rules give. -/
def Obligations.GnssCommandsComplete : Prop :=
  ∀ s : State,
    (∀ (m : Master) (v : Nat), Served s m (Pg.gnss 5) 0x100 →
      exec (.gnssConfigWrite m 5 0x100 v) s = .next (s.withDev ((s.took m (Pg.gnss 5) 0x100 v).storeReg (Pg.gnss 5) 0x100 v).ht4Show)) ∧
    (∀ (m : Master) (v : Nat), Served s m (Pg.gnss 1) 0x118 →
      exec (.gnssConfigWrite m 1 0x118 v) s = .next (s.withDev ((s.took m (Pg.gnss 1) 0x118 v).storeReg (Pg.gnss 1) 0x118 v).gnssConfigured.ht4Show)) ∧
    (∀ (m : Master) (v : Nat), Served s m (Pg.gnss 0) 0x200 →
      let d := ((s.took m (Pg.gnss 0) 0x200 v).storeReg (Pg.gnss 0) 0x200 v).gnssConfigured;
        ((bit v 31 = true ∨ d.gstate = gnssOff) → exec (.gnssConfigWrite m 0 0x200 v) s = .next (s.withDev d.modeFollow.ht4Show)) ∧
        (bit v 31 = false → d.gstate ≠ gnssOff → exec (.gnssConfigWrite m 0 0x200 v) s = .next (s.withDev (d.gnssStop gnssOff).modeFollow.ht4Show))) ∧
    (∀ (m : Master) (off v : Nat), s.dev.gate m (Pg.gnss 4) off = .served → s.dev.fixedPos = true → off < 0x114 →
      exec (.gnssPosWrite m off v) s = .next (s.withDev (((s.took m (Pg.gnss 4) off v).storeReg (Pg.gnss 4) off v).posWritten))) ∧
    (∀ (m : Master) (v : Nat), s.dev.gate m (Pg.gnss 7) 0x128 = .served → s.dev.ht4Mode = true →
      exec (.ht4Write m 0x128 v) s = .next (s.withDev (((s.took m (Pg.gnss 7) 0x128 v).put (Pg.gnss 3) GNSS3.CH_IDX_IDX v).chWindow.ht4Show))) ∧
    (∀ visible : List GnssSig, s.dev.mayStart = true →
      let cls := s.dev.startClass visible;
        exec (.gnssStart visible) s = .next (s.withDev (s.dev.searchBegin cls (s.dev.startList cls visible) (s.dev.laterList cls visible)))) ∧
    (∀ (e : Fin 8) (g : GnssSig) (n : Nat) (t : Int), s.dev.gnss.eng[e] = some (g, n, t) → s.dev.granted kindSearch 0 = true → t ≤ s.dev.stepFree 0 →
      (∀ cn c, (List.range 96).find? (fun c => s.dev.chan c = chIdle) = some c →
        exec (.searchDwell e (some cn)) s = .next (s.withDev (s.dev.sigFound e g cn c))) ∧
      (1 < n → exec (.searchDwell e none) s = .next (s.withDev (s.dev.upGnss fun x => { x with eng := x.eng.set e (some (g, n - 1, s.dev.dwellEnd g)) }))) ∧
      (n ≤ 1 → exec (.searchDwell e none) s = .next (s.withDev (((s.dev.upGnss fun x => { x with queue := x.queue ++ [g] }).engTake e).showBusy)))) ∧
    (∀ (c : Fin 96) (cn0 : Nat), s.dev.ht4Mode = false → chF GNSS3.CH_STS_TRK_A (s.dev.chan c) = 1 → s.dev.chan c ≠ chIdle → exec (.bandBHandover c cn0) s =
      .next (s.withDev ((s.dev.setChan c (chPut GNSS3.CH_STS_TRK_B 1 (chPut GNSS3.CH_STS_CN0_B cn0 (s.dev.chan c)))).showTracked))) ∧
    (∀ a : Fin 4, max 1 (s.dev.get (Pg.gnss 0) GNSS0.ALM_CTL_CLR) ≤ s.dev.gnss.pass[a] →
      exec (.alarmWithdraw a) s = .next (s.withDev (s.dev.setAlarm a false))) ∧
    (∀ gain : Fin 256, bit (s.dev.get (Pg.gnss 5) GNSS5.SPF_CTL_EN) 0 = false →
      exec (.jamAlarm 0 gain) s = .next (s.withDev (((s.dev.put (Pg.gnss 1) GNSS1.AGC_STS_GAIN_A gain).upGnss fun g => { g with low := g.low.set 0 0 }).alarmTest 0 false))) ∧
    (∀ a b : Nat, exec (.antBiasFault a b) s = .next (s.withDev (s.dev.biasSeen a b))) ∧
    (∀ sec : Nat, (s.dev.gstate = gnssTrack ∨ s.dev.gstate = gnssTiming ∨ s.dev.gstate = gnssSurvey) →
      exec (.gnssPulse sec) s = .next (s.withDev ((((s.dev.upGnss fun g => { g with sec := some sec, stamp := none }).put (Pg.gnss 7) GNSS7.HT4_TOW_V ((sec - 315964800) % 604800)).put
        (Pg.gnss 7) GNSS7.HT4_WEEK_V ((sec - 315964800) / 604800 % 65536)).emit (.message "GNSS pulse" [sec])))) ∧
    (∀ x : GnssSol, (s.dev.gstate = gnssTrack ∨ s.dev.gstate = gnssTiming ∨ s.dev.gstate = gnssSurvey) →
      let d := s.dev.each x.lost fun c d => d.chanLost c;
        (d.fixedPos = true → exec (.gnssSolution x) s = .next (s.withDev (d.fixedSolution x))) ∧
        (d.fixedPos = false → exec (.gnssSolution x) s = .next (s.withDev (d.surveySolution x)))) ∧
    (∀ c : Fin 256,
      let d := s.dev.upGnss fun g => { g with excl := g.excl.filter (· ≠ c.val) };
      exec (.raimHoldExpiry c) s = .next (s.withDev (d.put (Pg.gnss 4) GNSS4.RAIM_STS_EXCL d.gnss.excl.length))) ∧
    (s.dev.fixedPos = false → clampN 60 86400 (s.dev.get (Pg.gnss 4) GNSS4.POS_CTL_SURVEY) ≤ s.dev.gnss.surN →
      exec .surveyComplete s = .next (s.withDev s.dev.surveyEnd)) ∧
    (s.dev.fixedPos = false → s.dev.gnss.surAt + 10 * accSecond < s.dev.stepFree 0 → exec .surveyRestart s = .next (s.withDev s.dev.surveyClear)) ∧
    (∀ (ofs : Int) (leap : Fin 4) (sec : Nat), exec (.gnssUtcDecode ofs leap sec) s = .next (s.withDev (s.dev.utcDecoded ofs leap sec))) ∧
    (∀ m : Master, Served s m (Pg.gnss 6) 0x108 → exec (.keptClear m) s = .next (s.withDev (s.took m (Pg.gnss 6) 0x108 1).keptDrop)) ∧
    (s.dev.inCave = true → s.dev.on (Pg.gnss 6) GNSS6.CAVE_CTL_EN = true →
      (s.dev.gstate = gnssSleep → exec .gnssWake s = .next (s.withDev (s.dev.gnssWakeNow.timerTime 0 s.dev.gnssWakeNow.gnssAwake .gnssSleep))) ∧
      (s.dev.on (Pg.gnss 0) GNSS0.CTL_EN = true → exec .gnssSleep s =
        .next (s.withDev ((((s.dev.gnssStop gnssSleep).monLose 0).int (Pg.gnss 6) 1).timerTime 0 (((s.dev.gnssStop gnssSleep).monLose 0).int (Pg.gnss 6) 1).gnssAsleep .gnssWake))))

/-- Served writes of the SYN and CKO registers, the commands of SYNn_CMD in the states that accept them, the end of VCO calibration, lock gates, timeouts, a reference loss and the 1 us update answer the next state that the rules give. -/
def Obligations.SynthesisCommandsComplete : Prop :=
  ∀ (s : State) (n : Fin 4),
    (∀ (m : Master) (v w : Nat), w = v ||| 2 ^ 31 → Served s m (Pg.syn n) 0x100 → exec (.synEnable m n v) s = .next (s.withDev ((s.took m (Pg.syn n) 0x100 w).synCtl n w))) ∧
    (∀ (m : Master) (v w : Nat), w = v % 2 ^ 31 → Served s m (Pg.syn n) 0x100 → exec (.synDisable m n v) s = .next (s.withDev ((s.took m (Pg.syn n) 0x100 w).synCtl n w))) ∧
    (∀ (m : Master) (v : Nat), Served s m (Pg.syn n) 0x108 →
      exec (.synConfigWrite m n 0x108 v) s = .next (s.withDev (((s.took m (Pg.syn n) 0x108 v).storeReg (Pg.syn n) 0x108 v).synReconfig n))) ∧
    (∀ (m : Master) (v : Nat), Served s m (Pg.syn n) 0x104 → exec (.scaleWrite m n v) s = .next (s.withDev ((s.took m (Pg.syn n) 0x104 v).synRefCtl n v))) ∧
    (∀ (m : Master) (v : Nat), Served s m (Pg.syn n) 0x124 → bit v 31 = false →
      exec (.ssCtlWrite m n 0x124 v) s = .next (s.withDev ((((s.took m (Pg.syn n) 0x124 v).storeReg (Pg.syn n) 0x124 v).putb (Pg.syn n) SYN.STS_SS_REFUSED false).spreadWait n))) ∧
    (s.dev.on (Pg.syn n) SYN.SS_CTL_SS_EN = false →
      exec (.ssApply n) s = .next (s.withDev (s.dev.upSyn n fun e => { e with spread := none, spreadAt := s.dev.now, eSum := 0, eNum := 0, ePer := 0 }))) ∧
    (s.dev.synState n = synStart →
      (∀ b, s.dev.synBand n = some b →
        let d := s.dev.upSyn n fun e => { e with gateAt := s.dev.now + 200000, neffGate := e.neff, lockWord := s.dev.get (Pg.syn n) SYN.LOCK_CTL };
          exec (.vcoCalDone n) s = .next (s.withDev ((((d.put (Pg.syn n) SYN.STS_BAND_SEL b).lower (Pg.syn n) 1 synBandCause).lower (Pg.syn n) 1 synConfig).synEnter n synLocking))) ∧
      (s.dev.synBand n = none → exec (.vcoCalDone n) s = .next (s.withDev (s.dev.synFail n synBandCause)))) ∧
    (∀ (count : Nat) (y : Int) (tune : Nat), s.dev.synState n ≠ synOff → s.dev.synState n ≠ synStart → s.dev.synState n ≠ synTest →
      let d := (s.dev.puti (Pg.syn n) SYN.CNTERR_DIFF (s.dev.gateDiff n count)).lockJudge n (s.dev.gateDiff n count) y tune;
        exec (.lockGate n count y tune) s = .next (s.withDev (d.upSyn n fun e => { e with gateAt := d.now, neffGate := e.neff, lockWord := d.get (Pg.syn n) SYN.LOCK_CTL }))) ∧
    (s.dev.synState n = synLocking → 256 ≤ s.dev.syn[n].tried → exec (.lockingTimeout n) s = .next (s.withDev ((s.dev.synFail n synUnlock).synBegin n))) ∧
    (s.dev.synOsc n = false → exec (.synRefLoss n) s = .next (s.withDev (s.dev.synLose n))) ∧
    (s.dev.synState n = synFreeze → s.dev.synPresent n = true → s.dev.syn[n].frozeAt + 100 * milli ≤ s.dev.freeNs →
      exec (.freezeTimeout n) s = .next (s.withDev ((s.dev.synScale n).synLock n))) ∧
    (∀ m : Master, Served s m (Pg.syn n) 0x128 →
      (s.dev.synState n = synLocked →
        let d := s.took m (Pg.syn n) 0x128 1;
        exec (.align m n) s = .next (s.withDev ((d.upSyn n fun e => { e with alignAt := some (d.now + d.slowest n) }).ckoFollow n))) ∧
      (s.dev.synState n = synOff ∨ s.dev.synState n = synLocked →
        let d := s.took m (Pg.syn n) 0x128 2;
        let d1 := d.put (Pg.syn n) SYN.STS_BAND_SEL (d.get (Pg.syn n) SYN.TEST_BAND);
        exec (.testEnter m n) s = .next (s.withDev (((d1.synScale n).upSyn n fun e => { e with tune := d1.get (Pg.syn n) SYN.TEST_TUNE }).synEnter n synTest))) ∧
      (s.dev.synState n = synTest → exec (.testExit m n) s = .next (s.withDev ((s.took m (Pg.syn n) 0x128 3).synBegin n))) ∧
      (s.dev.synState n = synFreeze → exec (.relock m n) s = .next (s.withDev (((s.took m (Pg.syn n) 0x128 4).synScale n).synLock n)))) ∧
    (∀ e : Int, (s.dev.synState n = synLocking ∨ s.dev.synState n = synLocked ∨ s.dev.synState n = synFreeze) →
      (s.dev.get (Pg.syn n) SYN.CTL_MODE ≠ 1 → exec (.dpllUpdate n e) s = .next (s.withDev (s.dev.dpllPhase n (s.dev.spreadNow n) e))) ∧
      (s.dev.get (Pg.syn n) SYN.CTL_MODE = 1 → exec (.dpllUpdate n e) s =
        .next (s.withDev ((s.dev.setNeff n ((s.dev.synNom n : Int) + s.dev.spreadNow n).toNat).setAligned n false)))) ∧
    (∀ (m : Master) (k : Fin 16) (v : Nat), Served s m Pg.cko (0x80 + 0x100 * k.val) →
      let d := (s.took m Pg.cko (0x80 + 0x100 * k.val) v).storeReg Pg.cko (0x80 + 0x100 * k.val) v;
      (d.get Pg.cko (CKO.CTL_SRC k) = s.dev.get Pg.cko (CKO.CTL_SRC k) → exec (.ckoCtlWrite m k v) s = .next (s.withDev (d.ckoEval k))) ∧
      (d.get Pg.cko (CKO.CTL_SRC k) ≠ s.dev.get Pg.cko (CKO.CTL_SRC k) → exec (.ckoCtlWrite m k v) s = .next (s.withDev (d.ckoRestart k (s.dev.ckoEdge k (s.dev.ckoPhase k)))))) ∧
    (∀ (m : Master) (k : Fin 16) (v : Nat), Served s m Pg.cko (0x84 + 0x100 * k.val) → exec (.ckoDivWrite m k v) s =
      .next (s.withDev (((s.took m Pg.cko (0x84 + 0x100 * k.val) v).storeReg Pg.cko (0x84 + 0x100 * k.val) v).ckoRestart k (s.dev.ckoEdge k (s.dev.ckoPhase k))))) ∧
    (∀ (m : Master) (k : Fin 16) (v : Nat), Served s m Pg.cko (0x8C + 0x100 * k.val) →
      let d := (s.took m Pg.cko (0x8C + 0x100 * k.val) v).storeReg Pg.cko (0x8C + 0x100 * k.val) v;
      d.on Pg.cko (CKO.STS_RUNNING k) = true → exec (.ckoPhaseWrite m k v) s = .next (s.withDev (d.upCko k fun e => { e with phBase := s.dev.ckoPhase k, phAt := d.now })))

/-- The power-on reset, PKG_RST_N, a Cave brown-out, the begin of a boot and each of its stages when it is due, the boot watchdog, the end of the boot, GLB_RST_CMD with its key, the region resets of a C4 and a link measured again answer the next state that the rules give; a package reset leaves the clock at its reset value and a flush in progress puts PKG_RST_N off. -/
def Obligations.ResetAndBootCommandsComplete : Prop :=
  ∀ s : State,
    exec .powerOn s = .next (s.afterReset (packageBegin (s.store, s.dev) true)) ∧
    (s.dev.pwr.rst = false →
      (s.dev.powerFails = false ∨ s.dev.rcd.flushing = none → exec .pkgRstN s = .next (s.afterReset (packageBegin (s.store, s.dev)))) ∧
      (s.dev.powerFails = true → s.dev.rcd.flushing.isSome = true →
        exec .pkgRstN s = .next (s.withDev ((s.dev.upPwr fun e => { e with rst := true }).timerTime 0 milli .pkgRstN)))) ∧
    (s.dev.inCave = true → exec .caveBrownout s = .next (s.afterReset (packageBegin (s.store, s.dev)))) ∧
    (∀ (m : Master) (key target w : Nat), s.dev.gate m Pg.glb 0x108 = .served → key % 256 = 0xC3 →
      (w = rstWord key 0 3 → exec (.packageReset m key) s = .next (s.afterReset (packageBegin (s.store, (s.took m Pg.glb 0x108 w).int Pg.glb 2)))) ∧
      (∀ r, regionOf (target % 16) = some r → w = rstWord key target 1 →
        exec (.regionCmd m key target) s = .next (s.withStore (regionAsk (s.store, (s.took m Pg.glb 0x108 w).int Pg.glb 2) r))) ∧
      (∀ n : Fin 2, target % 16 = n.val → w = rstWord key target 2 →
        exec (.dieCmd m key target) s = .next (s.withStore (dieAsk (s.store, (s.took m Pg.glb 0x108 w).int Pg.glb 2) n)))) ∧
    (∀ r : Region, r ∈ s.dev.flt.c4Wait →
      let d := s.dev.cancel (.c4RegionReset r);
      (¬ (s.dev.inCave = true ∧ darkInCave r = true) → exec (.c4RegionReset r) s =
        .next (s.withStore (regionAsk (s.store, { d with flt := { d.flt with c4Wait := d.flt.c4Wait.filter (· ≠ r) } }) r))) ∧
      (s.dev.inCave = true → darkInCave r = true → r ∉ s.dev.pwr.held →
        exec (.c4RegionReset r) s = .next (s.withDev (d.upPwr fun e => { e with held := e.held ++ [r] })))) ∧
    (∀ r : Region,
      let d := s.dev.cancel (.regionResetComplete r);
      exec (.regionResetComplete r) s = .next (s.withDev
        { d with flt := { d.flt with resetting := d.flt.resetting.filter (· ≠ r), dies := d.flt.dies.filter fun n => dieRegion n ≠ r } })) ∧
    (∀ (n : Fin 5) (tries : List (Int × Nat)), s.dev.on Pg.glb GLB.BOOT_STS_BOOT_DONE = true → s.dev.uncal n.val = true → s.dev.rotPhase = 0 →
      s.dev.links[n].tried + 10 * accSecond ≤ s.dev.stepFree 0 →
      let d0 := { s.dev with links := s.dev.links.set n { s.dev.links[n] with tried := s.dev.stepFree 0 } };
      let d := (d0.upTdcs fun e => { e with linkUntil := s.dev.now + 2 * milli, probeFrom := s.dev.stepFree 0 }).probeTo (Config.linkTap n.val % 128);
        (∀ x, linkBest tries = some x → exec (.linkRemeasure n tries) s = .next (s.withDev (d.linkGood n x))) ∧
        (linkBest tries = none → exec (.linkRemeasure n tries) s = .next (s.withDev d))) ∧
    (∀ x : BootIn, s.dev.on Pg.glb GLB.BOOT_STS_BOOT_DONE = false →
      (s.dev.ldr.boot = none → exec (.boot x) s = .next (s.withReset (bootRun (s.store, s.dev.bootBegin x) ⟨x, 0, s.dev.freeNs⟩))) ∧
      (∀ b, s.dev.ldr.boot = some b → b.stage < bootPlan.length → b.due ≤ s.dev.freeNs → exec (.boot x) s = .next (s.withReset (bootRun (s.store, s.dev) b)))) ∧
    (s.dev.bootThrough = true → exec .bootDone s = .next (s.withDev (s.dev.cancel .bootDone).bootFinish)) ∧
    (∀ b, s.dev.ldr.boot = some b → b.stage ≠ bootHeld →
      exec .bootWatchdogExpiry s = .next (s.afterReset (packageBegin (s.store, s.dev.upLdr fun e => { e with failed := e.failed + 1 }))))

/-- Served writes of SNAP_CTL, PAGE_CTL, INT_STS, INT_EN and INT_FORCE, an MSI-X vector unmasked by a PCIe function, PF0's write of TEST_DIS, and the events of the PCIe link and of a snapshot answer the next state that the rules give. -/
def Obligations.HostCommandsComplete : Prop :=
  ∀ s : State,
    (∀ (m : Master) (pg : Fin 1024) (v : Nat), exec (.snap m pg v) s = .next (s.withDev (s.dev.writeSnap m pg v))) ∧
    (∀ pg : Page, exec (.snapDone pg) s = .next (s.withDev (s.dev.snapFinish pg))) ∧
    (∀ (m : Master) (pg : Page) (v w : Nat), s.dev.gate m pg 0x08 = .served →
      (w = v ||| 1 →
        let d := (s.took m pg 0x08 w).pageCtlSet pg w;
          (d.within pg = none → exec (.softRst m pg v) s = .next (s.withStore (softPage (s.store, d) pg))) ∧
          (∀ r, d.within pg = some r → exec (.softRst m pg v) s = .next (s.withDev (d.absorb r)))) ∧
      (bit v 0 = false → exec (.freezeWrite m pg v) s = .next (s.withDev ((s.took m pg 0x08 v).pageCtlSet pg v)))) ∧
    (∀ (m : Master) (pg : Page) (v : Nat), Served s m pg 0x10 →
      exec (.intStsClear m pg v) s = .next (s.withDev ((s.took m pg 0x10 v).resend pg fun d => (d.storeReg pg 0x10 v).resum pg))) ∧
    (∀ (m : Master) (pg : Page) (v : Nat), Served s m pg 0x14 →
      exec (.intEnWrite m pg v) s = .next (s.withDev ((s.took m pg 0x14 v).resend pg fun d => (d.storeReg pg 0x14 v).resum pg))) ∧
    (∀ (m : Master) (pg : Page) (v : Nat), Served s m pg 0x18 → exec (.intForce m pg v) s = .next (s.withDev ((s.took m pg 0x18 v).forceInt pg v))) ∧
    (∀ (m : Master) (vec : Fin 64) (f : Nat), pfOf m = some f → s.dev.inCave = false →
      let d := s.took m Pg.glb (0x80C + 16 * vec.val) 0;
      exec (.msixUnmask m vec) s = .next (s.withDev (({ d with hif := { d.hif with
        msix := sset (fun k => if k % 4 = 3 then 1 else 0) d.hif.msix (256 * f + (4 * vec.val + 3)) 0 } }).unmasked (f, vec.val)))) ∧
    exec .pciePerst s = .next (s.withDev s.dev.perst) ∧
    (∀ width speed : Nat,
      let d := s.dev.pcieUp width speed;
        exec (.pcieLinkUp width speed) s = .next (s.withDev (if d.caveState = caveExiting then d.after 0 .caveExitDone else d))) ∧
    exec .pcieLinkDown s = .next (s.withDev (s.dev.put Pg.hif HIF.STS_LINK_UP 0)) ∧
    (s.dev.gate .pf0 Pg.glb 0x124 = .served → exec (.testDis .pf0) s = .next (s.withDev ((s.took .pf0 Pg.glb 0x124 1).storeReg Pg.glb 0x124 1)))

/-- Rail faults, the poll of the pages whose pin failed its test, disagreeing rails, link word errors and resync timeouts, clears and forces by the masters that may make them, and served writes of the PMC registers answer the next state that the rules give. -/
def Obligations.FaultCommandsComplete : Prop :=
  ∀ s : State,
    (∀ (pg : Page) (c : Fin 5), exec (.railFault pg c) s =
      .next (s.withDev ((s.dev.raise pg (max 1 c.val) causeRail true).lower pg (max 1 c.val) causeRail))) ∧
    (∀ (m : Master) (pg : Page) (v : Nat), s.dev.gate m pg 0x24 = .served → mayClear m = true →
      exec (.fltClr m pg v) s = .next (s.withDev ((s.took m pg 0x24 v).fltClear m pg (v % 32)).fltAfter)) ∧
    (∀ (m : Master) (v : Nat), Served s m Pg.flt 0x104 →
      exec (.fltClrAll m v) s = .next (s.withDev ((s.took m Pg.flt 0x104 v).each allPages fun pg d => d.fltClear m pg (v % 32)).fltAfter)) ∧
    (∀ (m : Master) (pg : Page) (v : Nat), s.dev.gate m pg 0x20 = .served → mayForce m = true →
      (bit v 4 = false ∨ s.dev.on Pg.flt FLT.CTL_C4_FORCE = true) → (s.took m pg 0x20 v).on Pg.flt FLT.CTL_C4_FORCE = s.dev.on Pg.flt FLT.CTL_C4_FORCE →
      exec (.fltForceWrite m pg v) s = .next (s.withDev (((s.took m pg 0x20 v).put pg HDR.FLT_FORCE_FORCE (v % 32)).forceFollow pg))) ∧
    (let d := ({ s.dev with flt := { s.dev.flt with late := [] } }.cancel .pinPoll).each s.dev.flt.late fun x d => d.takeUp x.1 x.2.1 x.2.2.1 x.2.2.2;
      exec .pinPoll s = .next (s.withDev (if allPages.any fun pg => d.pinBad pg then d.afterTime 0 milli .pinPoll else d))) ∧
    (∀ l : List Page, exec (.collectorRailDisagree l) s = .next (s.withDev ((s.dev.each l fun pg d => d.latchAll pg).fault Pg.flt 2 causeCollector))) ∧
    (∀ n : Fin 5,
      let d := s.dev.count Pg.flt (FLT.LINK_ERR_COUNT n);
      exec (.linkWordError n) s = .next (s.withDev ((d.put Pg.flt FLT.DIE_STS_PIN (d.get Pg.flt FLT.DIE_STS_PIN ||| linkDies n)).fault Pg.glb 1 causeWord))) ∧
    (∀ n : Fin 5, exec (.linkResyncTimeout n) s = .next (s.withDev
      (((s.dev.put Pg.flt FLT.DIE_STS_PIN (s.dev.get Pg.flt FLT.DIE_STS_PIN ||| linkDies n)).fault Pg.glb 4 causeResync).each (farRegions n) fun r d => d.regionLater r))) ∧
    (∀ (m : Master) (pg : Page) (k : Fin 4) (v off : Nat), off = 0x30 + 4 * k.val → (s.dev.cycleSync pg k).gate m pg off = .served → (s.dev.cycleSync pg k).locked pg = false →
      let d := (s.dev.cycleSync pg k).served m pg off v;
      exec (.pmcSelWrite m pg k v) s = .next (s.withDev (d.pmcSelect m pg k v ((s.dev.cycleSync pg k).reg pg (0x40 + 8 * k))))) ∧
    (∀ m : Master, Served s m Pg.pmc 0x104 →
      let d := s.took m Pg.pmc 0x104 1;
      exec (.pmcLatch m) s = .next (s.withDev (d.readerCopy (d.granted kindReader 0)))) ∧
    (s.dev.on Pg.pmc PMC.CTL_AUTO = true →
      let d := s.dev.readerCopy (s.dev.granted kindReader 0);
      exec .pmcAutoLatch s = .next (s.withDev (d.timer (max 1 (d.get Pg.pmc PMC.CTL_PERIOD) * milli) .pmcAutoLatch))) ∧
    (∀ (m : Master) (off v : Nat), Served s m Pg.pmc off →
      exec (.pmcFilterWrite m off v) s = .next (s.withDev ((s.took m Pg.pmc off v).storeReg Pg.pmc off v)))

/-- A 32-bit write of a register of the selector or holdover page that is served stores the value by the register's access types, and one of the holdover page lets the holdover units follow, when it arrives as a register access out of Cave; a transfer of 8 octets of the management target that names the path asymmetry of a port and is served stores its value there: the command an access spells is the one its address and value name. -/
def Obligations.RegisterWritesComplete : Prop :=
  ∀ s : State,
    (∀ (m : Master) (pg off v : Nat), (pg = Pg.sel ∨ pg = Pg.hld) → 0x100 ≤ off → off < 4096 → off % 4 = 0 → v < 2 ^ 32 →
      (∀ r, regAt pg off = some r → r.width ≤ 32) → s.dev.inCave = false → Served s m pg off →
      exec (.registerWrite m (4096 * pg + off) false v) s = .next (s.withDev (if pg = Pg.hld then (((s.took m pg off v).storeReg pg off v).hldFollow 0).hldFollow 1 else (s.took m pg off v).storeReg pg off v))) ∧
    (∀ (p : Fin 24) (v : Nat) (octets : List Nat), v < 2 ^ 32 → mgmtOperands octets = some (4096 * Pg.pts p + 0x110, v) → s.dev.on Pg.hif HIF.MGMT_CTL_EN = true →
      Served s .mgmt (Pg.pts p) 0x110 →
      exec (.mgmtWriteTransfer octets) s = .next (s.withDev ((s.took .mgmt (Pg.pts p) 0x110 v).storeReg (Pg.pts p) 0x110 v)))

/-- An edge that a channel looks at, served writes of the channel and calibration registers, the end of a gate, a stamp written to its ring, the phases of a rotation and the loss and return of MCLK answer the next state that the rules give. -/
def Obligations.MeasurementCommandsComplete : Prop :=
  ∀ s : State,
    (∀ (n : Fin 16) (phi : Fin 65536) (bin bin2 : Fin 1024) (falling : Bool) (lane : Fin 4) (ps : Nat),
      let q := s.dev.muxEdge n lane falling ps;
        (q.1 = none → exec (.tdcStamp n phi bin bin2 falling lane ps) s = .next (s.withDev q.2)) ∧
        (∀ f, q.1 = some f → q.2.tdcTakes n f = false → exec (.tdcStamp n phi bin bin2 falling lane ps) s = .next (s.withDev q.2)) ∧
        (∀ f, q.1 = some f → q.2.tdcTakes n f = true → exec (.tdcStamp n phi bin bin2 falling lane ps) s = .next (s.withDev (q.2.tdcEdge n phi bin bin2 f lane)))) ∧
    (∀ (m : Master) (n : Fin 16), Served s m (Pg.tdc n) 0x108 →
      exec (.tdcArm m n) s = .next (s.withDev ((s.took m (Pg.tdc n) 0x108 1).put (Pg.tdc n) TDC.STS_ARMED 1)) ∧
      exec (.tdcDisarm m n) s = .next (s.withDev ((s.took m (Pg.tdc n) 0x108 3).put (Pg.tdc n) TDC.STS_ARMED 0)) ∧
      exec (.tdcFlush m n) s = .next (s.withDev (((s.took m (Pg.tdc n) 0x108 2).upTdc n fun e => { e with queue := [] }).tdcShow n))) ∧
    (∀ (m : Master) (n : Fin 16) (v : Nat), Served s m (Pg.tdc n) 0x120 → bit v 0 = true →
      exec (.tdcPop m n v) s = .next (s.withDev (((s.took m (Pg.tdc n) 0x120 v).upTdc n fun e => { e with queue := e.queue.drop 1 }).tdcShow n))) ∧
    (∀ n : Fin 16, exec (.tdcFreqGate n) s = .next (s.withDev (s.dev.freqGate n))) ∧
    (∀ (n : Fin 16) (w : Stamp) (rest : List Stamp), s.dev.on Pg.hif HIF.STS_LINK_UP = true → s.dev.streamTurn = some n → s.dev.tdc[n].fifo = w :: rest →
      exec .streamWrite s = .next (s.withDev (s.dev.streamServe n w rest))) ∧
    (∀ (m : Master) (n : Fin 16) (off v : Nat), s.dev.gate m (Pg.tdc n) off = .served → s.dev.get (Pg.tdc n) TDC.CTL_DEST ≠ 1 → s.dev.get (Pg.tdc n) TDC.CTL_DEST ≠ 2 →
      exec (.strConfigWrite m n off v) s = .next (s.withDev ((s.took m (Pg.tdc n) off v).storeReg (Pg.tdc n) off v))) ∧
    (∀ (m : Master) (n : Fin 16) (off v : Nat), s.dev.gate m (Pg.tdc n) off = .served →
      (off ≠ 0x104 ∨ (v % 128 ≠ 0x7F ∧ s.dev.get Pg.tdcCal TDCCAL.PROBE_CTL_CH ≠ n.val)) →
      exec (.tdcMuxWrite m n off v) s = .next (s.withDev ((s.took m (Pg.tdc n) off v).muxSet n off v))) ∧
    (s.dev.tdcs.linkUntil ≤ s.dev.now →
      let d := s.dev.timerTime 0 s.dev.rotPeriod .rotationStart;
        (d.rotMay = true → exec .rotationStart s = .next (s.withDev d.rotBegin)) ∧ (d.rotMay = false → exec .rotationStart s = .next (s.withDev d))) ∧
    (∀ (n : Fin 16) (u : Fin 17), s.dev.rotPhase = rotIn → s.dev.rotCur = u → u.val = n.val → s.dev.overlapOver n (2100 * milli) = true →
      exec .rotationSwitch s = .next (s.withDev (s.dev.rotSwitch n))) ∧
    (s.dev.rotPhase = rotCal ∨ s.dev.rotPhase = rotSelf →
      (∀ counts : List Nat, s.dev.tdcs.checked = false → s.dev.calPast 135220000 = true → exec (.calTableCheck counts) s = .next (s.withDev (s.dev.tableDone counts))) ∧
      (∀ bins : List (Fin 1024), s.dev.tdcs.checked = true → bins.length = (if s.dev.tdcs.passed then 4096 else 0) → s.dev.calPast 139320000 = true →
        exec (.precisionTest bins) s = .next (s.withDev (s.dev.precisionDone bins)))) ∧
    (∀ (n : Fin 16) (u : Fin 17), s.dev.rotPhase = rotOut → s.dev.rotCur = u → u.val = n.val → s.dev.overlapOver n 2099980000 = true →
      exec .rotationSwitchBack s = .next (s.withDev (s.dev.rotBack n))) ∧
    (∀ (m : Master) (u : Fin 32), Served s m Pg.tdcCal 0x108 →
      (u.val ≤ 16 → exec (.tdcCalNow m u) s =
        .next (s.withDev ((s.took m Pg.tdcCal 0x108 (calWord u 1)).upTdcs fun e => { e with front := u.val :: e.front.filter (· != u.val) }))) ∧
      (let d := s.took m Pg.tdcCal 0x108 (calWord u 2)
       u.val < 16 → d.rotPerm = u.val → d.rotPhase = rotIdle → exec (.tdcRestore m u) s = .next (s.withDev
        ((((d.put Pg.tdcCal TDCCAL.ROT_STS_CUR u.val).put Pg.tdcCal TDCCAL.ROT_STS_PHASE rotCal).upTdcs fun e => { e with restoring := true, passed := false }).calTake (Fin.ofNat 16 u.val))))) ∧
    (∀ (m : Master) (v : Nat) (u : Fin 17), Served s m Pg.tdcCal 0x114 →
      let d := (s.took m Pg.tdcCal 0x114 v).storeReg Pg.tdcCal 0x114 v;
      let b := d.get Pg.tdcCal TDCCAL.CAL_IDX_BIN;
      u.val = min 16 (d.get Pg.tdcCal TDCCAL.CAL_IDX_UNIT) → exec (.calEntWrite m v) s =
        .next (s.withDev (d.upUnit u fun e => { e with ents := (b, v % 2 ^ 32) :: e.ents.filter fun x => x.1 ≠ b }).tdcWindow)) ∧
    (s.dev.on Pg.tdcCal TDCCAL.MCLK_STS_LOCK = true → exec .mclkUnlock s = .next (s.withDev
      ((((s.dev.setMclk false).count Pg.tdcCal TDCCAL.MCLK_STS_UNLOCKS).raise (Pg.ts 0) 3 causeMclk).raise (Pg.ts 1) 3 causeMclk))) ∧
    (s.dev.on Pg.tdcCal TDCCAL.MCLK_STS_LOCK = false → exec .mclkRelock s = .next (s.withDev
      (((s.dev.setMclk true).lower (Pg.ts 0) 3 causeMclk).lower (Pg.ts 1) 3 causeMclk)))

/-- A served ARM of an enabled generator with a valid configuration latches the sequence, a served STOP and a served write of EVOm_CTL act, an edge that falls due is placed, a driver that may drive is enabled, an edge at an enabled capture input is judged, and a served write of EVIi_CTL stores. -/
def Obligations.PulseAndCaptureCommandsComplete : Prop :=
  ∀ (s : State) (n : Fin 16),
    (∀ m : Master, Served s m Pg.evo (0x104 + 0x40 * n.val) →
      let d := s.took m Pg.evo (0x104 + 0x40 * n.val) 1;
      d.on Pg.evo (EVO.CTL_EN n) = true → d.evoRefuses n = false → exec (.evoArm m n) s = .next (s.withDev (d.evoLatch n))) ∧
    (∀ (m : Master) (off v : Nat), off ≠ 0x100 + 0x40 * n.val → Served s m Pg.evo (0x104 + 0x40 * n.val) →
      exec (.evoStop m n off v) s = .next (s.withDev ((s.took m Pg.evo (0x104 + 0x40 * n.val) 2).evoStop n))) ∧
    (∀ (m : Master) (off v : Nat), off = 0x100 + 0x40 * n.val → Served s m Pg.evo off →
      let d := (s.took m Pg.evo off v).storeReg Pg.evo off v;
      (bit v 31 = false → exec (.evoStop m n off v) s = .next (s.withDev (((d.evoStop n).evoShow n).evoDriver n))) ∧
      (bit v 31 = true → exec (.evoStop m n off v) s = .next (s.withDev ((d.evoShow n).evoDriver n)))) ∧
    (s.dev.evoDue n = true → exec (.evoEdge n) s = .next (s.withDev (s.dev.evoAdvance n))) ∧
    (s.dev.evoMay n = true → s.dev.evo[n].pulse = none → exec (.evoDriverEnable n) s = .next (s.withDev (s.dev.put Pg.evo (EVO.STS_DRIVEN n) 1))) ∧
    (∀ (falling : Bool) (ps : Nat), s.dev.eviCtl n (EVI.CTL_EN n) ≠ 0 → s.dev.domainOn Pg.evi = true →
      exec (.eviEdge n falling ps) s = .next (s.withDev (s.dev.eviSee n falling ps))) ∧
    (∀ (m : Master) (v : Nat), Served s m Pg.evi (0x100 + 0x10 * n.val) →
      let d := (s.took m Pg.evi (0x100 + 0x10 * n.val) v).eviSet n v;
      exec (.eviCtlWrite m n v false) s = .next (s.withDev d) ∧
      exec (.eviCtlWrite m n v true) s = .next (s.withDev (d.count Pg.evi (EVI.REJ_COUNT n))))

/-- Served writes of the port and cluster registers, the events of the link in the states that take them, the verify handshake, low-power idle and the received remote fault answer the next state that the rules give. -/
def Obligations.PortLinkCommandsComplete : Prop :=
  ∀ (s : State) (p : Fin 24),
    (∀ (m : Master) (v : Nat), Served s m (ppg p) 0x100 →
      let d := (s.took m (ppg p) 0x100 v).storeReg (ppg p) 0x100 v;
      exec (.portEnable m p v) s = .next (s.withDev (d.portCtlSet p (s.dev.reg (ppg p) 0x100))) ∧
      (d.on (ppg p) PORT.CTL_EN = false → exec (.portDisable m p v) s = .next (s.withDev (d.portStop p)))) ∧
    (∀ (m : Master) (off v : Nat), Served s m (ppg p) off → exec (.portConfigWrite m p off v) s =
      .next (s.withDev (((s.took m (ppg p) off v).storeReg (ppg p) off v).portCfgSet p off (s.dev.reg (ppg p) 0x100)))) ∧
    (s.dev.portState p = portWait → exec (.lanePllLocked p) s = .next (s.withDev ((s.dev.upPort p fun e => { e with pll := true }).portTry p))) ∧
    (∀ (abil : Nat) (rs br : Bool), s.dev.portState p = portAn → exec (.anComplete p abil rs br) s = .next (s.withDev (s.dev.anResolve p abil rs br))) ∧
    (s.dev.portState p = portTrain →
      exec (.trainComplete p) s = .next (s.withDev (s.dev.portEnter p portAlign)) ∧
      exec (.trainTimeout p) s = .next (s.withDev ((s.dev.portCause p pcTrain).portRestart p))) ∧
    (s.dev.portState p = portAlign →
      exec (.alignTimeout p) s = .next (s.withDev ((s.dev.portCause p pcBlock).portRestart p)) ∧
      (s.dev.pts[p].slot = none → s.dev.pts[p].due = false →
        exec (.alignUp p) s = .next (s.withDev ((s.dev.portEnter p portUp).portRecord p portAlign)))) ∧
    (s.dev.pts[p].slot = none → (s.dev.portState p = portUp ∨ s.dev.portState p = portRfault) →
      ∀ c : Fin 3, exec (.linkLoss p c) s = .next (s.withDev (s.dev.linkDown p (s.dev.portState p) c))) ∧
    (s.dev.portUpQ p = true → s.dev.pts[p].slot = none → exec (.remoteFault p) s = .next (s.withDev (s.dev.portEnter p portRfault))) ∧
    (s.dev.portState p = portRfault → exec (.remoteFaultClear p) s = .next (s.withDev ((s.dev.portEnter p portUp).portRecord p portRfault))) ∧
    (∀ m : Master, Served s m (ppg p) 0x10C →
      (let d := s.took m (ppg p) 0x10C 1
       d.portRuns p = true → d.on (ppg p) PORT.CTL_AN_EN = true → exec (.restartAn m p) s = .next (s.withDev (d.portAgain p pcOperator))) ∧
      (let d := s.took m (ppg p) 0x10C 2
       d.portRuns p = true → exec (.restartLink m p) s = .next (s.withDev (d.portAgain p pcOperator))) ∧
      exec (.statClr m p) s = .next (s.withDev ((s.took m (ppg p) 0x10C 3).statZero p)) ∧
      exec (.preVerify m p) s = .next (s.withDev ((s.took m (ppg p) 0x10C 4).startVerify p))) ∧
    (∀ (m : Master) (c : Fin 6), Served s m (Pg.pc c) 0x100 →
      let d := s.took m (Pg.pc c) 0x100 1;
        (d.within (Pg.pc c) = none → exec (.clusterReset m c) s = .next (s.withDev (d.clusterAgain c))) ∧
        (∀ r, d.within (Pg.pc c) = some r → exec (.clusterReset m c) s = .next (s.withDev (d.absorb r)))) ∧
    (s.dev.verifying p = true →
      (3 ≤ s.dev.port[p].tries → exec (.verifySend p) s = .next (s.withDev (s.dev.setVerify p 4))) ∧
      (s.dev.port[p].tries < 3 →
        let d := ((s.dev.setVerify p 2).emit (.message "verify mPacket" [p])).upPort p fun e => { e with tries := e.tries + 1 };
        exec (.verifySend p) s = .next (s.withDev (d.timerTime 0 (clampN 1 128 (d.get (ppg p) PORT.PRE_CTL_VERIFY_TIME) * milli) (.verifySend p))))) ∧
    (s.dev.lpiMay p = true → exec (.lpiEntry p) s = .next (s.withDev ((s.dev.put (ppg p) PORT.LPI_STS_TX_LPI 1).stat p 60))) ∧
    (s.dev.on (ppg p) PORT.LPI_STS_TX_LPI = true →
      let t := s.dev.now + max s.dev.port[p].lpiTw (phyWake (s.dev.portRate p) (s.dev.portFec p));
      exec (.lpiWake p) s = .next (s.withDev (((s.dev.lpiExit p).upPort p fun e => { e with wake := some t }).txAt p t))) ∧
    (∀ (m : Master) (v : Nat), Served s m (ppg p) 0x120 →
      let d := (s.took m (ppg p) 0x120 v).storeReg (ppg p) 0x120 v;
      d.on (ppg p) PORT.LPI_STS_TX_LPI = true → d.on (ppg p) PORT.LPI_CTL_EN = s.dev.on (ppg p) PORT.LPI_CTL_EN →
      exec (.lpiCtlWrite m p v) s = .next (s.withDev d)) ∧
    (s.dev.on (ppg p) PORT.LPI_STS_RX_LPI = true →
      let d := s.dev.put (ppg p) PORT.LPI_STS_RX_LPI 0;
        exec (.lpiRxEntry p false) s = .next (s.withDev (if d.on (ppg p) PORT.LPI_STS_TX_LPI then d else (d.lpiLoad p).lpiArm p))) ∧
    (s.dev.portUpQ p = true → s.dev.port[p].lpiEn = true → s.dev.portRate p < 3 → s.dev.on (ppg p) PORT.LPI_STS_RX_LPI = false →
      exec (.lpiRxEntry p true) s = .next (s.withDev ((s.dev.put (ppg p) PORT.LPI_STS_RX_LPI 1).stat p 61)))

/-- A frame received and the transmitter's turn on a port that is UP, the end of a pause, a host frame written to its ring or taken from it, served writes of the ring and PTS registers, and the probe and calibration slots answer the next state that the rules give. -/
def Obligations.PortTrafficCommandsComplete : Prop :=
  ∀ (s : State) (p : Fin 24),
    (s.dev.portUpQ p = true → ∀ f : RxFrame, exec (.frameRx p f) s = .next (s.withDev (s.dev.rxFrame p f))) ∧
    (let d := s.dev.launched p;
      (d.portUpQ p = true → exec (.frameTx p) s = .next (s.withDev (d.txTurn p))) ∧ (d.portUpQ p = false → exec (.frameTx p) s = .next (s.withDev (d.txEnd p)))) ∧
    (∀ t : Nat, s.dev.port[p].paused = some t → t ≤ s.dev.now →
      exec (.pauseExpiry p) s = .next (s.withDev ((s.dev.upPort p fun e => { e with paused := none }).timer 0 (.frameTx p)))) ∧
    (∀ (sTci cTci : Option Nat) (data : List Nat) (mec : Nat), s.dev.on Pg.hif HIF.STS_LINK_UP = true →
      exec (.hostRxWrite p sTci cTci data mec) s = .next (s.withDev (s.dev.hostRxPut p sTci cTci data mec))) ∧
    (∀ (m : Master) (v : Nat), Served s m (ppg p) 0x1A4 →
      exec (.htxWpWrite m p v) s = .next (s.withDev ((s.took m (ppg p) 0x1A4 v).storeReg (ppg p) 0x1A4 v))) ∧
    (∀ data : List Nat, s.dev.htxEmpty p = false → s.dev.get (ppg p) PORT.HOST_RATE_RATE ≠ 0 →
      (data.length < 14 → ∀ tag, exec (.hostTxFrame p tag data) s = .next (s.withDev ((s.dev.stat p 59).htxDone p))) ∧
      (14 ≤ data.length → s.dev.portUpQ p = true → exec (.hostTxFrame p false data) s = .next (s.withDev (s.dev.txPush p
        { kind := .host, level := 3, cls := 9, len := data.length + 4, released := s.dev.now, dst := unoct (data.take 6).reverse,
          mcast := (data.headD 0 % 2 == 1), sTci := none, cTci := none, fields := data })))) ∧
    (∀ (m : Master) (off v : Nat), s.dev.gate m (ppg p) off = .served → s.dev.get (ppg p) PORT.HOST_RATE_RATE = 0 →
      exec (.ringConfigWrite m p off v) s = .next (s.withDev ((s.took m (ppg p) off v).storeReg (ppg p) off v))) ∧
    (∀ (t : Fin 25) (eps : Int),
      (s.dev.dwelt t.val = true → exec (.probeDwell t eps) s = .next (s.withDev (s.dev.probeDone t eps))) ∧
      (s.dev.dwelt t.val = false → exec (.probeDwell t eps) s = .next s)) ∧
    (s.dev.probeOld p = true → s.dev.pts[p].probeAt.isSome = true → exec (.probeStale p) s = .next (s.withDev ((s.dev.ptsBound p).int (tpg p) 3))) ∧
    (s.dev.pts[p].slot = none → s.dev.pts[p].due = true ∨ (s.dev.portUpQ p = true ∧ s.dev.slotDue p = true) →
      (s.dev.slotRuns = false → s.dev.tdcs.slotFree ≤ s.dev.stepFree 0 → exec (.calSlotStart p.castSucc) s = .next (s.withDev (s.dev.slotBegin p))) ∧
      (s.dev.slotRuns = true → exec (.calSlotStart p.castSucc) s = .next (s.withDev (s.dev.upPts p fun e => { e with due := true })))) ∧
    (∀ (align : Bool) (a b : Nat), s.dev.pts[p].slot = some (align, a, b) →
      (∀ x : LoopMeas, b ≤ s.dev.now + slotTail (s.dev.portRate p) →
        exec (.calSlotEnd p.castSucc (some x)) s = .next (s.withDev (s.dev.upPts p fun e => { e with meas := some x }))) ∧
      (b ≤ s.dev.now → exec (.calSlotEnd p.castSucc none) s = .next (s.withDev (s.dev.slotFinish p align)))) ∧
    (s.dev.plk.slot = none → s.dev.plk.due = true → s.dev.slotRuns = false → s.dev.tdcs.slotFree ≤ s.dev.stepFree 0 →
      ∃ t, exec (.calSlotStart 24) s = .next t ∧ t.dev.plk.slot = some (s.dev.now, s.dev.now + slotTicks 2) ∧ t.dev.plk.due = false) ∧
    (∀ a b : Nat, s.dev.plk.slot = some (a, b) → b ≤ s.dev.now → exec (.calSlotEnd 24 none) s = .next (s.withDev s.dev.laneSlotFinish)) ∧
    (∀ m : Master, Served s m (tpg p) 0x108 →
      (let d := s.took m (tpg p) 0x108 1
       d.pts[p].slot = none → d.pts[p].due = false →
         exec (.ptsCalNow m p) s = .next (s.withDev (d.upPts p fun e => { e with called := true }))) ∧
      exec (.qFlush m p) s = .next (s.withDev (((s.took m (tpg p) 0x108 2).upPts p fun e => { e with queue := [] }).ptsShow p))) ∧
    (∀ (m : Master) (v : Nat), Served s m (tpg p) 0x324 → bit v 0 = true →
      exec (.ptsPop m p v) s = .next (s.withDev (((s.took m (tpg p) 0x324 v).upPts p fun e => { e with queue := e.queue.drop 1 }).ptsShow p))) ∧
    (∀ (m : Master) (off v : Nat), Served s m (tpg p) off →
      exec (.ptsDelayWrite m p off v) s = .next (s.withDev ((s.took m (tpg p) off v).storeReg (tpg p) off v)))

/-- The requests are handed to their admission, an epoch's capacity is shared, the timing wheel serves its next slot while it is granted, ESMC PDUs are sent, a second ends, a unit held for 1 s is counted, and served writes of RSP_CTL, RSP_CMD and RSP_DOMd_CTL answer the next state that the rules give. -/
def Obligations.ResponderCommandsComplete : Prop :=
  ∀ s : State,
    (∀ (p : Fin 24) (x : DreqIn), exec (.delayReqRx p x) s = .next (s.withStore (delayReq (s.store, s.dev) p x))) ∧
    (∀ (p : Fin 24) (x : NtpIn), exec (.ntpRequestRx p x) s = .next (s.withDev (s.dev.ntpRequest p x))) ∧
    (∀ (p : Fin 24) (x : NtpIn), exec (.ntsRequestRx p x) s = .next (s.withDev (s.dev.ntsRequest p x))) ∧
    (∀ (p : Fin 24) (x : SigIn), exec (.signalingRx p x) s = .next (s.withStore (signaling (s.store, s.dev) p x))) ∧
    exec .admissionEpoch s = .next (s.withDev s.dev.epochShare) ∧
    (s.dev.granted kindSignal 0 = true → s.dev.nextSlot ≤ s.dev.wheelNow → exec .wheelSlot s = .next (s.withStore (wheelServe s.dev.nextSlot (s.store, s.dev)))) ∧
    (∀ p : Fin 24, s.dev.esmcOn p = true → exec (.esmcInfoPdu p) s = .next (s.withDev (s.dev.esmcSend p))) ∧
    exec .overloadSecond s = .next (s.withDev s.dev.secondEnds) ∧
    (∀ kind inst : Nat, s.dev.heldLong kind inst = true → s.dev.unitCounted kind inst = false → exec (.capacityCount kind inst) s =
      .next (s.withDev ((s.dev.upRsp fun e => { e with counted := e.counted ++ [(kind, inst)] }).capShow).reservedShow)) ∧
    (∀ (m : Master) (v : Nat), Served s m (Pg.rsp 0) 0x100 →
      let d := s.took m (Pg.rsp 0) 0x100 v;
      (bit v 31 = true → d.get (Pg.rsp 0) RSP0.CLOCK_ID_ID = 0 → exec (.rspEnWrite m v) s = .next (s.withDev (d.fault (Pg.rsp 0) 1 causeClockId))) ∧
      (bit v 31 = false ∨ d.get (Pg.rsp 0) RSP0.CLOCK_ID_ID ≠ 0 → exec (.rspEnWrite m v) s = .next (s.withDev (d.storeReg (Pg.rsp 0) 0x100 v).readyShow))) ∧
    (∀ m : Master, Served s m (Pg.rsp 0) 0x114 → exec (.cntClr m) s = .next (s.withDev (s.took m (Pg.rsp 0) 0x114 1).cntZero)) ∧
    (∀ (m : Master) (k : Fin 8) (v off : Nat), off = 0x100 + 0x40 * k.val → Served s m (Pg.rsp 2) off →
      let d := ((s.took m (Pg.rsp 2) off v).storeReg (Pg.rsp 2) off v).domCheck;
      (d.domFields k.val = s.dev.domFields k.val → exec (.domCtlWrite m k v) s = .next (s.withStore (domRecount (d.domFlags k.val != s.dev.domFlags k.val) (s.store, d)))) ∧
      (d.domFields k.val ≠ s.dev.domFields k.val → exec (.domCtlWrite m k v) s = .next (s.withStore (domRecount (d.domFlags k.val != s.dev.domFlags k.val) (domDrop (s.store, d) k.val)))))

/-- A host write through each window of BAR2 by a master that may write it while the store is ON, LOOKUP, SCRUB_NOW, the end of a pass, entry into Brine, its end and the hash seed answer the next state that the rules give. -/
def Obligations.ClientStoreCommandsComplete : Prop :=
  ∀ s : State,
    (∀ (m : Master) (addr : Nat) (wide : Bool) (v : Nat), mayStore m = true → addr < 2 ^ 26 → s.dev.cstOn = true →
      exec (.cstWrite m addr wide v) s = .next (s.withStore (cstPut (s.store, s.dev) m .base addr wide v)) ∧
      exec (.cstSetWrite m addr wide v) s = .next (s.withStore (cstPut (s.store, s.dev) m .set addr wide v)) ∧
      exec (.cstClearWrite m addr wide v) s = .next (s.withStore (cstPut (s.store, s.dev) m .clear addr wide v))) ∧
    (∀ m : Master, Served s m Pg.cst 0x108 →
      exec (.lookup m) s = .next (s.withDev ((s.took m Pg.cst 0x108 1).lookupShow s.store)) ∧
      (let d := s.took m Pg.cst 0x108 2
       d.cstOn = true → exec (.scrubNow m) s = .next (s.withDev (d.timerTime 0 104858 (.scrubPass []))))) ∧
    (∀ errs : List (Nat × Bool), s.dev.cstOn = true → exec (.scrubPass errs) s = .next (s.withDev (s.dev.scrubEnd s.store errs))) ∧
    (∀ (m : Master) (v : Nat), Served s m Pg.cst 0x100 →
      let d := (s.took m Pg.cst 0x100 v).storeReg Pg.cst 0x100 v;
      (d.on Pg.cst CST.CTL_BRINE = true → d.cstOn = true → d.brineRefused = false →
        exec (.brineEnter m v) s = .next (s.withDev (d.put Pg.cst CST.STS_BRINE_REFUSED 0).brineIn)) ∧
      (m ≠ .collector → d.on Pg.cst CST.CTL_BRINE = false → d.get Pg.cst CST.STS_PWR = 3 → d.granted kindStore 0 = true →
        exec (.brineExit m v) s = .next (s.withStore (s.store, d.timerTime 0 (20 * micro) (.brineExit .collector 0))))) ∧
    (s.dev.inCave = false → (s.dev.on Pg.cst CST.CTL_BRINE = false ∨ s.dev.get Pg.cst CST.STS_PWR ≠ 3) → ∀ v : Nat,
      exec (.brineExit .collector v) s = .next (s.withStore (brineOut (s.store, s.dev)))) ∧
    (∀ (m : Master) (v : Nat), s.dev.gate m Pg.cst 0x140 = .served → s.dev.get Pg.cst CST.STS_USED = 0 →
      exec (.hashSeedWrite m v) s = .next (s.withDev ((s.took m Pg.cst 0x140 v).storeReg Pg.cst 0x140 v)))

/-- The lane's test, its fence and its operations, the six key commands once nothing refuses them (UNWRAP also where its tag, which the cryptography decides, refuses it: then one more missed mirror is counted), their commit, and served writes of KEY_NTS_CUR, ATTEST and SUBMIT by the masters that may make them answer the next state that the rules give. -/
def Obligations.LaneAndKeyCommandsComplete : Prop :=
  ∀ s : State,
    (∀ n : Fin 16,
      let d := s.dev.cancel (.katDone n true);
      s.dev.laneState n = laneLoad → s.dev.lane[n].draining = false →
        (s.dev.on (Pg.cl n) CL.CTL_FENCE = false → exec (.katDone n true) s = .next (s.withDev (d.laneEnter n laneRun))) ∧
        (s.dev.on (Pg.cl n) CL.CTL_FENCE = true → exec (.katDone n true) s = .next (s.withDev (d.upLane n fun e => { e with passed := true }))) ∧
        exec (.katDone n false) s = .next (s.withDev ((d.laneEnter n laneFault).raise (Pg.cl n) 2 1))) ∧
    (∀ (m : Master) (n : Fin 16) (v : Nat), Served s m (Pg.cl n) 0x100 →
      let d := (s.took m (Pg.cl n) 0x100 v).storeReg (Pg.cl n) 0x100 v;
      (d.on (Pg.cl n) CL.CTL_FENCE = true → d.laneState n = laneRun → exec (.fenceWrite m n v) s = .next (s.withDev ((d.laneEnter n laneFenced).redispatch n))) ∧
      (d.on (Pg.cl n) CL.CTL_FENCE = false → d.laneState n = laneLoad → d.lane[n].passed = true → exec (.fenceWrite m n v) s = .next (s.withDev (d.laneEnter n laneRun)))) ∧
    (∀ (m : Master) (n : Fin 16), Served s m (Pg.cl n) 0x104 →
      (let d := s.took m (Pg.cl n) 0x104 1
       d.laneState n = laneRun → exec (.katNow m n) s = .next (s.withDev (d.laneWake n))) ∧
      (let d := s.took m (Pg.cl n) 0x104 2
       d.on (Pg.cl n) CL.CTL_FENCE = false → (d.laneState n = laneFenced ∨ d.laneState n = laneFault) → exec (.unfence m n) s = .next (s.withDev (d.laneWake n)))) ∧
    (∀ (n : Fin 16) (o : LaneOp) (q : List LaneOp), s.dev.lane[n].queue = o :: q →
      exec (.cryptoOp n true) s = .next (s.withStore (laneDone (s.store, s.dev.cancel (.cryptoOp n true)) n o q)) ∧
      exec (.cryptoOp n false) s = .next (s.withStore (s.store, (s.dev.cancel (.cryptoOp n true)).laneBad n o q))) ∧
    (∀ (m : Master) (slot : Fin 256), s.dev.gate m (Pg.key 0) 0x100 = .served →
      (m = .pf0 →
        (let d := s.took m (Pg.key 0) 0x100 (slot.val * 65536 + 1)
         d.keyRefusal (d.importOf slot).1 = 0 → exec (.importKey m slot) s = .next (s.withDev (d.keyBegin 1 slot (d.importOf slot).2))) ∧
        (let d := s.took m (Pg.key 0) 0x100 (slot.val * 65536 + 2)
         d.keyRefusal (d.deriveOf slot).1 = 0 → exec (.deriveKey m slot) s = .next (s.withDev (d.keyBegin 2 slot (d.deriveOf slot).2))) ∧
        (let d := s.took m (Pg.key 0) 0x100 6
         d.keyRefusal 0 = 0 → exec (.keyAbort m) s = .next (s.withDev (d.keyBegin 6 0 {}).keyCleared))) ∧
      (mayInvalidate m = true →
        (let d := s.took m (Pg.key 0) 0x100 (slot.val * 65536 + 3)
         d.keyRefusal 0 = 0 → d.keyState slot = keyActive → exec (.retireKey m slot) s = .next (s.withDev ((d.keyBegin 3 slot (d.imageIn slot keyStale)).blockKeys slot))) ∧
        (let d := s.took m (Pg.key 0) 0x100 (slot.val * 65536 + 4)
         d.keyRefusal 0 = 0 → (d.keyState slot = keyActive ∨ d.keyState slot = keyStale) →
          exec (.destroyKey m slot) s = .next (s.withDev ((d.keyBegin 4 slot (d.imageIn slot keyDestroyed)).blockKeys slot)))) ∧
      (∀ blob : List Nat, m = .kwager →
        let d := s.took m (Pg.key 0) 0x100 (slot.val * 65536 + 5);
        let r := d.keyRefusal (d.unwrapOf m slot blob).1;
        exec (.unwrapKey m slot blob) s = .next (s.withDev (if r ≠ 0 then ((d.keyNamed 5 slot).put (Pg.key 0) KEY0.RES_RESULT r).count Pg.plk (PLK.CNT_COUNT 3) else d.keyBegin 5 slot (d.unwrapOf m slot blob).2)))) ∧
    (∀ r : KeyRun, s.dev.key.run = some r → exec .keyCommit s = .next (s.withDev (s.dev.keyDone r))) ∧
    (∀ v : Nat, s.dev.gate .pf0 (Pg.key 3) 0x108 = .served →
      exec (.keyNtsCurWrite .pf0 v) s = .next (s.withDev ((s.took .pf0 (Pg.key 3) 0x108 v).storeReg (Pg.key 3) 0x108 v).ntsShow)) ∧
    (∀ m : Master, (m = .pf0 ∨ m = .pf1) → s.dev.gate m (Pg.key 3) 0x150 = .served → exec (.attest m) s = .next (s.withDev (s.took m (Pg.key 3) 0x150 1).attested)) ∧
    (s.dev.gate .pf0 (Pg.key 0) 0x340 = .served →
      let d := s.took .pf0 (Pg.key 0) 0x340 1;
      exec (.submitToken .pf0) s = .next (s.withDev (d.tokenTake d.tokenOctets)))

/-- Served writes of a direction's registers and commands, the lock of its oscillator, its start point, its frame boundaries, a slave's frame-start edges and their loss, and the measure of its rate answer the next state that the rules give. -/
def Obligations.AudioCommandsComplete : Prop :=
  ∀ (s : State) (p : Fin 4) (rx : Bool),
    (∀ (m : Master) (v w : Nat), Served s m (Pg.aud p) (audCtlOff rx) →
      (w = v % 2 ^ 31 + 2 ^ 31 → exec (.audEnable m p rx v) s = .next (s.withDev ((s.took m (Pg.aud p) (audCtlOff rx) w).audConfig p rx (audCtlOff rx) w))) ∧
      (w = v % 2 ^ 31 → exec (.audDisable m p rx v) s = .next (s.withDev ((s.took m (Pg.aud p) (audCtlOff rx) w).audConfig p rx (audCtlOff rx) w)))) ∧
    (∀ (m : Master) (off v o : Nat), o = audCtlOff rx + (if off % 256 = 4 then 4 else if off % 256 = 0x20 then 0x20 else 0) → Served s m (Pg.aud p) o →
      exec (.audConfigWrite m p rx off v) s = .next (s.withDev ((s.took m (Pg.aud p) o v).audConfig p rx o v))) ∧
    (s.dev.audState p rx = audWait → s.dev.audSlave p rx = false → s.dev.granted kindAudio 0 = true →
      let d := s.dev.upAud p rx fun e => { e with osc := true };
      (d.audQual p = true → exec (.audOscLock p rx) s = .next (s.withDev (d.audPlan p rx))) ∧
      (d.audQual p = false → exec (.audOscLock p rx) s = .next (s.withDev (d.audToFree p rx)))) ∧
    (∀ t, (s.dev.audEng p rx).startAt = some t → s.dev.audState p rx = audWait → t ≤ s.dev.audView p →
      (s.dev.audQual p = true → exec (.audStart p rx) s = .next (s.withDev (s.dev.audGo p rx))) ∧
      (s.dev.audQual p = false → exec (.audStart p rx) s = .next (s.withDev (s.dev.audToFree p rx)))) ∧
    ((s.dev.audState p rx = audRun ∨ s.dev.audState p rx = audFree) → ∀ (recs : List (Nat × List Nat)) (samples : List Nat),
      exec (.audFrameBoundary p rx recs samples) s = .next (s.withDev (s.dev.audFrame p rx recs samples))) ∧
    (∀ (m : Master) (v off : Nat), off = 0x108 + 0x100 * dirOf rx → Served s m (Pg.aud p) off →
      exec (.audMaskWrite m p rx v) s = .next (s.withDev ((s.took m (Pg.aud p) off v).storeReg (Pg.aud p) off v))) ∧
    (s.dev.audSlave p rx = true →
      (s.dev.audState p rx ≠ audOff → exec (.wsEdge p rx) s = .next (s.withDev (s.dev.audEdge p rx))) ∧
      ((s.dev.audState p rx = audWait ∨ s.dev.audState p rx = audRun) →
        let d := (s.dev.upAud p rx fun e => { e with seen := 0, present := false, edge := false, last := none }).audEnter p rx audLost 3;
        exec (.audInputLoss p rx) s = .next (s.withDev (d.audRate p rx (d.aget p rx AUD.RATE_MHZ) true)))) ∧
    (s.dev.audState p rx ≠ audOff → exec (.audRateMeasure p rx) s = .next (s.withDev (s.dev.audMeasure p rx))) ∧
    (∀ (m : Master) (off : Nat), off = 0x10C + 0x100 * dirOf rx → Served s m (Pg.aud p) off →
      (let d := s.took m (Pg.aud p) off 1
       d.audSlave p rx = false → d.audState p rx = audRun → exec (.realign m p rx) s = .next (s.withDev (d.audAgain p rx))) ∧
      exec (.audCntClr m p rx) s = .next (s.withDev
        ((((s.took m (Pg.aud p) off 2).aput p rx AUD.SLIPS_COUNT 0).aput p rx AUD.LATE_COUNT 0).aput p rx AUD.DISC_COUNT 0)))

/-- Served writes of CTL, START, STOP and CLR_FAULT in the states that take them, a pending trigger in IDLE, the expiry of a run's budget, a wait that is judged and an instruction word written while EN = 0 answer the next state that the rules give. -/
def Obligations.SequencerControlCompletes : Prop :=
  ∀ (s : State) (n : Fin 8),
    (∀ (m : Master) (v w : Nat), Served s m (Pg.seq n) 0x100 →
      (w = v % 2 ^ 31 + 2 ^ 31 → exec (.seqEnable m n v) s = .next (s.withDev (((s.took m (Pg.seq n) 0x100 w).storeReg (Pg.seq n) 0x100 w).seqCtl n true))) ∧
      (w = v % 2 ^ 31 → exec (.seqDisable m n v) s = .next (s.withDev (((s.took m (Pg.seq n) 0x100 w).storeReg (Pg.seq n) 0x100 w).seqCtl n false)))) ∧
    (∀ m : Master, Served s m (Pg.seq n) 0x104 →
      (let d := s.took m (Pg.seq n) 0x104 1
       d.seqState n = seqIdle → exec (.seqStart m n) s = .next (s.withDev (d.seqBegin n 4 (d.get (Pg.seq n) SEQ.START_ENTRY)))) ∧
      (let d := s.took m (Pg.seq n) 0x104 2
       (d.seqState n = seqRun → exec (.seqStop m n) s = .next (s.withDev (d.seqToIdle n))) ∧
       (d.seqState n = seqWaiting → exec (.seqStop m n) s = .next (s.withDev ((d.setV n 7 0).seqToIdle n)))) ∧
      (let d := s.took m (Pg.seq n) 0x104 3
       d.seqState n = seqFaulted → exec (.clrFault m n) s = .next (s.withDev (((d.seqLower n).put (Pg.seq n) SEQ.STS_CAUSE 0).seqToIdle n)))) ∧
    (s.dev.seqState n = seqIdle → s.dev.seq[n].frozen = false → s.dev.on (Pg.seq n) (SEQ.TRIG_EN 0) = true →
      s.dev.evPending n (s.dev.get (Pg.seq n) (SEQ.TRIG_EVT 0)) = true → exec (.triggerStart n) s = .next (s.withDev
        ((s.dev.evClear n (s.dev.get (Pg.seq n) (SEQ.TRIG_EVT 0))).seqBegin n 0 (s.dev.get (Pg.seq n) (SEQ.TRIG_ENTRY 0))))) ∧
    (s.dev.seqOverdue n = true → exec (.seqBudgetExpiry n) s = .next (s.withDev (s.dev.seqFault n causeBudget))) ∧
    (∀ w : SeqWait, s.dev.seq[n].wait = some w → s.dev.seqState n = seqWaiting → s.dev.seq[n].frozen = false →
      exec (.seqWaitEnd n) s = .next (s.withDev (s.dev.seqJudge s.store n w))) ∧
    (∀ (m : Master) (i : Fin 512) (v off : Nat), off = 0x800 + 4 * i.val → s.dev.gate m (Pg.seq n) off = .served → (m = .pf0 ∨ m = .loader) →
      s.dev.on (Pg.seq n) SEQ.CTL_EN = false → exec (.seqInstrWrite m n i v) s = .next (s.withDev ((s.took m (Pg.seq n) off v).storeReg (Pg.seq n) off v)))

/-- An instruction of a sequencer in RUN that is not frozen takes up what was fetched and then does what the instruction table gives it, once its addresses are aligned, in range and permitted: a WR posts its write, an RD reads, SETB and CLRB post a masked write, a WAIT waits, an ALU instruction stores its result and the next instruction is fetched. -/
def Obligations.SequencerInstructionsComplete : Prop :=
  ∀ (s : State) (n : Fin 8), s.dev.seqState n = seqRun → s.dev.seq[n].frozen = false →
    let d := s.dev.seqTaken n;
    exec (.seqNop n) s = .next (s.withDev (d.seqNext n 1 2)) ∧
    (∀ (sp src : Bool) (va : Fin 8) (w : Fin 64) (addr : Nat), seqAddrOk sp addr = true → d.seqMayWrite n sp addr = true →
      exec (.seqWr n sp src va w addr) s = .next (s.withDev ((d.seqPost n sp addr (if src then d.dataWord n w else d.v n va)).seqNext n 2 4))) ∧
    (∀ (va vb : Fin 8) (w : Fin 64),
      exec (.seqRd n 0 va w vb) s = .next (s.withDev ((d.setV n va (d.dataWord n w)).seqNext n 1 2)) ∧
      (∀ mode : Fin 4, mode ≠ 0 →
        let a := if mode = 3 then d.v n vb else d.dataWord n w;
        let r := d.seqRead s.store n (mode == 2) a;
        seqAddrOk (mode == 2) a = true → d.seqMayRead n (mode == 2) = true →
        exec (.seqRd n mode va w vb) s = .next (s.withDev ((r.2.setV n va r.1).seqNext n 1 32)))) ∧
    (∀ (sp : Bool) (b : Fin 32) (w : Fin 64),
      exec (.seqSetb n sp b w) s = .next (s.withDev (d.seqBit n sp b w true)) ∧
      exec (.seqClrb n sp b w) s = .next (s.withDev (d.seqBit n sp b w false))) ∧
    (∀ (sp : Bool) (b : Fin 32) (val : Bool) (w : Fin 64) (unit : Fin 4) (tmo : Nat), seqAddrOk sp (d.dataWord n w) = true → d.seqMayRead n sp = true →
      exec (.seqWaitb n sp b val w unit tmo) s = .next (s.withDev (d.seqWait s.store n (.bit sp b (d.dataWord n w) val) (seqTimeout unit tmo)))) ∧
    (∀ (ts : Ts) (w : Fin 64),
      exec (.seqWaitt n true ts w) s = .next (s.withDev (d.seqWait s.store n (.mec (d.now + d.dataWord n w)) none)) ∧
      (w.val ≤ 61 → exec (.seqWaitt n false ts w) s = .next (s.withDev (d.seqWait s.store n
        (.time ts (untime96 (d.dataWord n w + d.dataWord n (w + 1) * 2 ^ 32 + d.dataWord n (w + 2) * 2 ^ 64))) none)))) ∧
    (∀ (e : Fin 128) (unit : Fin 4) (tmo : Nat),
      exec (.seqWaite n e true unit tmo) s = .next (s.withDev (d.seqWait s.store n (.event e) (seqTimeout unit tmo))) ∧
      exec (.seqWaite n e false unit tmo) s = .next (s.withDev ((d.evClear n e).seqWait s.store n (.event e) (seqTimeout unit tmo)))) ∧
    (∀ (va : Fin 8) (t : Fin 512),
      exec (.seqJmp n t) s = .next (s.withDev (d.seqFetch n t 2)) ∧
      exec (.seqJz n va t) s = .next (s.withDev (if d.v n va = 0 then d.seqFetch n t 2 else d.seqNext n 1 2)) ∧
      exec (.seqJnz n va t) s = .next (s.withDev (if d.v n va = 0 then d.seqNext n 1 2 else d.seqFetch n t 2)) ∧
      (let x := (d.v n va + 2 ^ 32 - 1) % 2 ^ 32
       exec (.seqDjnz n va t) s = .next (s.withDev (if x = 0 then (d.setV n va x).seqNext n 1 2 else (d.setV n va x).seqFetch n t 2)))) ∧
    (∀ (va vb : Fin 8) (imm : Bool) (k : Nat),
      let y := if imm then k % 2 ^ 16 else d.v n vb;
      exec (.seqAdd n va imm vb k) s = .next (s.withDev ((d.setV n va (d.v n va + y)).seqNext n 1 2)) ∧
      exec (.seqSub n va imm vb k) s = .next (s.withDev ((d.setV n va (d.v n va + 2 ^ 32 - y)).seqNext n 1 2)) ∧
      exec (.seqAnd n va imm vb k) s = .next (s.withDev ((d.setV n va (d.v n va &&& y)).seqNext n 1 2)) ∧
      exec (.seqOr n va imm vb k) s = .next (s.withDev ((d.setV n va (d.v n va ||| y)).seqNext n 1 2))) ∧
    (∀ tag : Nat, exec (.seqRec n tag) s = .next (s.withDev ((d.record 0x81 (srcMaster (.seq n)) (oct 4 (tag % 2 ^ 16 + d.seqPc n * 2 ^ 16) ++
      [d.v n 0, d.v n 1, d.v n 2, d.v n 3, d.v n 4, d.v n 5, d.v n 6].flatMap fun x => oct 4 x)).seqNext n 1 2))) ∧
    (∀ l : Fin 16, exec (.seqSnap n l) s = .next (s.withDev ((d.askSnap ⟨l, 0, srcMaster (.seq n)⟩).seqNext n 1 2))) ∧
    (∀ x : Fin 16,
      exec (.seqRaise n false x) s = .next (s.withDev (((d.event (96 + x)).int (Pg.seq n) 3).seqNext n 1 2)) ∧
      (x.val < 4 → exec (.seqRaise n true x) s = .next (s.withDev ((d.fault (Pg.seq n) x causeForce).seqNext n 1 2))) ∧
      (4 < x.val → exec (.seqRaise n true x) s = .next (s.withDev (d.seqFault n causeOperand)))) ∧
    exec (.seqHalt n) s = .next (s.withDev ((d.int (Pg.seq n) 1).seqToIdle n)) ∧
    (∀ t : Fin 512,
      let k := d.get (Pg.seq n) SEQ.STS_DEPTH;
      k < 4 → exec (.seqCall n t) s = .next (s.withDev (((d.put (Pg.seq n) SEQ.STACK_RET (d.seqPushed n)).put (Pg.seq n) SEQ.STS_DEPTH (k + 1)).seqFetch n t 2))) ∧
    (let k := d.get (Pg.seq n) SEQ.STS_DEPTH
     0 < k → exec (.seqRet n) s = .next (s.withDev ((d.put (Pg.seq n) SEQ.STS_DEPTH (k - 1)).seqFetch n ((d.get (Pg.seq n) SEQ.STACK_RET >>> (9 * (k - 1))) % 512) 2))) ∧
    exec (.seqIllegal n true) s = .next (s.withDev (d.seqFault n causeParity)) ∧
    exec (.seqIllegal n false) s = .next (s.withDev (d.seqFault n causeOpcode))

/-- Served writes of FLUSH, CLEAR, SNAP and REC_CURSOR, the end of a flush and the end of a snapshot's reads answer the next state that the rules give; a CLEAR of a master other than PF0 is counted and answered 3. -/
def Obligations.RecorderCommandsComplete : Prop :=
  ∀ s : State,
    (∀ m : Master, Served s m Pg.rec 0x10C →
      exec (.recFlush m) s = .next (s.withDev (s.took m Pg.rec 0x10C 1).flush) ∧
      (m = .pf0 → exec (.recClear m) s = .next (s.withDev (s.took m Pg.rec 0x10C 2).clearAsk)) ∧
      (m ≠ .pf0 → exec (.recClear m) s = .next (s.withDev ((((s.took m Pg.rec 0x10C 2).count Pg.rec REC.CLR_RES_DISC).put Pg.rec REC.CLR_RES_RESULT 3).int Pg.rec 2))) ∧
      (∀ l : Fin 16, exec (.recSnap m l) s = .next (s.withDev ((s.took m Pg.rec 0x10C (3 + 4 * l.val)).askSnap ⟨l, 2, srcMaster m⟩)))) ∧
    (∀ n : Nat, s.dev.rcd.flushing = some n → exec .flushComplete s = .next (s.withDev (s.dev.flushDone n))) ∧
    (∀ r : SnapRun, s.dev.rcd.snapRun = some r → r.left = [] → exec .snapshotComplete s = .next (s.withDev (s.dev.snapGroup r))) ∧
    (∀ (m : Master) (v : Nat), Served s m Pg.rec 0x160 →
      let d := (s.took m Pg.rec 0x160 v).storeReg Pg.rec 0x160 v;
      exec (.recCursorWrite m v) s = .next (s.withDev { d with rcd := { d.rcd with shown := none } }))

/-- PF0's commands of LDR_CMD while power stands, by the lock owner and in the phases that take them, the end of a load and of each copy, the self-confirmation, the timeouts, the kick and the partner's push answer the next state that the rules give; an activated image and a restored one end in a package reset. -/
def Obligations.LoaderCommandsComplete : Prop :=
  ∀ s : State,
    (Served s .pf0 Pg.ldr 0x104 → ∀ (op : Nat) (d : Dev), d = s.took .pf0 Pg.ldr 0x104 op → d.powerFails = false →
      (∀ c : Container, op = 1 → exec (.openSession .pf0 c) s = .next (s.withDev (d.openFor .pf0 c))) ∧
      (op = 2 → ∀ c : Container, d.session .pf0 = some c → exec (.verifyHdr .pf0) s = .next (s.withDev (d.headVerify .pf0 c))) ∧
      (op = 8 → d.ldr.jnl.owner = noOwner → exec (.calCommit .pf0) s =
        .next (s.withDev (((d.ldrPhase phCal (masterId .pf0)).upLdr fun e => { e with slot := some d.calCollect }).copyStart (256 + d.calCollect.body.length)))) ∧
      (op = 9 → d.ldr.jnl.owner = noOwner → d.ldr.jnl.phase = phIdle → exec (.restoreImage .pf0) s = .next (s.withDev
        (if d.retUsable = true then (d.ldrPhase phRestoring (masterId .pf0)).copyStart ((d.ldr.flash.ret.map Container.size).getD 0) else d.ldrResult lrRollback))) ∧
      (d.ldr.jnl.owner = masterId .pf0 →
        (op = 6 → d.ldr.jnl.phase = phTrial → exec (.confirm .pf0) s = .next (s.withDev d.confirmNow)) ∧
        (op = 7 → d.ldr.jnl.phase ∈ [phOpen, phLoading, phLoaded, phVerified] → exec (.ldrAbort .pf0) s = .next (s.withDev
          (((d.upFlash fun f => { f with staging := none }).upLdr fun e => { e with sess := e.sess.filter fun x => x.1 ≠ masterId .pf0 }).ldrIdle.ldrResult lrDone))) ∧
        (∀ c : Container, d.ownerBody = some c →
          (op = 3 → d.ldr.jnl.phase = phOpen → exec (.loadBody .pf0) s = .next (s.withDev (d.bodyLoad c))) ∧
          (op = 4 → d.ldr.jnl.phase = phLoaded → exec (.verifyBody .pf0) s = .next (s.withDev
            (if d.bodyCheck c = 0 then ((d.ldrPhase phVerified d.ldr.jnl.owner).ldrResult lrDone).progress else (d.ldrResult (d.bodyCheck c)).progress))) ∧
          (op = 5 → d.ldr.jnl.phase = phVerified → exec (.activate .pf0) s = .next (s.withDev (d.copyBegin c)))))) ∧
    (s.dev.powerFails = false → s.dev.ldr.jnl.phase = phLoading → exec .loadComplete s = .next (s.withDev s.dev.bodyHere)) ∧
    (∀ d : Dev, d = s.dev.cancel .copyDone → d.powerFails = false →
      (d.ldr.jnl.phase = phCopyRet → exec .copyDone s = .next (s.withReset (s.store,
        ((d.upFlash fun f => { f with ret := f.running, running := none }).ldrPhase phOverwrite d.ldr.jnl.owner).copyStart ((d.ldr.flash.staging.map Container.size).getD 0)))) ∧
      (d.ldr.jnl.phase = phOverwrite → exec .copyDone s = .next (s.afterReset (packageBegin (s.store,
        ((d.upFlash fun f => { f with running := f.staging }).upJnl fun j => { j with trial := 0, expired := false, done := 0 }).ldrPhase phTrial d.ldr.jnl.owner)))) ∧
      (d.ldr.jnl.phase = phRestoring → exec .copyDone s = .next (s.afterReset (packageBegin (s.store,
        ((d.upFlash fun f => { f with running := f.ret, staging := none }).upJnl fun j => { j with trial := 0, expired := false, done := 0, restored := true }).ldrPhase phIdle noOwner)))) ∧
      (d.ldr.jnl.phase = phSlot ∨ d.ldr.jnl.phase = phCal → exec .copyDone s = .next (s.withReset (s.store, d.slotDone (d.ldr.jnl.phase == phCal))))) ∧
    (s.dev.ldr.jnl.phase = phTrial → s.dev.mayConfirm = true → s.dev.powerFails = false → exec .selfConfirm s = .next (s.withDev s.dev.confirmNow)) ∧
    (phOpen ≤ s.dev.ldr.jnl.phase → s.dev.ldr.jnl.phase ≤ phVerified → exec .sessionTimeout s =
      .next (s.withDev ((s.dev.upFlash fun f => { f with staging := none }).upLdr fun e => { e with sess := [] }).ldrIdle)) ∧
    (∀ v : Nat, Served s .pf0 Pg.ldr 0x128 →
      let d := (s.took .pf0 Pg.ldr 0x128 v).storeReg Pg.ldr 0x128 v;
      (d.ldrWatched = true → bit v 30 = true → exec (.kick .pf0 v) s = .next (s.withDev d.ldrKick)) ∧
      (d.ldrWatched = false → exec (.kick .pf0 v) s = .next (s.withDev (d.cancel .ldrWatchdogExpiry)))) ∧
    (s.dev.ldrWatched = true → exec .ldrWatchdogExpiry s =
      .next (s.afterReset (packageBegin (s.store, s.dev.upJnl fun j => { j with expired := j.phase == phTrial })))) ∧
    (∀ (h : KwgHead) (c : Container), s.dev.kwgTakes h = true → (s.dev.kwgSeen h).link = linkUp → (s.dev.kwgSeen h).powerFails = false →
      (s.dev.kwgSeen h).on Pg.glb GLB.BOOT_STS_BOOT_DONE = true →
      exec (.partnerContainerRx h c) s = .next (s.withDev ((s.dev.kwgSeen h).partnerPush c).plkEval))

/-- An admission cycle, the thermal law, entry into Cave with its steps and exit from it, the power-fail and monitor inputs, the loss, return and relock of OSC, and served writes of the PWR and CLKD registers answer the next state that the rules give. -/
def Obligations.PowerCommandsComplete : Prop :=
  ∀ s : State,
    (let r := admitAll (followWants (takeCap (s.store, s.dev)))
     exec .admissionCycle s = .next (s.withStore (r.1, r.2.capShow.pwrShow))) ∧
    (∀ (m : Master) (v : Nat),
      (Served s m Pg.pwr 0x104 → exec (.powerCapWrite m v) s = .next (s.withDev ((s.took m Pg.pwr 0x104 v).storeReg Pg.pwr 0x104 v))) ∧
      (Served s m Pg.clkd 0x104 → exec (.sclkSsWrite m v) s = .next (s.withDev ((s.took m Pg.clkd 0x104 v).storeReg Pg.clkd 0x104 v))) ∧
      (∀ pg : Page, Served s m pg 0x28 → exec (.pwrReqWrite m pg v) s = .next (s.withDev ((s.took m pg 0x28 v).storeReg pg 0x28 v)))) ∧
    (∀ (core analog portA portB : Int) (mw : Nat), exec (.thermalSample core analog portA portB mw) s =
      .next (s.withStore (thermalJudge (s.store, s.dev) core analog portA portB mw))) ∧
    (let d := (s.dev.upPwr fun e => { e with samples := 0, cool := true }).timer second .capStep
     (d.on Pg.pwr PWR.STS_MAIN_HOT = true → exec .capStep s = .next (s.withStore (capDown (s.store, d)))) ∧
     (d.on Pg.pwr PWR.STS_MAIN_HOT = false → s.dev.pwr.cool = true → s.dev.pwr.samples ≠ 0 → exec .capStep s = .next (s.withStore (capUp (s.store, d))))) ∧
    (∀ m : Master, Served s m Pg.pwr 0x110 → exec (.enterCave m) s = .next (s.withDev ((s.took m Pg.pwr 0x110 1).caveEnter 1))) ∧
    (Served s .pf0 Pg.pwr 0x110 → exec (.exitCave .pf0) s = .next (s.withDev (s.took .pf0 Pg.pwr 0x110 2).caveExit)) ∧
    (s.dev.on Pg.glb GLB.BOOT_STS_BOOT_DONE = true → exec (.exitCave .mgmt) s = .next (s.withDev (s.took .mgmt Pg.pwr 0x110 2).caveExit)) ∧
    (let d := ((s.dev.upPwr fun e => { e with pfw := true }).cancel .autoExit).powerFail
     (d.on Pg.pwr PWR.CTL_PFW_CAVE = true → exec .pfwAssert s = .next (s.withDev (d.caveEnter 2))) ∧
     (d.on Pg.pwr PWR.CTL_PFW_CAVE = false → exec .pfwAssert s = .next (s.withDev d))) ∧
    exec .pfwDeassert s = .next (s.withDev (s.dev.upPwr fun e => { e with pfw := false }).powerBack) ∧
    (s.dev.caveState ≠ caveIn → s.dev.caveState ≠ caveEntering →
      let d := ((s.dev.upPwr fun e => { e with trip := true }).cancel .autoExit).powerFail;
      (d.on Pg.pwr PWR.CTL_MON_CAVE = true → exec .monitorTrip s = .next (s.withDev (d.caveEnter 3))) ∧
      (d.on Pg.pwr PWR.CTL_MON_CAVE = false → exec .monitorTrip s = .next (s.withDev d))) ∧
    exec .monitorClear s = .next (s.withDev (s.dev.upPwr fun e => { e with trip := false }).powerBack) ∧
    (s.dev.on Pg.pwr PWR.CTL_AUTO_EXIT = true → s.dev.powerFails = false → exec .autoExit s = .next (s.withDev s.dev.caveExit)) ∧
    (s.dev.caveState = caveEntering →
      (let r := s.dev.caveGoes.foldl revoke (s.store, s.dev.upPwr fun e => { e with left := none })
       exec .caveRevoke s = .next (s.withStore (r.1, r.2.pwrShow))) ∧
      exec .caveCclkStop s = .next (s.withDev s.dev.seqFreeze) ∧
      exec .caveStore s = .next (s.withStore (caveStoreDown (s.store, s.dev))) ∧
      exec .caveEntered s = .next (s.withStore (caveDark (s.store, s.dev)))) ∧
    (s.dev.caveState = caveExiting → s.dev.on Pg.hif HIF.STS_LINK_UP = true →
      let d := s.dev.each allPages fun pg d => d.put pg HDR.PAGE_STS_CAVE_HELD 0;
      exec .caveExitDone s = .next (s.withDev (((d.each d.pwr.held fun r d => d.after 0 (.c4RegionReset r)).upPwr fun e => { e with held := [], left := none }).caveTo caveRun))) ∧
    exec .oscLoss s = .next (s.withDev s.dev.oscGone) ∧
    (s.dev.on Pg.clkd CLKD.STS_OSC_PRESENT = false → exec .oscReturn s = .next (s.withDev
      ((((s.dev.put Pg.clkd CLKD.STS_OSC_PRESENT 1).int Pg.clkd 0).record 0xA2 (srcPage Pg.clkd) [8, 1]).upPwr fun e => { e with oscLost := none }))) ∧
    (s.dev.on Pg.clkd CLKD.STS_OSC_PRESENT = true → exec .oscRelock s = .next (s.withDev
      (((s.dev.clkLock 0 true).lower (Pg.ts 0) 3 causeOsc).lower (Pg.ts 1) 3 causeOsc)))

/-- Served writes of the PLK page, the events of the link, the heartbeat, the claim and the witness, and the messages of the partner that are accepted answer the next state that the rules give in the roles and link states that take them. -/
def Obligations.PairCommandsComplete : Prop :=
  ∀ s : State,
    (∀ (m : Master) (v : Nat), Served s m Pg.plk 0x100 →
      let d := (s.took m Pg.plk 0x100 v).storeReg Pg.plk 0x100 v;
      (d.on Pg.plk PLK.CTL_EN = true → exec (.plkEnable m v) s = .next (s.withDev ((d.plkStart.plkEval).claimTry).claimFollow)) ∧
      (d.on Pg.plk PLK.CTL_EN = false → exec (.plkDisable m v) s = .next (s.withDev ((d.plkStop.plkEval).claimTry).claimFollow))) ∧
    (s.dev.link = linkAlign →
      (s.dev.plk.slot = none → s.dev.plk.due = false → exec (.kwgBlockLock true) s = .next (s.withDev (s.dev.linkTo linkHello false))) ∧
      exec .kwgAlignTimeout s = .next (s.withDev ((s.dev.plkCount 0).timerTime 0 second .kwgAlignTimeout))) ∧
    (s.dev.link = linkHello ∨ s.dev.link = linkUp → exec (.kwgBlockLock false) s = .next (s.withDev s.dev.linkFail)) ∧
    (s.dev.link = linkHello ∨ s.dev.link = linkUp → exec .helloTx s = .next (s.withDev ((s.dev.kwgSend "hello" s.dev.helloArgs).timerTime 0 milli .helloTx))) ∧
    (∀ r : Bool, exec (.kwgTagFail r) s = .next (s.withDev (s.dev.kwgBad r))) ∧
    (s.dev.link = linkUp →
      exec .kwgLinkTimeout s = .next (s.withDev s.dev.linkFail.plkEval) ∧
      exec .healthTx s = .next (s.withDev ((s.dev.kwgSend "health" s.dev.healthReport).timerTime 0 (100 * milli) .healthTx)) ∧
      (let d := s.dev.syncSend
       exec .kwgSyncTx s = .next (s.withDev (if d.role = roleActive ∧ bit (d.get Pg.plk PLK.MIR_MIR) 0 = true then d.mirrorSend s.store else d)))) ∧
    (s.dev.on Pg.plk PLK.CTL_EN = true → s.dev.on Pg.glb GLB.BOOT_STS_BOOT_DONE = true → s.dev.inCave = false →
      let d := s.dev.timer milli .hbToggle;
      (bit (d.get Pg.flt FLT.CLASS_STS_LAT) 4 = false →
        exec .hbToggle s = .next (s.withDev ((d.upPlk fun e => { e with hbOut := !e.hbOut }).emit (.message "hb-out" [b2n (!s.dev.plk.hbOut)])))) ∧
      (bit (d.get Pg.flt FLT.CLASS_STS_LAT) 4 = true → exec .hbToggle s = .next (s.withDev d))) ∧
    (s.dev.role ≠ roleOff →
      exec .partnerLost s = .next (s.withDev s.dev.partnerSilent) ∧
      (∀ ok : Bool, exec (.selftest ok) s = .next (s.withDev (s.dev.selftestEnd ok))) ∧
      (let d := s.dev.upPlk fun e => { e with hbAt := s.dev.freeNs }
       d.role = s.dev.role → exec .hbInEdge s = .next (s.withDev ((((d.putPin 1 true).put Pg.plk PLK.STS_P_LOST 0).lostWatch).plkEval)))) ∧
    (∀ (m : Master) (force : Bool), Served s m Pg.plk 0x104 →
      (let d := s.took m Pg.plk 0x104 (1 + 4 * b2n force)
       d.role = roleStandby →
        (force = false → d.link = linkUp → exec (.take m force) s = .next (s.withDev (d.kwgSend "handover-request" []))) ∧
        (force = true → (d.on Pg.plk PLK.CTL_WIT_EN = true ∨ (d.pin 0 = false ∧ d.on Pg.plk PLK.STS_P_LOST = true)) →
          exec (.take m force) s = .next (s.withDev (d.request prCommand true)))) ∧
      (let d := s.took m Pg.plk 0x104 2
       d.role = roleActive → exec (.handover m) s = .next (s.withDev (d.release prCommand))) ∧
      (let d := s.took m Pg.plk 0x104 3
       d.role = roleRequesting → exec (.plkAbort m) s = .next (s.withDev (d.roleTo roleStandby prCommand)))) ∧
    exec .takeCondition s = .next (s.withDev s.dev.plkEval) ∧
    (s.dev.role = roleRequesting → s.dev.claimGranted = true → s.dev.plk.grantAt.isSome = true →
      exec .claimWaitEnd s = .next (s.withStore (claimDone (s.store, s.dev)))) ∧
    (∀ high : Bool, s.dev.role ≠ roleRequesting → exec (.claimInChange high) s = .next (s.withDev (s.dev.putPin 0 high).plkEval)) ∧
    exec .witGrantRise s = .next (s.withDev ((s.dev.witPin 2 true).claimTry).claimFollow) ∧
    (let d := s.dev.witPin 2 false
     d.on Pg.plk PLK.CTL_WIT_EN = true → (d.role = roleActive ∨ d.role = roleReleasing) →
      exec .witGrantFall s = .next (s.withDev (d.roleTo roleStandby prWitness).plkEval)) ∧
    (s.dev.role = roleRequesting → s.dev.plk.grantAt = none →
      exec .reqTimeout s = .next (s.withDev ((s.dev.plkCount 5).roleTo roleStandby s.dev.plk.cause).plkEval)) ∧
    (∀ h : KwgHead, s.dev.kwgTakes h = true →
      let d := s.dev.kwgSeen h;
      (∀ uid epoch : Nat, d.link = linkHello → epoch = d.keyEpoch (d.get Pg.plk PLK.KEY_SLOT) → (d.get Pg.plk PLK.PUID_UID = 0 ∨ uid = d.get Pg.plk PLK.PUID_UID) →
        exec (.helloRx h uid epoch) s = .next (s.withDev ((d.upPlk fun e => { e with uid := uid }).linkTo linkUp true).plkEval)) ∧
      (d.link = linkUp →
        (d.role = roleActive → exec (.handoverRequestRx h) s = .next (s.withDev (d.release prCommand).plkEval)) ∧
        (∀ x : Health, exec (.healthRx h x) s = .next (s.withDev (d.healthTake h x).plkEval)) ∧
        (∀ f : LaneRx, exec (.kwgSyncRx h f) s = .next (s.withDev (d.kwgSend "resp" (h.mec :: laneWords (d.laneRx f) ++ laneWords d.laneTx)).plkEval)) ∧
        (∀ (m : Nat) (t1 t2 t3 : LaneStamp) (f : LaneRx), d.plk.sync = some (m, t1) →
          exec (.kwgRespRx h m t2 t3 f) s = .next (s.withDev (d.respTake t1 t2 t3 (d.laneRx f)).plkEval))) ∧
      (s.dev.link = linkUp → (s.dev.role = roleStandby ∨ s.dev.role = roleRequesting) → bit (s.dev.get Pg.plk PLK.MIR_MIR) 0 = true →
        ∀ x : MirrorEntry, exec (.mirrorEntryRx h x) s = .next (s.withStore (mirrorTake (s.store, d.plkEval) h x))))
end

