-- ==== Sys2Proof/Laws/Sparse.lean ====
section
/-! SUPPORT. The laws of the sparse store and of register fields: a read after a write, and the canonical form. -/

namespace Sys2Proof.Machine

variable {α : Type} (dflt : Nat → α)

theorem sget_sdel_same (m : List (Nat × α)) (k : Nat) : sget dflt (sdel m k) k = dflt k := by
  induction m with
  | nil => rfl
  | cons e l ih =>
    obtain ⟨j, v⟩ := e
    simp only [sdel]
    split
    · exact ih
    · simp_all [sget]

theorem sget_sdel_ne (m : List (Nat × α)) {j k : Nat} (h : j ≠ k) : sget dflt (sdel m k) j = sget dflt m j := by
  induction m with
  | nil => rfl
  | cons e l ih =>
    obtain ⟨i, v⟩ := e
    simp only [sdel]
    split
    · next hi => subst hi; simp [sget, ih, Ne.symm h]
    · simp [sget, ih]

theorem sget_sins_same (m : List (Nat × α)) (k : Nat) (v : α) : sget dflt (sins m k v) k = v := by
  induction m with
  | nil => simp [sins, sget]
  | cons e l ih =>
    obtain ⟨j, w⟩ := e
    simp only [sins]
    split
    · simp [sget]
    · split
      · simp [sget]
      · next h1 h2 => simp [sget, Ne.symm h2, ih]

theorem sget_sins_ne (m : List (Nat × α)) {j k : Nat} (v : α) (h : j ≠ k) : sget dflt (sins m k v) j = sget dflt m j := by
  induction m with
  | nil => simp [sins, sget, Ne.symm h]
  | cons e l ih =>
    obtain ⟨i, w⟩ := e
    simp only [sins]
    split
    · simp [sget, Ne.symm h]
    · split
      · next h2 => subst h2; simp [sget, Ne.symm h]
      · simp [sget, ih]

/-- A read of the written key gives the value written. -/
@[simp] theorem sget_sset_same [DecidableEq α] (m : List (Nat × α)) (k : Nat) (v : α) : sget dflt (sset dflt m k v) k = v := by
  unfold sset
  split
  · next h => rw [sget_sdel_same, h]
  · exact sget_sins_same dflt m k v

/-- A write leaves every other key alone. -/
theorem sget_sset_ne [DecidableEq α] (m : List (Nat × α)) {j k : Nat} (v : α) (h : j ≠ k) : sget dflt (sset dflt m k v) j = sget dflt m j := by
  unfold sset
  split
  · exact sget_sdel_ne dflt m h
  · exact sget_sins_ne dflt m v h

theorem swf_cons [DecidableEq α] (k : Nat) (v : α) (l : List (Nat × α)) :
    swf dflt ((k, v) :: l) = true ↔ v ≠ dflt k ∧ (∀ e ∈ l.head?, k < e.1) ∧ swf dflt l = true := by
  cases l with
  | nil => simp [swf]
  | cons e l => obtain ⟨j, w⟩ := e; simp [swf, and_assoc]

theorem head_sdel [DecidableEq α] (m : List (Nat × α)) (k a : Nat) (h : swf dflt m = true) (ha : ∀ e ∈ m.head?, a < e.1) : ∀ e ∈ (sdel m k).head?, a < e.1 := by
  induction m generalizing a with
  | nil => simp [sdel]
  | cons e l ih =>
    obtain ⟨j, v⟩ := e
    rw [swf_cons] at h
    have hj : a < j := by simpa using ha
    simp only [sdel]
    split
    · exact ih a h.2.2 fun e he => Nat.lt_trans hj (h.2.1 e he)
    · simpa using hj

theorem swf_sdel [DecidableEq α] (m : List (Nat × α)) (k : Nat) (h : swf dflt m = true) : swf dflt (sdel m k) = true := by
  induction m with
  | nil => rfl
  | cons e l ih =>
    obtain ⟨j, v⟩ := e
    have h' := h
    rw [swf_cons] at h
    simp only [sdel]
    split
    · exact ih h.2.2
    · rw [swf_cons]; exact ⟨h.1, head_sdel dflt l k j h.2.2 h.2.1, ih h.2.2⟩

theorem head_sins (m : List (Nat × α)) (k a : Nat) (v : α) (hk : a < k) (ha : ∀ e ∈ m.head?, a < e.1) : ∀ e ∈ (sins m k v).head?, a < e.1 := by
  cases m with
  | nil => simpa [sins] using hk
  | cons e l =>
    obtain ⟨j, w⟩ := e
    simp only [sins]
    split
    · simpa using hk
    · split
      · simpa using hk
      · simpa using ha

theorem swf_sins [DecidableEq α] (m : List (Nat × α)) (k : Nat) (v : α) (hv : v ≠ dflt k) (h : swf dflt m = true) : swf dflt (sins m k v) = true := by
  induction m with
  | nil => simp [sins, swf, hv]
  | cons e l ih =>
    obtain ⟨j, w⟩ := e
    have h' := h
    rw [swf_cons] at h
    simp only [sins]
    split
    · next hk => rw [swf_cons]; exact ⟨hv, by simpa using hk, h'⟩
    · split
      · next hk => subst hk; rw [swf_cons]; exact ⟨hv, h.2.1, h.2.2⟩
      · next h1 h2 => rw [swf_cons]; exact ⟨h.1, head_sins l k j v (by omega) h.2.1, ih h.2.2⟩

/-- A write keeps the canonical form. -/
theorem swf_sset [DecidableEq α] (m : List (Nat × α)) (k : Nat) (v : α) (h : swf dflt m = true) : swf dflt (sset dflt m k v) = true := by
  unfold sset
  split
  · exact swf_sdel dflt m k h
  · next hv => exact swf_sins dflt m k v hv h

/-! Fields. -/

theorem Fld.mask_bit (f : Fld) (i : Nat) (hi : i < 96) : (f.mask).getLsbD i = (decide (f.lo ≤ i) && decide (i < f.hi + 1 + (f.lo - (f.hi + 1)))) := by
  unfold Fld.mask
  rw [BitVec.getLsbD_ofNat, Nat.testBit_shiftLeft, Nat.testBit_two_pow_sub_one]
  simp only [hi, decide_true, Bool.true_and, ge_iff_le]
  by_cases h : f.lo ≤ i <;> (simp [h] <;> omega)

theorem Fld.get_bit (f : Fld) (w : Word) (j : Nat) : (f.get w).testBit j = (decide (j < f.hi + 1 - f.lo) && w.getLsbD (f.lo + j)) := by
  unfold Fld.get
  rw [Nat.testBit_mod_two_pow, Nat.testBit_shiftRight]; rfl

/-- A field reads what was put, cut to its width. -/
theorem Fld.get_put_same (f : Fld) (v : Nat) (w : Word) (h : f.hi < 96) : f.get (f.put v w) = v % 2 ^ (f.hi + 1 - f.lo) := by
  apply Nat.eq_of_testBit_eq
  intro j
  rw [Fld.get_bit, Nat.testBit_mod_two_pow]
  by_cases hj : j < f.hi + 1 - f.lo
  · have h96 : f.lo + j < 96 := by omega
    have hm := f.mask_bit (f.lo + j) h96
    simp only [Fld.put, BitVec.getLsbD_or, BitVec.getLsbD_and, BitVec.getLsbD_not, hm, h96, BitVec.getLsbD_ofNat, Nat.testBit_shiftLeft]
    have h1 : f.lo + j < f.hi + 1 + (f.lo - (f.hi + 1)) := by omega
    simp [hj, h1]
  · simp [hj]

/-- A field that shares no bit with the one put reads as before. -/
theorem Fld.get_put_disj (f g : Fld) (v : Nat) (w : Word) (h : g.hi < f.lo ∨ f.hi < g.lo) (hg : g.hi < 96) : g.get (f.put v w) = g.get w := by
  apply Nat.eq_of_testBit_eq
  intro j
  rw [Fld.get_bit, Fld.get_bit]
  by_cases hj : j < g.hi + 1 - g.lo
  · have h96 : g.lo + j < 96 := by omega
    have hm := f.mask_bit (g.lo + j) h96
    have hf : (decide (f.lo ≤ g.lo + j) && decide (g.lo + j < f.hi + 1 + (f.lo - (f.hi + 1)))) = false := by
      rcases h with h | h
      · have : ¬ f.lo ≤ g.lo + j := by omega
        simp [this]
      · by_cases hl : f.lo ≤ g.lo + j
        · have : ¬ g.lo + j < f.hi + 1 + (f.lo - (f.hi + 1)) := by omega
          simp [this]
        · simp [hl]
    simp only [Fld.put, BitVec.getLsbD_or, BitVec.getLsbD_and, BitVec.getLsbD_not, hm, h96, hf]
    simp
  · simp [hj]

/-- A field is less than 2 to its width. -/
theorem Fld.get_lt (f : Fld) (w : Word) : f.get w < 2 ^ (f.hi + 1 - f.lo) := Nat.mod_lt _ (Nat.two_pow_pos _)

end Sys2Proof.Machine
end

