-- ==== Sys2Proof/Laws/State.lean ====
section
/-! SUPPORT. What each update of the device leaves alone: one lemma for each field and update, so that no proof unfolds a record update. -/

namespace Sys2Proof.Machine

@[simp] theorem Dev.setReg_clk (d : Dev) (pg off : Nat) (w : Word) : (d.setReg pg off w).clk = d.clk := rfl
@[simp] theorem Dev.setReg_lat (d : Dev) (pg off : Nat) (w : Word) : (d.setReg pg off w).lat = d.lat := rfl
@[simp] theorem Dev.setReg_half (d : Dev) (pg off : Nat) (w : Word) : (d.setReg pg off w).half = d.half := rfl
@[simp] theorem Dev.setReg_snapping (d : Dev) (pg off : Nat) (w : Word) : (d.setReg pg off w).snapping = d.snapping := rfl
@[simp] theorem Dev.setReg_shadow (d : Dev) (pg off : Nat) (w : Word) : (d.setReg pg off w).shadow = d.shadow := rfl
@[simp] theorem Dev.setReg_cyc (d : Dev) (pg off : Nat) (w : Word) : (d.setReg pg off w).cyc = d.cyc := rfl
@[simp] theorem Dev.setReg_agenda (d : Dev) (pg off : Nat) (w : Word) : (d.setReg pg off w).agenda = d.agenda := rfl
@[simp] theorem Dev.setReg_alarms (d : Dev) (pg off : Nat) (w : Word) : (d.setReg pg off w).alarms = d.alarms := rfl
@[simp] theorem Dev.setReg_events (d : Dev) (pg off : Nat) (w : Word) : (d.setReg pg off w).events = d.events := rfl
@[simp] theorem Dev.setReg_hwSet (d : Dev) (pg off : Nat) (w : Word) : (d.setReg pg off w).hwSet = d.hwSet := rfl
@[simp] theorem Dev.setReg_out (d : Dev) (pg off : Nat) (w : Word) : (d.setReg pg off w).out = d.out := rfl
@[simp] theorem Dev.setReg_ts (d : Dev) (pg off : Nat) (w : Word) : (d.setReg pg off w).ts = d.ts := rfl
@[simp] theorem Dev.setReg_views (d : Dev) (pg off : Nat) (w : Word) : (d.setReg pg off w).views = d.views := rfl
@[simp] theorem Dev.setReg_corr (d : Dev) (pg off : Nat) (w : Word) : (d.setReg pg off w).corr = d.corr := rfl
@[simp] theorem Dev.setReg_links (d : Dev) (pg off : Nat) (w : Word) : (d.setReg pg off w).links = d.links := rfl
@[simp] theorem Dev.setReg_c4Held (d : Dev) (pg off : Nat) (w : Word) : (d.setReg pg off w).c4Held = d.c4Held := rfl
@[simp] theorem Dev.setReg_mon (d : Dev) (pg off : Nat) (w : Word) : (d.setReg pg off w).mon = d.mon := rfl
@[simp] theorem Dev.setReg_atm (d : Dev) (pg off : Nat) (w : Word) : (d.setReg pg off w).atm = d.atm := rfl
@[simp] theorem Dev.setReg_us (d : Dev) (pg off : Nat) (w : Word) : (d.setReg pg off w).us = d.us := rfl
@[simp] theorem Dev.setReg_ens (d : Dev) (pg off : Nat) (w : Word) : (d.setReg pg off w).ens = d.ens := rfl
@[simp] theorem Dev.setReg_sel (d : Dev) (pg off : Nat) (w : Word) : (d.setReg pg off w).sel = d.sel := rfl
@[simp] theorem Dev.setReg_svc (d : Dev) (pg off : Nat) (w : Word) : (d.setReg pg off w).svc = d.svc := rfl
@[simp] theorem Dev.setReg_hld (d : Dev) (pg off : Nat) (w : Word) : (d.setReg pg off w).hld = d.hld := rfl
@[simp] theorem Dev.setReg_gnss (d : Dev) (pg off : Nat) (w : Word) : (d.setReg pg off w).gnss = d.gnss := rfl
@[simp] theorem Dev.setReg_pwr (d : Dev) (pg off : Nat) (w : Word) : (d.setReg pg off w).pwr = d.pwr := rfl
@[simp] theorem Dev.setReg_syn (d : Dev) (pg off : Nat) (w : Word) : (d.setReg pg off w).syn = d.syn := rfl
@[simp] theorem Dev.setReg_cko (d : Dev) (pg off : Nat) (w : Word) : (d.setReg pg off w).cko = d.cko := rfl
@[simp] theorem Dev.setReg_tdc (d : Dev) (pg off : Nat) (w : Word) : (d.setReg pg off w).tdc = d.tdc := rfl
@[simp] theorem Dev.setReg_unit (d : Dev) (pg off : Nat) (w : Word) : (d.setReg pg off w).unit = d.unit := rfl
@[simp] theorem Dev.setReg_tdcs (d : Dev) (pg off : Nat) (w : Word) : (d.setReg pg off w).tdcs = d.tdcs := rfl
@[simp] theorem Dev.setReg_evo (d : Dev) (pg off : Nat) (w : Word) : (d.setReg pg off w).evo = d.evo := rfl
@[simp] theorem Dev.setReg_evi (d : Dev) (pg off : Nat) (w : Word) : (d.setReg pg off w).evi = d.evi := rfl
@[simp] theorem Dev.setReg_aud (d : Dev) (pg off : Nat) (w : Word) : (d.setReg pg off w).aud = d.aud := rfl
@[simp] theorem Dev.setReg_plk (d : Dev) (pg off : Nat) (w : Word) : (d.setReg pg off w).plk = d.plk := rfl
@[simp] theorem Dev.setReg_ldr (d : Dev) (pg off : Nat) (w : Word) : (d.setReg pg off w).ldr = d.ldr := rfl
@[simp] theorem Dev.setReg_pts (d : Dev) (pg off : Nat) (w : Word) : (d.setReg pg off w).pts = d.pts := rfl
@[simp] theorem Dev.setReg_port (d : Dev) (pg off : Nat) (w : Word) : (d.setReg pg off w).port = d.port := rfl
@[simp] theorem Dev.setReg_lane (d : Dev) (pg off : Nat) (w : Word) : (d.setReg pg off w).lane = d.lane := rfl
@[simp] theorem Dev.setReg_key (d : Dev) (pg off : Nat) (w : Word) : (d.setReg pg off w).key = d.key := rfl
@[simp] theorem Dev.setReg_rsp (d : Dev) (pg off : Nat) (w : Word) : (d.setReg pg off w).rsp = d.rsp := rfl
@[simp] theorem Dev.setReg_cst (d : Dev) (pg off : Nat) (w : Word) : (d.setReg pg off w).cst = d.cst := rfl
@[simp] theorem Dev.setReg_rcd (d : Dev) (pg off : Nat) (w : Word) : (d.setReg pg off w).rcd = d.rcd := rfl
@[simp] theorem Dev.setReg_flt (d : Dev) (pg off : Nat) (w : Word) : (d.setReg pg off w).flt = d.flt := rfl
@[simp] theorem Dev.setReg_seq (d : Dev) (pg off : Nat) (w : Word) : (d.setReg pg off w).seq = d.seq := rfl
@[simp] theorem Dev.setReg_hif (d : Dev) (pg off : Nat) (w : Word) : (d.setReg pg off w).hif = d.hif := rfl

@[simp] theorem Dev.put_clk (d : Dev) (pg : Nat) (f : Fld) (v : Nat) : (d.put pg f v).clk = d.clk := rfl
@[simp] theorem Dev.put_lat (d : Dev) (pg : Nat) (f : Fld) (v : Nat) : (d.put pg f v).lat = d.lat := rfl
@[simp] theorem Dev.put_half (d : Dev) (pg : Nat) (f : Fld) (v : Nat) : (d.put pg f v).half = d.half := rfl
@[simp] theorem Dev.put_snapping (d : Dev) (pg : Nat) (f : Fld) (v : Nat) : (d.put pg f v).snapping = d.snapping := rfl
@[simp] theorem Dev.put_shadow (d : Dev) (pg : Nat) (f : Fld) (v : Nat) : (d.put pg f v).shadow = d.shadow := rfl
@[simp] theorem Dev.put_cyc (d : Dev) (pg : Nat) (f : Fld) (v : Nat) : (d.put pg f v).cyc = d.cyc := rfl
@[simp] theorem Dev.put_agenda (d : Dev) (pg : Nat) (f : Fld) (v : Nat) : (d.put pg f v).agenda = d.agenda := rfl
@[simp] theorem Dev.put_alarms (d : Dev) (pg : Nat) (f : Fld) (v : Nat) : (d.put pg f v).alarms = d.alarms := rfl
@[simp] theorem Dev.put_events (d : Dev) (pg : Nat) (f : Fld) (v : Nat) : (d.put pg f v).events = d.events := rfl
@[simp] theorem Dev.put_hwSet (d : Dev) (pg : Nat) (f : Fld) (v : Nat) : (d.put pg f v).hwSet = d.hwSet := rfl
@[simp] theorem Dev.put_out (d : Dev) (pg : Nat) (f : Fld) (v : Nat) : (d.put pg f v).out = d.out := rfl
@[simp] theorem Dev.put_ts (d : Dev) (pg : Nat) (f : Fld) (v : Nat) : (d.put pg f v).ts = d.ts := rfl
@[simp] theorem Dev.put_views (d : Dev) (pg : Nat) (f : Fld) (v : Nat) : (d.put pg f v).views = d.views := rfl
@[simp] theorem Dev.put_corr (d : Dev) (pg : Nat) (f : Fld) (v : Nat) : (d.put pg f v).corr = d.corr := rfl
@[simp] theorem Dev.put_links (d : Dev) (pg : Nat) (f : Fld) (v : Nat) : (d.put pg f v).links = d.links := rfl
@[simp] theorem Dev.put_c4Held (d : Dev) (pg : Nat) (f : Fld) (v : Nat) : (d.put pg f v).c4Held = d.c4Held := rfl
@[simp] theorem Dev.put_mon (d : Dev) (pg : Nat) (f : Fld) (v : Nat) : (d.put pg f v).mon = d.mon := rfl
@[simp] theorem Dev.put_atm (d : Dev) (pg : Nat) (f : Fld) (v : Nat) : (d.put pg f v).atm = d.atm := rfl
@[simp] theorem Dev.put_us (d : Dev) (pg : Nat) (f : Fld) (v : Nat) : (d.put pg f v).us = d.us := rfl
@[simp] theorem Dev.put_ens (d : Dev) (pg : Nat) (f : Fld) (v : Nat) : (d.put pg f v).ens = d.ens := rfl
@[simp] theorem Dev.put_sel (d : Dev) (pg : Nat) (f : Fld) (v : Nat) : (d.put pg f v).sel = d.sel := rfl
@[simp] theorem Dev.put_svc (d : Dev) (pg : Nat) (f : Fld) (v : Nat) : (d.put pg f v).svc = d.svc := rfl
@[simp] theorem Dev.put_hld (d : Dev) (pg : Nat) (f : Fld) (v : Nat) : (d.put pg f v).hld = d.hld := rfl
@[simp] theorem Dev.put_gnss (d : Dev) (pg : Nat) (f : Fld) (v : Nat) : (d.put pg f v).gnss = d.gnss := rfl
@[simp] theorem Dev.put_pwr (d : Dev) (pg : Nat) (f : Fld) (v : Nat) : (d.put pg f v).pwr = d.pwr := rfl
@[simp] theorem Dev.put_syn (d : Dev) (pg : Nat) (f : Fld) (v : Nat) : (d.put pg f v).syn = d.syn := rfl
@[simp] theorem Dev.put_cko (d : Dev) (pg : Nat) (f : Fld) (v : Nat) : (d.put pg f v).cko = d.cko := rfl
@[simp] theorem Dev.put_tdc (d : Dev) (pg : Nat) (f : Fld) (v : Nat) : (d.put pg f v).tdc = d.tdc := rfl
@[simp] theorem Dev.put_unit (d : Dev) (pg : Nat) (f : Fld) (v : Nat) : (d.put pg f v).unit = d.unit := rfl
@[simp] theorem Dev.put_tdcs (d : Dev) (pg : Nat) (f : Fld) (v : Nat) : (d.put pg f v).tdcs = d.tdcs := rfl
@[simp] theorem Dev.put_evo (d : Dev) (pg : Nat) (f : Fld) (v : Nat) : (d.put pg f v).evo = d.evo := rfl
@[simp] theorem Dev.put_evi (d : Dev) (pg : Nat) (f : Fld) (v : Nat) : (d.put pg f v).evi = d.evi := rfl
@[simp] theorem Dev.put_aud (d : Dev) (pg : Nat) (f : Fld) (v : Nat) : (d.put pg f v).aud = d.aud := rfl
@[simp] theorem Dev.put_plk (d : Dev) (pg : Nat) (f : Fld) (v : Nat) : (d.put pg f v).plk = d.plk := rfl
@[simp] theorem Dev.put_ldr (d : Dev) (pg : Nat) (f : Fld) (v : Nat) : (d.put pg f v).ldr = d.ldr := rfl
@[simp] theorem Dev.put_pts (d : Dev) (pg : Nat) (f : Fld) (v : Nat) : (d.put pg f v).pts = d.pts := rfl
@[simp] theorem Dev.put_port (d : Dev) (pg : Nat) (f : Fld) (v : Nat) : (d.put pg f v).port = d.port := rfl
@[simp] theorem Dev.put_lane (d : Dev) (pg : Nat) (f : Fld) (v : Nat) : (d.put pg f v).lane = d.lane := rfl
@[simp] theorem Dev.put_key (d : Dev) (pg : Nat) (f : Fld) (v : Nat) : (d.put pg f v).key = d.key := rfl
@[simp] theorem Dev.put_rsp (d : Dev) (pg : Nat) (f : Fld) (v : Nat) : (d.put pg f v).rsp = d.rsp := rfl
@[simp] theorem Dev.put_cst (d : Dev) (pg : Nat) (f : Fld) (v : Nat) : (d.put pg f v).cst = d.cst := rfl
@[simp] theorem Dev.put_rcd (d : Dev) (pg : Nat) (f : Fld) (v : Nat) : (d.put pg f v).rcd = d.rcd := rfl
@[simp] theorem Dev.put_flt (d : Dev) (pg : Nat) (f : Fld) (v : Nat) : (d.put pg f v).flt = d.flt := rfl
@[simp] theorem Dev.put_seq (d : Dev) (pg : Nat) (f : Fld) (v : Nat) : (d.put pg f v).seq = d.seq := rfl
@[simp] theorem Dev.put_hif (d : Dev) (pg : Nat) (f : Fld) (v : Nat) : (d.put pg f v).hif = d.hif := rfl

@[simp] theorem Dev.puti_clk (d : Dev) (pg : Nat) (f : Fld) (v : Int) : (d.puti pg f v).clk = d.clk := rfl
@[simp] theorem Dev.puti_lat (d : Dev) (pg : Nat) (f : Fld) (v : Int) : (d.puti pg f v).lat = d.lat := rfl
@[simp] theorem Dev.puti_half (d : Dev) (pg : Nat) (f : Fld) (v : Int) : (d.puti pg f v).half = d.half := rfl
@[simp] theorem Dev.puti_snapping (d : Dev) (pg : Nat) (f : Fld) (v : Int) : (d.puti pg f v).snapping = d.snapping := rfl
@[simp] theorem Dev.puti_shadow (d : Dev) (pg : Nat) (f : Fld) (v : Int) : (d.puti pg f v).shadow = d.shadow := rfl
@[simp] theorem Dev.puti_cyc (d : Dev) (pg : Nat) (f : Fld) (v : Int) : (d.puti pg f v).cyc = d.cyc := rfl
@[simp] theorem Dev.puti_agenda (d : Dev) (pg : Nat) (f : Fld) (v : Int) : (d.puti pg f v).agenda = d.agenda := rfl
@[simp] theorem Dev.puti_alarms (d : Dev) (pg : Nat) (f : Fld) (v : Int) : (d.puti pg f v).alarms = d.alarms := rfl
@[simp] theorem Dev.puti_events (d : Dev) (pg : Nat) (f : Fld) (v : Int) : (d.puti pg f v).events = d.events := rfl
@[simp] theorem Dev.puti_hwSet (d : Dev) (pg : Nat) (f : Fld) (v : Int) : (d.puti pg f v).hwSet = d.hwSet := rfl
@[simp] theorem Dev.puti_out (d : Dev) (pg : Nat) (f : Fld) (v : Int) : (d.puti pg f v).out = d.out := rfl
@[simp] theorem Dev.puti_ts (d : Dev) (pg : Nat) (f : Fld) (v : Int) : (d.puti pg f v).ts = d.ts := rfl
@[simp] theorem Dev.puti_views (d : Dev) (pg : Nat) (f : Fld) (v : Int) : (d.puti pg f v).views = d.views := rfl
@[simp] theorem Dev.puti_corr (d : Dev) (pg : Nat) (f : Fld) (v : Int) : (d.puti pg f v).corr = d.corr := rfl
@[simp] theorem Dev.puti_links (d : Dev) (pg : Nat) (f : Fld) (v : Int) : (d.puti pg f v).links = d.links := rfl
@[simp] theorem Dev.puti_c4Held (d : Dev) (pg : Nat) (f : Fld) (v : Int) : (d.puti pg f v).c4Held = d.c4Held := rfl
@[simp] theorem Dev.puti_mon (d : Dev) (pg : Nat) (f : Fld) (v : Int) : (d.puti pg f v).mon = d.mon := rfl
@[simp] theorem Dev.puti_atm (d : Dev) (pg : Nat) (f : Fld) (v : Int) : (d.puti pg f v).atm = d.atm := rfl
@[simp] theorem Dev.puti_us (d : Dev) (pg : Nat) (f : Fld) (v : Int) : (d.puti pg f v).us = d.us := rfl
@[simp] theorem Dev.puti_ens (d : Dev) (pg : Nat) (f : Fld) (v : Int) : (d.puti pg f v).ens = d.ens := rfl
@[simp] theorem Dev.puti_sel (d : Dev) (pg : Nat) (f : Fld) (v : Int) : (d.puti pg f v).sel = d.sel := rfl
@[simp] theorem Dev.puti_svc (d : Dev) (pg : Nat) (f : Fld) (v : Int) : (d.puti pg f v).svc = d.svc := rfl
@[simp] theorem Dev.puti_hld (d : Dev) (pg : Nat) (f : Fld) (v : Int) : (d.puti pg f v).hld = d.hld := rfl
@[simp] theorem Dev.puti_gnss (d : Dev) (pg : Nat) (f : Fld) (v : Int) : (d.puti pg f v).gnss = d.gnss := rfl
@[simp] theorem Dev.puti_pwr (d : Dev) (pg : Nat) (f : Fld) (v : Int) : (d.puti pg f v).pwr = d.pwr := rfl
@[simp] theorem Dev.puti_syn (d : Dev) (pg : Nat) (f : Fld) (v : Int) : (d.puti pg f v).syn = d.syn := rfl
@[simp] theorem Dev.puti_cko (d : Dev) (pg : Nat) (f : Fld) (v : Int) : (d.puti pg f v).cko = d.cko := rfl
@[simp] theorem Dev.puti_tdc (d : Dev) (pg : Nat) (f : Fld) (v : Int) : (d.puti pg f v).tdc = d.tdc := rfl
@[simp] theorem Dev.puti_unit (d : Dev) (pg : Nat) (f : Fld) (v : Int) : (d.puti pg f v).unit = d.unit := rfl
@[simp] theorem Dev.puti_tdcs (d : Dev) (pg : Nat) (f : Fld) (v : Int) : (d.puti pg f v).tdcs = d.tdcs := rfl
@[simp] theorem Dev.puti_evo (d : Dev) (pg : Nat) (f : Fld) (v : Int) : (d.puti pg f v).evo = d.evo := rfl
@[simp] theorem Dev.puti_evi (d : Dev) (pg : Nat) (f : Fld) (v : Int) : (d.puti pg f v).evi = d.evi := rfl
@[simp] theorem Dev.puti_aud (d : Dev) (pg : Nat) (f : Fld) (v : Int) : (d.puti pg f v).aud = d.aud := rfl
@[simp] theorem Dev.puti_plk (d : Dev) (pg : Nat) (f : Fld) (v : Int) : (d.puti pg f v).plk = d.plk := rfl
@[simp] theorem Dev.puti_ldr (d : Dev) (pg : Nat) (f : Fld) (v : Int) : (d.puti pg f v).ldr = d.ldr := rfl
@[simp] theorem Dev.puti_pts (d : Dev) (pg : Nat) (f : Fld) (v : Int) : (d.puti pg f v).pts = d.pts := rfl
@[simp] theorem Dev.puti_port (d : Dev) (pg : Nat) (f : Fld) (v : Int) : (d.puti pg f v).port = d.port := rfl
@[simp] theorem Dev.puti_lane (d : Dev) (pg : Nat) (f : Fld) (v : Int) : (d.puti pg f v).lane = d.lane := rfl
@[simp] theorem Dev.puti_key (d : Dev) (pg : Nat) (f : Fld) (v : Int) : (d.puti pg f v).key = d.key := rfl
@[simp] theorem Dev.puti_rsp (d : Dev) (pg : Nat) (f : Fld) (v : Int) : (d.puti pg f v).rsp = d.rsp := rfl
@[simp] theorem Dev.puti_cst (d : Dev) (pg : Nat) (f : Fld) (v : Int) : (d.puti pg f v).cst = d.cst := rfl
@[simp] theorem Dev.puti_rcd (d : Dev) (pg : Nat) (f : Fld) (v : Int) : (d.puti pg f v).rcd = d.rcd := rfl
@[simp] theorem Dev.puti_flt (d : Dev) (pg : Nat) (f : Fld) (v : Int) : (d.puti pg f v).flt = d.flt := rfl
@[simp] theorem Dev.puti_seq (d : Dev) (pg : Nat) (f : Fld) (v : Int) : (d.puti pg f v).seq = d.seq := rfl
@[simp] theorem Dev.puti_hif (d : Dev) (pg : Nat) (f : Fld) (v : Int) : (d.puti pg f v).hif = d.hif := rfl

@[simp] theorem Dev.putb_clk (d : Dev) (pg : Nat) (f : Fld) (b : Bool) : (d.putb pg f b).clk = d.clk := rfl
@[simp] theorem Dev.putb_lat (d : Dev) (pg : Nat) (f : Fld) (b : Bool) : (d.putb pg f b).lat = d.lat := rfl
@[simp] theorem Dev.putb_half (d : Dev) (pg : Nat) (f : Fld) (b : Bool) : (d.putb pg f b).half = d.half := rfl
@[simp] theorem Dev.putb_snapping (d : Dev) (pg : Nat) (f : Fld) (b : Bool) : (d.putb pg f b).snapping = d.snapping := rfl
@[simp] theorem Dev.putb_shadow (d : Dev) (pg : Nat) (f : Fld) (b : Bool) : (d.putb pg f b).shadow = d.shadow := rfl
@[simp] theorem Dev.putb_cyc (d : Dev) (pg : Nat) (f : Fld) (b : Bool) : (d.putb pg f b).cyc = d.cyc := rfl
@[simp] theorem Dev.putb_agenda (d : Dev) (pg : Nat) (f : Fld) (b : Bool) : (d.putb pg f b).agenda = d.agenda := rfl
@[simp] theorem Dev.putb_alarms (d : Dev) (pg : Nat) (f : Fld) (b : Bool) : (d.putb pg f b).alarms = d.alarms := rfl
@[simp] theorem Dev.putb_events (d : Dev) (pg : Nat) (f : Fld) (b : Bool) : (d.putb pg f b).events = d.events := rfl
@[simp] theorem Dev.putb_hwSet (d : Dev) (pg : Nat) (f : Fld) (b : Bool) : (d.putb pg f b).hwSet = d.hwSet := rfl
@[simp] theorem Dev.putb_out (d : Dev) (pg : Nat) (f : Fld) (b : Bool) : (d.putb pg f b).out = d.out := rfl
@[simp] theorem Dev.putb_ts (d : Dev) (pg : Nat) (f : Fld) (b : Bool) : (d.putb pg f b).ts = d.ts := rfl
@[simp] theorem Dev.putb_views (d : Dev) (pg : Nat) (f : Fld) (b : Bool) : (d.putb pg f b).views = d.views := rfl
@[simp] theorem Dev.putb_corr (d : Dev) (pg : Nat) (f : Fld) (b : Bool) : (d.putb pg f b).corr = d.corr := rfl
@[simp] theorem Dev.putb_links (d : Dev) (pg : Nat) (f : Fld) (b : Bool) : (d.putb pg f b).links = d.links := rfl
@[simp] theorem Dev.putb_c4Held (d : Dev) (pg : Nat) (f : Fld) (b : Bool) : (d.putb pg f b).c4Held = d.c4Held := rfl
@[simp] theorem Dev.putb_mon (d : Dev) (pg : Nat) (f : Fld) (b : Bool) : (d.putb pg f b).mon = d.mon := rfl
@[simp] theorem Dev.putb_atm (d : Dev) (pg : Nat) (f : Fld) (b : Bool) : (d.putb pg f b).atm = d.atm := rfl
@[simp] theorem Dev.putb_us (d : Dev) (pg : Nat) (f : Fld) (b : Bool) : (d.putb pg f b).us = d.us := rfl
@[simp] theorem Dev.putb_ens (d : Dev) (pg : Nat) (f : Fld) (b : Bool) : (d.putb pg f b).ens = d.ens := rfl
@[simp] theorem Dev.putb_sel (d : Dev) (pg : Nat) (f : Fld) (b : Bool) : (d.putb pg f b).sel = d.sel := rfl
@[simp] theorem Dev.putb_svc (d : Dev) (pg : Nat) (f : Fld) (b : Bool) : (d.putb pg f b).svc = d.svc := rfl
@[simp] theorem Dev.putb_hld (d : Dev) (pg : Nat) (f : Fld) (b : Bool) : (d.putb pg f b).hld = d.hld := rfl
@[simp] theorem Dev.putb_gnss (d : Dev) (pg : Nat) (f : Fld) (b : Bool) : (d.putb pg f b).gnss = d.gnss := rfl
@[simp] theorem Dev.putb_pwr (d : Dev) (pg : Nat) (f : Fld) (b : Bool) : (d.putb pg f b).pwr = d.pwr := rfl
@[simp] theorem Dev.putb_syn (d : Dev) (pg : Nat) (f : Fld) (b : Bool) : (d.putb pg f b).syn = d.syn := rfl
@[simp] theorem Dev.putb_cko (d : Dev) (pg : Nat) (f : Fld) (b : Bool) : (d.putb pg f b).cko = d.cko := rfl
@[simp] theorem Dev.putb_tdc (d : Dev) (pg : Nat) (f : Fld) (b : Bool) : (d.putb pg f b).tdc = d.tdc := rfl
@[simp] theorem Dev.putb_unit (d : Dev) (pg : Nat) (f : Fld) (b : Bool) : (d.putb pg f b).unit = d.unit := rfl
@[simp] theorem Dev.putb_tdcs (d : Dev) (pg : Nat) (f : Fld) (b : Bool) : (d.putb pg f b).tdcs = d.tdcs := rfl
@[simp] theorem Dev.putb_evo (d : Dev) (pg : Nat) (f : Fld) (b : Bool) : (d.putb pg f b).evo = d.evo := rfl
@[simp] theorem Dev.putb_evi (d : Dev) (pg : Nat) (f : Fld) (b : Bool) : (d.putb pg f b).evi = d.evi := rfl
@[simp] theorem Dev.putb_aud (d : Dev) (pg : Nat) (f : Fld) (b : Bool) : (d.putb pg f b).aud = d.aud := rfl
@[simp] theorem Dev.putb_plk (d : Dev) (pg : Nat) (f : Fld) (b : Bool) : (d.putb pg f b).plk = d.plk := rfl
@[simp] theorem Dev.putb_ldr (d : Dev) (pg : Nat) (f : Fld) (b : Bool) : (d.putb pg f b).ldr = d.ldr := rfl
@[simp] theorem Dev.putb_pts (d : Dev) (pg : Nat) (f : Fld) (b : Bool) : (d.putb pg f b).pts = d.pts := rfl
@[simp] theorem Dev.putb_port (d : Dev) (pg : Nat) (f : Fld) (b : Bool) : (d.putb pg f b).port = d.port := rfl
@[simp] theorem Dev.putb_lane (d : Dev) (pg : Nat) (f : Fld) (b : Bool) : (d.putb pg f b).lane = d.lane := rfl
@[simp] theorem Dev.putb_key (d : Dev) (pg : Nat) (f : Fld) (b : Bool) : (d.putb pg f b).key = d.key := rfl
@[simp] theorem Dev.putb_rsp (d : Dev) (pg : Nat) (f : Fld) (b : Bool) : (d.putb pg f b).rsp = d.rsp := rfl
@[simp] theorem Dev.putb_cst (d : Dev) (pg : Nat) (f : Fld) (b : Bool) : (d.putb pg f b).cst = d.cst := rfl
@[simp] theorem Dev.putb_rcd (d : Dev) (pg : Nat) (f : Fld) (b : Bool) : (d.putb pg f b).rcd = d.rcd := rfl
@[simp] theorem Dev.putb_flt (d : Dev) (pg : Nat) (f : Fld) (b : Bool) : (d.putb pg f b).flt = d.flt := rfl
@[simp] theorem Dev.putb_seq (d : Dev) (pg : Nat) (f : Fld) (b : Bool) : (d.putb pg f b).seq = d.seq := rfl
@[simp] theorem Dev.putb_hif (d : Dev) (pg : Nat) (f : Fld) (b : Bool) : (d.putb pg f b).hif = d.hif := rfl

@[simp] theorem Dev.after_clk (d : Dev) (dt : Nat) (i : Instr) : (d.after dt i).clk = d.clk := rfl
@[simp] theorem Dev.after_regs (d : Dev) (dt : Nat) (i : Instr) : (d.after dt i).regs = d.regs := rfl
@[simp] theorem Dev.after_lat (d : Dev) (dt : Nat) (i : Instr) : (d.after dt i).lat = d.lat := rfl
@[simp] theorem Dev.after_half (d : Dev) (dt : Nat) (i : Instr) : (d.after dt i).half = d.half := rfl
@[simp] theorem Dev.after_snapping (d : Dev) (dt : Nat) (i : Instr) : (d.after dt i).snapping = d.snapping := rfl
@[simp] theorem Dev.after_shadow (d : Dev) (dt : Nat) (i : Instr) : (d.after dt i).shadow = d.shadow := rfl
@[simp] theorem Dev.after_cyc (d : Dev) (dt : Nat) (i : Instr) : (d.after dt i).cyc = d.cyc := rfl
@[simp] theorem Dev.after_alarms (d : Dev) (dt : Nat) (i : Instr) : (d.after dt i).alarms = d.alarms := rfl
@[simp] theorem Dev.after_events (d : Dev) (dt : Nat) (i : Instr) : (d.after dt i).events = d.events := rfl
@[simp] theorem Dev.after_hwSet (d : Dev) (dt : Nat) (i : Instr) : (d.after dt i).hwSet = d.hwSet := rfl
@[simp] theorem Dev.after_out (d : Dev) (dt : Nat) (i : Instr) : (d.after dt i).out = d.out := rfl
@[simp] theorem Dev.after_ts (d : Dev) (dt : Nat) (i : Instr) : (d.after dt i).ts = d.ts := rfl
@[simp] theorem Dev.after_views (d : Dev) (dt : Nat) (i : Instr) : (d.after dt i).views = d.views := rfl
@[simp] theorem Dev.after_corr (d : Dev) (dt : Nat) (i : Instr) : (d.after dt i).corr = d.corr := rfl
@[simp] theorem Dev.after_links (d : Dev) (dt : Nat) (i : Instr) : (d.after dt i).links = d.links := rfl
@[simp] theorem Dev.after_c4Held (d : Dev) (dt : Nat) (i : Instr) : (d.after dt i).c4Held = d.c4Held := rfl
@[simp] theorem Dev.after_mon (d : Dev) (dt : Nat) (i : Instr) : (d.after dt i).mon = d.mon := rfl
@[simp] theorem Dev.after_atm (d : Dev) (dt : Nat) (i : Instr) : (d.after dt i).atm = d.atm := rfl
@[simp] theorem Dev.after_us (d : Dev) (dt : Nat) (i : Instr) : (d.after dt i).us = d.us := rfl
@[simp] theorem Dev.after_ens (d : Dev) (dt : Nat) (i : Instr) : (d.after dt i).ens = d.ens := rfl
@[simp] theorem Dev.after_sel (d : Dev) (dt : Nat) (i : Instr) : (d.after dt i).sel = d.sel := rfl
@[simp] theorem Dev.after_svc (d : Dev) (dt : Nat) (i : Instr) : (d.after dt i).svc = d.svc := rfl
@[simp] theorem Dev.after_hld (d : Dev) (dt : Nat) (i : Instr) : (d.after dt i).hld = d.hld := rfl
@[simp] theorem Dev.after_gnss (d : Dev) (dt : Nat) (i : Instr) : (d.after dt i).gnss = d.gnss := rfl
@[simp] theorem Dev.after_pwr (d : Dev) (dt : Nat) (i : Instr) : (d.after dt i).pwr = d.pwr := rfl
@[simp] theorem Dev.after_syn (d : Dev) (dt : Nat) (i : Instr) : (d.after dt i).syn = d.syn := rfl
@[simp] theorem Dev.after_cko (d : Dev) (dt : Nat) (i : Instr) : (d.after dt i).cko = d.cko := rfl
@[simp] theorem Dev.after_tdc (d : Dev) (dt : Nat) (i : Instr) : (d.after dt i).tdc = d.tdc := rfl
@[simp] theorem Dev.after_unit (d : Dev) (dt : Nat) (i : Instr) : (d.after dt i).unit = d.unit := rfl
@[simp] theorem Dev.after_tdcs (d : Dev) (dt : Nat) (i : Instr) : (d.after dt i).tdcs = d.tdcs := rfl
@[simp] theorem Dev.after_evo (d : Dev) (dt : Nat) (i : Instr) : (d.after dt i).evo = d.evo := rfl
@[simp] theorem Dev.after_evi (d : Dev) (dt : Nat) (i : Instr) : (d.after dt i).evi = d.evi := rfl
@[simp] theorem Dev.after_aud (d : Dev) (dt : Nat) (i : Instr) : (d.after dt i).aud = d.aud := rfl
@[simp] theorem Dev.after_plk (d : Dev) (dt : Nat) (i : Instr) : (d.after dt i).plk = d.plk := rfl
@[simp] theorem Dev.after_ldr (d : Dev) (dt : Nat) (i : Instr) : (d.after dt i).ldr = d.ldr := rfl
@[simp] theorem Dev.after_pts (d : Dev) (dt : Nat) (i : Instr) : (d.after dt i).pts = d.pts := rfl
@[simp] theorem Dev.after_port (d : Dev) (dt : Nat) (i : Instr) : (d.after dt i).port = d.port := rfl
@[simp] theorem Dev.after_lane (d : Dev) (dt : Nat) (i : Instr) : (d.after dt i).lane = d.lane := rfl
@[simp] theorem Dev.after_key (d : Dev) (dt : Nat) (i : Instr) : (d.after dt i).key = d.key := rfl
@[simp] theorem Dev.after_rsp (d : Dev) (dt : Nat) (i : Instr) : (d.after dt i).rsp = d.rsp := rfl
@[simp] theorem Dev.after_cst (d : Dev) (dt : Nat) (i : Instr) : (d.after dt i).cst = d.cst := rfl
@[simp] theorem Dev.after_rcd (d : Dev) (dt : Nat) (i : Instr) : (d.after dt i).rcd = d.rcd := rfl
@[simp] theorem Dev.after_flt (d : Dev) (dt : Nat) (i : Instr) : (d.after dt i).flt = d.flt := rfl
@[simp] theorem Dev.after_seq (d : Dev) (dt : Nat) (i : Instr) : (d.after dt i).seq = d.seq := rfl
@[simp] theorem Dev.after_hif (d : Dev) (dt : Nat) (i : Instr) : (d.after dt i).hif = d.hif := rfl

@[simp] theorem Dev.afterTime_clk (d : Dev) (n : Ts) (ns : Nat) (i : Instr) : (d.afterTime n ns i).clk = d.clk := rfl
@[simp] theorem Dev.afterTime_regs (d : Dev) (n : Ts) (ns : Nat) (i : Instr) : (d.afterTime n ns i).regs = d.regs := rfl
@[simp] theorem Dev.afterTime_lat (d : Dev) (n : Ts) (ns : Nat) (i : Instr) : (d.afterTime n ns i).lat = d.lat := rfl
@[simp] theorem Dev.afterTime_half (d : Dev) (n : Ts) (ns : Nat) (i : Instr) : (d.afterTime n ns i).half = d.half := rfl
@[simp] theorem Dev.afterTime_snapping (d : Dev) (n : Ts) (ns : Nat) (i : Instr) : (d.afterTime n ns i).snapping = d.snapping := rfl
@[simp] theorem Dev.afterTime_shadow (d : Dev) (n : Ts) (ns : Nat) (i : Instr) : (d.afterTime n ns i).shadow = d.shadow := rfl
@[simp] theorem Dev.afterTime_cyc (d : Dev) (n : Ts) (ns : Nat) (i : Instr) : (d.afterTime n ns i).cyc = d.cyc := rfl
@[simp] theorem Dev.afterTime_agenda (d : Dev) (n : Ts) (ns : Nat) (i : Instr) : (d.afterTime n ns i).agenda = d.agenda := rfl
@[simp] theorem Dev.afterTime_events (d : Dev) (n : Ts) (ns : Nat) (i : Instr) : (d.afterTime n ns i).events = d.events := rfl
@[simp] theorem Dev.afterTime_hwSet (d : Dev) (n : Ts) (ns : Nat) (i : Instr) : (d.afterTime n ns i).hwSet = d.hwSet := rfl
@[simp] theorem Dev.afterTime_out (d : Dev) (n : Ts) (ns : Nat) (i : Instr) : (d.afterTime n ns i).out = d.out := rfl
@[simp] theorem Dev.afterTime_ts (d : Dev) (n : Ts) (ns : Nat) (i : Instr) : (d.afterTime n ns i).ts = d.ts := rfl
@[simp] theorem Dev.afterTime_views (d : Dev) (n : Ts) (ns : Nat) (i : Instr) : (d.afterTime n ns i).views = d.views := rfl
@[simp] theorem Dev.afterTime_corr (d : Dev) (n : Ts) (ns : Nat) (i : Instr) : (d.afterTime n ns i).corr = d.corr := rfl
@[simp] theorem Dev.afterTime_links (d : Dev) (n : Ts) (ns : Nat) (i : Instr) : (d.afterTime n ns i).links = d.links := rfl
@[simp] theorem Dev.afterTime_c4Held (d : Dev) (n : Ts) (ns : Nat) (i : Instr) : (d.afterTime n ns i).c4Held = d.c4Held := rfl
@[simp] theorem Dev.afterTime_mon (d : Dev) (n : Ts) (ns : Nat) (i : Instr) : (d.afterTime n ns i).mon = d.mon := rfl
@[simp] theorem Dev.afterTime_atm (d : Dev) (n : Ts) (ns : Nat) (i : Instr) : (d.afterTime n ns i).atm = d.atm := rfl
@[simp] theorem Dev.afterTime_us (d : Dev) (n : Ts) (ns : Nat) (i : Instr) : (d.afterTime n ns i).us = d.us := rfl
@[simp] theorem Dev.afterTime_ens (d : Dev) (n : Ts) (ns : Nat) (i : Instr) : (d.afterTime n ns i).ens = d.ens := rfl
@[simp] theorem Dev.afterTime_sel (d : Dev) (n : Ts) (ns : Nat) (i : Instr) : (d.afterTime n ns i).sel = d.sel := rfl
@[simp] theorem Dev.afterTime_svc (d : Dev) (n : Ts) (ns : Nat) (i : Instr) : (d.afterTime n ns i).svc = d.svc := rfl
@[simp] theorem Dev.afterTime_hld (d : Dev) (n : Ts) (ns : Nat) (i : Instr) : (d.afterTime n ns i).hld = d.hld := rfl
@[simp] theorem Dev.afterTime_gnss (d : Dev) (n : Ts) (ns : Nat) (i : Instr) : (d.afterTime n ns i).gnss = d.gnss := rfl
@[simp] theorem Dev.afterTime_pwr (d : Dev) (n : Ts) (ns : Nat) (i : Instr) : (d.afterTime n ns i).pwr = d.pwr := rfl
@[simp] theorem Dev.afterTime_syn (d : Dev) (n : Ts) (ns : Nat) (i : Instr) : (d.afterTime n ns i).syn = d.syn := rfl
@[simp] theorem Dev.afterTime_cko (d : Dev) (n : Ts) (ns : Nat) (i : Instr) : (d.afterTime n ns i).cko = d.cko := rfl
@[simp] theorem Dev.afterTime_tdc (d : Dev) (n : Ts) (ns : Nat) (i : Instr) : (d.afterTime n ns i).tdc = d.tdc := rfl
@[simp] theorem Dev.afterTime_unit (d : Dev) (n : Ts) (ns : Nat) (i : Instr) : (d.afterTime n ns i).unit = d.unit := rfl
@[simp] theorem Dev.afterTime_tdcs (d : Dev) (n : Ts) (ns : Nat) (i : Instr) : (d.afterTime n ns i).tdcs = d.tdcs := rfl
@[simp] theorem Dev.afterTime_evo (d : Dev) (n : Ts) (ns : Nat) (i : Instr) : (d.afterTime n ns i).evo = d.evo := rfl
@[simp] theorem Dev.afterTime_evi (d : Dev) (n : Ts) (ns : Nat) (i : Instr) : (d.afterTime n ns i).evi = d.evi := rfl
@[simp] theorem Dev.afterTime_aud (d : Dev) (n : Ts) (ns : Nat) (i : Instr) : (d.afterTime n ns i).aud = d.aud := rfl
@[simp] theorem Dev.afterTime_plk (d : Dev) (n : Ts) (ns : Nat) (i : Instr) : (d.afterTime n ns i).plk = d.plk := rfl
@[simp] theorem Dev.afterTime_ldr (d : Dev) (n : Ts) (ns : Nat) (i : Instr) : (d.afterTime n ns i).ldr = d.ldr := rfl
@[simp] theorem Dev.afterTime_pts (d : Dev) (n : Ts) (ns : Nat) (i : Instr) : (d.afterTime n ns i).pts = d.pts := rfl
@[simp] theorem Dev.afterTime_port (d : Dev) (n : Ts) (ns : Nat) (i : Instr) : (d.afterTime n ns i).port = d.port := rfl
@[simp] theorem Dev.afterTime_lane (d : Dev) (n : Ts) (ns : Nat) (i : Instr) : (d.afterTime n ns i).lane = d.lane := rfl
@[simp] theorem Dev.afterTime_key (d : Dev) (n : Ts) (ns : Nat) (i : Instr) : (d.afterTime n ns i).key = d.key := rfl
@[simp] theorem Dev.afterTime_rsp (d : Dev) (n : Ts) (ns : Nat) (i : Instr) : (d.afterTime n ns i).rsp = d.rsp := rfl
@[simp] theorem Dev.afterTime_cst (d : Dev) (n : Ts) (ns : Nat) (i : Instr) : (d.afterTime n ns i).cst = d.cst := rfl
@[simp] theorem Dev.afterTime_rcd (d : Dev) (n : Ts) (ns : Nat) (i : Instr) : (d.afterTime n ns i).rcd = d.rcd := rfl
@[simp] theorem Dev.afterTime_flt (d : Dev) (n : Ts) (ns : Nat) (i : Instr) : (d.afterTime n ns i).flt = d.flt := rfl
@[simp] theorem Dev.afterTime_seq (d : Dev) (n : Ts) (ns : Nat) (i : Instr) : (d.afterTime n ns i).seq = d.seq := rfl
@[simp] theorem Dev.afterTime_hif (d : Dev) (n : Ts) (ns : Nat) (i : Instr) : (d.afterTime n ns i).hif = d.hif := rfl

@[simp] theorem Dev.cancel_clk (d : Dev) (i : Instr) : (d.cancel i).clk = d.clk := rfl
@[simp] theorem Dev.cancel_regs (d : Dev) (i : Instr) : (d.cancel i).regs = d.regs := rfl
@[simp] theorem Dev.cancel_lat (d : Dev) (i : Instr) : (d.cancel i).lat = d.lat := rfl
@[simp] theorem Dev.cancel_half (d : Dev) (i : Instr) : (d.cancel i).half = d.half := rfl
@[simp] theorem Dev.cancel_snapping (d : Dev) (i : Instr) : (d.cancel i).snapping = d.snapping := rfl
@[simp] theorem Dev.cancel_shadow (d : Dev) (i : Instr) : (d.cancel i).shadow = d.shadow := rfl
@[simp] theorem Dev.cancel_cyc (d : Dev) (i : Instr) : (d.cancel i).cyc = d.cyc := rfl
@[simp] theorem Dev.cancel_events (d : Dev) (i : Instr) : (d.cancel i).events = d.events := rfl
@[simp] theorem Dev.cancel_hwSet (d : Dev) (i : Instr) : (d.cancel i).hwSet = d.hwSet := rfl
@[simp] theorem Dev.cancel_out (d : Dev) (i : Instr) : (d.cancel i).out = d.out := rfl
@[simp] theorem Dev.cancel_ts (d : Dev) (i : Instr) : (d.cancel i).ts = d.ts := rfl
@[simp] theorem Dev.cancel_views (d : Dev) (i : Instr) : (d.cancel i).views = d.views := rfl
@[simp] theorem Dev.cancel_corr (d : Dev) (i : Instr) : (d.cancel i).corr = d.corr := rfl
@[simp] theorem Dev.cancel_links (d : Dev) (i : Instr) : (d.cancel i).links = d.links := rfl
@[simp] theorem Dev.cancel_c4Held (d : Dev) (i : Instr) : (d.cancel i).c4Held = d.c4Held := rfl
@[simp] theorem Dev.cancel_mon (d : Dev) (i : Instr) : (d.cancel i).mon = d.mon := rfl
@[simp] theorem Dev.cancel_atm (d : Dev) (i : Instr) : (d.cancel i).atm = d.atm := rfl
@[simp] theorem Dev.cancel_us (d : Dev) (i : Instr) : (d.cancel i).us = d.us := rfl
@[simp] theorem Dev.cancel_ens (d : Dev) (i : Instr) : (d.cancel i).ens = d.ens := rfl
@[simp] theorem Dev.cancel_sel (d : Dev) (i : Instr) : (d.cancel i).sel = d.sel := rfl
@[simp] theorem Dev.cancel_svc (d : Dev) (i : Instr) : (d.cancel i).svc = d.svc := rfl
@[simp] theorem Dev.cancel_hld (d : Dev) (i : Instr) : (d.cancel i).hld = d.hld := rfl
@[simp] theorem Dev.cancel_gnss (d : Dev) (i : Instr) : (d.cancel i).gnss = d.gnss := rfl
@[simp] theorem Dev.cancel_pwr (d : Dev) (i : Instr) : (d.cancel i).pwr = d.pwr := rfl
@[simp] theorem Dev.cancel_syn (d : Dev) (i : Instr) : (d.cancel i).syn = d.syn := rfl
@[simp] theorem Dev.cancel_cko (d : Dev) (i : Instr) : (d.cancel i).cko = d.cko := rfl
@[simp] theorem Dev.cancel_tdc (d : Dev) (i : Instr) : (d.cancel i).tdc = d.tdc := rfl
@[simp] theorem Dev.cancel_unit (d : Dev) (i : Instr) : (d.cancel i).unit = d.unit := rfl
@[simp] theorem Dev.cancel_tdcs (d : Dev) (i : Instr) : (d.cancel i).tdcs = d.tdcs := rfl
@[simp] theorem Dev.cancel_evo (d : Dev) (i : Instr) : (d.cancel i).evo = d.evo := rfl
@[simp] theorem Dev.cancel_evi (d : Dev) (i : Instr) : (d.cancel i).evi = d.evi := rfl
@[simp] theorem Dev.cancel_aud (d : Dev) (i : Instr) : (d.cancel i).aud = d.aud := rfl
@[simp] theorem Dev.cancel_plk (d : Dev) (i : Instr) : (d.cancel i).plk = d.plk := rfl
@[simp] theorem Dev.cancel_ldr (d : Dev) (i : Instr) : (d.cancel i).ldr = d.ldr := rfl
@[simp] theorem Dev.cancel_pts (d : Dev) (i : Instr) : (d.cancel i).pts = d.pts := rfl
@[simp] theorem Dev.cancel_port (d : Dev) (i : Instr) : (d.cancel i).port = d.port := rfl
@[simp] theorem Dev.cancel_lane (d : Dev) (i : Instr) : (d.cancel i).lane = d.lane := rfl
@[simp] theorem Dev.cancel_key (d : Dev) (i : Instr) : (d.cancel i).key = d.key := rfl
@[simp] theorem Dev.cancel_rsp (d : Dev) (i : Instr) : (d.cancel i).rsp = d.rsp := rfl
@[simp] theorem Dev.cancel_cst (d : Dev) (i : Instr) : (d.cancel i).cst = d.cst := rfl
@[simp] theorem Dev.cancel_rcd (d : Dev) (i : Instr) : (d.cancel i).rcd = d.rcd := rfl
@[simp] theorem Dev.cancel_flt (d : Dev) (i : Instr) : (d.cancel i).flt = d.flt := rfl
@[simp] theorem Dev.cancel_seq (d : Dev) (i : Instr) : (d.cancel i).seq = d.seq := rfl
@[simp] theorem Dev.cancel_hif (d : Dev) (i : Instr) : (d.cancel i).hif = d.hif := rfl

@[simp] theorem Dev.timer_clk (d : Dev) (dt : Nat) (i : Instr) : (d.timer dt i).clk = d.clk := rfl
@[simp] theorem Dev.timer_regs (d : Dev) (dt : Nat) (i : Instr) : (d.timer dt i).regs = d.regs := rfl
@[simp] theorem Dev.timer_lat (d : Dev) (dt : Nat) (i : Instr) : (d.timer dt i).lat = d.lat := rfl
@[simp] theorem Dev.timer_half (d : Dev) (dt : Nat) (i : Instr) : (d.timer dt i).half = d.half := rfl
@[simp] theorem Dev.timer_snapping (d : Dev) (dt : Nat) (i : Instr) : (d.timer dt i).snapping = d.snapping := rfl
@[simp] theorem Dev.timer_shadow (d : Dev) (dt : Nat) (i : Instr) : (d.timer dt i).shadow = d.shadow := rfl
@[simp] theorem Dev.timer_cyc (d : Dev) (dt : Nat) (i : Instr) : (d.timer dt i).cyc = d.cyc := rfl
@[simp] theorem Dev.timer_events (d : Dev) (dt : Nat) (i : Instr) : (d.timer dt i).events = d.events := rfl
@[simp] theorem Dev.timer_hwSet (d : Dev) (dt : Nat) (i : Instr) : (d.timer dt i).hwSet = d.hwSet := rfl
@[simp] theorem Dev.timer_out (d : Dev) (dt : Nat) (i : Instr) : (d.timer dt i).out = d.out := rfl
@[simp] theorem Dev.timer_ts (d : Dev) (dt : Nat) (i : Instr) : (d.timer dt i).ts = d.ts := rfl
@[simp] theorem Dev.timer_views (d : Dev) (dt : Nat) (i : Instr) : (d.timer dt i).views = d.views := rfl
@[simp] theorem Dev.timer_corr (d : Dev) (dt : Nat) (i : Instr) : (d.timer dt i).corr = d.corr := rfl
@[simp] theorem Dev.timer_links (d : Dev) (dt : Nat) (i : Instr) : (d.timer dt i).links = d.links := rfl
@[simp] theorem Dev.timer_c4Held (d : Dev) (dt : Nat) (i : Instr) : (d.timer dt i).c4Held = d.c4Held := rfl
@[simp] theorem Dev.timer_mon (d : Dev) (dt : Nat) (i : Instr) : (d.timer dt i).mon = d.mon := rfl
@[simp] theorem Dev.timer_atm (d : Dev) (dt : Nat) (i : Instr) : (d.timer dt i).atm = d.atm := rfl
@[simp] theorem Dev.timer_us (d : Dev) (dt : Nat) (i : Instr) : (d.timer dt i).us = d.us := rfl
@[simp] theorem Dev.timer_ens (d : Dev) (dt : Nat) (i : Instr) : (d.timer dt i).ens = d.ens := rfl
@[simp] theorem Dev.timer_sel (d : Dev) (dt : Nat) (i : Instr) : (d.timer dt i).sel = d.sel := rfl
@[simp] theorem Dev.timer_svc (d : Dev) (dt : Nat) (i : Instr) : (d.timer dt i).svc = d.svc := rfl
@[simp] theorem Dev.timer_hld (d : Dev) (dt : Nat) (i : Instr) : (d.timer dt i).hld = d.hld := rfl
@[simp] theorem Dev.timer_gnss (d : Dev) (dt : Nat) (i : Instr) : (d.timer dt i).gnss = d.gnss := rfl
@[simp] theorem Dev.timer_pwr (d : Dev) (dt : Nat) (i : Instr) : (d.timer dt i).pwr = d.pwr := rfl
@[simp] theorem Dev.timer_syn (d : Dev) (dt : Nat) (i : Instr) : (d.timer dt i).syn = d.syn := rfl
@[simp] theorem Dev.timer_cko (d : Dev) (dt : Nat) (i : Instr) : (d.timer dt i).cko = d.cko := rfl
@[simp] theorem Dev.timer_tdc (d : Dev) (dt : Nat) (i : Instr) : (d.timer dt i).tdc = d.tdc := rfl
@[simp] theorem Dev.timer_unit (d : Dev) (dt : Nat) (i : Instr) : (d.timer dt i).unit = d.unit := rfl
@[simp] theorem Dev.timer_tdcs (d : Dev) (dt : Nat) (i : Instr) : (d.timer dt i).tdcs = d.tdcs := rfl
@[simp] theorem Dev.timer_evo (d : Dev) (dt : Nat) (i : Instr) : (d.timer dt i).evo = d.evo := rfl
@[simp] theorem Dev.timer_evi (d : Dev) (dt : Nat) (i : Instr) : (d.timer dt i).evi = d.evi := rfl
@[simp] theorem Dev.timer_aud (d : Dev) (dt : Nat) (i : Instr) : (d.timer dt i).aud = d.aud := rfl
@[simp] theorem Dev.timer_plk (d : Dev) (dt : Nat) (i : Instr) : (d.timer dt i).plk = d.plk := rfl
@[simp] theorem Dev.timer_ldr (d : Dev) (dt : Nat) (i : Instr) : (d.timer dt i).ldr = d.ldr := rfl
@[simp] theorem Dev.timer_pts (d : Dev) (dt : Nat) (i : Instr) : (d.timer dt i).pts = d.pts := rfl
@[simp] theorem Dev.timer_port (d : Dev) (dt : Nat) (i : Instr) : (d.timer dt i).port = d.port := rfl
@[simp] theorem Dev.timer_lane (d : Dev) (dt : Nat) (i : Instr) : (d.timer dt i).lane = d.lane := rfl
@[simp] theorem Dev.timer_key (d : Dev) (dt : Nat) (i : Instr) : (d.timer dt i).key = d.key := rfl
@[simp] theorem Dev.timer_rsp (d : Dev) (dt : Nat) (i : Instr) : (d.timer dt i).rsp = d.rsp := rfl
@[simp] theorem Dev.timer_cst (d : Dev) (dt : Nat) (i : Instr) : (d.timer dt i).cst = d.cst := rfl
@[simp] theorem Dev.timer_rcd (d : Dev) (dt : Nat) (i : Instr) : (d.timer dt i).rcd = d.rcd := rfl
@[simp] theorem Dev.timer_flt (d : Dev) (dt : Nat) (i : Instr) : (d.timer dt i).flt = d.flt := rfl
@[simp] theorem Dev.timer_seq (d : Dev) (dt : Nat) (i : Instr) : (d.timer dt i).seq = d.seq := rfl
@[simp] theorem Dev.timer_hif (d : Dev) (dt : Nat) (i : Instr) : (d.timer dt i).hif = d.hif := rfl

@[simp] theorem Dev.timerTime_clk (d : Dev) (n : Ts) (ns : Nat) (i : Instr) : (d.timerTime n ns i).clk = d.clk := rfl
@[simp] theorem Dev.timerTime_regs (d : Dev) (n : Ts) (ns : Nat) (i : Instr) : (d.timerTime n ns i).regs = d.regs := rfl
@[simp] theorem Dev.timerTime_lat (d : Dev) (n : Ts) (ns : Nat) (i : Instr) : (d.timerTime n ns i).lat = d.lat := rfl
@[simp] theorem Dev.timerTime_half (d : Dev) (n : Ts) (ns : Nat) (i : Instr) : (d.timerTime n ns i).half = d.half := rfl
@[simp] theorem Dev.timerTime_snapping (d : Dev) (n : Ts) (ns : Nat) (i : Instr) : (d.timerTime n ns i).snapping = d.snapping := rfl
@[simp] theorem Dev.timerTime_shadow (d : Dev) (n : Ts) (ns : Nat) (i : Instr) : (d.timerTime n ns i).shadow = d.shadow := rfl
@[simp] theorem Dev.timerTime_cyc (d : Dev) (n : Ts) (ns : Nat) (i : Instr) : (d.timerTime n ns i).cyc = d.cyc := rfl
@[simp] theorem Dev.timerTime_events (d : Dev) (n : Ts) (ns : Nat) (i : Instr) : (d.timerTime n ns i).events = d.events := rfl
@[simp] theorem Dev.timerTime_hwSet (d : Dev) (n : Ts) (ns : Nat) (i : Instr) : (d.timerTime n ns i).hwSet = d.hwSet := rfl
@[simp] theorem Dev.timerTime_out (d : Dev) (n : Ts) (ns : Nat) (i : Instr) : (d.timerTime n ns i).out = d.out := rfl
@[simp] theorem Dev.timerTime_ts (d : Dev) (n : Ts) (ns : Nat) (i : Instr) : (d.timerTime n ns i).ts = d.ts := rfl
@[simp] theorem Dev.timerTime_views (d : Dev) (n : Ts) (ns : Nat) (i : Instr) : (d.timerTime n ns i).views = d.views := rfl
@[simp] theorem Dev.timerTime_corr (d : Dev) (n : Ts) (ns : Nat) (i : Instr) : (d.timerTime n ns i).corr = d.corr := rfl
@[simp] theorem Dev.timerTime_links (d : Dev) (n : Ts) (ns : Nat) (i : Instr) : (d.timerTime n ns i).links = d.links := rfl
@[simp] theorem Dev.timerTime_c4Held (d : Dev) (n : Ts) (ns : Nat) (i : Instr) : (d.timerTime n ns i).c4Held = d.c4Held := rfl
@[simp] theorem Dev.timerTime_mon (d : Dev) (n : Ts) (ns : Nat) (i : Instr) : (d.timerTime n ns i).mon = d.mon := rfl
@[simp] theorem Dev.timerTime_atm (d : Dev) (n : Ts) (ns : Nat) (i : Instr) : (d.timerTime n ns i).atm = d.atm := rfl
@[simp] theorem Dev.timerTime_us (d : Dev) (n : Ts) (ns : Nat) (i : Instr) : (d.timerTime n ns i).us = d.us := rfl
@[simp] theorem Dev.timerTime_ens (d : Dev) (n : Ts) (ns : Nat) (i : Instr) : (d.timerTime n ns i).ens = d.ens := rfl
@[simp] theorem Dev.timerTime_sel (d : Dev) (n : Ts) (ns : Nat) (i : Instr) : (d.timerTime n ns i).sel = d.sel := rfl
@[simp] theorem Dev.timerTime_svc (d : Dev) (n : Ts) (ns : Nat) (i : Instr) : (d.timerTime n ns i).svc = d.svc := rfl
@[simp] theorem Dev.timerTime_hld (d : Dev) (n : Ts) (ns : Nat) (i : Instr) : (d.timerTime n ns i).hld = d.hld := rfl
@[simp] theorem Dev.timerTime_gnss (d : Dev) (n : Ts) (ns : Nat) (i : Instr) : (d.timerTime n ns i).gnss = d.gnss := rfl
@[simp] theorem Dev.timerTime_pwr (d : Dev) (n : Ts) (ns : Nat) (i : Instr) : (d.timerTime n ns i).pwr = d.pwr := rfl
@[simp] theorem Dev.timerTime_syn (d : Dev) (n : Ts) (ns : Nat) (i : Instr) : (d.timerTime n ns i).syn = d.syn := rfl
@[simp] theorem Dev.timerTime_cko (d : Dev) (n : Ts) (ns : Nat) (i : Instr) : (d.timerTime n ns i).cko = d.cko := rfl
@[simp] theorem Dev.timerTime_tdc (d : Dev) (n : Ts) (ns : Nat) (i : Instr) : (d.timerTime n ns i).tdc = d.tdc := rfl
@[simp] theorem Dev.timerTime_unit (d : Dev) (n : Ts) (ns : Nat) (i : Instr) : (d.timerTime n ns i).unit = d.unit := rfl
@[simp] theorem Dev.timerTime_tdcs (d : Dev) (n : Ts) (ns : Nat) (i : Instr) : (d.timerTime n ns i).tdcs = d.tdcs := rfl
@[simp] theorem Dev.timerTime_evo (d : Dev) (n : Ts) (ns : Nat) (i : Instr) : (d.timerTime n ns i).evo = d.evo := rfl
@[simp] theorem Dev.timerTime_evi (d : Dev) (n : Ts) (ns : Nat) (i : Instr) : (d.timerTime n ns i).evi = d.evi := rfl
@[simp] theorem Dev.timerTime_aud (d : Dev) (n : Ts) (ns : Nat) (i : Instr) : (d.timerTime n ns i).aud = d.aud := rfl
@[simp] theorem Dev.timerTime_plk (d : Dev) (n : Ts) (ns : Nat) (i : Instr) : (d.timerTime n ns i).plk = d.plk := rfl
@[simp] theorem Dev.timerTime_ldr (d : Dev) (n : Ts) (ns : Nat) (i : Instr) : (d.timerTime n ns i).ldr = d.ldr := rfl
@[simp] theorem Dev.timerTime_pts (d : Dev) (n : Ts) (ns : Nat) (i : Instr) : (d.timerTime n ns i).pts = d.pts := rfl
@[simp] theorem Dev.timerTime_port (d : Dev) (n : Ts) (ns : Nat) (i : Instr) : (d.timerTime n ns i).port = d.port := rfl
@[simp] theorem Dev.timerTime_lane (d : Dev) (n : Ts) (ns : Nat) (i : Instr) : (d.timerTime n ns i).lane = d.lane := rfl
@[simp] theorem Dev.timerTime_key (d : Dev) (n : Ts) (ns : Nat) (i : Instr) : (d.timerTime n ns i).key = d.key := rfl
@[simp] theorem Dev.timerTime_rsp (d : Dev) (n : Ts) (ns : Nat) (i : Instr) : (d.timerTime n ns i).rsp = d.rsp := rfl
@[simp] theorem Dev.timerTime_cst (d : Dev) (n : Ts) (ns : Nat) (i : Instr) : (d.timerTime n ns i).cst = d.cst := rfl
@[simp] theorem Dev.timerTime_rcd (d : Dev) (n : Ts) (ns : Nat) (i : Instr) : (d.timerTime n ns i).rcd = d.rcd := rfl
@[simp] theorem Dev.timerTime_flt (d : Dev) (n : Ts) (ns : Nat) (i : Instr) : (d.timerTime n ns i).flt = d.flt := rfl
@[simp] theorem Dev.timerTime_seq (d : Dev) (n : Ts) (ns : Nat) (i : Instr) : (d.timerTime n ns i).seq = d.seq := rfl
@[simp] theorem Dev.timerTime_hif (d : Dev) (n : Ts) (ns : Nat) (i : Instr) : (d.timerTime n ns i).hif = d.hif := rfl

@[simp] theorem Dev.stampAs_clk (d : Dev) (pg kind mec : Nat) : (d.stampAs pg kind mec).clk = d.clk := rfl
@[simp] theorem Dev.stampAs_regs (d : Dev) (pg kind mec : Nat) : (d.stampAs pg kind mec).regs = d.regs := rfl
@[simp] theorem Dev.stampAs_lat (d : Dev) (pg kind mec : Nat) : (d.stampAs pg kind mec).lat = d.lat := rfl
@[simp] theorem Dev.stampAs_half (d : Dev) (pg kind mec : Nat) : (d.stampAs pg kind mec).half = d.half := rfl
@[simp] theorem Dev.stampAs_snapping (d : Dev) (pg kind mec : Nat) : (d.stampAs pg kind mec).snapping = d.snapping := rfl
@[simp] theorem Dev.stampAs_shadow (d : Dev) (pg kind mec : Nat) : (d.stampAs pg kind mec).shadow = d.shadow := rfl
@[simp] theorem Dev.stampAs_cyc (d : Dev) (pg kind mec : Nat) : (d.stampAs pg kind mec).cyc = d.cyc := rfl
@[simp] theorem Dev.stampAs_agenda (d : Dev) (pg kind mec : Nat) : (d.stampAs pg kind mec).agenda = d.agenda := rfl
@[simp] theorem Dev.stampAs_alarms (d : Dev) (pg kind mec : Nat) : (d.stampAs pg kind mec).alarms = d.alarms := rfl
@[simp] theorem Dev.stampAs_hwSet (d : Dev) (pg kind mec : Nat) : (d.stampAs pg kind mec).hwSet = d.hwSet := rfl
@[simp] theorem Dev.stampAs_out (d : Dev) (pg kind mec : Nat) : (d.stampAs pg kind mec).out = d.out := rfl
@[simp] theorem Dev.stampAs_ts (d : Dev) (pg kind mec : Nat) : (d.stampAs pg kind mec).ts = d.ts := rfl
@[simp] theorem Dev.stampAs_views (d : Dev) (pg kind mec : Nat) : (d.stampAs pg kind mec).views = d.views := rfl
@[simp] theorem Dev.stampAs_corr (d : Dev) (pg kind mec : Nat) : (d.stampAs pg kind mec).corr = d.corr := rfl
@[simp] theorem Dev.stampAs_links (d : Dev) (pg kind mec : Nat) : (d.stampAs pg kind mec).links = d.links := rfl
@[simp] theorem Dev.stampAs_c4Held (d : Dev) (pg kind mec : Nat) : (d.stampAs pg kind mec).c4Held = d.c4Held := rfl
@[simp] theorem Dev.stampAs_mon (d : Dev) (pg kind mec : Nat) : (d.stampAs pg kind mec).mon = d.mon := rfl
@[simp] theorem Dev.stampAs_atm (d : Dev) (pg kind mec : Nat) : (d.stampAs pg kind mec).atm = d.atm := rfl
@[simp] theorem Dev.stampAs_us (d : Dev) (pg kind mec : Nat) : (d.stampAs pg kind mec).us = d.us := rfl
@[simp] theorem Dev.stampAs_ens (d : Dev) (pg kind mec : Nat) : (d.stampAs pg kind mec).ens = d.ens := rfl
@[simp] theorem Dev.stampAs_sel (d : Dev) (pg kind mec : Nat) : (d.stampAs pg kind mec).sel = d.sel := rfl
@[simp] theorem Dev.stampAs_svc (d : Dev) (pg kind mec : Nat) : (d.stampAs pg kind mec).svc = d.svc := rfl
@[simp] theorem Dev.stampAs_hld (d : Dev) (pg kind mec : Nat) : (d.stampAs pg kind mec).hld = d.hld := rfl
@[simp] theorem Dev.stampAs_gnss (d : Dev) (pg kind mec : Nat) : (d.stampAs pg kind mec).gnss = d.gnss := rfl
@[simp] theorem Dev.stampAs_pwr (d : Dev) (pg kind mec : Nat) : (d.stampAs pg kind mec).pwr = d.pwr := rfl
@[simp] theorem Dev.stampAs_syn (d : Dev) (pg kind mec : Nat) : (d.stampAs pg kind mec).syn = d.syn := rfl
@[simp] theorem Dev.stampAs_cko (d : Dev) (pg kind mec : Nat) : (d.stampAs pg kind mec).cko = d.cko := rfl
@[simp] theorem Dev.stampAs_tdc (d : Dev) (pg kind mec : Nat) : (d.stampAs pg kind mec).tdc = d.tdc := rfl
@[simp] theorem Dev.stampAs_unit (d : Dev) (pg kind mec : Nat) : (d.stampAs pg kind mec).unit = d.unit := rfl
@[simp] theorem Dev.stampAs_tdcs (d : Dev) (pg kind mec : Nat) : (d.stampAs pg kind mec).tdcs = d.tdcs := rfl
@[simp] theorem Dev.stampAs_evo (d : Dev) (pg kind mec : Nat) : (d.stampAs pg kind mec).evo = d.evo := rfl
@[simp] theorem Dev.stampAs_evi (d : Dev) (pg kind mec : Nat) : (d.stampAs pg kind mec).evi = d.evi := rfl
@[simp] theorem Dev.stampAs_aud (d : Dev) (pg kind mec : Nat) : (d.stampAs pg kind mec).aud = d.aud := rfl
@[simp] theorem Dev.stampAs_plk (d : Dev) (pg kind mec : Nat) : (d.stampAs pg kind mec).plk = d.plk := rfl
@[simp] theorem Dev.stampAs_ldr (d : Dev) (pg kind mec : Nat) : (d.stampAs pg kind mec).ldr = d.ldr := rfl
@[simp] theorem Dev.stampAs_pts (d : Dev) (pg kind mec : Nat) : (d.stampAs pg kind mec).pts = d.pts := rfl
@[simp] theorem Dev.stampAs_port (d : Dev) (pg kind mec : Nat) : (d.stampAs pg kind mec).port = d.port := rfl
@[simp] theorem Dev.stampAs_lane (d : Dev) (pg kind mec : Nat) : (d.stampAs pg kind mec).lane = d.lane := rfl
@[simp] theorem Dev.stampAs_key (d : Dev) (pg kind mec : Nat) : (d.stampAs pg kind mec).key = d.key := rfl
@[simp] theorem Dev.stampAs_rsp (d : Dev) (pg kind mec : Nat) : (d.stampAs pg kind mec).rsp = d.rsp := rfl
@[simp] theorem Dev.stampAs_cst (d : Dev) (pg kind mec : Nat) : (d.stampAs pg kind mec).cst = d.cst := rfl
@[simp] theorem Dev.stampAs_rcd (d : Dev) (pg kind mec : Nat) : (d.stampAs pg kind mec).rcd = d.rcd := rfl
@[simp] theorem Dev.stampAs_flt (d : Dev) (pg kind mec : Nat) : (d.stampAs pg kind mec).flt = d.flt := rfl
@[simp] theorem Dev.stampAs_seq (d : Dev) (pg kind mec : Nat) : (d.stampAs pg kind mec).seq = d.seq := rfl
@[simp] theorem Dev.stampAs_hif (d : Dev) (pg kind mec : Nat) : (d.stampAs pg kind mec).hif = d.hif := rfl

@[simp] theorem Dev.raiseBits_clk (d : Dev) (pg : Nat) (f : Fld) (m : Nat) : (d.raiseBits pg f m).clk = d.clk := rfl
@[simp] theorem Dev.raiseBits_lat (d : Dev) (pg : Nat) (f : Fld) (m : Nat) : (d.raiseBits pg f m).lat = d.lat := rfl
@[simp] theorem Dev.raiseBits_half (d : Dev) (pg : Nat) (f : Fld) (m : Nat) : (d.raiseBits pg f m).half = d.half := rfl
@[simp] theorem Dev.raiseBits_snapping (d : Dev) (pg : Nat) (f : Fld) (m : Nat) : (d.raiseBits pg f m).snapping = d.snapping := rfl
@[simp] theorem Dev.raiseBits_shadow (d : Dev) (pg : Nat) (f : Fld) (m : Nat) : (d.raiseBits pg f m).shadow = d.shadow := rfl
@[simp] theorem Dev.raiseBits_cyc (d : Dev) (pg : Nat) (f : Fld) (m : Nat) : (d.raiseBits pg f m).cyc = d.cyc := rfl
@[simp] theorem Dev.raiseBits_agenda (d : Dev) (pg : Nat) (f : Fld) (m : Nat) : (d.raiseBits pg f m).agenda = d.agenda := rfl
@[simp] theorem Dev.raiseBits_alarms (d : Dev) (pg : Nat) (f : Fld) (m : Nat) : (d.raiseBits pg f m).alarms = d.alarms := rfl
@[simp] theorem Dev.raiseBits_events (d : Dev) (pg : Nat) (f : Fld) (m : Nat) : (d.raiseBits pg f m).events = d.events := rfl
@[simp] theorem Dev.raiseBits_out (d : Dev) (pg : Nat) (f : Fld) (m : Nat) : (d.raiseBits pg f m).out = d.out := rfl
@[simp] theorem Dev.raiseBits_ts (d : Dev) (pg : Nat) (f : Fld) (m : Nat) : (d.raiseBits pg f m).ts = d.ts := rfl
@[simp] theorem Dev.raiseBits_views (d : Dev) (pg : Nat) (f : Fld) (m : Nat) : (d.raiseBits pg f m).views = d.views := rfl
@[simp] theorem Dev.raiseBits_corr (d : Dev) (pg : Nat) (f : Fld) (m : Nat) : (d.raiseBits pg f m).corr = d.corr := rfl
@[simp] theorem Dev.raiseBits_links (d : Dev) (pg : Nat) (f : Fld) (m : Nat) : (d.raiseBits pg f m).links = d.links := rfl
@[simp] theorem Dev.raiseBits_c4Held (d : Dev) (pg : Nat) (f : Fld) (m : Nat) : (d.raiseBits pg f m).c4Held = d.c4Held := rfl
@[simp] theorem Dev.raiseBits_mon (d : Dev) (pg : Nat) (f : Fld) (m : Nat) : (d.raiseBits pg f m).mon = d.mon := rfl
@[simp] theorem Dev.raiseBits_atm (d : Dev) (pg : Nat) (f : Fld) (m : Nat) : (d.raiseBits pg f m).atm = d.atm := rfl
@[simp] theorem Dev.raiseBits_us (d : Dev) (pg : Nat) (f : Fld) (m : Nat) : (d.raiseBits pg f m).us = d.us := rfl
@[simp] theorem Dev.raiseBits_ens (d : Dev) (pg : Nat) (f : Fld) (m : Nat) : (d.raiseBits pg f m).ens = d.ens := rfl
@[simp] theorem Dev.raiseBits_sel (d : Dev) (pg : Nat) (f : Fld) (m : Nat) : (d.raiseBits pg f m).sel = d.sel := rfl
@[simp] theorem Dev.raiseBits_svc (d : Dev) (pg : Nat) (f : Fld) (m : Nat) : (d.raiseBits pg f m).svc = d.svc := rfl
@[simp] theorem Dev.raiseBits_hld (d : Dev) (pg : Nat) (f : Fld) (m : Nat) : (d.raiseBits pg f m).hld = d.hld := rfl
@[simp] theorem Dev.raiseBits_gnss (d : Dev) (pg : Nat) (f : Fld) (m : Nat) : (d.raiseBits pg f m).gnss = d.gnss := rfl
@[simp] theorem Dev.raiseBits_pwr (d : Dev) (pg : Nat) (f : Fld) (m : Nat) : (d.raiseBits pg f m).pwr = d.pwr := rfl
@[simp] theorem Dev.raiseBits_syn (d : Dev) (pg : Nat) (f : Fld) (m : Nat) : (d.raiseBits pg f m).syn = d.syn := rfl
@[simp] theorem Dev.raiseBits_cko (d : Dev) (pg : Nat) (f : Fld) (m : Nat) : (d.raiseBits pg f m).cko = d.cko := rfl
@[simp] theorem Dev.raiseBits_tdc (d : Dev) (pg : Nat) (f : Fld) (m : Nat) : (d.raiseBits pg f m).tdc = d.tdc := rfl
@[simp] theorem Dev.raiseBits_unit (d : Dev) (pg : Nat) (f : Fld) (m : Nat) : (d.raiseBits pg f m).unit = d.unit := rfl
@[simp] theorem Dev.raiseBits_tdcs (d : Dev) (pg : Nat) (f : Fld) (m : Nat) : (d.raiseBits pg f m).tdcs = d.tdcs := rfl
@[simp] theorem Dev.raiseBits_evo (d : Dev) (pg : Nat) (f : Fld) (m : Nat) : (d.raiseBits pg f m).evo = d.evo := rfl
@[simp] theorem Dev.raiseBits_evi (d : Dev) (pg : Nat) (f : Fld) (m : Nat) : (d.raiseBits pg f m).evi = d.evi := rfl
@[simp] theorem Dev.raiseBits_aud (d : Dev) (pg : Nat) (f : Fld) (m : Nat) : (d.raiseBits pg f m).aud = d.aud := rfl
@[simp] theorem Dev.raiseBits_plk (d : Dev) (pg : Nat) (f : Fld) (m : Nat) : (d.raiseBits pg f m).plk = d.plk := rfl
@[simp] theorem Dev.raiseBits_ldr (d : Dev) (pg : Nat) (f : Fld) (m : Nat) : (d.raiseBits pg f m).ldr = d.ldr := rfl
@[simp] theorem Dev.raiseBits_pts (d : Dev) (pg : Nat) (f : Fld) (m : Nat) : (d.raiseBits pg f m).pts = d.pts := rfl
@[simp] theorem Dev.raiseBits_port (d : Dev) (pg : Nat) (f : Fld) (m : Nat) : (d.raiseBits pg f m).port = d.port := rfl
@[simp] theorem Dev.raiseBits_lane (d : Dev) (pg : Nat) (f : Fld) (m : Nat) : (d.raiseBits pg f m).lane = d.lane := rfl
@[simp] theorem Dev.raiseBits_key (d : Dev) (pg : Nat) (f : Fld) (m : Nat) : (d.raiseBits pg f m).key = d.key := rfl
@[simp] theorem Dev.raiseBits_rsp (d : Dev) (pg : Nat) (f : Fld) (m : Nat) : (d.raiseBits pg f m).rsp = d.rsp := rfl
@[simp] theorem Dev.raiseBits_cst (d : Dev) (pg : Nat) (f : Fld) (m : Nat) : (d.raiseBits pg f m).cst = d.cst := rfl
@[simp] theorem Dev.raiseBits_rcd (d : Dev) (pg : Nat) (f : Fld) (m : Nat) : (d.raiseBits pg f m).rcd = d.rcd := rfl
@[simp] theorem Dev.raiseBits_flt (d : Dev) (pg : Nat) (f : Fld) (m : Nat) : (d.raiseBits pg f m).flt = d.flt := rfl
@[simp] theorem Dev.raiseBits_seq (d : Dev) (pg : Nat) (f : Fld) (m : Nat) : (d.raiseBits pg f m).seq = d.seq := rfl
@[simp] theorem Dev.raiseBits_hif (d : Dev) (pg : Nat) (f : Fld) (m : Nat) : (d.raiseBits pg f m).hif = d.hif := rfl

@[simp] theorem Dev.emit_clk (d : Dev) (o : Output) : (d.emit o).clk = d.clk := rfl
@[simp] theorem Dev.emit_regs (d : Dev) (o : Output) : (d.emit o).regs = d.regs := rfl
@[simp] theorem Dev.emit_lat (d : Dev) (o : Output) : (d.emit o).lat = d.lat := rfl
@[simp] theorem Dev.emit_half (d : Dev) (o : Output) : (d.emit o).half = d.half := rfl
@[simp] theorem Dev.emit_snapping (d : Dev) (o : Output) : (d.emit o).snapping = d.snapping := rfl
@[simp] theorem Dev.emit_shadow (d : Dev) (o : Output) : (d.emit o).shadow = d.shadow := rfl
@[simp] theorem Dev.emit_cyc (d : Dev) (o : Output) : (d.emit o).cyc = d.cyc := rfl
@[simp] theorem Dev.emit_agenda (d : Dev) (o : Output) : (d.emit o).agenda = d.agenda := rfl
@[simp] theorem Dev.emit_alarms (d : Dev) (o : Output) : (d.emit o).alarms = d.alarms := rfl
@[simp] theorem Dev.emit_events (d : Dev) (o : Output) : (d.emit o).events = d.events := rfl
@[simp] theorem Dev.emit_hwSet (d : Dev) (o : Output) : (d.emit o).hwSet = d.hwSet := rfl
@[simp] theorem Dev.emit_ts (d : Dev) (o : Output) : (d.emit o).ts = d.ts := rfl
@[simp] theorem Dev.emit_views (d : Dev) (o : Output) : (d.emit o).views = d.views := rfl
@[simp] theorem Dev.emit_corr (d : Dev) (o : Output) : (d.emit o).corr = d.corr := rfl
@[simp] theorem Dev.emit_links (d : Dev) (o : Output) : (d.emit o).links = d.links := rfl
@[simp] theorem Dev.emit_c4Held (d : Dev) (o : Output) : (d.emit o).c4Held = d.c4Held := rfl
@[simp] theorem Dev.emit_mon (d : Dev) (o : Output) : (d.emit o).mon = d.mon := rfl
@[simp] theorem Dev.emit_atm (d : Dev) (o : Output) : (d.emit o).atm = d.atm := rfl
@[simp] theorem Dev.emit_us (d : Dev) (o : Output) : (d.emit o).us = d.us := rfl
@[simp] theorem Dev.emit_ens (d : Dev) (o : Output) : (d.emit o).ens = d.ens := rfl
@[simp] theorem Dev.emit_sel (d : Dev) (o : Output) : (d.emit o).sel = d.sel := rfl
@[simp] theorem Dev.emit_svc (d : Dev) (o : Output) : (d.emit o).svc = d.svc := rfl
@[simp] theorem Dev.emit_hld (d : Dev) (o : Output) : (d.emit o).hld = d.hld := rfl
@[simp] theorem Dev.emit_gnss (d : Dev) (o : Output) : (d.emit o).gnss = d.gnss := rfl
@[simp] theorem Dev.emit_pwr (d : Dev) (o : Output) : (d.emit o).pwr = d.pwr := rfl
@[simp] theorem Dev.emit_syn (d : Dev) (o : Output) : (d.emit o).syn = d.syn := rfl
@[simp] theorem Dev.emit_cko (d : Dev) (o : Output) : (d.emit o).cko = d.cko := rfl
@[simp] theorem Dev.emit_tdc (d : Dev) (o : Output) : (d.emit o).tdc = d.tdc := rfl
@[simp] theorem Dev.emit_unit (d : Dev) (o : Output) : (d.emit o).unit = d.unit := rfl
@[simp] theorem Dev.emit_tdcs (d : Dev) (o : Output) : (d.emit o).tdcs = d.tdcs := rfl
@[simp] theorem Dev.emit_evo (d : Dev) (o : Output) : (d.emit o).evo = d.evo := rfl
@[simp] theorem Dev.emit_evi (d : Dev) (o : Output) : (d.emit o).evi = d.evi := rfl
@[simp] theorem Dev.emit_aud (d : Dev) (o : Output) : (d.emit o).aud = d.aud := rfl
@[simp] theorem Dev.emit_plk (d : Dev) (o : Output) : (d.emit o).plk = d.plk := rfl
@[simp] theorem Dev.emit_ldr (d : Dev) (o : Output) : (d.emit o).ldr = d.ldr := rfl
@[simp] theorem Dev.emit_pts (d : Dev) (o : Output) : (d.emit o).pts = d.pts := rfl
@[simp] theorem Dev.emit_port (d : Dev) (o : Output) : (d.emit o).port = d.port := rfl
@[simp] theorem Dev.emit_lane (d : Dev) (o : Output) : (d.emit o).lane = d.lane := rfl
@[simp] theorem Dev.emit_key (d : Dev) (o : Output) : (d.emit o).key = d.key := rfl
@[simp] theorem Dev.emit_rsp (d : Dev) (o : Output) : (d.emit o).rsp = d.rsp := rfl
@[simp] theorem Dev.emit_cst (d : Dev) (o : Output) : (d.emit o).cst = d.cst := rfl
@[simp] theorem Dev.emit_rcd (d : Dev) (o : Output) : (d.emit o).rcd = d.rcd := rfl
@[simp] theorem Dev.emit_flt (d : Dev) (o : Output) : (d.emit o).flt = d.flt := rfl
@[simp] theorem Dev.emit_seq (d : Dev) (o : Output) : (d.emit o).seq = d.seq := rfl
@[simp] theorem Dev.emit_hif (d : Dev) (o : Output) : (d.emit o).hif = d.hif := rfl

@[simp] theorem Dev.upAud_clk (d : Dev) (p : Fin 4) (rx : Bool) (f : AudEng → AudEng) : (d.upAud p rx f).clk = d.clk := rfl
@[simp] theorem Dev.upAud_regs (d : Dev) (p : Fin 4) (rx : Bool) (f : AudEng → AudEng) : (d.upAud p rx f).regs = d.regs := rfl
@[simp] theorem Dev.upAud_lat (d : Dev) (p : Fin 4) (rx : Bool) (f : AudEng → AudEng) : (d.upAud p rx f).lat = d.lat := rfl
@[simp] theorem Dev.upAud_half (d : Dev) (p : Fin 4) (rx : Bool) (f : AudEng → AudEng) : (d.upAud p rx f).half = d.half := rfl
@[simp] theorem Dev.upAud_snapping (d : Dev) (p : Fin 4) (rx : Bool) (f : AudEng → AudEng) : (d.upAud p rx f).snapping = d.snapping := rfl
@[simp] theorem Dev.upAud_shadow (d : Dev) (p : Fin 4) (rx : Bool) (f : AudEng → AudEng) : (d.upAud p rx f).shadow = d.shadow := rfl
@[simp] theorem Dev.upAud_cyc (d : Dev) (p : Fin 4) (rx : Bool) (f : AudEng → AudEng) : (d.upAud p rx f).cyc = d.cyc := rfl
@[simp] theorem Dev.upAud_agenda (d : Dev) (p : Fin 4) (rx : Bool) (f : AudEng → AudEng) : (d.upAud p rx f).agenda = d.agenda := rfl
@[simp] theorem Dev.upAud_alarms (d : Dev) (p : Fin 4) (rx : Bool) (f : AudEng → AudEng) : (d.upAud p rx f).alarms = d.alarms := rfl
@[simp] theorem Dev.upAud_events (d : Dev) (p : Fin 4) (rx : Bool) (f : AudEng → AudEng) : (d.upAud p rx f).events = d.events := rfl
@[simp] theorem Dev.upAud_hwSet (d : Dev) (p : Fin 4) (rx : Bool) (f : AudEng → AudEng) : (d.upAud p rx f).hwSet = d.hwSet := rfl
@[simp] theorem Dev.upAud_out (d : Dev) (p : Fin 4) (rx : Bool) (f : AudEng → AudEng) : (d.upAud p rx f).out = d.out := rfl
@[simp] theorem Dev.upAud_ts (d : Dev) (p : Fin 4) (rx : Bool) (f : AudEng → AudEng) : (d.upAud p rx f).ts = d.ts := rfl
@[simp] theorem Dev.upAud_views (d : Dev) (p : Fin 4) (rx : Bool) (f : AudEng → AudEng) : (d.upAud p rx f).views = d.views := rfl
@[simp] theorem Dev.upAud_corr (d : Dev) (p : Fin 4) (rx : Bool) (f : AudEng → AudEng) : (d.upAud p rx f).corr = d.corr := rfl
@[simp] theorem Dev.upAud_links (d : Dev) (p : Fin 4) (rx : Bool) (f : AudEng → AudEng) : (d.upAud p rx f).links = d.links := rfl
@[simp] theorem Dev.upAud_c4Held (d : Dev) (p : Fin 4) (rx : Bool) (f : AudEng → AudEng) : (d.upAud p rx f).c4Held = d.c4Held := rfl
@[simp] theorem Dev.upAud_mon (d : Dev) (p : Fin 4) (rx : Bool) (f : AudEng → AudEng) : (d.upAud p rx f).mon = d.mon := rfl
@[simp] theorem Dev.upAud_atm (d : Dev) (p : Fin 4) (rx : Bool) (f : AudEng → AudEng) : (d.upAud p rx f).atm = d.atm := rfl
@[simp] theorem Dev.upAud_us (d : Dev) (p : Fin 4) (rx : Bool) (f : AudEng → AudEng) : (d.upAud p rx f).us = d.us := rfl
@[simp] theorem Dev.upAud_ens (d : Dev) (p : Fin 4) (rx : Bool) (f : AudEng → AudEng) : (d.upAud p rx f).ens = d.ens := rfl
@[simp] theorem Dev.upAud_sel (d : Dev) (p : Fin 4) (rx : Bool) (f : AudEng → AudEng) : (d.upAud p rx f).sel = d.sel := rfl
@[simp] theorem Dev.upAud_svc (d : Dev) (p : Fin 4) (rx : Bool) (f : AudEng → AudEng) : (d.upAud p rx f).svc = d.svc := rfl
@[simp] theorem Dev.upAud_hld (d : Dev) (p : Fin 4) (rx : Bool) (f : AudEng → AudEng) : (d.upAud p rx f).hld = d.hld := rfl
@[simp] theorem Dev.upAud_gnss (d : Dev) (p : Fin 4) (rx : Bool) (f : AudEng → AudEng) : (d.upAud p rx f).gnss = d.gnss := rfl
@[simp] theorem Dev.upAud_pwr (d : Dev) (p : Fin 4) (rx : Bool) (f : AudEng → AudEng) : (d.upAud p rx f).pwr = d.pwr := rfl
@[simp] theorem Dev.upAud_syn (d : Dev) (p : Fin 4) (rx : Bool) (f : AudEng → AudEng) : (d.upAud p rx f).syn = d.syn := rfl
@[simp] theorem Dev.upAud_cko (d : Dev) (p : Fin 4) (rx : Bool) (f : AudEng → AudEng) : (d.upAud p rx f).cko = d.cko := rfl
@[simp] theorem Dev.upAud_tdc (d : Dev) (p : Fin 4) (rx : Bool) (f : AudEng → AudEng) : (d.upAud p rx f).tdc = d.tdc := rfl
@[simp] theorem Dev.upAud_unit (d : Dev) (p : Fin 4) (rx : Bool) (f : AudEng → AudEng) : (d.upAud p rx f).unit = d.unit := rfl
@[simp] theorem Dev.upAud_tdcs (d : Dev) (p : Fin 4) (rx : Bool) (f : AudEng → AudEng) : (d.upAud p rx f).tdcs = d.tdcs := rfl
@[simp] theorem Dev.upAud_evo (d : Dev) (p : Fin 4) (rx : Bool) (f : AudEng → AudEng) : (d.upAud p rx f).evo = d.evo := rfl
@[simp] theorem Dev.upAud_evi (d : Dev) (p : Fin 4) (rx : Bool) (f : AudEng → AudEng) : (d.upAud p rx f).evi = d.evi := rfl
@[simp] theorem Dev.upAud_plk (d : Dev) (p : Fin 4) (rx : Bool) (f : AudEng → AudEng) : (d.upAud p rx f).plk = d.plk := rfl
@[simp] theorem Dev.upAud_ldr (d : Dev) (p : Fin 4) (rx : Bool) (f : AudEng → AudEng) : (d.upAud p rx f).ldr = d.ldr := rfl
@[simp] theorem Dev.upAud_pts (d : Dev) (p : Fin 4) (rx : Bool) (f : AudEng → AudEng) : (d.upAud p rx f).pts = d.pts := rfl
@[simp] theorem Dev.upAud_port (d : Dev) (p : Fin 4) (rx : Bool) (f : AudEng → AudEng) : (d.upAud p rx f).port = d.port := rfl
@[simp] theorem Dev.upAud_lane (d : Dev) (p : Fin 4) (rx : Bool) (f : AudEng → AudEng) : (d.upAud p rx f).lane = d.lane := rfl
@[simp] theorem Dev.upAud_key (d : Dev) (p : Fin 4) (rx : Bool) (f : AudEng → AudEng) : (d.upAud p rx f).key = d.key := rfl
@[simp] theorem Dev.upAud_rsp (d : Dev) (p : Fin 4) (rx : Bool) (f : AudEng → AudEng) : (d.upAud p rx f).rsp = d.rsp := rfl
@[simp] theorem Dev.upAud_cst (d : Dev) (p : Fin 4) (rx : Bool) (f : AudEng → AudEng) : (d.upAud p rx f).cst = d.cst := rfl
@[simp] theorem Dev.upAud_rcd (d : Dev) (p : Fin 4) (rx : Bool) (f : AudEng → AudEng) : (d.upAud p rx f).rcd = d.rcd := rfl
@[simp] theorem Dev.upAud_flt (d : Dev) (p : Fin 4) (rx : Bool) (f : AudEng → AudEng) : (d.upAud p rx f).flt = d.flt := rfl
@[simp] theorem Dev.upAud_seq (d : Dev) (p : Fin 4) (rx : Bool) (f : AudEng → AudEng) : (d.upAud p rx f).seq = d.seq := rfl
@[simp] theorem Dev.upAud_hif (d : Dev) (p : Fin 4) (rx : Bool) (f : AudEng → AudEng) : (d.upAud p rx f).hif = d.hif := rfl

@[simp] theorem Dev.upGnss_clk (d : Dev) (f : GnssEng → GnssEng) : (d.upGnss f).clk = d.clk := rfl
@[simp] theorem Dev.upGnss_regs (d : Dev) (f : GnssEng → GnssEng) : (d.upGnss f).regs = d.regs := rfl
@[simp] theorem Dev.upGnss_lat (d : Dev) (f : GnssEng → GnssEng) : (d.upGnss f).lat = d.lat := rfl
@[simp] theorem Dev.upGnss_half (d : Dev) (f : GnssEng → GnssEng) : (d.upGnss f).half = d.half := rfl
@[simp] theorem Dev.upGnss_snapping (d : Dev) (f : GnssEng → GnssEng) : (d.upGnss f).snapping = d.snapping := rfl
@[simp] theorem Dev.upGnss_shadow (d : Dev) (f : GnssEng → GnssEng) : (d.upGnss f).shadow = d.shadow := rfl
@[simp] theorem Dev.upGnss_cyc (d : Dev) (f : GnssEng → GnssEng) : (d.upGnss f).cyc = d.cyc := rfl
@[simp] theorem Dev.upGnss_agenda (d : Dev) (f : GnssEng → GnssEng) : (d.upGnss f).agenda = d.agenda := rfl
@[simp] theorem Dev.upGnss_alarms (d : Dev) (f : GnssEng → GnssEng) : (d.upGnss f).alarms = d.alarms := rfl
@[simp] theorem Dev.upGnss_events (d : Dev) (f : GnssEng → GnssEng) : (d.upGnss f).events = d.events := rfl
@[simp] theorem Dev.upGnss_hwSet (d : Dev) (f : GnssEng → GnssEng) : (d.upGnss f).hwSet = d.hwSet := rfl
@[simp] theorem Dev.upGnss_out (d : Dev) (f : GnssEng → GnssEng) : (d.upGnss f).out = d.out := rfl
@[simp] theorem Dev.upGnss_ts (d : Dev) (f : GnssEng → GnssEng) : (d.upGnss f).ts = d.ts := rfl
@[simp] theorem Dev.upGnss_views (d : Dev) (f : GnssEng → GnssEng) : (d.upGnss f).views = d.views := rfl
@[simp] theorem Dev.upGnss_corr (d : Dev) (f : GnssEng → GnssEng) : (d.upGnss f).corr = d.corr := rfl
@[simp] theorem Dev.upGnss_links (d : Dev) (f : GnssEng → GnssEng) : (d.upGnss f).links = d.links := rfl
@[simp] theorem Dev.upGnss_c4Held (d : Dev) (f : GnssEng → GnssEng) : (d.upGnss f).c4Held = d.c4Held := rfl
@[simp] theorem Dev.upGnss_mon (d : Dev) (f : GnssEng → GnssEng) : (d.upGnss f).mon = d.mon := rfl
@[simp] theorem Dev.upGnss_atm (d : Dev) (f : GnssEng → GnssEng) : (d.upGnss f).atm = d.atm := rfl
@[simp] theorem Dev.upGnss_us (d : Dev) (f : GnssEng → GnssEng) : (d.upGnss f).us = d.us := rfl
@[simp] theorem Dev.upGnss_ens (d : Dev) (f : GnssEng → GnssEng) : (d.upGnss f).ens = d.ens := rfl
@[simp] theorem Dev.upGnss_sel (d : Dev) (f : GnssEng → GnssEng) : (d.upGnss f).sel = d.sel := rfl
@[simp] theorem Dev.upGnss_svc (d : Dev) (f : GnssEng → GnssEng) : (d.upGnss f).svc = d.svc := rfl
@[simp] theorem Dev.upGnss_hld (d : Dev) (f : GnssEng → GnssEng) : (d.upGnss f).hld = d.hld := rfl
@[simp] theorem Dev.upGnss_pwr (d : Dev) (f : GnssEng → GnssEng) : (d.upGnss f).pwr = d.pwr := rfl
@[simp] theorem Dev.upGnss_syn (d : Dev) (f : GnssEng → GnssEng) : (d.upGnss f).syn = d.syn := rfl
@[simp] theorem Dev.upGnss_cko (d : Dev) (f : GnssEng → GnssEng) : (d.upGnss f).cko = d.cko := rfl
@[simp] theorem Dev.upGnss_tdc (d : Dev) (f : GnssEng → GnssEng) : (d.upGnss f).tdc = d.tdc := rfl
@[simp] theorem Dev.upGnss_unit (d : Dev) (f : GnssEng → GnssEng) : (d.upGnss f).unit = d.unit := rfl
@[simp] theorem Dev.upGnss_tdcs (d : Dev) (f : GnssEng → GnssEng) : (d.upGnss f).tdcs = d.tdcs := rfl
@[simp] theorem Dev.upGnss_evo (d : Dev) (f : GnssEng → GnssEng) : (d.upGnss f).evo = d.evo := rfl
@[simp] theorem Dev.upGnss_evi (d : Dev) (f : GnssEng → GnssEng) : (d.upGnss f).evi = d.evi := rfl
@[simp] theorem Dev.upGnss_aud (d : Dev) (f : GnssEng → GnssEng) : (d.upGnss f).aud = d.aud := rfl
@[simp] theorem Dev.upGnss_plk (d : Dev) (f : GnssEng → GnssEng) : (d.upGnss f).plk = d.plk := rfl
@[simp] theorem Dev.upGnss_ldr (d : Dev) (f : GnssEng → GnssEng) : (d.upGnss f).ldr = d.ldr := rfl
@[simp] theorem Dev.upGnss_pts (d : Dev) (f : GnssEng → GnssEng) : (d.upGnss f).pts = d.pts := rfl
@[simp] theorem Dev.upGnss_port (d : Dev) (f : GnssEng → GnssEng) : (d.upGnss f).port = d.port := rfl
@[simp] theorem Dev.upGnss_lane (d : Dev) (f : GnssEng → GnssEng) : (d.upGnss f).lane = d.lane := rfl
@[simp] theorem Dev.upGnss_key (d : Dev) (f : GnssEng → GnssEng) : (d.upGnss f).key = d.key := rfl
@[simp] theorem Dev.upGnss_rsp (d : Dev) (f : GnssEng → GnssEng) : (d.upGnss f).rsp = d.rsp := rfl
@[simp] theorem Dev.upGnss_cst (d : Dev) (f : GnssEng → GnssEng) : (d.upGnss f).cst = d.cst := rfl
@[simp] theorem Dev.upGnss_rcd (d : Dev) (f : GnssEng → GnssEng) : (d.upGnss f).rcd = d.rcd := rfl
@[simp] theorem Dev.upGnss_flt (d : Dev) (f : GnssEng → GnssEng) : (d.upGnss f).flt = d.flt := rfl
@[simp] theorem Dev.upGnss_seq (d : Dev) (f : GnssEng → GnssEng) : (d.upGnss f).seq = d.seq := rfl
@[simp] theorem Dev.upGnss_hif (d : Dev) (f : GnssEng → GnssEng) : (d.upGnss f).hif = d.hif := rfl

@[simp] theorem Dev.upSyn_clk (d : Dev) (n : Fin 4) (f : SynEng → SynEng) : (d.upSyn n f).clk = d.clk := rfl
@[simp] theorem Dev.upSyn_regs (d : Dev) (n : Fin 4) (f : SynEng → SynEng) : (d.upSyn n f).regs = d.regs := rfl
@[simp] theorem Dev.upSyn_lat (d : Dev) (n : Fin 4) (f : SynEng → SynEng) : (d.upSyn n f).lat = d.lat := rfl
@[simp] theorem Dev.upSyn_half (d : Dev) (n : Fin 4) (f : SynEng → SynEng) : (d.upSyn n f).half = d.half := rfl
@[simp] theorem Dev.upSyn_snapping (d : Dev) (n : Fin 4) (f : SynEng → SynEng) : (d.upSyn n f).snapping = d.snapping := rfl
@[simp] theorem Dev.upSyn_shadow (d : Dev) (n : Fin 4) (f : SynEng → SynEng) : (d.upSyn n f).shadow = d.shadow := rfl
@[simp] theorem Dev.upSyn_cyc (d : Dev) (n : Fin 4) (f : SynEng → SynEng) : (d.upSyn n f).cyc = d.cyc := rfl
@[simp] theorem Dev.upSyn_agenda (d : Dev) (n : Fin 4) (f : SynEng → SynEng) : (d.upSyn n f).agenda = d.agenda := rfl
@[simp] theorem Dev.upSyn_alarms (d : Dev) (n : Fin 4) (f : SynEng → SynEng) : (d.upSyn n f).alarms = d.alarms := rfl
@[simp] theorem Dev.upSyn_events (d : Dev) (n : Fin 4) (f : SynEng → SynEng) : (d.upSyn n f).events = d.events := rfl
@[simp] theorem Dev.upSyn_hwSet (d : Dev) (n : Fin 4) (f : SynEng → SynEng) : (d.upSyn n f).hwSet = d.hwSet := rfl
@[simp] theorem Dev.upSyn_out (d : Dev) (n : Fin 4) (f : SynEng → SynEng) : (d.upSyn n f).out = d.out := rfl
@[simp] theorem Dev.upSyn_ts (d : Dev) (n : Fin 4) (f : SynEng → SynEng) : (d.upSyn n f).ts = d.ts := rfl
@[simp] theorem Dev.upSyn_views (d : Dev) (n : Fin 4) (f : SynEng → SynEng) : (d.upSyn n f).views = d.views := rfl
@[simp] theorem Dev.upSyn_corr (d : Dev) (n : Fin 4) (f : SynEng → SynEng) : (d.upSyn n f).corr = d.corr := rfl
@[simp] theorem Dev.upSyn_links (d : Dev) (n : Fin 4) (f : SynEng → SynEng) : (d.upSyn n f).links = d.links := rfl
@[simp] theorem Dev.upSyn_c4Held (d : Dev) (n : Fin 4) (f : SynEng → SynEng) : (d.upSyn n f).c4Held = d.c4Held := rfl
@[simp] theorem Dev.upSyn_mon (d : Dev) (n : Fin 4) (f : SynEng → SynEng) : (d.upSyn n f).mon = d.mon := rfl
@[simp] theorem Dev.upSyn_atm (d : Dev) (n : Fin 4) (f : SynEng → SynEng) : (d.upSyn n f).atm = d.atm := rfl
@[simp] theorem Dev.upSyn_us (d : Dev) (n : Fin 4) (f : SynEng → SynEng) : (d.upSyn n f).us = d.us := rfl
@[simp] theorem Dev.upSyn_ens (d : Dev) (n : Fin 4) (f : SynEng → SynEng) : (d.upSyn n f).ens = d.ens := rfl
@[simp] theorem Dev.upSyn_sel (d : Dev) (n : Fin 4) (f : SynEng → SynEng) : (d.upSyn n f).sel = d.sel := rfl
@[simp] theorem Dev.upSyn_svc (d : Dev) (n : Fin 4) (f : SynEng → SynEng) : (d.upSyn n f).svc = d.svc := rfl
@[simp] theorem Dev.upSyn_hld (d : Dev) (n : Fin 4) (f : SynEng → SynEng) : (d.upSyn n f).hld = d.hld := rfl
@[simp] theorem Dev.upSyn_gnss (d : Dev) (n : Fin 4) (f : SynEng → SynEng) : (d.upSyn n f).gnss = d.gnss := rfl
@[simp] theorem Dev.upSyn_pwr (d : Dev) (n : Fin 4) (f : SynEng → SynEng) : (d.upSyn n f).pwr = d.pwr := rfl
@[simp] theorem Dev.upSyn_cko (d : Dev) (n : Fin 4) (f : SynEng → SynEng) : (d.upSyn n f).cko = d.cko := rfl
@[simp] theorem Dev.upSyn_tdc (d : Dev) (n : Fin 4) (f : SynEng → SynEng) : (d.upSyn n f).tdc = d.tdc := rfl
@[simp] theorem Dev.upSyn_unit (d : Dev) (n : Fin 4) (f : SynEng → SynEng) : (d.upSyn n f).unit = d.unit := rfl
@[simp] theorem Dev.upSyn_tdcs (d : Dev) (n : Fin 4) (f : SynEng → SynEng) : (d.upSyn n f).tdcs = d.tdcs := rfl
@[simp] theorem Dev.upSyn_evo (d : Dev) (n : Fin 4) (f : SynEng → SynEng) : (d.upSyn n f).evo = d.evo := rfl
@[simp] theorem Dev.upSyn_evi (d : Dev) (n : Fin 4) (f : SynEng → SynEng) : (d.upSyn n f).evi = d.evi := rfl
@[simp] theorem Dev.upSyn_aud (d : Dev) (n : Fin 4) (f : SynEng → SynEng) : (d.upSyn n f).aud = d.aud := rfl
@[simp] theorem Dev.upSyn_plk (d : Dev) (n : Fin 4) (f : SynEng → SynEng) : (d.upSyn n f).plk = d.plk := rfl
@[simp] theorem Dev.upSyn_ldr (d : Dev) (n : Fin 4) (f : SynEng → SynEng) : (d.upSyn n f).ldr = d.ldr := rfl
@[simp] theorem Dev.upSyn_pts (d : Dev) (n : Fin 4) (f : SynEng → SynEng) : (d.upSyn n f).pts = d.pts := rfl
@[simp] theorem Dev.upSyn_port (d : Dev) (n : Fin 4) (f : SynEng → SynEng) : (d.upSyn n f).port = d.port := rfl
@[simp] theorem Dev.upSyn_lane (d : Dev) (n : Fin 4) (f : SynEng → SynEng) : (d.upSyn n f).lane = d.lane := rfl
@[simp] theorem Dev.upSyn_key (d : Dev) (n : Fin 4) (f : SynEng → SynEng) : (d.upSyn n f).key = d.key := rfl
@[simp] theorem Dev.upSyn_rsp (d : Dev) (n : Fin 4) (f : SynEng → SynEng) : (d.upSyn n f).rsp = d.rsp := rfl
@[simp] theorem Dev.upSyn_cst (d : Dev) (n : Fin 4) (f : SynEng → SynEng) : (d.upSyn n f).cst = d.cst := rfl
@[simp] theorem Dev.upSyn_rcd (d : Dev) (n : Fin 4) (f : SynEng → SynEng) : (d.upSyn n f).rcd = d.rcd := rfl
@[simp] theorem Dev.upSyn_flt (d : Dev) (n : Fin 4) (f : SynEng → SynEng) : (d.upSyn n f).flt = d.flt := rfl
@[simp] theorem Dev.upSyn_seq (d : Dev) (n : Fin 4) (f : SynEng → SynEng) : (d.upSyn n f).seq = d.seq := rfl
@[simp] theorem Dev.upSyn_hif (d : Dev) (n : Fin 4) (f : SynEng → SynEng) : (d.upSyn n f).hif = d.hif := rfl

@[simp] theorem Dev.upCko_clk (d : Dev) (m : Fin 16) (f : CkoEng → CkoEng) : (d.upCko m f).clk = d.clk := rfl
@[simp] theorem Dev.upCko_regs (d : Dev) (m : Fin 16) (f : CkoEng → CkoEng) : (d.upCko m f).regs = d.regs := rfl
@[simp] theorem Dev.upCko_lat (d : Dev) (m : Fin 16) (f : CkoEng → CkoEng) : (d.upCko m f).lat = d.lat := rfl
@[simp] theorem Dev.upCko_half (d : Dev) (m : Fin 16) (f : CkoEng → CkoEng) : (d.upCko m f).half = d.half := rfl
@[simp] theorem Dev.upCko_snapping (d : Dev) (m : Fin 16) (f : CkoEng → CkoEng) : (d.upCko m f).snapping = d.snapping := rfl
@[simp] theorem Dev.upCko_shadow (d : Dev) (m : Fin 16) (f : CkoEng → CkoEng) : (d.upCko m f).shadow = d.shadow := rfl
@[simp] theorem Dev.upCko_cyc (d : Dev) (m : Fin 16) (f : CkoEng → CkoEng) : (d.upCko m f).cyc = d.cyc := rfl
@[simp] theorem Dev.upCko_agenda (d : Dev) (m : Fin 16) (f : CkoEng → CkoEng) : (d.upCko m f).agenda = d.agenda := rfl
@[simp] theorem Dev.upCko_alarms (d : Dev) (m : Fin 16) (f : CkoEng → CkoEng) : (d.upCko m f).alarms = d.alarms := rfl
@[simp] theorem Dev.upCko_events (d : Dev) (m : Fin 16) (f : CkoEng → CkoEng) : (d.upCko m f).events = d.events := rfl
@[simp] theorem Dev.upCko_hwSet (d : Dev) (m : Fin 16) (f : CkoEng → CkoEng) : (d.upCko m f).hwSet = d.hwSet := rfl
@[simp] theorem Dev.upCko_out (d : Dev) (m : Fin 16) (f : CkoEng → CkoEng) : (d.upCko m f).out = d.out := rfl
@[simp] theorem Dev.upCko_ts (d : Dev) (m : Fin 16) (f : CkoEng → CkoEng) : (d.upCko m f).ts = d.ts := rfl
@[simp] theorem Dev.upCko_views (d : Dev) (m : Fin 16) (f : CkoEng → CkoEng) : (d.upCko m f).views = d.views := rfl
@[simp] theorem Dev.upCko_corr (d : Dev) (m : Fin 16) (f : CkoEng → CkoEng) : (d.upCko m f).corr = d.corr := rfl
@[simp] theorem Dev.upCko_links (d : Dev) (m : Fin 16) (f : CkoEng → CkoEng) : (d.upCko m f).links = d.links := rfl
@[simp] theorem Dev.upCko_c4Held (d : Dev) (m : Fin 16) (f : CkoEng → CkoEng) : (d.upCko m f).c4Held = d.c4Held := rfl
@[simp] theorem Dev.upCko_mon (d : Dev) (m : Fin 16) (f : CkoEng → CkoEng) : (d.upCko m f).mon = d.mon := rfl
@[simp] theorem Dev.upCko_atm (d : Dev) (m : Fin 16) (f : CkoEng → CkoEng) : (d.upCko m f).atm = d.atm := rfl
@[simp] theorem Dev.upCko_us (d : Dev) (m : Fin 16) (f : CkoEng → CkoEng) : (d.upCko m f).us = d.us := rfl
@[simp] theorem Dev.upCko_ens (d : Dev) (m : Fin 16) (f : CkoEng → CkoEng) : (d.upCko m f).ens = d.ens := rfl
@[simp] theorem Dev.upCko_sel (d : Dev) (m : Fin 16) (f : CkoEng → CkoEng) : (d.upCko m f).sel = d.sel := rfl
@[simp] theorem Dev.upCko_svc (d : Dev) (m : Fin 16) (f : CkoEng → CkoEng) : (d.upCko m f).svc = d.svc := rfl
@[simp] theorem Dev.upCko_hld (d : Dev) (m : Fin 16) (f : CkoEng → CkoEng) : (d.upCko m f).hld = d.hld := rfl
@[simp] theorem Dev.upCko_gnss (d : Dev) (m : Fin 16) (f : CkoEng → CkoEng) : (d.upCko m f).gnss = d.gnss := rfl
@[simp] theorem Dev.upCko_pwr (d : Dev) (m : Fin 16) (f : CkoEng → CkoEng) : (d.upCko m f).pwr = d.pwr := rfl
@[simp] theorem Dev.upCko_syn (d : Dev) (m : Fin 16) (f : CkoEng → CkoEng) : (d.upCko m f).syn = d.syn := rfl
@[simp] theorem Dev.upCko_tdc (d : Dev) (m : Fin 16) (f : CkoEng → CkoEng) : (d.upCko m f).tdc = d.tdc := rfl
@[simp] theorem Dev.upCko_unit (d : Dev) (m : Fin 16) (f : CkoEng → CkoEng) : (d.upCko m f).unit = d.unit := rfl
@[simp] theorem Dev.upCko_tdcs (d : Dev) (m : Fin 16) (f : CkoEng → CkoEng) : (d.upCko m f).tdcs = d.tdcs := rfl
@[simp] theorem Dev.upCko_evo (d : Dev) (m : Fin 16) (f : CkoEng → CkoEng) : (d.upCko m f).evo = d.evo := rfl
@[simp] theorem Dev.upCko_evi (d : Dev) (m : Fin 16) (f : CkoEng → CkoEng) : (d.upCko m f).evi = d.evi := rfl
@[simp] theorem Dev.upCko_aud (d : Dev) (m : Fin 16) (f : CkoEng → CkoEng) : (d.upCko m f).aud = d.aud := rfl
@[simp] theorem Dev.upCko_plk (d : Dev) (m : Fin 16) (f : CkoEng → CkoEng) : (d.upCko m f).plk = d.plk := rfl
@[simp] theorem Dev.upCko_ldr (d : Dev) (m : Fin 16) (f : CkoEng → CkoEng) : (d.upCko m f).ldr = d.ldr := rfl
@[simp] theorem Dev.upCko_pts (d : Dev) (m : Fin 16) (f : CkoEng → CkoEng) : (d.upCko m f).pts = d.pts := rfl
@[simp] theorem Dev.upCko_port (d : Dev) (m : Fin 16) (f : CkoEng → CkoEng) : (d.upCko m f).port = d.port := rfl
@[simp] theorem Dev.upCko_lane (d : Dev) (m : Fin 16) (f : CkoEng → CkoEng) : (d.upCko m f).lane = d.lane := rfl
@[simp] theorem Dev.upCko_key (d : Dev) (m : Fin 16) (f : CkoEng → CkoEng) : (d.upCko m f).key = d.key := rfl
@[simp] theorem Dev.upCko_rsp (d : Dev) (m : Fin 16) (f : CkoEng → CkoEng) : (d.upCko m f).rsp = d.rsp := rfl
@[simp] theorem Dev.upCko_cst (d : Dev) (m : Fin 16) (f : CkoEng → CkoEng) : (d.upCko m f).cst = d.cst := rfl
@[simp] theorem Dev.upCko_rcd (d : Dev) (m : Fin 16) (f : CkoEng → CkoEng) : (d.upCko m f).rcd = d.rcd := rfl
@[simp] theorem Dev.upCko_flt (d : Dev) (m : Fin 16) (f : CkoEng → CkoEng) : (d.upCko m f).flt = d.flt := rfl
@[simp] theorem Dev.upCko_seq (d : Dev) (m : Fin 16) (f : CkoEng → CkoEng) : (d.upCko m f).seq = d.seq := rfl
@[simp] theorem Dev.upCko_hif (d : Dev) (m : Fin 16) (f : CkoEng → CkoEng) : (d.upCko m f).hif = d.hif := rfl

@[simp] theorem Dev.upKey_clk (d : Dev) (f : KeyEng → KeyEng) : (d.upKey f).clk = d.clk := rfl
@[simp] theorem Dev.upKey_regs (d : Dev) (f : KeyEng → KeyEng) : (d.upKey f).regs = d.regs := rfl
@[simp] theorem Dev.upKey_lat (d : Dev) (f : KeyEng → KeyEng) : (d.upKey f).lat = d.lat := rfl
@[simp] theorem Dev.upKey_half (d : Dev) (f : KeyEng → KeyEng) : (d.upKey f).half = d.half := rfl
@[simp] theorem Dev.upKey_snapping (d : Dev) (f : KeyEng → KeyEng) : (d.upKey f).snapping = d.snapping := rfl
@[simp] theorem Dev.upKey_shadow (d : Dev) (f : KeyEng → KeyEng) : (d.upKey f).shadow = d.shadow := rfl
@[simp] theorem Dev.upKey_cyc (d : Dev) (f : KeyEng → KeyEng) : (d.upKey f).cyc = d.cyc := rfl
@[simp] theorem Dev.upKey_agenda (d : Dev) (f : KeyEng → KeyEng) : (d.upKey f).agenda = d.agenda := rfl
@[simp] theorem Dev.upKey_alarms (d : Dev) (f : KeyEng → KeyEng) : (d.upKey f).alarms = d.alarms := rfl
@[simp] theorem Dev.upKey_events (d : Dev) (f : KeyEng → KeyEng) : (d.upKey f).events = d.events := rfl
@[simp] theorem Dev.upKey_hwSet (d : Dev) (f : KeyEng → KeyEng) : (d.upKey f).hwSet = d.hwSet := rfl
@[simp] theorem Dev.upKey_out (d : Dev) (f : KeyEng → KeyEng) : (d.upKey f).out = d.out := rfl
@[simp] theorem Dev.upKey_ts (d : Dev) (f : KeyEng → KeyEng) : (d.upKey f).ts = d.ts := rfl
@[simp] theorem Dev.upKey_views (d : Dev) (f : KeyEng → KeyEng) : (d.upKey f).views = d.views := rfl
@[simp] theorem Dev.upKey_corr (d : Dev) (f : KeyEng → KeyEng) : (d.upKey f).corr = d.corr := rfl
@[simp] theorem Dev.upKey_links (d : Dev) (f : KeyEng → KeyEng) : (d.upKey f).links = d.links := rfl
@[simp] theorem Dev.upKey_c4Held (d : Dev) (f : KeyEng → KeyEng) : (d.upKey f).c4Held = d.c4Held := rfl
@[simp] theorem Dev.upKey_mon (d : Dev) (f : KeyEng → KeyEng) : (d.upKey f).mon = d.mon := rfl
@[simp] theorem Dev.upKey_atm (d : Dev) (f : KeyEng → KeyEng) : (d.upKey f).atm = d.atm := rfl
@[simp] theorem Dev.upKey_us (d : Dev) (f : KeyEng → KeyEng) : (d.upKey f).us = d.us := rfl
@[simp] theorem Dev.upKey_ens (d : Dev) (f : KeyEng → KeyEng) : (d.upKey f).ens = d.ens := rfl
@[simp] theorem Dev.upKey_sel (d : Dev) (f : KeyEng → KeyEng) : (d.upKey f).sel = d.sel := rfl
@[simp] theorem Dev.upKey_svc (d : Dev) (f : KeyEng → KeyEng) : (d.upKey f).svc = d.svc := rfl
@[simp] theorem Dev.upKey_hld (d : Dev) (f : KeyEng → KeyEng) : (d.upKey f).hld = d.hld := rfl
@[simp] theorem Dev.upKey_gnss (d : Dev) (f : KeyEng → KeyEng) : (d.upKey f).gnss = d.gnss := rfl
@[simp] theorem Dev.upKey_pwr (d : Dev) (f : KeyEng → KeyEng) : (d.upKey f).pwr = d.pwr := rfl
@[simp] theorem Dev.upKey_syn (d : Dev) (f : KeyEng → KeyEng) : (d.upKey f).syn = d.syn := rfl
@[simp] theorem Dev.upKey_cko (d : Dev) (f : KeyEng → KeyEng) : (d.upKey f).cko = d.cko := rfl
@[simp] theorem Dev.upKey_tdc (d : Dev) (f : KeyEng → KeyEng) : (d.upKey f).tdc = d.tdc := rfl
@[simp] theorem Dev.upKey_unit (d : Dev) (f : KeyEng → KeyEng) : (d.upKey f).unit = d.unit := rfl
@[simp] theorem Dev.upKey_tdcs (d : Dev) (f : KeyEng → KeyEng) : (d.upKey f).tdcs = d.tdcs := rfl
@[simp] theorem Dev.upKey_evo (d : Dev) (f : KeyEng → KeyEng) : (d.upKey f).evo = d.evo := rfl
@[simp] theorem Dev.upKey_evi (d : Dev) (f : KeyEng → KeyEng) : (d.upKey f).evi = d.evi := rfl
@[simp] theorem Dev.upKey_aud (d : Dev) (f : KeyEng → KeyEng) : (d.upKey f).aud = d.aud := rfl
@[simp] theorem Dev.upKey_plk (d : Dev) (f : KeyEng → KeyEng) : (d.upKey f).plk = d.plk := rfl
@[simp] theorem Dev.upKey_ldr (d : Dev) (f : KeyEng → KeyEng) : (d.upKey f).ldr = d.ldr := rfl
@[simp] theorem Dev.upKey_pts (d : Dev) (f : KeyEng → KeyEng) : (d.upKey f).pts = d.pts := rfl
@[simp] theorem Dev.upKey_port (d : Dev) (f : KeyEng → KeyEng) : (d.upKey f).port = d.port := rfl
@[simp] theorem Dev.upKey_lane (d : Dev) (f : KeyEng → KeyEng) : (d.upKey f).lane = d.lane := rfl
@[simp] theorem Dev.upKey_rsp (d : Dev) (f : KeyEng → KeyEng) : (d.upKey f).rsp = d.rsp := rfl
@[simp] theorem Dev.upKey_cst (d : Dev) (f : KeyEng → KeyEng) : (d.upKey f).cst = d.cst := rfl
@[simp] theorem Dev.upKey_rcd (d : Dev) (f : KeyEng → KeyEng) : (d.upKey f).rcd = d.rcd := rfl
@[simp] theorem Dev.upKey_flt (d : Dev) (f : KeyEng → KeyEng) : (d.upKey f).flt = d.flt := rfl
@[simp] theorem Dev.upKey_seq (d : Dev) (f : KeyEng → KeyEng) : (d.upKey f).seq = d.seq := rfl
@[simp] theorem Dev.upKey_hif (d : Dev) (f : KeyEng → KeyEng) : (d.upKey f).hif = d.hif := rfl

@[simp] theorem Dev.upLane_clk (d : Dev) (n : Fin 16) (f : LaneEng → LaneEng) : (d.upLane n f).clk = d.clk := rfl
@[simp] theorem Dev.upLane_regs (d : Dev) (n : Fin 16) (f : LaneEng → LaneEng) : (d.upLane n f).regs = d.regs := rfl
@[simp] theorem Dev.upLane_lat (d : Dev) (n : Fin 16) (f : LaneEng → LaneEng) : (d.upLane n f).lat = d.lat := rfl
@[simp] theorem Dev.upLane_half (d : Dev) (n : Fin 16) (f : LaneEng → LaneEng) : (d.upLane n f).half = d.half := rfl
@[simp] theorem Dev.upLane_snapping (d : Dev) (n : Fin 16) (f : LaneEng → LaneEng) : (d.upLane n f).snapping = d.snapping := rfl
@[simp] theorem Dev.upLane_shadow (d : Dev) (n : Fin 16) (f : LaneEng → LaneEng) : (d.upLane n f).shadow = d.shadow := rfl
@[simp] theorem Dev.upLane_cyc (d : Dev) (n : Fin 16) (f : LaneEng → LaneEng) : (d.upLane n f).cyc = d.cyc := rfl
@[simp] theorem Dev.upLane_agenda (d : Dev) (n : Fin 16) (f : LaneEng → LaneEng) : (d.upLane n f).agenda = d.agenda := rfl
@[simp] theorem Dev.upLane_alarms (d : Dev) (n : Fin 16) (f : LaneEng → LaneEng) : (d.upLane n f).alarms = d.alarms := rfl
@[simp] theorem Dev.upLane_events (d : Dev) (n : Fin 16) (f : LaneEng → LaneEng) : (d.upLane n f).events = d.events := rfl
@[simp] theorem Dev.upLane_hwSet (d : Dev) (n : Fin 16) (f : LaneEng → LaneEng) : (d.upLane n f).hwSet = d.hwSet := rfl
@[simp] theorem Dev.upLane_out (d : Dev) (n : Fin 16) (f : LaneEng → LaneEng) : (d.upLane n f).out = d.out := rfl
@[simp] theorem Dev.upLane_ts (d : Dev) (n : Fin 16) (f : LaneEng → LaneEng) : (d.upLane n f).ts = d.ts := rfl
@[simp] theorem Dev.upLane_views (d : Dev) (n : Fin 16) (f : LaneEng → LaneEng) : (d.upLane n f).views = d.views := rfl
@[simp] theorem Dev.upLane_corr (d : Dev) (n : Fin 16) (f : LaneEng → LaneEng) : (d.upLane n f).corr = d.corr := rfl
@[simp] theorem Dev.upLane_links (d : Dev) (n : Fin 16) (f : LaneEng → LaneEng) : (d.upLane n f).links = d.links := rfl
@[simp] theorem Dev.upLane_c4Held (d : Dev) (n : Fin 16) (f : LaneEng → LaneEng) : (d.upLane n f).c4Held = d.c4Held := rfl
@[simp] theorem Dev.upLane_mon (d : Dev) (n : Fin 16) (f : LaneEng → LaneEng) : (d.upLane n f).mon = d.mon := rfl
@[simp] theorem Dev.upLane_atm (d : Dev) (n : Fin 16) (f : LaneEng → LaneEng) : (d.upLane n f).atm = d.atm := rfl
@[simp] theorem Dev.upLane_us (d : Dev) (n : Fin 16) (f : LaneEng → LaneEng) : (d.upLane n f).us = d.us := rfl
@[simp] theorem Dev.upLane_ens (d : Dev) (n : Fin 16) (f : LaneEng → LaneEng) : (d.upLane n f).ens = d.ens := rfl
@[simp] theorem Dev.upLane_sel (d : Dev) (n : Fin 16) (f : LaneEng → LaneEng) : (d.upLane n f).sel = d.sel := rfl
@[simp] theorem Dev.upLane_svc (d : Dev) (n : Fin 16) (f : LaneEng → LaneEng) : (d.upLane n f).svc = d.svc := rfl
@[simp] theorem Dev.upLane_hld (d : Dev) (n : Fin 16) (f : LaneEng → LaneEng) : (d.upLane n f).hld = d.hld := rfl
@[simp] theorem Dev.upLane_gnss (d : Dev) (n : Fin 16) (f : LaneEng → LaneEng) : (d.upLane n f).gnss = d.gnss := rfl
@[simp] theorem Dev.upLane_pwr (d : Dev) (n : Fin 16) (f : LaneEng → LaneEng) : (d.upLane n f).pwr = d.pwr := rfl
@[simp] theorem Dev.upLane_syn (d : Dev) (n : Fin 16) (f : LaneEng → LaneEng) : (d.upLane n f).syn = d.syn := rfl
@[simp] theorem Dev.upLane_cko (d : Dev) (n : Fin 16) (f : LaneEng → LaneEng) : (d.upLane n f).cko = d.cko := rfl
@[simp] theorem Dev.upLane_tdc (d : Dev) (n : Fin 16) (f : LaneEng → LaneEng) : (d.upLane n f).tdc = d.tdc := rfl
@[simp] theorem Dev.upLane_unit (d : Dev) (n : Fin 16) (f : LaneEng → LaneEng) : (d.upLane n f).unit = d.unit := rfl
@[simp] theorem Dev.upLane_tdcs (d : Dev) (n : Fin 16) (f : LaneEng → LaneEng) : (d.upLane n f).tdcs = d.tdcs := rfl
@[simp] theorem Dev.upLane_evo (d : Dev) (n : Fin 16) (f : LaneEng → LaneEng) : (d.upLane n f).evo = d.evo := rfl
@[simp] theorem Dev.upLane_evi (d : Dev) (n : Fin 16) (f : LaneEng → LaneEng) : (d.upLane n f).evi = d.evi := rfl
@[simp] theorem Dev.upLane_aud (d : Dev) (n : Fin 16) (f : LaneEng → LaneEng) : (d.upLane n f).aud = d.aud := rfl
@[simp] theorem Dev.upLane_plk (d : Dev) (n : Fin 16) (f : LaneEng → LaneEng) : (d.upLane n f).plk = d.plk := rfl
@[simp] theorem Dev.upLane_ldr (d : Dev) (n : Fin 16) (f : LaneEng → LaneEng) : (d.upLane n f).ldr = d.ldr := rfl
@[simp] theorem Dev.upLane_pts (d : Dev) (n : Fin 16) (f : LaneEng → LaneEng) : (d.upLane n f).pts = d.pts := rfl
@[simp] theorem Dev.upLane_port (d : Dev) (n : Fin 16) (f : LaneEng → LaneEng) : (d.upLane n f).port = d.port := rfl
@[simp] theorem Dev.upLane_key (d : Dev) (n : Fin 16) (f : LaneEng → LaneEng) : (d.upLane n f).key = d.key := rfl
@[simp] theorem Dev.upLane_rsp (d : Dev) (n : Fin 16) (f : LaneEng → LaneEng) : (d.upLane n f).rsp = d.rsp := rfl
@[simp] theorem Dev.upLane_cst (d : Dev) (n : Fin 16) (f : LaneEng → LaneEng) : (d.upLane n f).cst = d.cst := rfl
@[simp] theorem Dev.upLane_rcd (d : Dev) (n : Fin 16) (f : LaneEng → LaneEng) : (d.upLane n f).rcd = d.rcd := rfl
@[simp] theorem Dev.upLane_flt (d : Dev) (n : Fin 16) (f : LaneEng → LaneEng) : (d.upLane n f).flt = d.flt := rfl
@[simp] theorem Dev.upLane_seq (d : Dev) (n : Fin 16) (f : LaneEng → LaneEng) : (d.upLane n f).seq = d.seq := rfl
@[simp] theorem Dev.upLane_hif (d : Dev) (n : Fin 16) (f : LaneEng → LaneEng) : (d.upLane n f).hif = d.hif := rfl

@[simp] theorem Dev.upRsp_clk (d : Dev) (f : RspEng → RspEng) : (d.upRsp f).clk = d.clk := rfl
@[simp] theorem Dev.upRsp_regs (d : Dev) (f : RspEng → RspEng) : (d.upRsp f).regs = d.regs := rfl
@[simp] theorem Dev.upRsp_lat (d : Dev) (f : RspEng → RspEng) : (d.upRsp f).lat = d.lat := rfl
@[simp] theorem Dev.upRsp_half (d : Dev) (f : RspEng → RspEng) : (d.upRsp f).half = d.half := rfl
@[simp] theorem Dev.upRsp_snapping (d : Dev) (f : RspEng → RspEng) : (d.upRsp f).snapping = d.snapping := rfl
@[simp] theorem Dev.upRsp_shadow (d : Dev) (f : RspEng → RspEng) : (d.upRsp f).shadow = d.shadow := rfl
@[simp] theorem Dev.upRsp_cyc (d : Dev) (f : RspEng → RspEng) : (d.upRsp f).cyc = d.cyc := rfl
@[simp] theorem Dev.upRsp_agenda (d : Dev) (f : RspEng → RspEng) : (d.upRsp f).agenda = d.agenda := rfl
@[simp] theorem Dev.upRsp_alarms (d : Dev) (f : RspEng → RspEng) : (d.upRsp f).alarms = d.alarms := rfl
@[simp] theorem Dev.upRsp_events (d : Dev) (f : RspEng → RspEng) : (d.upRsp f).events = d.events := rfl
@[simp] theorem Dev.upRsp_hwSet (d : Dev) (f : RspEng → RspEng) : (d.upRsp f).hwSet = d.hwSet := rfl
@[simp] theorem Dev.upRsp_out (d : Dev) (f : RspEng → RspEng) : (d.upRsp f).out = d.out := rfl
@[simp] theorem Dev.upRsp_ts (d : Dev) (f : RspEng → RspEng) : (d.upRsp f).ts = d.ts := rfl
@[simp] theorem Dev.upRsp_views (d : Dev) (f : RspEng → RspEng) : (d.upRsp f).views = d.views := rfl
@[simp] theorem Dev.upRsp_corr (d : Dev) (f : RspEng → RspEng) : (d.upRsp f).corr = d.corr := rfl
@[simp] theorem Dev.upRsp_links (d : Dev) (f : RspEng → RspEng) : (d.upRsp f).links = d.links := rfl
@[simp] theorem Dev.upRsp_c4Held (d : Dev) (f : RspEng → RspEng) : (d.upRsp f).c4Held = d.c4Held := rfl
@[simp] theorem Dev.upRsp_mon (d : Dev) (f : RspEng → RspEng) : (d.upRsp f).mon = d.mon := rfl
@[simp] theorem Dev.upRsp_atm (d : Dev) (f : RspEng → RspEng) : (d.upRsp f).atm = d.atm := rfl
@[simp] theorem Dev.upRsp_us (d : Dev) (f : RspEng → RspEng) : (d.upRsp f).us = d.us := rfl
@[simp] theorem Dev.upRsp_ens (d : Dev) (f : RspEng → RspEng) : (d.upRsp f).ens = d.ens := rfl
@[simp] theorem Dev.upRsp_sel (d : Dev) (f : RspEng → RspEng) : (d.upRsp f).sel = d.sel := rfl
@[simp] theorem Dev.upRsp_svc (d : Dev) (f : RspEng → RspEng) : (d.upRsp f).svc = d.svc := rfl
@[simp] theorem Dev.upRsp_hld (d : Dev) (f : RspEng → RspEng) : (d.upRsp f).hld = d.hld := rfl
@[simp] theorem Dev.upRsp_gnss (d : Dev) (f : RspEng → RspEng) : (d.upRsp f).gnss = d.gnss := rfl
@[simp] theorem Dev.upRsp_pwr (d : Dev) (f : RspEng → RspEng) : (d.upRsp f).pwr = d.pwr := rfl
@[simp] theorem Dev.upRsp_syn (d : Dev) (f : RspEng → RspEng) : (d.upRsp f).syn = d.syn := rfl
@[simp] theorem Dev.upRsp_cko (d : Dev) (f : RspEng → RspEng) : (d.upRsp f).cko = d.cko := rfl
@[simp] theorem Dev.upRsp_tdc (d : Dev) (f : RspEng → RspEng) : (d.upRsp f).tdc = d.tdc := rfl
@[simp] theorem Dev.upRsp_unit (d : Dev) (f : RspEng → RspEng) : (d.upRsp f).unit = d.unit := rfl
@[simp] theorem Dev.upRsp_tdcs (d : Dev) (f : RspEng → RspEng) : (d.upRsp f).tdcs = d.tdcs := rfl
@[simp] theorem Dev.upRsp_evo (d : Dev) (f : RspEng → RspEng) : (d.upRsp f).evo = d.evo := rfl
@[simp] theorem Dev.upRsp_evi (d : Dev) (f : RspEng → RspEng) : (d.upRsp f).evi = d.evi := rfl
@[simp] theorem Dev.upRsp_aud (d : Dev) (f : RspEng → RspEng) : (d.upRsp f).aud = d.aud := rfl
@[simp] theorem Dev.upRsp_plk (d : Dev) (f : RspEng → RspEng) : (d.upRsp f).plk = d.plk := rfl
@[simp] theorem Dev.upRsp_ldr (d : Dev) (f : RspEng → RspEng) : (d.upRsp f).ldr = d.ldr := rfl
@[simp] theorem Dev.upRsp_pts (d : Dev) (f : RspEng → RspEng) : (d.upRsp f).pts = d.pts := rfl
@[simp] theorem Dev.upRsp_port (d : Dev) (f : RspEng → RspEng) : (d.upRsp f).port = d.port := rfl
@[simp] theorem Dev.upRsp_lane (d : Dev) (f : RspEng → RspEng) : (d.upRsp f).lane = d.lane := rfl
@[simp] theorem Dev.upRsp_key (d : Dev) (f : RspEng → RspEng) : (d.upRsp f).key = d.key := rfl
@[simp] theorem Dev.upRsp_cst (d : Dev) (f : RspEng → RspEng) : (d.upRsp f).cst = d.cst := rfl
@[simp] theorem Dev.upRsp_rcd (d : Dev) (f : RspEng → RspEng) : (d.upRsp f).rcd = d.rcd := rfl
@[simp] theorem Dev.upRsp_flt (d : Dev) (f : RspEng → RspEng) : (d.upRsp f).flt = d.flt := rfl
@[simp] theorem Dev.upRsp_seq (d : Dev) (f : RspEng → RspEng) : (d.upRsp f).seq = d.seq := rfl
@[simp] theorem Dev.upRsp_hif (d : Dev) (f : RspEng → RspEng) : (d.upRsp f).hif = d.hif := rfl

@[simp] theorem Dev.upLdr_clk (d : Dev) (f : LdrEng → LdrEng) : (d.upLdr f).clk = d.clk := rfl
@[simp] theorem Dev.upLdr_regs (d : Dev) (f : LdrEng → LdrEng) : (d.upLdr f).regs = d.regs := rfl
@[simp] theorem Dev.upLdr_lat (d : Dev) (f : LdrEng → LdrEng) : (d.upLdr f).lat = d.lat := rfl
@[simp] theorem Dev.upLdr_half (d : Dev) (f : LdrEng → LdrEng) : (d.upLdr f).half = d.half := rfl
@[simp] theorem Dev.upLdr_snapping (d : Dev) (f : LdrEng → LdrEng) : (d.upLdr f).snapping = d.snapping := rfl
@[simp] theorem Dev.upLdr_shadow (d : Dev) (f : LdrEng → LdrEng) : (d.upLdr f).shadow = d.shadow := rfl
@[simp] theorem Dev.upLdr_cyc (d : Dev) (f : LdrEng → LdrEng) : (d.upLdr f).cyc = d.cyc := rfl
@[simp] theorem Dev.upLdr_agenda (d : Dev) (f : LdrEng → LdrEng) : (d.upLdr f).agenda = d.agenda := rfl
@[simp] theorem Dev.upLdr_alarms (d : Dev) (f : LdrEng → LdrEng) : (d.upLdr f).alarms = d.alarms := rfl
@[simp] theorem Dev.upLdr_events (d : Dev) (f : LdrEng → LdrEng) : (d.upLdr f).events = d.events := rfl
@[simp] theorem Dev.upLdr_hwSet (d : Dev) (f : LdrEng → LdrEng) : (d.upLdr f).hwSet = d.hwSet := rfl
@[simp] theorem Dev.upLdr_out (d : Dev) (f : LdrEng → LdrEng) : (d.upLdr f).out = d.out := rfl
@[simp] theorem Dev.upLdr_ts (d : Dev) (f : LdrEng → LdrEng) : (d.upLdr f).ts = d.ts := rfl
@[simp] theorem Dev.upLdr_views (d : Dev) (f : LdrEng → LdrEng) : (d.upLdr f).views = d.views := rfl
@[simp] theorem Dev.upLdr_corr (d : Dev) (f : LdrEng → LdrEng) : (d.upLdr f).corr = d.corr := rfl
@[simp] theorem Dev.upLdr_links (d : Dev) (f : LdrEng → LdrEng) : (d.upLdr f).links = d.links := rfl
@[simp] theorem Dev.upLdr_c4Held (d : Dev) (f : LdrEng → LdrEng) : (d.upLdr f).c4Held = d.c4Held := rfl
@[simp] theorem Dev.upLdr_mon (d : Dev) (f : LdrEng → LdrEng) : (d.upLdr f).mon = d.mon := rfl
@[simp] theorem Dev.upLdr_atm (d : Dev) (f : LdrEng → LdrEng) : (d.upLdr f).atm = d.atm := rfl
@[simp] theorem Dev.upLdr_us (d : Dev) (f : LdrEng → LdrEng) : (d.upLdr f).us = d.us := rfl
@[simp] theorem Dev.upLdr_ens (d : Dev) (f : LdrEng → LdrEng) : (d.upLdr f).ens = d.ens := rfl
@[simp] theorem Dev.upLdr_sel (d : Dev) (f : LdrEng → LdrEng) : (d.upLdr f).sel = d.sel := rfl
@[simp] theorem Dev.upLdr_svc (d : Dev) (f : LdrEng → LdrEng) : (d.upLdr f).svc = d.svc := rfl
@[simp] theorem Dev.upLdr_hld (d : Dev) (f : LdrEng → LdrEng) : (d.upLdr f).hld = d.hld := rfl
@[simp] theorem Dev.upLdr_gnss (d : Dev) (f : LdrEng → LdrEng) : (d.upLdr f).gnss = d.gnss := rfl
@[simp] theorem Dev.upLdr_pwr (d : Dev) (f : LdrEng → LdrEng) : (d.upLdr f).pwr = d.pwr := rfl
@[simp] theorem Dev.upLdr_syn (d : Dev) (f : LdrEng → LdrEng) : (d.upLdr f).syn = d.syn := rfl
@[simp] theorem Dev.upLdr_cko (d : Dev) (f : LdrEng → LdrEng) : (d.upLdr f).cko = d.cko := rfl
@[simp] theorem Dev.upLdr_tdc (d : Dev) (f : LdrEng → LdrEng) : (d.upLdr f).tdc = d.tdc := rfl
@[simp] theorem Dev.upLdr_unit (d : Dev) (f : LdrEng → LdrEng) : (d.upLdr f).unit = d.unit := rfl
@[simp] theorem Dev.upLdr_tdcs (d : Dev) (f : LdrEng → LdrEng) : (d.upLdr f).tdcs = d.tdcs := rfl
@[simp] theorem Dev.upLdr_evo (d : Dev) (f : LdrEng → LdrEng) : (d.upLdr f).evo = d.evo := rfl
@[simp] theorem Dev.upLdr_evi (d : Dev) (f : LdrEng → LdrEng) : (d.upLdr f).evi = d.evi := rfl
@[simp] theorem Dev.upLdr_aud (d : Dev) (f : LdrEng → LdrEng) : (d.upLdr f).aud = d.aud := rfl
@[simp] theorem Dev.upLdr_plk (d : Dev) (f : LdrEng → LdrEng) : (d.upLdr f).plk = d.plk := rfl
@[simp] theorem Dev.upLdr_pts (d : Dev) (f : LdrEng → LdrEng) : (d.upLdr f).pts = d.pts := rfl
@[simp] theorem Dev.upLdr_port (d : Dev) (f : LdrEng → LdrEng) : (d.upLdr f).port = d.port := rfl
@[simp] theorem Dev.upLdr_lane (d : Dev) (f : LdrEng → LdrEng) : (d.upLdr f).lane = d.lane := rfl
@[simp] theorem Dev.upLdr_key (d : Dev) (f : LdrEng → LdrEng) : (d.upLdr f).key = d.key := rfl
@[simp] theorem Dev.upLdr_rsp (d : Dev) (f : LdrEng → LdrEng) : (d.upLdr f).rsp = d.rsp := rfl
@[simp] theorem Dev.upLdr_cst (d : Dev) (f : LdrEng → LdrEng) : (d.upLdr f).cst = d.cst := rfl
@[simp] theorem Dev.upLdr_rcd (d : Dev) (f : LdrEng → LdrEng) : (d.upLdr f).rcd = d.rcd := rfl
@[simp] theorem Dev.upLdr_flt (d : Dev) (f : LdrEng → LdrEng) : (d.upLdr f).flt = d.flt := rfl
@[simp] theorem Dev.upLdr_seq (d : Dev) (f : LdrEng → LdrEng) : (d.upLdr f).seq = d.seq := rfl
@[simp] theorem Dev.upLdr_hif (d : Dev) (f : LdrEng → LdrEng) : (d.upLdr f).hif = d.hif := rfl

@[simp] theorem Dev.upPlk_clk (d : Dev) (f : PlkEng → PlkEng) : (d.upPlk f).clk = d.clk := rfl
@[simp] theorem Dev.upPlk_regs (d : Dev) (f : PlkEng → PlkEng) : (d.upPlk f).regs = d.regs := rfl
@[simp] theorem Dev.upPlk_lat (d : Dev) (f : PlkEng → PlkEng) : (d.upPlk f).lat = d.lat := rfl
@[simp] theorem Dev.upPlk_half (d : Dev) (f : PlkEng → PlkEng) : (d.upPlk f).half = d.half := rfl
@[simp] theorem Dev.upPlk_snapping (d : Dev) (f : PlkEng → PlkEng) : (d.upPlk f).snapping = d.snapping := rfl
@[simp] theorem Dev.upPlk_shadow (d : Dev) (f : PlkEng → PlkEng) : (d.upPlk f).shadow = d.shadow := rfl
@[simp] theorem Dev.upPlk_cyc (d : Dev) (f : PlkEng → PlkEng) : (d.upPlk f).cyc = d.cyc := rfl
@[simp] theorem Dev.upPlk_agenda (d : Dev) (f : PlkEng → PlkEng) : (d.upPlk f).agenda = d.agenda := rfl
@[simp] theorem Dev.upPlk_alarms (d : Dev) (f : PlkEng → PlkEng) : (d.upPlk f).alarms = d.alarms := rfl
@[simp] theorem Dev.upPlk_events (d : Dev) (f : PlkEng → PlkEng) : (d.upPlk f).events = d.events := rfl
@[simp] theorem Dev.upPlk_hwSet (d : Dev) (f : PlkEng → PlkEng) : (d.upPlk f).hwSet = d.hwSet := rfl
@[simp] theorem Dev.upPlk_out (d : Dev) (f : PlkEng → PlkEng) : (d.upPlk f).out = d.out := rfl
@[simp] theorem Dev.upPlk_ts (d : Dev) (f : PlkEng → PlkEng) : (d.upPlk f).ts = d.ts := rfl
@[simp] theorem Dev.upPlk_views (d : Dev) (f : PlkEng → PlkEng) : (d.upPlk f).views = d.views := rfl
@[simp] theorem Dev.upPlk_corr (d : Dev) (f : PlkEng → PlkEng) : (d.upPlk f).corr = d.corr := rfl
@[simp] theorem Dev.upPlk_links (d : Dev) (f : PlkEng → PlkEng) : (d.upPlk f).links = d.links := rfl
@[simp] theorem Dev.upPlk_c4Held (d : Dev) (f : PlkEng → PlkEng) : (d.upPlk f).c4Held = d.c4Held := rfl
@[simp] theorem Dev.upPlk_mon (d : Dev) (f : PlkEng → PlkEng) : (d.upPlk f).mon = d.mon := rfl
@[simp] theorem Dev.upPlk_atm (d : Dev) (f : PlkEng → PlkEng) : (d.upPlk f).atm = d.atm := rfl
@[simp] theorem Dev.upPlk_us (d : Dev) (f : PlkEng → PlkEng) : (d.upPlk f).us = d.us := rfl
@[simp] theorem Dev.upPlk_ens (d : Dev) (f : PlkEng → PlkEng) : (d.upPlk f).ens = d.ens := rfl
@[simp] theorem Dev.upPlk_sel (d : Dev) (f : PlkEng → PlkEng) : (d.upPlk f).sel = d.sel := rfl
@[simp] theorem Dev.upPlk_svc (d : Dev) (f : PlkEng → PlkEng) : (d.upPlk f).svc = d.svc := rfl
@[simp] theorem Dev.upPlk_hld (d : Dev) (f : PlkEng → PlkEng) : (d.upPlk f).hld = d.hld := rfl
@[simp] theorem Dev.upPlk_gnss (d : Dev) (f : PlkEng → PlkEng) : (d.upPlk f).gnss = d.gnss := rfl
@[simp] theorem Dev.upPlk_pwr (d : Dev) (f : PlkEng → PlkEng) : (d.upPlk f).pwr = d.pwr := rfl
@[simp] theorem Dev.upPlk_syn (d : Dev) (f : PlkEng → PlkEng) : (d.upPlk f).syn = d.syn := rfl
@[simp] theorem Dev.upPlk_cko (d : Dev) (f : PlkEng → PlkEng) : (d.upPlk f).cko = d.cko := rfl
@[simp] theorem Dev.upPlk_tdc (d : Dev) (f : PlkEng → PlkEng) : (d.upPlk f).tdc = d.tdc := rfl
@[simp] theorem Dev.upPlk_unit (d : Dev) (f : PlkEng → PlkEng) : (d.upPlk f).unit = d.unit := rfl
@[simp] theorem Dev.upPlk_tdcs (d : Dev) (f : PlkEng → PlkEng) : (d.upPlk f).tdcs = d.tdcs := rfl
@[simp] theorem Dev.upPlk_evo (d : Dev) (f : PlkEng → PlkEng) : (d.upPlk f).evo = d.evo := rfl
@[simp] theorem Dev.upPlk_evi (d : Dev) (f : PlkEng → PlkEng) : (d.upPlk f).evi = d.evi := rfl
@[simp] theorem Dev.upPlk_aud (d : Dev) (f : PlkEng → PlkEng) : (d.upPlk f).aud = d.aud := rfl
@[simp] theorem Dev.upPlk_ldr (d : Dev) (f : PlkEng → PlkEng) : (d.upPlk f).ldr = d.ldr := rfl
@[simp] theorem Dev.upPlk_pts (d : Dev) (f : PlkEng → PlkEng) : (d.upPlk f).pts = d.pts := rfl
@[simp] theorem Dev.upPlk_port (d : Dev) (f : PlkEng → PlkEng) : (d.upPlk f).port = d.port := rfl
@[simp] theorem Dev.upPlk_lane (d : Dev) (f : PlkEng → PlkEng) : (d.upPlk f).lane = d.lane := rfl
@[simp] theorem Dev.upPlk_key (d : Dev) (f : PlkEng → PlkEng) : (d.upPlk f).key = d.key := rfl
@[simp] theorem Dev.upPlk_rsp (d : Dev) (f : PlkEng → PlkEng) : (d.upPlk f).rsp = d.rsp := rfl
@[simp] theorem Dev.upPlk_cst (d : Dev) (f : PlkEng → PlkEng) : (d.upPlk f).cst = d.cst := rfl
@[simp] theorem Dev.upPlk_rcd (d : Dev) (f : PlkEng → PlkEng) : (d.upPlk f).rcd = d.rcd := rfl
@[simp] theorem Dev.upPlk_flt (d : Dev) (f : PlkEng → PlkEng) : (d.upPlk f).flt = d.flt := rfl
@[simp] theorem Dev.upPlk_seq (d : Dev) (f : PlkEng → PlkEng) : (d.upPlk f).seq = d.seq := rfl
@[simp] theorem Dev.upPlk_hif (d : Dev) (f : PlkEng → PlkEng) : (d.upPlk f).hif = d.hif := rfl

@[simp] theorem Dev.upPort_clk (d : Dev) (p : Fin 24) (f : PortEng → PortEng) : (d.upPort p f).clk = d.clk := rfl
@[simp] theorem Dev.upPort_regs (d : Dev) (p : Fin 24) (f : PortEng → PortEng) : (d.upPort p f).regs = d.regs := rfl
@[simp] theorem Dev.upPort_lat (d : Dev) (p : Fin 24) (f : PortEng → PortEng) : (d.upPort p f).lat = d.lat := rfl
@[simp] theorem Dev.upPort_half (d : Dev) (p : Fin 24) (f : PortEng → PortEng) : (d.upPort p f).half = d.half := rfl
@[simp] theorem Dev.upPort_snapping (d : Dev) (p : Fin 24) (f : PortEng → PortEng) : (d.upPort p f).snapping = d.snapping := rfl
@[simp] theorem Dev.upPort_shadow (d : Dev) (p : Fin 24) (f : PortEng → PortEng) : (d.upPort p f).shadow = d.shadow := rfl
@[simp] theorem Dev.upPort_cyc (d : Dev) (p : Fin 24) (f : PortEng → PortEng) : (d.upPort p f).cyc = d.cyc := rfl
@[simp] theorem Dev.upPort_agenda (d : Dev) (p : Fin 24) (f : PortEng → PortEng) : (d.upPort p f).agenda = d.agenda := rfl
@[simp] theorem Dev.upPort_alarms (d : Dev) (p : Fin 24) (f : PortEng → PortEng) : (d.upPort p f).alarms = d.alarms := rfl
@[simp] theorem Dev.upPort_events (d : Dev) (p : Fin 24) (f : PortEng → PortEng) : (d.upPort p f).events = d.events := rfl
@[simp] theorem Dev.upPort_hwSet (d : Dev) (p : Fin 24) (f : PortEng → PortEng) : (d.upPort p f).hwSet = d.hwSet := rfl
@[simp] theorem Dev.upPort_out (d : Dev) (p : Fin 24) (f : PortEng → PortEng) : (d.upPort p f).out = d.out := rfl
@[simp] theorem Dev.upPort_ts (d : Dev) (p : Fin 24) (f : PortEng → PortEng) : (d.upPort p f).ts = d.ts := rfl
@[simp] theorem Dev.upPort_views (d : Dev) (p : Fin 24) (f : PortEng → PortEng) : (d.upPort p f).views = d.views := rfl
@[simp] theorem Dev.upPort_corr (d : Dev) (p : Fin 24) (f : PortEng → PortEng) : (d.upPort p f).corr = d.corr := rfl
@[simp] theorem Dev.upPort_links (d : Dev) (p : Fin 24) (f : PortEng → PortEng) : (d.upPort p f).links = d.links := rfl
@[simp] theorem Dev.upPort_c4Held (d : Dev) (p : Fin 24) (f : PortEng → PortEng) : (d.upPort p f).c4Held = d.c4Held := rfl
@[simp] theorem Dev.upPort_mon (d : Dev) (p : Fin 24) (f : PortEng → PortEng) : (d.upPort p f).mon = d.mon := rfl
@[simp] theorem Dev.upPort_atm (d : Dev) (p : Fin 24) (f : PortEng → PortEng) : (d.upPort p f).atm = d.atm := rfl
@[simp] theorem Dev.upPort_us (d : Dev) (p : Fin 24) (f : PortEng → PortEng) : (d.upPort p f).us = d.us := rfl
@[simp] theorem Dev.upPort_ens (d : Dev) (p : Fin 24) (f : PortEng → PortEng) : (d.upPort p f).ens = d.ens := rfl
@[simp] theorem Dev.upPort_sel (d : Dev) (p : Fin 24) (f : PortEng → PortEng) : (d.upPort p f).sel = d.sel := rfl
@[simp] theorem Dev.upPort_svc (d : Dev) (p : Fin 24) (f : PortEng → PortEng) : (d.upPort p f).svc = d.svc := rfl
@[simp] theorem Dev.upPort_hld (d : Dev) (p : Fin 24) (f : PortEng → PortEng) : (d.upPort p f).hld = d.hld := rfl
@[simp] theorem Dev.upPort_gnss (d : Dev) (p : Fin 24) (f : PortEng → PortEng) : (d.upPort p f).gnss = d.gnss := rfl
@[simp] theorem Dev.upPort_pwr (d : Dev) (p : Fin 24) (f : PortEng → PortEng) : (d.upPort p f).pwr = d.pwr := rfl
@[simp] theorem Dev.upPort_syn (d : Dev) (p : Fin 24) (f : PortEng → PortEng) : (d.upPort p f).syn = d.syn := rfl
@[simp] theorem Dev.upPort_cko (d : Dev) (p : Fin 24) (f : PortEng → PortEng) : (d.upPort p f).cko = d.cko := rfl
@[simp] theorem Dev.upPort_tdc (d : Dev) (p : Fin 24) (f : PortEng → PortEng) : (d.upPort p f).tdc = d.tdc := rfl
@[simp] theorem Dev.upPort_unit (d : Dev) (p : Fin 24) (f : PortEng → PortEng) : (d.upPort p f).unit = d.unit := rfl
@[simp] theorem Dev.upPort_tdcs (d : Dev) (p : Fin 24) (f : PortEng → PortEng) : (d.upPort p f).tdcs = d.tdcs := rfl
@[simp] theorem Dev.upPort_evo (d : Dev) (p : Fin 24) (f : PortEng → PortEng) : (d.upPort p f).evo = d.evo := rfl
@[simp] theorem Dev.upPort_evi (d : Dev) (p : Fin 24) (f : PortEng → PortEng) : (d.upPort p f).evi = d.evi := rfl
@[simp] theorem Dev.upPort_aud (d : Dev) (p : Fin 24) (f : PortEng → PortEng) : (d.upPort p f).aud = d.aud := rfl
@[simp] theorem Dev.upPort_plk (d : Dev) (p : Fin 24) (f : PortEng → PortEng) : (d.upPort p f).plk = d.plk := rfl
@[simp] theorem Dev.upPort_ldr (d : Dev) (p : Fin 24) (f : PortEng → PortEng) : (d.upPort p f).ldr = d.ldr := rfl
@[simp] theorem Dev.upPort_pts (d : Dev) (p : Fin 24) (f : PortEng → PortEng) : (d.upPort p f).pts = d.pts := rfl
@[simp] theorem Dev.upPort_lane (d : Dev) (p : Fin 24) (f : PortEng → PortEng) : (d.upPort p f).lane = d.lane := rfl
@[simp] theorem Dev.upPort_key (d : Dev) (p : Fin 24) (f : PortEng → PortEng) : (d.upPort p f).key = d.key := rfl
@[simp] theorem Dev.upPort_rsp (d : Dev) (p : Fin 24) (f : PortEng → PortEng) : (d.upPort p f).rsp = d.rsp := rfl
@[simp] theorem Dev.upPort_cst (d : Dev) (p : Fin 24) (f : PortEng → PortEng) : (d.upPort p f).cst = d.cst := rfl
@[simp] theorem Dev.upPort_rcd (d : Dev) (p : Fin 24) (f : PortEng → PortEng) : (d.upPort p f).rcd = d.rcd := rfl
@[simp] theorem Dev.upPort_flt (d : Dev) (p : Fin 24) (f : PortEng → PortEng) : (d.upPort p f).flt = d.flt := rfl
@[simp] theorem Dev.upPort_seq (d : Dev) (p : Fin 24) (f : PortEng → PortEng) : (d.upPort p f).seq = d.seq := rfl
@[simp] theorem Dev.upPort_hif (d : Dev) (p : Fin 24) (f : PortEng → PortEng) : (d.upPort p f).hif = d.hif := rfl

@[simp] theorem Dev.upPts_clk (d : Dev) (p : Fin 24) (f : PtsEng → PtsEng) : (d.upPts p f).clk = d.clk := rfl
@[simp] theorem Dev.upPts_regs (d : Dev) (p : Fin 24) (f : PtsEng → PtsEng) : (d.upPts p f).regs = d.regs := rfl
@[simp] theorem Dev.upPts_lat (d : Dev) (p : Fin 24) (f : PtsEng → PtsEng) : (d.upPts p f).lat = d.lat := rfl
@[simp] theorem Dev.upPts_half (d : Dev) (p : Fin 24) (f : PtsEng → PtsEng) : (d.upPts p f).half = d.half := rfl
@[simp] theorem Dev.upPts_snapping (d : Dev) (p : Fin 24) (f : PtsEng → PtsEng) : (d.upPts p f).snapping = d.snapping := rfl
@[simp] theorem Dev.upPts_shadow (d : Dev) (p : Fin 24) (f : PtsEng → PtsEng) : (d.upPts p f).shadow = d.shadow := rfl
@[simp] theorem Dev.upPts_cyc (d : Dev) (p : Fin 24) (f : PtsEng → PtsEng) : (d.upPts p f).cyc = d.cyc := rfl
@[simp] theorem Dev.upPts_agenda (d : Dev) (p : Fin 24) (f : PtsEng → PtsEng) : (d.upPts p f).agenda = d.agenda := rfl
@[simp] theorem Dev.upPts_alarms (d : Dev) (p : Fin 24) (f : PtsEng → PtsEng) : (d.upPts p f).alarms = d.alarms := rfl
@[simp] theorem Dev.upPts_events (d : Dev) (p : Fin 24) (f : PtsEng → PtsEng) : (d.upPts p f).events = d.events := rfl
@[simp] theorem Dev.upPts_hwSet (d : Dev) (p : Fin 24) (f : PtsEng → PtsEng) : (d.upPts p f).hwSet = d.hwSet := rfl
@[simp] theorem Dev.upPts_out (d : Dev) (p : Fin 24) (f : PtsEng → PtsEng) : (d.upPts p f).out = d.out := rfl
@[simp] theorem Dev.upPts_ts (d : Dev) (p : Fin 24) (f : PtsEng → PtsEng) : (d.upPts p f).ts = d.ts := rfl
@[simp] theorem Dev.upPts_views (d : Dev) (p : Fin 24) (f : PtsEng → PtsEng) : (d.upPts p f).views = d.views := rfl
@[simp] theorem Dev.upPts_corr (d : Dev) (p : Fin 24) (f : PtsEng → PtsEng) : (d.upPts p f).corr = d.corr := rfl
@[simp] theorem Dev.upPts_links (d : Dev) (p : Fin 24) (f : PtsEng → PtsEng) : (d.upPts p f).links = d.links := rfl
@[simp] theorem Dev.upPts_c4Held (d : Dev) (p : Fin 24) (f : PtsEng → PtsEng) : (d.upPts p f).c4Held = d.c4Held := rfl
@[simp] theorem Dev.upPts_mon (d : Dev) (p : Fin 24) (f : PtsEng → PtsEng) : (d.upPts p f).mon = d.mon := rfl
@[simp] theorem Dev.upPts_atm (d : Dev) (p : Fin 24) (f : PtsEng → PtsEng) : (d.upPts p f).atm = d.atm := rfl
@[simp] theorem Dev.upPts_us (d : Dev) (p : Fin 24) (f : PtsEng → PtsEng) : (d.upPts p f).us = d.us := rfl
@[simp] theorem Dev.upPts_ens (d : Dev) (p : Fin 24) (f : PtsEng → PtsEng) : (d.upPts p f).ens = d.ens := rfl
@[simp] theorem Dev.upPts_sel (d : Dev) (p : Fin 24) (f : PtsEng → PtsEng) : (d.upPts p f).sel = d.sel := rfl
@[simp] theorem Dev.upPts_svc (d : Dev) (p : Fin 24) (f : PtsEng → PtsEng) : (d.upPts p f).svc = d.svc := rfl
@[simp] theorem Dev.upPts_hld (d : Dev) (p : Fin 24) (f : PtsEng → PtsEng) : (d.upPts p f).hld = d.hld := rfl
@[simp] theorem Dev.upPts_gnss (d : Dev) (p : Fin 24) (f : PtsEng → PtsEng) : (d.upPts p f).gnss = d.gnss := rfl
@[simp] theorem Dev.upPts_pwr (d : Dev) (p : Fin 24) (f : PtsEng → PtsEng) : (d.upPts p f).pwr = d.pwr := rfl
@[simp] theorem Dev.upPts_syn (d : Dev) (p : Fin 24) (f : PtsEng → PtsEng) : (d.upPts p f).syn = d.syn := rfl
@[simp] theorem Dev.upPts_cko (d : Dev) (p : Fin 24) (f : PtsEng → PtsEng) : (d.upPts p f).cko = d.cko := rfl
@[simp] theorem Dev.upPts_tdc (d : Dev) (p : Fin 24) (f : PtsEng → PtsEng) : (d.upPts p f).tdc = d.tdc := rfl
@[simp] theorem Dev.upPts_unit (d : Dev) (p : Fin 24) (f : PtsEng → PtsEng) : (d.upPts p f).unit = d.unit := rfl
@[simp] theorem Dev.upPts_tdcs (d : Dev) (p : Fin 24) (f : PtsEng → PtsEng) : (d.upPts p f).tdcs = d.tdcs := rfl
@[simp] theorem Dev.upPts_evo (d : Dev) (p : Fin 24) (f : PtsEng → PtsEng) : (d.upPts p f).evo = d.evo := rfl
@[simp] theorem Dev.upPts_evi (d : Dev) (p : Fin 24) (f : PtsEng → PtsEng) : (d.upPts p f).evi = d.evi := rfl
@[simp] theorem Dev.upPts_aud (d : Dev) (p : Fin 24) (f : PtsEng → PtsEng) : (d.upPts p f).aud = d.aud := rfl
@[simp] theorem Dev.upPts_plk (d : Dev) (p : Fin 24) (f : PtsEng → PtsEng) : (d.upPts p f).plk = d.plk := rfl
@[simp] theorem Dev.upPts_ldr (d : Dev) (p : Fin 24) (f : PtsEng → PtsEng) : (d.upPts p f).ldr = d.ldr := rfl
@[simp] theorem Dev.upPts_port (d : Dev) (p : Fin 24) (f : PtsEng → PtsEng) : (d.upPts p f).port = d.port := rfl
@[simp] theorem Dev.upPts_lane (d : Dev) (p : Fin 24) (f : PtsEng → PtsEng) : (d.upPts p f).lane = d.lane := rfl
@[simp] theorem Dev.upPts_key (d : Dev) (p : Fin 24) (f : PtsEng → PtsEng) : (d.upPts p f).key = d.key := rfl
@[simp] theorem Dev.upPts_rsp (d : Dev) (p : Fin 24) (f : PtsEng → PtsEng) : (d.upPts p f).rsp = d.rsp := rfl
@[simp] theorem Dev.upPts_cst (d : Dev) (p : Fin 24) (f : PtsEng → PtsEng) : (d.upPts p f).cst = d.cst := rfl
@[simp] theorem Dev.upPts_rcd (d : Dev) (p : Fin 24) (f : PtsEng → PtsEng) : (d.upPts p f).rcd = d.rcd := rfl
@[simp] theorem Dev.upPts_flt (d : Dev) (p : Fin 24) (f : PtsEng → PtsEng) : (d.upPts p f).flt = d.flt := rfl
@[simp] theorem Dev.upPts_seq (d : Dev) (p : Fin 24) (f : PtsEng → PtsEng) : (d.upPts p f).seq = d.seq := rfl
@[simp] theorem Dev.upPts_hif (d : Dev) (p : Fin 24) (f : PtsEng → PtsEng) : (d.upPts p f).hif = d.hif := rfl

@[simp] theorem Dev.upEvo_clk (d : Dev) (n : Fin 16) (f : EvoEng → EvoEng) : (d.upEvo n f).clk = d.clk := rfl
@[simp] theorem Dev.upEvo_regs (d : Dev) (n : Fin 16) (f : EvoEng → EvoEng) : (d.upEvo n f).regs = d.regs := rfl
@[simp] theorem Dev.upEvo_lat (d : Dev) (n : Fin 16) (f : EvoEng → EvoEng) : (d.upEvo n f).lat = d.lat := rfl
@[simp] theorem Dev.upEvo_half (d : Dev) (n : Fin 16) (f : EvoEng → EvoEng) : (d.upEvo n f).half = d.half := rfl
@[simp] theorem Dev.upEvo_snapping (d : Dev) (n : Fin 16) (f : EvoEng → EvoEng) : (d.upEvo n f).snapping = d.snapping := rfl
@[simp] theorem Dev.upEvo_shadow (d : Dev) (n : Fin 16) (f : EvoEng → EvoEng) : (d.upEvo n f).shadow = d.shadow := rfl
@[simp] theorem Dev.upEvo_cyc (d : Dev) (n : Fin 16) (f : EvoEng → EvoEng) : (d.upEvo n f).cyc = d.cyc := rfl
@[simp] theorem Dev.upEvo_agenda (d : Dev) (n : Fin 16) (f : EvoEng → EvoEng) : (d.upEvo n f).agenda = d.agenda := rfl
@[simp] theorem Dev.upEvo_alarms (d : Dev) (n : Fin 16) (f : EvoEng → EvoEng) : (d.upEvo n f).alarms = d.alarms := rfl
@[simp] theorem Dev.upEvo_events (d : Dev) (n : Fin 16) (f : EvoEng → EvoEng) : (d.upEvo n f).events = d.events := rfl
@[simp] theorem Dev.upEvo_hwSet (d : Dev) (n : Fin 16) (f : EvoEng → EvoEng) : (d.upEvo n f).hwSet = d.hwSet := rfl
@[simp] theorem Dev.upEvo_out (d : Dev) (n : Fin 16) (f : EvoEng → EvoEng) : (d.upEvo n f).out = d.out := rfl
@[simp] theorem Dev.upEvo_ts (d : Dev) (n : Fin 16) (f : EvoEng → EvoEng) : (d.upEvo n f).ts = d.ts := rfl
@[simp] theorem Dev.upEvo_views (d : Dev) (n : Fin 16) (f : EvoEng → EvoEng) : (d.upEvo n f).views = d.views := rfl
@[simp] theorem Dev.upEvo_corr (d : Dev) (n : Fin 16) (f : EvoEng → EvoEng) : (d.upEvo n f).corr = d.corr := rfl
@[simp] theorem Dev.upEvo_links (d : Dev) (n : Fin 16) (f : EvoEng → EvoEng) : (d.upEvo n f).links = d.links := rfl
@[simp] theorem Dev.upEvo_c4Held (d : Dev) (n : Fin 16) (f : EvoEng → EvoEng) : (d.upEvo n f).c4Held = d.c4Held := rfl
@[simp] theorem Dev.upEvo_mon (d : Dev) (n : Fin 16) (f : EvoEng → EvoEng) : (d.upEvo n f).mon = d.mon := rfl
@[simp] theorem Dev.upEvo_atm (d : Dev) (n : Fin 16) (f : EvoEng → EvoEng) : (d.upEvo n f).atm = d.atm := rfl
@[simp] theorem Dev.upEvo_us (d : Dev) (n : Fin 16) (f : EvoEng → EvoEng) : (d.upEvo n f).us = d.us := rfl
@[simp] theorem Dev.upEvo_ens (d : Dev) (n : Fin 16) (f : EvoEng → EvoEng) : (d.upEvo n f).ens = d.ens := rfl
@[simp] theorem Dev.upEvo_sel (d : Dev) (n : Fin 16) (f : EvoEng → EvoEng) : (d.upEvo n f).sel = d.sel := rfl
@[simp] theorem Dev.upEvo_svc (d : Dev) (n : Fin 16) (f : EvoEng → EvoEng) : (d.upEvo n f).svc = d.svc := rfl
@[simp] theorem Dev.upEvo_hld (d : Dev) (n : Fin 16) (f : EvoEng → EvoEng) : (d.upEvo n f).hld = d.hld := rfl
@[simp] theorem Dev.upEvo_gnss (d : Dev) (n : Fin 16) (f : EvoEng → EvoEng) : (d.upEvo n f).gnss = d.gnss := rfl
@[simp] theorem Dev.upEvo_pwr (d : Dev) (n : Fin 16) (f : EvoEng → EvoEng) : (d.upEvo n f).pwr = d.pwr := rfl
@[simp] theorem Dev.upEvo_syn (d : Dev) (n : Fin 16) (f : EvoEng → EvoEng) : (d.upEvo n f).syn = d.syn := rfl
@[simp] theorem Dev.upEvo_cko (d : Dev) (n : Fin 16) (f : EvoEng → EvoEng) : (d.upEvo n f).cko = d.cko := rfl
@[simp] theorem Dev.upEvo_tdc (d : Dev) (n : Fin 16) (f : EvoEng → EvoEng) : (d.upEvo n f).tdc = d.tdc := rfl
@[simp] theorem Dev.upEvo_unit (d : Dev) (n : Fin 16) (f : EvoEng → EvoEng) : (d.upEvo n f).unit = d.unit := rfl
@[simp] theorem Dev.upEvo_tdcs (d : Dev) (n : Fin 16) (f : EvoEng → EvoEng) : (d.upEvo n f).tdcs = d.tdcs := rfl
@[simp] theorem Dev.upEvo_evi (d : Dev) (n : Fin 16) (f : EvoEng → EvoEng) : (d.upEvo n f).evi = d.evi := rfl
@[simp] theorem Dev.upEvo_aud (d : Dev) (n : Fin 16) (f : EvoEng → EvoEng) : (d.upEvo n f).aud = d.aud := rfl
@[simp] theorem Dev.upEvo_plk (d : Dev) (n : Fin 16) (f : EvoEng → EvoEng) : (d.upEvo n f).plk = d.plk := rfl
@[simp] theorem Dev.upEvo_ldr (d : Dev) (n : Fin 16) (f : EvoEng → EvoEng) : (d.upEvo n f).ldr = d.ldr := rfl
@[simp] theorem Dev.upEvo_pts (d : Dev) (n : Fin 16) (f : EvoEng → EvoEng) : (d.upEvo n f).pts = d.pts := rfl
@[simp] theorem Dev.upEvo_port (d : Dev) (n : Fin 16) (f : EvoEng → EvoEng) : (d.upEvo n f).port = d.port := rfl
@[simp] theorem Dev.upEvo_lane (d : Dev) (n : Fin 16) (f : EvoEng → EvoEng) : (d.upEvo n f).lane = d.lane := rfl
@[simp] theorem Dev.upEvo_key (d : Dev) (n : Fin 16) (f : EvoEng → EvoEng) : (d.upEvo n f).key = d.key := rfl
@[simp] theorem Dev.upEvo_rsp (d : Dev) (n : Fin 16) (f : EvoEng → EvoEng) : (d.upEvo n f).rsp = d.rsp := rfl
@[simp] theorem Dev.upEvo_cst (d : Dev) (n : Fin 16) (f : EvoEng → EvoEng) : (d.upEvo n f).cst = d.cst := rfl
@[simp] theorem Dev.upEvo_rcd (d : Dev) (n : Fin 16) (f : EvoEng → EvoEng) : (d.upEvo n f).rcd = d.rcd := rfl
@[simp] theorem Dev.upEvo_flt (d : Dev) (n : Fin 16) (f : EvoEng → EvoEng) : (d.upEvo n f).flt = d.flt := rfl
@[simp] theorem Dev.upEvo_seq (d : Dev) (n : Fin 16) (f : EvoEng → EvoEng) : (d.upEvo n f).seq = d.seq := rfl
@[simp] theorem Dev.upEvo_hif (d : Dev) (n : Fin 16) (f : EvoEng → EvoEng) : (d.upEvo n f).hif = d.hif := rfl

@[simp] theorem Dev.upPwr_clk (d : Dev) (f : PwrEng → PwrEng) : (d.upPwr f).clk = d.clk := rfl
@[simp] theorem Dev.upPwr_regs (d : Dev) (f : PwrEng → PwrEng) : (d.upPwr f).regs = d.regs := rfl
@[simp] theorem Dev.upPwr_lat (d : Dev) (f : PwrEng → PwrEng) : (d.upPwr f).lat = d.lat := rfl
@[simp] theorem Dev.upPwr_half (d : Dev) (f : PwrEng → PwrEng) : (d.upPwr f).half = d.half := rfl
@[simp] theorem Dev.upPwr_snapping (d : Dev) (f : PwrEng → PwrEng) : (d.upPwr f).snapping = d.snapping := rfl
@[simp] theorem Dev.upPwr_shadow (d : Dev) (f : PwrEng → PwrEng) : (d.upPwr f).shadow = d.shadow := rfl
@[simp] theorem Dev.upPwr_cyc (d : Dev) (f : PwrEng → PwrEng) : (d.upPwr f).cyc = d.cyc := rfl
@[simp] theorem Dev.upPwr_agenda (d : Dev) (f : PwrEng → PwrEng) : (d.upPwr f).agenda = d.agenda := rfl
@[simp] theorem Dev.upPwr_alarms (d : Dev) (f : PwrEng → PwrEng) : (d.upPwr f).alarms = d.alarms := rfl
@[simp] theorem Dev.upPwr_events (d : Dev) (f : PwrEng → PwrEng) : (d.upPwr f).events = d.events := rfl
@[simp] theorem Dev.upPwr_hwSet (d : Dev) (f : PwrEng → PwrEng) : (d.upPwr f).hwSet = d.hwSet := rfl
@[simp] theorem Dev.upPwr_out (d : Dev) (f : PwrEng → PwrEng) : (d.upPwr f).out = d.out := rfl
@[simp] theorem Dev.upPwr_ts (d : Dev) (f : PwrEng → PwrEng) : (d.upPwr f).ts = d.ts := rfl
@[simp] theorem Dev.upPwr_views (d : Dev) (f : PwrEng → PwrEng) : (d.upPwr f).views = d.views := rfl
@[simp] theorem Dev.upPwr_corr (d : Dev) (f : PwrEng → PwrEng) : (d.upPwr f).corr = d.corr := rfl
@[simp] theorem Dev.upPwr_links (d : Dev) (f : PwrEng → PwrEng) : (d.upPwr f).links = d.links := rfl
@[simp] theorem Dev.upPwr_c4Held (d : Dev) (f : PwrEng → PwrEng) : (d.upPwr f).c4Held = d.c4Held := rfl
@[simp] theorem Dev.upPwr_mon (d : Dev) (f : PwrEng → PwrEng) : (d.upPwr f).mon = d.mon := rfl
@[simp] theorem Dev.upPwr_atm (d : Dev) (f : PwrEng → PwrEng) : (d.upPwr f).atm = d.atm := rfl
@[simp] theorem Dev.upPwr_us (d : Dev) (f : PwrEng → PwrEng) : (d.upPwr f).us = d.us := rfl
@[simp] theorem Dev.upPwr_ens (d : Dev) (f : PwrEng → PwrEng) : (d.upPwr f).ens = d.ens := rfl
@[simp] theorem Dev.upPwr_sel (d : Dev) (f : PwrEng → PwrEng) : (d.upPwr f).sel = d.sel := rfl
@[simp] theorem Dev.upPwr_svc (d : Dev) (f : PwrEng → PwrEng) : (d.upPwr f).svc = d.svc := rfl
@[simp] theorem Dev.upPwr_hld (d : Dev) (f : PwrEng → PwrEng) : (d.upPwr f).hld = d.hld := rfl
@[simp] theorem Dev.upPwr_gnss (d : Dev) (f : PwrEng → PwrEng) : (d.upPwr f).gnss = d.gnss := rfl
@[simp] theorem Dev.upPwr_syn (d : Dev) (f : PwrEng → PwrEng) : (d.upPwr f).syn = d.syn := rfl
@[simp] theorem Dev.upPwr_cko (d : Dev) (f : PwrEng → PwrEng) : (d.upPwr f).cko = d.cko := rfl
@[simp] theorem Dev.upPwr_tdc (d : Dev) (f : PwrEng → PwrEng) : (d.upPwr f).tdc = d.tdc := rfl
@[simp] theorem Dev.upPwr_unit (d : Dev) (f : PwrEng → PwrEng) : (d.upPwr f).unit = d.unit := rfl
@[simp] theorem Dev.upPwr_tdcs (d : Dev) (f : PwrEng → PwrEng) : (d.upPwr f).tdcs = d.tdcs := rfl
@[simp] theorem Dev.upPwr_evo (d : Dev) (f : PwrEng → PwrEng) : (d.upPwr f).evo = d.evo := rfl
@[simp] theorem Dev.upPwr_evi (d : Dev) (f : PwrEng → PwrEng) : (d.upPwr f).evi = d.evi := rfl
@[simp] theorem Dev.upPwr_aud (d : Dev) (f : PwrEng → PwrEng) : (d.upPwr f).aud = d.aud := rfl
@[simp] theorem Dev.upPwr_plk (d : Dev) (f : PwrEng → PwrEng) : (d.upPwr f).plk = d.plk := rfl
@[simp] theorem Dev.upPwr_ldr (d : Dev) (f : PwrEng → PwrEng) : (d.upPwr f).ldr = d.ldr := rfl
@[simp] theorem Dev.upPwr_pts (d : Dev) (f : PwrEng → PwrEng) : (d.upPwr f).pts = d.pts := rfl
@[simp] theorem Dev.upPwr_port (d : Dev) (f : PwrEng → PwrEng) : (d.upPwr f).port = d.port := rfl
@[simp] theorem Dev.upPwr_lane (d : Dev) (f : PwrEng → PwrEng) : (d.upPwr f).lane = d.lane := rfl
@[simp] theorem Dev.upPwr_key (d : Dev) (f : PwrEng → PwrEng) : (d.upPwr f).key = d.key := rfl
@[simp] theorem Dev.upPwr_rsp (d : Dev) (f : PwrEng → PwrEng) : (d.upPwr f).rsp = d.rsp := rfl
@[simp] theorem Dev.upPwr_cst (d : Dev) (f : PwrEng → PwrEng) : (d.upPwr f).cst = d.cst := rfl
@[simp] theorem Dev.upPwr_rcd (d : Dev) (f : PwrEng → PwrEng) : (d.upPwr f).rcd = d.rcd := rfl
@[simp] theorem Dev.upPwr_flt (d : Dev) (f : PwrEng → PwrEng) : (d.upPwr f).flt = d.flt := rfl
@[simp] theorem Dev.upPwr_seq (d : Dev) (f : PwrEng → PwrEng) : (d.upPwr f).seq = d.seq := rfl
@[simp] theorem Dev.upPwr_hif (d : Dev) (f : PwrEng → PwrEng) : (d.upPwr f).hif = d.hif := rfl

@[simp] theorem Dev.upAtm_clk (d : Dev) (n : Fin 2) (f : AtmEng → AtmEng) : (d.upAtm n f).clk = d.clk := rfl
@[simp] theorem Dev.upAtm_regs (d : Dev) (n : Fin 2) (f : AtmEng → AtmEng) : (d.upAtm n f).regs = d.regs := rfl
@[simp] theorem Dev.upAtm_lat (d : Dev) (n : Fin 2) (f : AtmEng → AtmEng) : (d.upAtm n f).lat = d.lat := rfl
@[simp] theorem Dev.upAtm_half (d : Dev) (n : Fin 2) (f : AtmEng → AtmEng) : (d.upAtm n f).half = d.half := rfl
@[simp] theorem Dev.upAtm_snapping (d : Dev) (n : Fin 2) (f : AtmEng → AtmEng) : (d.upAtm n f).snapping = d.snapping := rfl
@[simp] theorem Dev.upAtm_shadow (d : Dev) (n : Fin 2) (f : AtmEng → AtmEng) : (d.upAtm n f).shadow = d.shadow := rfl
@[simp] theorem Dev.upAtm_cyc (d : Dev) (n : Fin 2) (f : AtmEng → AtmEng) : (d.upAtm n f).cyc = d.cyc := rfl
@[simp] theorem Dev.upAtm_agenda (d : Dev) (n : Fin 2) (f : AtmEng → AtmEng) : (d.upAtm n f).agenda = d.agenda := rfl
@[simp] theorem Dev.upAtm_alarms (d : Dev) (n : Fin 2) (f : AtmEng → AtmEng) : (d.upAtm n f).alarms = d.alarms := rfl
@[simp] theorem Dev.upAtm_events (d : Dev) (n : Fin 2) (f : AtmEng → AtmEng) : (d.upAtm n f).events = d.events := rfl
@[simp] theorem Dev.upAtm_hwSet (d : Dev) (n : Fin 2) (f : AtmEng → AtmEng) : (d.upAtm n f).hwSet = d.hwSet := rfl
@[simp] theorem Dev.upAtm_out (d : Dev) (n : Fin 2) (f : AtmEng → AtmEng) : (d.upAtm n f).out = d.out := rfl
@[simp] theorem Dev.upAtm_ts (d : Dev) (n : Fin 2) (f : AtmEng → AtmEng) : (d.upAtm n f).ts = d.ts := rfl
@[simp] theorem Dev.upAtm_views (d : Dev) (n : Fin 2) (f : AtmEng → AtmEng) : (d.upAtm n f).views = d.views := rfl
@[simp] theorem Dev.upAtm_corr (d : Dev) (n : Fin 2) (f : AtmEng → AtmEng) : (d.upAtm n f).corr = d.corr := rfl
@[simp] theorem Dev.upAtm_links (d : Dev) (n : Fin 2) (f : AtmEng → AtmEng) : (d.upAtm n f).links = d.links := rfl
@[simp] theorem Dev.upAtm_c4Held (d : Dev) (n : Fin 2) (f : AtmEng → AtmEng) : (d.upAtm n f).c4Held = d.c4Held := rfl
@[simp] theorem Dev.upAtm_mon (d : Dev) (n : Fin 2) (f : AtmEng → AtmEng) : (d.upAtm n f).mon = d.mon := rfl
@[simp] theorem Dev.upAtm_us (d : Dev) (n : Fin 2) (f : AtmEng → AtmEng) : (d.upAtm n f).us = d.us := rfl
@[simp] theorem Dev.upAtm_ens (d : Dev) (n : Fin 2) (f : AtmEng → AtmEng) : (d.upAtm n f).ens = d.ens := rfl
@[simp] theorem Dev.upAtm_sel (d : Dev) (n : Fin 2) (f : AtmEng → AtmEng) : (d.upAtm n f).sel = d.sel := rfl
@[simp] theorem Dev.upAtm_svc (d : Dev) (n : Fin 2) (f : AtmEng → AtmEng) : (d.upAtm n f).svc = d.svc := rfl
@[simp] theorem Dev.upAtm_hld (d : Dev) (n : Fin 2) (f : AtmEng → AtmEng) : (d.upAtm n f).hld = d.hld := rfl
@[simp] theorem Dev.upAtm_gnss (d : Dev) (n : Fin 2) (f : AtmEng → AtmEng) : (d.upAtm n f).gnss = d.gnss := rfl
@[simp] theorem Dev.upAtm_pwr (d : Dev) (n : Fin 2) (f : AtmEng → AtmEng) : (d.upAtm n f).pwr = d.pwr := rfl
@[simp] theorem Dev.upAtm_syn (d : Dev) (n : Fin 2) (f : AtmEng → AtmEng) : (d.upAtm n f).syn = d.syn := rfl
@[simp] theorem Dev.upAtm_cko (d : Dev) (n : Fin 2) (f : AtmEng → AtmEng) : (d.upAtm n f).cko = d.cko := rfl
@[simp] theorem Dev.upAtm_tdc (d : Dev) (n : Fin 2) (f : AtmEng → AtmEng) : (d.upAtm n f).tdc = d.tdc := rfl
@[simp] theorem Dev.upAtm_unit (d : Dev) (n : Fin 2) (f : AtmEng → AtmEng) : (d.upAtm n f).unit = d.unit := rfl
@[simp] theorem Dev.upAtm_tdcs (d : Dev) (n : Fin 2) (f : AtmEng → AtmEng) : (d.upAtm n f).tdcs = d.tdcs := rfl
@[simp] theorem Dev.upAtm_evo (d : Dev) (n : Fin 2) (f : AtmEng → AtmEng) : (d.upAtm n f).evo = d.evo := rfl
@[simp] theorem Dev.upAtm_evi (d : Dev) (n : Fin 2) (f : AtmEng → AtmEng) : (d.upAtm n f).evi = d.evi := rfl
@[simp] theorem Dev.upAtm_aud (d : Dev) (n : Fin 2) (f : AtmEng → AtmEng) : (d.upAtm n f).aud = d.aud := rfl
@[simp] theorem Dev.upAtm_plk (d : Dev) (n : Fin 2) (f : AtmEng → AtmEng) : (d.upAtm n f).plk = d.plk := rfl
@[simp] theorem Dev.upAtm_ldr (d : Dev) (n : Fin 2) (f : AtmEng → AtmEng) : (d.upAtm n f).ldr = d.ldr := rfl
@[simp] theorem Dev.upAtm_pts (d : Dev) (n : Fin 2) (f : AtmEng → AtmEng) : (d.upAtm n f).pts = d.pts := rfl
@[simp] theorem Dev.upAtm_port (d : Dev) (n : Fin 2) (f : AtmEng → AtmEng) : (d.upAtm n f).port = d.port := rfl
@[simp] theorem Dev.upAtm_lane (d : Dev) (n : Fin 2) (f : AtmEng → AtmEng) : (d.upAtm n f).lane = d.lane := rfl
@[simp] theorem Dev.upAtm_key (d : Dev) (n : Fin 2) (f : AtmEng → AtmEng) : (d.upAtm n f).key = d.key := rfl
@[simp] theorem Dev.upAtm_rsp (d : Dev) (n : Fin 2) (f : AtmEng → AtmEng) : (d.upAtm n f).rsp = d.rsp := rfl
@[simp] theorem Dev.upAtm_cst (d : Dev) (n : Fin 2) (f : AtmEng → AtmEng) : (d.upAtm n f).cst = d.cst := rfl
@[simp] theorem Dev.upAtm_rcd (d : Dev) (n : Fin 2) (f : AtmEng → AtmEng) : (d.upAtm n f).rcd = d.rcd := rfl
@[simp] theorem Dev.upAtm_flt (d : Dev) (n : Fin 2) (f : AtmEng → AtmEng) : (d.upAtm n f).flt = d.flt := rfl
@[simp] theorem Dev.upAtm_seq (d : Dev) (n : Fin 2) (f : AtmEng → AtmEng) : (d.upAtm n f).seq = d.seq := rfl
@[simp] theorem Dev.upAtm_hif (d : Dev) (n : Fin 2) (f : AtmEng → AtmEng) : (d.upAtm n f).hif = d.hif := rfl

@[simp] theorem Dev.upUs_clk (d : Dev) (n : Fin 4) (f : UsEng → UsEng) : (d.upUs n f).clk = d.clk := rfl
@[simp] theorem Dev.upUs_regs (d : Dev) (n : Fin 4) (f : UsEng → UsEng) : (d.upUs n f).regs = d.regs := rfl
@[simp] theorem Dev.upUs_lat (d : Dev) (n : Fin 4) (f : UsEng → UsEng) : (d.upUs n f).lat = d.lat := rfl
@[simp] theorem Dev.upUs_half (d : Dev) (n : Fin 4) (f : UsEng → UsEng) : (d.upUs n f).half = d.half := rfl
@[simp] theorem Dev.upUs_snapping (d : Dev) (n : Fin 4) (f : UsEng → UsEng) : (d.upUs n f).snapping = d.snapping := rfl
@[simp] theorem Dev.upUs_shadow (d : Dev) (n : Fin 4) (f : UsEng → UsEng) : (d.upUs n f).shadow = d.shadow := rfl
@[simp] theorem Dev.upUs_cyc (d : Dev) (n : Fin 4) (f : UsEng → UsEng) : (d.upUs n f).cyc = d.cyc := rfl
@[simp] theorem Dev.upUs_agenda (d : Dev) (n : Fin 4) (f : UsEng → UsEng) : (d.upUs n f).agenda = d.agenda := rfl
@[simp] theorem Dev.upUs_alarms (d : Dev) (n : Fin 4) (f : UsEng → UsEng) : (d.upUs n f).alarms = d.alarms := rfl
@[simp] theorem Dev.upUs_events (d : Dev) (n : Fin 4) (f : UsEng → UsEng) : (d.upUs n f).events = d.events := rfl
@[simp] theorem Dev.upUs_hwSet (d : Dev) (n : Fin 4) (f : UsEng → UsEng) : (d.upUs n f).hwSet = d.hwSet := rfl
@[simp] theorem Dev.upUs_out (d : Dev) (n : Fin 4) (f : UsEng → UsEng) : (d.upUs n f).out = d.out := rfl
@[simp] theorem Dev.upUs_ts (d : Dev) (n : Fin 4) (f : UsEng → UsEng) : (d.upUs n f).ts = d.ts := rfl
@[simp] theorem Dev.upUs_views (d : Dev) (n : Fin 4) (f : UsEng → UsEng) : (d.upUs n f).views = d.views := rfl
@[simp] theorem Dev.upUs_corr (d : Dev) (n : Fin 4) (f : UsEng → UsEng) : (d.upUs n f).corr = d.corr := rfl
@[simp] theorem Dev.upUs_links (d : Dev) (n : Fin 4) (f : UsEng → UsEng) : (d.upUs n f).links = d.links := rfl
@[simp] theorem Dev.upUs_c4Held (d : Dev) (n : Fin 4) (f : UsEng → UsEng) : (d.upUs n f).c4Held = d.c4Held := rfl
@[simp] theorem Dev.upUs_mon (d : Dev) (n : Fin 4) (f : UsEng → UsEng) : (d.upUs n f).mon = d.mon := rfl
@[simp] theorem Dev.upUs_atm (d : Dev) (n : Fin 4) (f : UsEng → UsEng) : (d.upUs n f).atm = d.atm := rfl
@[simp] theorem Dev.upUs_ens (d : Dev) (n : Fin 4) (f : UsEng → UsEng) : (d.upUs n f).ens = d.ens := rfl
@[simp] theorem Dev.upUs_sel (d : Dev) (n : Fin 4) (f : UsEng → UsEng) : (d.upUs n f).sel = d.sel := rfl
@[simp] theorem Dev.upUs_svc (d : Dev) (n : Fin 4) (f : UsEng → UsEng) : (d.upUs n f).svc = d.svc := rfl
@[simp] theorem Dev.upUs_hld (d : Dev) (n : Fin 4) (f : UsEng → UsEng) : (d.upUs n f).hld = d.hld := rfl
@[simp] theorem Dev.upUs_gnss (d : Dev) (n : Fin 4) (f : UsEng → UsEng) : (d.upUs n f).gnss = d.gnss := rfl
@[simp] theorem Dev.upUs_pwr (d : Dev) (n : Fin 4) (f : UsEng → UsEng) : (d.upUs n f).pwr = d.pwr := rfl
@[simp] theorem Dev.upUs_syn (d : Dev) (n : Fin 4) (f : UsEng → UsEng) : (d.upUs n f).syn = d.syn := rfl
@[simp] theorem Dev.upUs_cko (d : Dev) (n : Fin 4) (f : UsEng → UsEng) : (d.upUs n f).cko = d.cko := rfl
@[simp] theorem Dev.upUs_tdc (d : Dev) (n : Fin 4) (f : UsEng → UsEng) : (d.upUs n f).tdc = d.tdc := rfl
@[simp] theorem Dev.upUs_unit (d : Dev) (n : Fin 4) (f : UsEng → UsEng) : (d.upUs n f).unit = d.unit := rfl
@[simp] theorem Dev.upUs_tdcs (d : Dev) (n : Fin 4) (f : UsEng → UsEng) : (d.upUs n f).tdcs = d.tdcs := rfl
@[simp] theorem Dev.upUs_evo (d : Dev) (n : Fin 4) (f : UsEng → UsEng) : (d.upUs n f).evo = d.evo := rfl
@[simp] theorem Dev.upUs_evi (d : Dev) (n : Fin 4) (f : UsEng → UsEng) : (d.upUs n f).evi = d.evi := rfl
@[simp] theorem Dev.upUs_aud (d : Dev) (n : Fin 4) (f : UsEng → UsEng) : (d.upUs n f).aud = d.aud := rfl
@[simp] theorem Dev.upUs_plk (d : Dev) (n : Fin 4) (f : UsEng → UsEng) : (d.upUs n f).plk = d.plk := rfl
@[simp] theorem Dev.upUs_ldr (d : Dev) (n : Fin 4) (f : UsEng → UsEng) : (d.upUs n f).ldr = d.ldr := rfl
@[simp] theorem Dev.upUs_pts (d : Dev) (n : Fin 4) (f : UsEng → UsEng) : (d.upUs n f).pts = d.pts := rfl
@[simp] theorem Dev.upUs_port (d : Dev) (n : Fin 4) (f : UsEng → UsEng) : (d.upUs n f).port = d.port := rfl
@[simp] theorem Dev.upUs_lane (d : Dev) (n : Fin 4) (f : UsEng → UsEng) : (d.upUs n f).lane = d.lane := rfl
@[simp] theorem Dev.upUs_key (d : Dev) (n : Fin 4) (f : UsEng → UsEng) : (d.upUs n f).key = d.key := rfl
@[simp] theorem Dev.upUs_rsp (d : Dev) (n : Fin 4) (f : UsEng → UsEng) : (d.upUs n f).rsp = d.rsp := rfl
@[simp] theorem Dev.upUs_cst (d : Dev) (n : Fin 4) (f : UsEng → UsEng) : (d.upUs n f).cst = d.cst := rfl
@[simp] theorem Dev.upUs_rcd (d : Dev) (n : Fin 4) (f : UsEng → UsEng) : (d.upUs n f).rcd = d.rcd := rfl
@[simp] theorem Dev.upUs_flt (d : Dev) (n : Fin 4) (f : UsEng → UsEng) : (d.upUs n f).flt = d.flt := rfl
@[simp] theorem Dev.upUs_seq (d : Dev) (n : Fin 4) (f : UsEng → UsEng) : (d.upUs n f).seq = d.seq := rfl
@[simp] theorem Dev.upUs_hif (d : Dev) (n : Fin 4) (f : UsEng → UsEng) : (d.upUs n f).hif = d.hif := rfl

@[simp] theorem Dev.upSeq_clk (d : Dev) (n : Fin 8) (f : SeqEng → SeqEng) : (d.upSeq n f).clk = d.clk := rfl
@[simp] theorem Dev.upSeq_regs (d : Dev) (n : Fin 8) (f : SeqEng → SeqEng) : (d.upSeq n f).regs = d.regs := rfl
@[simp] theorem Dev.upSeq_lat (d : Dev) (n : Fin 8) (f : SeqEng → SeqEng) : (d.upSeq n f).lat = d.lat := rfl
@[simp] theorem Dev.upSeq_half (d : Dev) (n : Fin 8) (f : SeqEng → SeqEng) : (d.upSeq n f).half = d.half := rfl
@[simp] theorem Dev.upSeq_snapping (d : Dev) (n : Fin 8) (f : SeqEng → SeqEng) : (d.upSeq n f).snapping = d.snapping := rfl
@[simp] theorem Dev.upSeq_shadow (d : Dev) (n : Fin 8) (f : SeqEng → SeqEng) : (d.upSeq n f).shadow = d.shadow := rfl
@[simp] theorem Dev.upSeq_cyc (d : Dev) (n : Fin 8) (f : SeqEng → SeqEng) : (d.upSeq n f).cyc = d.cyc := rfl
@[simp] theorem Dev.upSeq_agenda (d : Dev) (n : Fin 8) (f : SeqEng → SeqEng) : (d.upSeq n f).agenda = d.agenda := rfl
@[simp] theorem Dev.upSeq_alarms (d : Dev) (n : Fin 8) (f : SeqEng → SeqEng) : (d.upSeq n f).alarms = d.alarms := rfl
@[simp] theorem Dev.upSeq_events (d : Dev) (n : Fin 8) (f : SeqEng → SeqEng) : (d.upSeq n f).events = d.events := rfl
@[simp] theorem Dev.upSeq_hwSet (d : Dev) (n : Fin 8) (f : SeqEng → SeqEng) : (d.upSeq n f).hwSet = d.hwSet := rfl
@[simp] theorem Dev.upSeq_out (d : Dev) (n : Fin 8) (f : SeqEng → SeqEng) : (d.upSeq n f).out = d.out := rfl
@[simp] theorem Dev.upSeq_ts (d : Dev) (n : Fin 8) (f : SeqEng → SeqEng) : (d.upSeq n f).ts = d.ts := rfl
@[simp] theorem Dev.upSeq_views (d : Dev) (n : Fin 8) (f : SeqEng → SeqEng) : (d.upSeq n f).views = d.views := rfl
@[simp] theorem Dev.upSeq_corr (d : Dev) (n : Fin 8) (f : SeqEng → SeqEng) : (d.upSeq n f).corr = d.corr := rfl
@[simp] theorem Dev.upSeq_links (d : Dev) (n : Fin 8) (f : SeqEng → SeqEng) : (d.upSeq n f).links = d.links := rfl
@[simp] theorem Dev.upSeq_c4Held (d : Dev) (n : Fin 8) (f : SeqEng → SeqEng) : (d.upSeq n f).c4Held = d.c4Held := rfl
@[simp] theorem Dev.upSeq_mon (d : Dev) (n : Fin 8) (f : SeqEng → SeqEng) : (d.upSeq n f).mon = d.mon := rfl
@[simp] theorem Dev.upSeq_atm (d : Dev) (n : Fin 8) (f : SeqEng → SeqEng) : (d.upSeq n f).atm = d.atm := rfl
@[simp] theorem Dev.upSeq_us (d : Dev) (n : Fin 8) (f : SeqEng → SeqEng) : (d.upSeq n f).us = d.us := rfl
@[simp] theorem Dev.upSeq_ens (d : Dev) (n : Fin 8) (f : SeqEng → SeqEng) : (d.upSeq n f).ens = d.ens := rfl
@[simp] theorem Dev.upSeq_sel (d : Dev) (n : Fin 8) (f : SeqEng → SeqEng) : (d.upSeq n f).sel = d.sel := rfl
@[simp] theorem Dev.upSeq_svc (d : Dev) (n : Fin 8) (f : SeqEng → SeqEng) : (d.upSeq n f).svc = d.svc := rfl
@[simp] theorem Dev.upSeq_hld (d : Dev) (n : Fin 8) (f : SeqEng → SeqEng) : (d.upSeq n f).hld = d.hld := rfl
@[simp] theorem Dev.upSeq_gnss (d : Dev) (n : Fin 8) (f : SeqEng → SeqEng) : (d.upSeq n f).gnss = d.gnss := rfl
@[simp] theorem Dev.upSeq_pwr (d : Dev) (n : Fin 8) (f : SeqEng → SeqEng) : (d.upSeq n f).pwr = d.pwr := rfl
@[simp] theorem Dev.upSeq_syn (d : Dev) (n : Fin 8) (f : SeqEng → SeqEng) : (d.upSeq n f).syn = d.syn := rfl
@[simp] theorem Dev.upSeq_cko (d : Dev) (n : Fin 8) (f : SeqEng → SeqEng) : (d.upSeq n f).cko = d.cko := rfl
@[simp] theorem Dev.upSeq_tdc (d : Dev) (n : Fin 8) (f : SeqEng → SeqEng) : (d.upSeq n f).tdc = d.tdc := rfl
@[simp] theorem Dev.upSeq_unit (d : Dev) (n : Fin 8) (f : SeqEng → SeqEng) : (d.upSeq n f).unit = d.unit := rfl
@[simp] theorem Dev.upSeq_tdcs (d : Dev) (n : Fin 8) (f : SeqEng → SeqEng) : (d.upSeq n f).tdcs = d.tdcs := rfl
@[simp] theorem Dev.upSeq_evo (d : Dev) (n : Fin 8) (f : SeqEng → SeqEng) : (d.upSeq n f).evo = d.evo := rfl
@[simp] theorem Dev.upSeq_evi (d : Dev) (n : Fin 8) (f : SeqEng → SeqEng) : (d.upSeq n f).evi = d.evi := rfl
@[simp] theorem Dev.upSeq_aud (d : Dev) (n : Fin 8) (f : SeqEng → SeqEng) : (d.upSeq n f).aud = d.aud := rfl
@[simp] theorem Dev.upSeq_plk (d : Dev) (n : Fin 8) (f : SeqEng → SeqEng) : (d.upSeq n f).plk = d.plk := rfl
@[simp] theorem Dev.upSeq_ldr (d : Dev) (n : Fin 8) (f : SeqEng → SeqEng) : (d.upSeq n f).ldr = d.ldr := rfl
@[simp] theorem Dev.upSeq_pts (d : Dev) (n : Fin 8) (f : SeqEng → SeqEng) : (d.upSeq n f).pts = d.pts := rfl
@[simp] theorem Dev.upSeq_port (d : Dev) (n : Fin 8) (f : SeqEng → SeqEng) : (d.upSeq n f).port = d.port := rfl
@[simp] theorem Dev.upSeq_lane (d : Dev) (n : Fin 8) (f : SeqEng → SeqEng) : (d.upSeq n f).lane = d.lane := rfl
@[simp] theorem Dev.upSeq_key (d : Dev) (n : Fin 8) (f : SeqEng → SeqEng) : (d.upSeq n f).key = d.key := rfl
@[simp] theorem Dev.upSeq_rsp (d : Dev) (n : Fin 8) (f : SeqEng → SeqEng) : (d.upSeq n f).rsp = d.rsp := rfl
@[simp] theorem Dev.upSeq_cst (d : Dev) (n : Fin 8) (f : SeqEng → SeqEng) : (d.upSeq n f).cst = d.cst := rfl
@[simp] theorem Dev.upSeq_rcd (d : Dev) (n : Fin 8) (f : SeqEng → SeqEng) : (d.upSeq n f).rcd = d.rcd := rfl
@[simp] theorem Dev.upSeq_flt (d : Dev) (n : Fin 8) (f : SeqEng → SeqEng) : (d.upSeq n f).flt = d.flt := rfl
@[simp] theorem Dev.upSeq_hif (d : Dev) (n : Fin 8) (f : SeqEng → SeqEng) : (d.upSeq n f).hif = d.hif := rfl

@[simp] theorem Dev.upTdc_clk (d : Dev) (n : Fin 16) (f : TdcEng → TdcEng) : (d.upTdc n f).clk = d.clk := rfl
@[simp] theorem Dev.upTdc_regs (d : Dev) (n : Fin 16) (f : TdcEng → TdcEng) : (d.upTdc n f).regs = d.regs := rfl
@[simp] theorem Dev.upTdc_lat (d : Dev) (n : Fin 16) (f : TdcEng → TdcEng) : (d.upTdc n f).lat = d.lat := rfl
@[simp] theorem Dev.upTdc_half (d : Dev) (n : Fin 16) (f : TdcEng → TdcEng) : (d.upTdc n f).half = d.half := rfl
@[simp] theorem Dev.upTdc_snapping (d : Dev) (n : Fin 16) (f : TdcEng → TdcEng) : (d.upTdc n f).snapping = d.snapping := rfl
@[simp] theorem Dev.upTdc_shadow (d : Dev) (n : Fin 16) (f : TdcEng → TdcEng) : (d.upTdc n f).shadow = d.shadow := rfl
@[simp] theorem Dev.upTdc_cyc (d : Dev) (n : Fin 16) (f : TdcEng → TdcEng) : (d.upTdc n f).cyc = d.cyc := rfl
@[simp] theorem Dev.upTdc_agenda (d : Dev) (n : Fin 16) (f : TdcEng → TdcEng) : (d.upTdc n f).agenda = d.agenda := rfl
@[simp] theorem Dev.upTdc_alarms (d : Dev) (n : Fin 16) (f : TdcEng → TdcEng) : (d.upTdc n f).alarms = d.alarms := rfl
@[simp] theorem Dev.upTdc_events (d : Dev) (n : Fin 16) (f : TdcEng → TdcEng) : (d.upTdc n f).events = d.events := rfl
@[simp] theorem Dev.upTdc_hwSet (d : Dev) (n : Fin 16) (f : TdcEng → TdcEng) : (d.upTdc n f).hwSet = d.hwSet := rfl
@[simp] theorem Dev.upTdc_out (d : Dev) (n : Fin 16) (f : TdcEng → TdcEng) : (d.upTdc n f).out = d.out := rfl
@[simp] theorem Dev.upTdc_ts (d : Dev) (n : Fin 16) (f : TdcEng → TdcEng) : (d.upTdc n f).ts = d.ts := rfl
@[simp] theorem Dev.upTdc_views (d : Dev) (n : Fin 16) (f : TdcEng → TdcEng) : (d.upTdc n f).views = d.views := rfl
@[simp] theorem Dev.upTdc_corr (d : Dev) (n : Fin 16) (f : TdcEng → TdcEng) : (d.upTdc n f).corr = d.corr := rfl
@[simp] theorem Dev.upTdc_links (d : Dev) (n : Fin 16) (f : TdcEng → TdcEng) : (d.upTdc n f).links = d.links := rfl
@[simp] theorem Dev.upTdc_c4Held (d : Dev) (n : Fin 16) (f : TdcEng → TdcEng) : (d.upTdc n f).c4Held = d.c4Held := rfl
@[simp] theorem Dev.upTdc_mon (d : Dev) (n : Fin 16) (f : TdcEng → TdcEng) : (d.upTdc n f).mon = d.mon := rfl
@[simp] theorem Dev.upTdc_atm (d : Dev) (n : Fin 16) (f : TdcEng → TdcEng) : (d.upTdc n f).atm = d.atm := rfl
@[simp] theorem Dev.upTdc_us (d : Dev) (n : Fin 16) (f : TdcEng → TdcEng) : (d.upTdc n f).us = d.us := rfl
@[simp] theorem Dev.upTdc_ens (d : Dev) (n : Fin 16) (f : TdcEng → TdcEng) : (d.upTdc n f).ens = d.ens := rfl
@[simp] theorem Dev.upTdc_sel (d : Dev) (n : Fin 16) (f : TdcEng → TdcEng) : (d.upTdc n f).sel = d.sel := rfl
@[simp] theorem Dev.upTdc_svc (d : Dev) (n : Fin 16) (f : TdcEng → TdcEng) : (d.upTdc n f).svc = d.svc := rfl
@[simp] theorem Dev.upTdc_hld (d : Dev) (n : Fin 16) (f : TdcEng → TdcEng) : (d.upTdc n f).hld = d.hld := rfl
@[simp] theorem Dev.upTdc_gnss (d : Dev) (n : Fin 16) (f : TdcEng → TdcEng) : (d.upTdc n f).gnss = d.gnss := rfl
@[simp] theorem Dev.upTdc_pwr (d : Dev) (n : Fin 16) (f : TdcEng → TdcEng) : (d.upTdc n f).pwr = d.pwr := rfl
@[simp] theorem Dev.upTdc_syn (d : Dev) (n : Fin 16) (f : TdcEng → TdcEng) : (d.upTdc n f).syn = d.syn := rfl
@[simp] theorem Dev.upTdc_cko (d : Dev) (n : Fin 16) (f : TdcEng → TdcEng) : (d.upTdc n f).cko = d.cko := rfl
@[simp] theorem Dev.upTdc_unit (d : Dev) (n : Fin 16) (f : TdcEng → TdcEng) : (d.upTdc n f).unit = d.unit := rfl
@[simp] theorem Dev.upTdc_tdcs (d : Dev) (n : Fin 16) (f : TdcEng → TdcEng) : (d.upTdc n f).tdcs = d.tdcs := rfl
@[simp] theorem Dev.upTdc_evo (d : Dev) (n : Fin 16) (f : TdcEng → TdcEng) : (d.upTdc n f).evo = d.evo := rfl
@[simp] theorem Dev.upTdc_evi (d : Dev) (n : Fin 16) (f : TdcEng → TdcEng) : (d.upTdc n f).evi = d.evi := rfl
@[simp] theorem Dev.upTdc_aud (d : Dev) (n : Fin 16) (f : TdcEng → TdcEng) : (d.upTdc n f).aud = d.aud := rfl
@[simp] theorem Dev.upTdc_plk (d : Dev) (n : Fin 16) (f : TdcEng → TdcEng) : (d.upTdc n f).plk = d.plk := rfl
@[simp] theorem Dev.upTdc_ldr (d : Dev) (n : Fin 16) (f : TdcEng → TdcEng) : (d.upTdc n f).ldr = d.ldr := rfl
@[simp] theorem Dev.upTdc_pts (d : Dev) (n : Fin 16) (f : TdcEng → TdcEng) : (d.upTdc n f).pts = d.pts := rfl
@[simp] theorem Dev.upTdc_port (d : Dev) (n : Fin 16) (f : TdcEng → TdcEng) : (d.upTdc n f).port = d.port := rfl
@[simp] theorem Dev.upTdc_lane (d : Dev) (n : Fin 16) (f : TdcEng → TdcEng) : (d.upTdc n f).lane = d.lane := rfl
@[simp] theorem Dev.upTdc_key (d : Dev) (n : Fin 16) (f : TdcEng → TdcEng) : (d.upTdc n f).key = d.key := rfl
@[simp] theorem Dev.upTdc_rsp (d : Dev) (n : Fin 16) (f : TdcEng → TdcEng) : (d.upTdc n f).rsp = d.rsp := rfl
@[simp] theorem Dev.upTdc_cst (d : Dev) (n : Fin 16) (f : TdcEng → TdcEng) : (d.upTdc n f).cst = d.cst := rfl
@[simp] theorem Dev.upTdc_rcd (d : Dev) (n : Fin 16) (f : TdcEng → TdcEng) : (d.upTdc n f).rcd = d.rcd := rfl
@[simp] theorem Dev.upTdc_flt (d : Dev) (n : Fin 16) (f : TdcEng → TdcEng) : (d.upTdc n f).flt = d.flt := rfl
@[simp] theorem Dev.upTdc_seq (d : Dev) (n : Fin 16) (f : TdcEng → TdcEng) : (d.upTdc n f).seq = d.seq := rfl
@[simp] theorem Dev.upTdc_hif (d : Dev) (n : Fin 16) (f : TdcEng → TdcEng) : (d.upTdc n f).hif = d.hif := rfl

@[simp] theorem Dev.upUnit_clk (d : Dev) (u : Fin 17) (f : TdcUnit → TdcUnit) : (d.upUnit u f).clk = d.clk := rfl
@[simp] theorem Dev.upUnit_regs (d : Dev) (u : Fin 17) (f : TdcUnit → TdcUnit) : (d.upUnit u f).regs = d.regs := rfl
@[simp] theorem Dev.upUnit_lat (d : Dev) (u : Fin 17) (f : TdcUnit → TdcUnit) : (d.upUnit u f).lat = d.lat := rfl
@[simp] theorem Dev.upUnit_half (d : Dev) (u : Fin 17) (f : TdcUnit → TdcUnit) : (d.upUnit u f).half = d.half := rfl
@[simp] theorem Dev.upUnit_snapping (d : Dev) (u : Fin 17) (f : TdcUnit → TdcUnit) : (d.upUnit u f).snapping = d.snapping := rfl
@[simp] theorem Dev.upUnit_shadow (d : Dev) (u : Fin 17) (f : TdcUnit → TdcUnit) : (d.upUnit u f).shadow = d.shadow := rfl
@[simp] theorem Dev.upUnit_cyc (d : Dev) (u : Fin 17) (f : TdcUnit → TdcUnit) : (d.upUnit u f).cyc = d.cyc := rfl
@[simp] theorem Dev.upUnit_agenda (d : Dev) (u : Fin 17) (f : TdcUnit → TdcUnit) : (d.upUnit u f).agenda = d.agenda := rfl
@[simp] theorem Dev.upUnit_alarms (d : Dev) (u : Fin 17) (f : TdcUnit → TdcUnit) : (d.upUnit u f).alarms = d.alarms := rfl
@[simp] theorem Dev.upUnit_events (d : Dev) (u : Fin 17) (f : TdcUnit → TdcUnit) : (d.upUnit u f).events = d.events := rfl
@[simp] theorem Dev.upUnit_hwSet (d : Dev) (u : Fin 17) (f : TdcUnit → TdcUnit) : (d.upUnit u f).hwSet = d.hwSet := rfl
@[simp] theorem Dev.upUnit_out (d : Dev) (u : Fin 17) (f : TdcUnit → TdcUnit) : (d.upUnit u f).out = d.out := rfl
@[simp] theorem Dev.upUnit_ts (d : Dev) (u : Fin 17) (f : TdcUnit → TdcUnit) : (d.upUnit u f).ts = d.ts := rfl
@[simp] theorem Dev.upUnit_views (d : Dev) (u : Fin 17) (f : TdcUnit → TdcUnit) : (d.upUnit u f).views = d.views := rfl
@[simp] theorem Dev.upUnit_corr (d : Dev) (u : Fin 17) (f : TdcUnit → TdcUnit) : (d.upUnit u f).corr = d.corr := rfl
@[simp] theorem Dev.upUnit_links (d : Dev) (u : Fin 17) (f : TdcUnit → TdcUnit) : (d.upUnit u f).links = d.links := rfl
@[simp] theorem Dev.upUnit_c4Held (d : Dev) (u : Fin 17) (f : TdcUnit → TdcUnit) : (d.upUnit u f).c4Held = d.c4Held := rfl
@[simp] theorem Dev.upUnit_mon (d : Dev) (u : Fin 17) (f : TdcUnit → TdcUnit) : (d.upUnit u f).mon = d.mon := rfl
@[simp] theorem Dev.upUnit_atm (d : Dev) (u : Fin 17) (f : TdcUnit → TdcUnit) : (d.upUnit u f).atm = d.atm := rfl
@[simp] theorem Dev.upUnit_us (d : Dev) (u : Fin 17) (f : TdcUnit → TdcUnit) : (d.upUnit u f).us = d.us := rfl
@[simp] theorem Dev.upUnit_ens (d : Dev) (u : Fin 17) (f : TdcUnit → TdcUnit) : (d.upUnit u f).ens = d.ens := rfl
@[simp] theorem Dev.upUnit_sel (d : Dev) (u : Fin 17) (f : TdcUnit → TdcUnit) : (d.upUnit u f).sel = d.sel := rfl
@[simp] theorem Dev.upUnit_svc (d : Dev) (u : Fin 17) (f : TdcUnit → TdcUnit) : (d.upUnit u f).svc = d.svc := rfl
@[simp] theorem Dev.upUnit_hld (d : Dev) (u : Fin 17) (f : TdcUnit → TdcUnit) : (d.upUnit u f).hld = d.hld := rfl
@[simp] theorem Dev.upUnit_gnss (d : Dev) (u : Fin 17) (f : TdcUnit → TdcUnit) : (d.upUnit u f).gnss = d.gnss := rfl
@[simp] theorem Dev.upUnit_pwr (d : Dev) (u : Fin 17) (f : TdcUnit → TdcUnit) : (d.upUnit u f).pwr = d.pwr := rfl
@[simp] theorem Dev.upUnit_syn (d : Dev) (u : Fin 17) (f : TdcUnit → TdcUnit) : (d.upUnit u f).syn = d.syn := rfl
@[simp] theorem Dev.upUnit_cko (d : Dev) (u : Fin 17) (f : TdcUnit → TdcUnit) : (d.upUnit u f).cko = d.cko := rfl
@[simp] theorem Dev.upUnit_tdc (d : Dev) (u : Fin 17) (f : TdcUnit → TdcUnit) : (d.upUnit u f).tdc = d.tdc := rfl
@[simp] theorem Dev.upUnit_tdcs (d : Dev) (u : Fin 17) (f : TdcUnit → TdcUnit) : (d.upUnit u f).tdcs = d.tdcs := rfl
@[simp] theorem Dev.upUnit_evo (d : Dev) (u : Fin 17) (f : TdcUnit → TdcUnit) : (d.upUnit u f).evo = d.evo := rfl
@[simp] theorem Dev.upUnit_evi (d : Dev) (u : Fin 17) (f : TdcUnit → TdcUnit) : (d.upUnit u f).evi = d.evi := rfl
@[simp] theorem Dev.upUnit_aud (d : Dev) (u : Fin 17) (f : TdcUnit → TdcUnit) : (d.upUnit u f).aud = d.aud := rfl
@[simp] theorem Dev.upUnit_plk (d : Dev) (u : Fin 17) (f : TdcUnit → TdcUnit) : (d.upUnit u f).plk = d.plk := rfl
@[simp] theorem Dev.upUnit_ldr (d : Dev) (u : Fin 17) (f : TdcUnit → TdcUnit) : (d.upUnit u f).ldr = d.ldr := rfl
@[simp] theorem Dev.upUnit_pts (d : Dev) (u : Fin 17) (f : TdcUnit → TdcUnit) : (d.upUnit u f).pts = d.pts := rfl
@[simp] theorem Dev.upUnit_port (d : Dev) (u : Fin 17) (f : TdcUnit → TdcUnit) : (d.upUnit u f).port = d.port := rfl
@[simp] theorem Dev.upUnit_lane (d : Dev) (u : Fin 17) (f : TdcUnit → TdcUnit) : (d.upUnit u f).lane = d.lane := rfl
@[simp] theorem Dev.upUnit_key (d : Dev) (u : Fin 17) (f : TdcUnit → TdcUnit) : (d.upUnit u f).key = d.key := rfl
@[simp] theorem Dev.upUnit_rsp (d : Dev) (u : Fin 17) (f : TdcUnit → TdcUnit) : (d.upUnit u f).rsp = d.rsp := rfl
@[simp] theorem Dev.upUnit_cst (d : Dev) (u : Fin 17) (f : TdcUnit → TdcUnit) : (d.upUnit u f).cst = d.cst := rfl
@[simp] theorem Dev.upUnit_rcd (d : Dev) (u : Fin 17) (f : TdcUnit → TdcUnit) : (d.upUnit u f).rcd = d.rcd := rfl
@[simp] theorem Dev.upUnit_flt (d : Dev) (u : Fin 17) (f : TdcUnit → TdcUnit) : (d.upUnit u f).flt = d.flt := rfl
@[simp] theorem Dev.upUnit_seq (d : Dev) (u : Fin 17) (f : TdcUnit → TdcUnit) : (d.upUnit u f).seq = d.seq := rfl
@[simp] theorem Dev.upUnit_hif (d : Dev) (u : Fin 17) (f : TdcUnit → TdcUnit) : (d.upUnit u f).hif = d.hif := rfl

@[simp] theorem Dev.upTdcs_clk (d : Dev) (f : TdcsEng → TdcsEng) : (d.upTdcs f).clk = d.clk := rfl
@[simp] theorem Dev.upTdcs_regs (d : Dev) (f : TdcsEng → TdcsEng) : (d.upTdcs f).regs = d.regs := rfl
@[simp] theorem Dev.upTdcs_lat (d : Dev) (f : TdcsEng → TdcsEng) : (d.upTdcs f).lat = d.lat := rfl
@[simp] theorem Dev.upTdcs_half (d : Dev) (f : TdcsEng → TdcsEng) : (d.upTdcs f).half = d.half := rfl
@[simp] theorem Dev.upTdcs_snapping (d : Dev) (f : TdcsEng → TdcsEng) : (d.upTdcs f).snapping = d.snapping := rfl
@[simp] theorem Dev.upTdcs_shadow (d : Dev) (f : TdcsEng → TdcsEng) : (d.upTdcs f).shadow = d.shadow := rfl
@[simp] theorem Dev.upTdcs_cyc (d : Dev) (f : TdcsEng → TdcsEng) : (d.upTdcs f).cyc = d.cyc := rfl
@[simp] theorem Dev.upTdcs_agenda (d : Dev) (f : TdcsEng → TdcsEng) : (d.upTdcs f).agenda = d.agenda := rfl
@[simp] theorem Dev.upTdcs_alarms (d : Dev) (f : TdcsEng → TdcsEng) : (d.upTdcs f).alarms = d.alarms := rfl
@[simp] theorem Dev.upTdcs_events (d : Dev) (f : TdcsEng → TdcsEng) : (d.upTdcs f).events = d.events := rfl
@[simp] theorem Dev.upTdcs_hwSet (d : Dev) (f : TdcsEng → TdcsEng) : (d.upTdcs f).hwSet = d.hwSet := rfl
@[simp] theorem Dev.upTdcs_out (d : Dev) (f : TdcsEng → TdcsEng) : (d.upTdcs f).out = d.out := rfl
@[simp] theorem Dev.upTdcs_ts (d : Dev) (f : TdcsEng → TdcsEng) : (d.upTdcs f).ts = d.ts := rfl
@[simp] theorem Dev.upTdcs_views (d : Dev) (f : TdcsEng → TdcsEng) : (d.upTdcs f).views = d.views := rfl
@[simp] theorem Dev.upTdcs_corr (d : Dev) (f : TdcsEng → TdcsEng) : (d.upTdcs f).corr = d.corr := rfl
@[simp] theorem Dev.upTdcs_links (d : Dev) (f : TdcsEng → TdcsEng) : (d.upTdcs f).links = d.links := rfl
@[simp] theorem Dev.upTdcs_c4Held (d : Dev) (f : TdcsEng → TdcsEng) : (d.upTdcs f).c4Held = d.c4Held := rfl
@[simp] theorem Dev.upTdcs_mon (d : Dev) (f : TdcsEng → TdcsEng) : (d.upTdcs f).mon = d.mon := rfl
@[simp] theorem Dev.upTdcs_atm (d : Dev) (f : TdcsEng → TdcsEng) : (d.upTdcs f).atm = d.atm := rfl
@[simp] theorem Dev.upTdcs_us (d : Dev) (f : TdcsEng → TdcsEng) : (d.upTdcs f).us = d.us := rfl
@[simp] theorem Dev.upTdcs_ens (d : Dev) (f : TdcsEng → TdcsEng) : (d.upTdcs f).ens = d.ens := rfl
@[simp] theorem Dev.upTdcs_sel (d : Dev) (f : TdcsEng → TdcsEng) : (d.upTdcs f).sel = d.sel := rfl
@[simp] theorem Dev.upTdcs_svc (d : Dev) (f : TdcsEng → TdcsEng) : (d.upTdcs f).svc = d.svc := rfl
@[simp] theorem Dev.upTdcs_hld (d : Dev) (f : TdcsEng → TdcsEng) : (d.upTdcs f).hld = d.hld := rfl
@[simp] theorem Dev.upTdcs_gnss (d : Dev) (f : TdcsEng → TdcsEng) : (d.upTdcs f).gnss = d.gnss := rfl
@[simp] theorem Dev.upTdcs_pwr (d : Dev) (f : TdcsEng → TdcsEng) : (d.upTdcs f).pwr = d.pwr := rfl
@[simp] theorem Dev.upTdcs_syn (d : Dev) (f : TdcsEng → TdcsEng) : (d.upTdcs f).syn = d.syn := rfl
@[simp] theorem Dev.upTdcs_cko (d : Dev) (f : TdcsEng → TdcsEng) : (d.upTdcs f).cko = d.cko := rfl
@[simp] theorem Dev.upTdcs_tdc (d : Dev) (f : TdcsEng → TdcsEng) : (d.upTdcs f).tdc = d.tdc := rfl
@[simp] theorem Dev.upTdcs_unit (d : Dev) (f : TdcsEng → TdcsEng) : (d.upTdcs f).unit = d.unit := rfl
@[simp] theorem Dev.upTdcs_evo (d : Dev) (f : TdcsEng → TdcsEng) : (d.upTdcs f).evo = d.evo := rfl
@[simp] theorem Dev.upTdcs_evi (d : Dev) (f : TdcsEng → TdcsEng) : (d.upTdcs f).evi = d.evi := rfl
@[simp] theorem Dev.upTdcs_aud (d : Dev) (f : TdcsEng → TdcsEng) : (d.upTdcs f).aud = d.aud := rfl
@[simp] theorem Dev.upTdcs_plk (d : Dev) (f : TdcsEng → TdcsEng) : (d.upTdcs f).plk = d.plk := rfl
@[simp] theorem Dev.upTdcs_ldr (d : Dev) (f : TdcsEng → TdcsEng) : (d.upTdcs f).ldr = d.ldr := rfl
@[simp] theorem Dev.upTdcs_pts (d : Dev) (f : TdcsEng → TdcsEng) : (d.upTdcs f).pts = d.pts := rfl
@[simp] theorem Dev.upTdcs_port (d : Dev) (f : TdcsEng → TdcsEng) : (d.upTdcs f).port = d.port := rfl
@[simp] theorem Dev.upTdcs_lane (d : Dev) (f : TdcsEng → TdcsEng) : (d.upTdcs f).lane = d.lane := rfl
@[simp] theorem Dev.upTdcs_key (d : Dev) (f : TdcsEng → TdcsEng) : (d.upTdcs f).key = d.key := rfl
@[simp] theorem Dev.upTdcs_rsp (d : Dev) (f : TdcsEng → TdcsEng) : (d.upTdcs f).rsp = d.rsp := rfl
@[simp] theorem Dev.upTdcs_cst (d : Dev) (f : TdcsEng → TdcsEng) : (d.upTdcs f).cst = d.cst := rfl
@[simp] theorem Dev.upTdcs_rcd (d : Dev) (f : TdcsEng → TdcsEng) : (d.upTdcs f).rcd = d.rcd := rfl
@[simp] theorem Dev.upTdcs_flt (d : Dev) (f : TdcsEng → TdcsEng) : (d.upTdcs f).flt = d.flt := rfl
@[simp] theorem Dev.upTdcs_seq (d : Dev) (f : TdcsEng → TdcsEng) : (d.upTdcs f).seq = d.seq := rfl
@[simp] theorem Dev.upTdcs_hif (d : Dev) (f : TdcsEng → TdcsEng) : (d.upTdcs f).hif = d.hif := rfl

@[simp] theorem Dev.upTs_clk (d : Dev) (n : Ts) (f : TsEng → TsEng) : (d.upTs n f).clk = d.clk := rfl
@[simp] theorem Dev.upTs_regs (d : Dev) (n : Ts) (f : TsEng → TsEng) : (d.upTs n f).regs = d.regs := rfl
@[simp] theorem Dev.upTs_lat (d : Dev) (n : Ts) (f : TsEng → TsEng) : (d.upTs n f).lat = d.lat := rfl
@[simp] theorem Dev.upTs_half (d : Dev) (n : Ts) (f : TsEng → TsEng) : (d.upTs n f).half = d.half := rfl
@[simp] theorem Dev.upTs_snapping (d : Dev) (n : Ts) (f : TsEng → TsEng) : (d.upTs n f).snapping = d.snapping := rfl
@[simp] theorem Dev.upTs_shadow (d : Dev) (n : Ts) (f : TsEng → TsEng) : (d.upTs n f).shadow = d.shadow := rfl
@[simp] theorem Dev.upTs_cyc (d : Dev) (n : Ts) (f : TsEng → TsEng) : (d.upTs n f).cyc = d.cyc := rfl
@[simp] theorem Dev.upTs_agenda (d : Dev) (n : Ts) (f : TsEng → TsEng) : (d.upTs n f).agenda = d.agenda := rfl
@[simp] theorem Dev.upTs_alarms (d : Dev) (n : Ts) (f : TsEng → TsEng) : (d.upTs n f).alarms = d.alarms := rfl
@[simp] theorem Dev.upTs_events (d : Dev) (n : Ts) (f : TsEng → TsEng) : (d.upTs n f).events = d.events := rfl
@[simp] theorem Dev.upTs_hwSet (d : Dev) (n : Ts) (f : TsEng → TsEng) : (d.upTs n f).hwSet = d.hwSet := rfl
@[simp] theorem Dev.upTs_out (d : Dev) (n : Ts) (f : TsEng → TsEng) : (d.upTs n f).out = d.out := rfl
@[simp] theorem Dev.upTs_views (d : Dev) (n : Ts) (f : TsEng → TsEng) : (d.upTs n f).views = d.views := rfl
@[simp] theorem Dev.upTs_corr (d : Dev) (n : Ts) (f : TsEng → TsEng) : (d.upTs n f).corr = d.corr := rfl
@[simp] theorem Dev.upTs_links (d : Dev) (n : Ts) (f : TsEng → TsEng) : (d.upTs n f).links = d.links := rfl
@[simp] theorem Dev.upTs_c4Held (d : Dev) (n : Ts) (f : TsEng → TsEng) : (d.upTs n f).c4Held = d.c4Held := rfl
@[simp] theorem Dev.upTs_mon (d : Dev) (n : Ts) (f : TsEng → TsEng) : (d.upTs n f).mon = d.mon := rfl
@[simp] theorem Dev.upTs_atm (d : Dev) (n : Ts) (f : TsEng → TsEng) : (d.upTs n f).atm = d.atm := rfl
@[simp] theorem Dev.upTs_us (d : Dev) (n : Ts) (f : TsEng → TsEng) : (d.upTs n f).us = d.us := rfl
@[simp] theorem Dev.upTs_ens (d : Dev) (n : Ts) (f : TsEng → TsEng) : (d.upTs n f).ens = d.ens := rfl
@[simp] theorem Dev.upTs_sel (d : Dev) (n : Ts) (f : TsEng → TsEng) : (d.upTs n f).sel = d.sel := rfl
@[simp] theorem Dev.upTs_svc (d : Dev) (n : Ts) (f : TsEng → TsEng) : (d.upTs n f).svc = d.svc := rfl
@[simp] theorem Dev.upTs_hld (d : Dev) (n : Ts) (f : TsEng → TsEng) : (d.upTs n f).hld = d.hld := rfl
@[simp] theorem Dev.upTs_gnss (d : Dev) (n : Ts) (f : TsEng → TsEng) : (d.upTs n f).gnss = d.gnss := rfl
@[simp] theorem Dev.upTs_pwr (d : Dev) (n : Ts) (f : TsEng → TsEng) : (d.upTs n f).pwr = d.pwr := rfl
@[simp] theorem Dev.upTs_syn (d : Dev) (n : Ts) (f : TsEng → TsEng) : (d.upTs n f).syn = d.syn := rfl
@[simp] theorem Dev.upTs_cko (d : Dev) (n : Ts) (f : TsEng → TsEng) : (d.upTs n f).cko = d.cko := rfl
@[simp] theorem Dev.upTs_tdc (d : Dev) (n : Ts) (f : TsEng → TsEng) : (d.upTs n f).tdc = d.tdc := rfl
@[simp] theorem Dev.upTs_unit (d : Dev) (n : Ts) (f : TsEng → TsEng) : (d.upTs n f).unit = d.unit := rfl
@[simp] theorem Dev.upTs_tdcs (d : Dev) (n : Ts) (f : TsEng → TsEng) : (d.upTs n f).tdcs = d.tdcs := rfl
@[simp] theorem Dev.upTs_evo (d : Dev) (n : Ts) (f : TsEng → TsEng) : (d.upTs n f).evo = d.evo := rfl
@[simp] theorem Dev.upTs_evi (d : Dev) (n : Ts) (f : TsEng → TsEng) : (d.upTs n f).evi = d.evi := rfl
@[simp] theorem Dev.upTs_aud (d : Dev) (n : Ts) (f : TsEng → TsEng) : (d.upTs n f).aud = d.aud := rfl
@[simp] theorem Dev.upTs_plk (d : Dev) (n : Ts) (f : TsEng → TsEng) : (d.upTs n f).plk = d.plk := rfl
@[simp] theorem Dev.upTs_ldr (d : Dev) (n : Ts) (f : TsEng → TsEng) : (d.upTs n f).ldr = d.ldr := rfl
@[simp] theorem Dev.upTs_pts (d : Dev) (n : Ts) (f : TsEng → TsEng) : (d.upTs n f).pts = d.pts := rfl
@[simp] theorem Dev.upTs_port (d : Dev) (n : Ts) (f : TsEng → TsEng) : (d.upTs n f).port = d.port := rfl
@[simp] theorem Dev.upTs_lane (d : Dev) (n : Ts) (f : TsEng → TsEng) : (d.upTs n f).lane = d.lane := rfl
@[simp] theorem Dev.upTs_key (d : Dev) (n : Ts) (f : TsEng → TsEng) : (d.upTs n f).key = d.key := rfl
@[simp] theorem Dev.upTs_rsp (d : Dev) (n : Ts) (f : TsEng → TsEng) : (d.upTs n f).rsp = d.rsp := rfl
@[simp] theorem Dev.upTs_cst (d : Dev) (n : Ts) (f : TsEng → TsEng) : (d.upTs n f).cst = d.cst := rfl
@[simp] theorem Dev.upTs_rcd (d : Dev) (n : Ts) (f : TsEng → TsEng) : (d.upTs n f).rcd = d.rcd := rfl
@[simp] theorem Dev.upTs_flt (d : Dev) (n : Ts) (f : TsEng → TsEng) : (d.upTs n f).flt = d.flt := rfl
@[simp] theorem Dev.upTs_seq (d : Dev) (n : Ts) (f : TsEng → TsEng) : (d.upTs n f).seq = d.seq := rfl
@[simp] theorem Dev.upTs_hif (d : Dev) (n : Ts) (f : TsEng → TsEng) : (d.upTs n f).hif = d.hif := rfl

@[simp] theorem Dev.upMon_clk (d : Dev) (k : Fin 19) (f : MonEng → MonEng) : (d.upMon k f).clk = d.clk := rfl
@[simp] theorem Dev.upMon_regs (d : Dev) (k : Fin 19) (f : MonEng → MonEng) : (d.upMon k f).regs = d.regs := rfl
@[simp] theorem Dev.upMon_lat (d : Dev) (k : Fin 19) (f : MonEng → MonEng) : (d.upMon k f).lat = d.lat := rfl
@[simp] theorem Dev.upMon_half (d : Dev) (k : Fin 19) (f : MonEng → MonEng) : (d.upMon k f).half = d.half := rfl
@[simp] theorem Dev.upMon_snapping (d : Dev) (k : Fin 19) (f : MonEng → MonEng) : (d.upMon k f).snapping = d.snapping := rfl
@[simp] theorem Dev.upMon_shadow (d : Dev) (k : Fin 19) (f : MonEng → MonEng) : (d.upMon k f).shadow = d.shadow := rfl
@[simp] theorem Dev.upMon_cyc (d : Dev) (k : Fin 19) (f : MonEng → MonEng) : (d.upMon k f).cyc = d.cyc := rfl
@[simp] theorem Dev.upMon_agenda (d : Dev) (k : Fin 19) (f : MonEng → MonEng) : (d.upMon k f).agenda = d.agenda := rfl
@[simp] theorem Dev.upMon_alarms (d : Dev) (k : Fin 19) (f : MonEng → MonEng) : (d.upMon k f).alarms = d.alarms := rfl
@[simp] theorem Dev.upMon_events (d : Dev) (k : Fin 19) (f : MonEng → MonEng) : (d.upMon k f).events = d.events := rfl
@[simp] theorem Dev.upMon_hwSet (d : Dev) (k : Fin 19) (f : MonEng → MonEng) : (d.upMon k f).hwSet = d.hwSet := rfl
@[simp] theorem Dev.upMon_out (d : Dev) (k : Fin 19) (f : MonEng → MonEng) : (d.upMon k f).out = d.out := rfl
@[simp] theorem Dev.upMon_ts (d : Dev) (k : Fin 19) (f : MonEng → MonEng) : (d.upMon k f).ts = d.ts := rfl
@[simp] theorem Dev.upMon_views (d : Dev) (k : Fin 19) (f : MonEng → MonEng) : (d.upMon k f).views = d.views := rfl
@[simp] theorem Dev.upMon_corr (d : Dev) (k : Fin 19) (f : MonEng → MonEng) : (d.upMon k f).corr = d.corr := rfl
@[simp] theorem Dev.upMon_links (d : Dev) (k : Fin 19) (f : MonEng → MonEng) : (d.upMon k f).links = d.links := rfl
@[simp] theorem Dev.upMon_c4Held (d : Dev) (k : Fin 19) (f : MonEng → MonEng) : (d.upMon k f).c4Held = d.c4Held := rfl
@[simp] theorem Dev.upMon_atm (d : Dev) (k : Fin 19) (f : MonEng → MonEng) : (d.upMon k f).atm = d.atm := rfl
@[simp] theorem Dev.upMon_us (d : Dev) (k : Fin 19) (f : MonEng → MonEng) : (d.upMon k f).us = d.us := rfl
@[simp] theorem Dev.upMon_ens (d : Dev) (k : Fin 19) (f : MonEng → MonEng) : (d.upMon k f).ens = d.ens := rfl
@[simp] theorem Dev.upMon_sel (d : Dev) (k : Fin 19) (f : MonEng → MonEng) : (d.upMon k f).sel = d.sel := rfl
@[simp] theorem Dev.upMon_svc (d : Dev) (k : Fin 19) (f : MonEng → MonEng) : (d.upMon k f).svc = d.svc := rfl
@[simp] theorem Dev.upMon_hld (d : Dev) (k : Fin 19) (f : MonEng → MonEng) : (d.upMon k f).hld = d.hld := rfl
@[simp] theorem Dev.upMon_gnss (d : Dev) (k : Fin 19) (f : MonEng → MonEng) : (d.upMon k f).gnss = d.gnss := rfl
@[simp] theorem Dev.upMon_pwr (d : Dev) (k : Fin 19) (f : MonEng → MonEng) : (d.upMon k f).pwr = d.pwr := rfl
@[simp] theorem Dev.upMon_syn (d : Dev) (k : Fin 19) (f : MonEng → MonEng) : (d.upMon k f).syn = d.syn := rfl
@[simp] theorem Dev.upMon_cko (d : Dev) (k : Fin 19) (f : MonEng → MonEng) : (d.upMon k f).cko = d.cko := rfl
@[simp] theorem Dev.upMon_tdc (d : Dev) (k : Fin 19) (f : MonEng → MonEng) : (d.upMon k f).tdc = d.tdc := rfl
@[simp] theorem Dev.upMon_unit (d : Dev) (k : Fin 19) (f : MonEng → MonEng) : (d.upMon k f).unit = d.unit := rfl
@[simp] theorem Dev.upMon_tdcs (d : Dev) (k : Fin 19) (f : MonEng → MonEng) : (d.upMon k f).tdcs = d.tdcs := rfl
@[simp] theorem Dev.upMon_evo (d : Dev) (k : Fin 19) (f : MonEng → MonEng) : (d.upMon k f).evo = d.evo := rfl
@[simp] theorem Dev.upMon_evi (d : Dev) (k : Fin 19) (f : MonEng → MonEng) : (d.upMon k f).evi = d.evi := rfl
@[simp] theorem Dev.upMon_aud (d : Dev) (k : Fin 19) (f : MonEng → MonEng) : (d.upMon k f).aud = d.aud := rfl
@[simp] theorem Dev.upMon_plk (d : Dev) (k : Fin 19) (f : MonEng → MonEng) : (d.upMon k f).plk = d.plk := rfl
@[simp] theorem Dev.upMon_ldr (d : Dev) (k : Fin 19) (f : MonEng → MonEng) : (d.upMon k f).ldr = d.ldr := rfl
@[simp] theorem Dev.upMon_pts (d : Dev) (k : Fin 19) (f : MonEng → MonEng) : (d.upMon k f).pts = d.pts := rfl
@[simp] theorem Dev.upMon_port (d : Dev) (k : Fin 19) (f : MonEng → MonEng) : (d.upMon k f).port = d.port := rfl
@[simp] theorem Dev.upMon_lane (d : Dev) (k : Fin 19) (f : MonEng → MonEng) : (d.upMon k f).lane = d.lane := rfl
@[simp] theorem Dev.upMon_key (d : Dev) (k : Fin 19) (f : MonEng → MonEng) : (d.upMon k f).key = d.key := rfl
@[simp] theorem Dev.upMon_rsp (d : Dev) (k : Fin 19) (f : MonEng → MonEng) : (d.upMon k f).rsp = d.rsp := rfl
@[simp] theorem Dev.upMon_cst (d : Dev) (k : Fin 19) (f : MonEng → MonEng) : (d.upMon k f).cst = d.cst := rfl
@[simp] theorem Dev.upMon_rcd (d : Dev) (k : Fin 19) (f : MonEng → MonEng) : (d.upMon k f).rcd = d.rcd := rfl
@[simp] theorem Dev.upMon_flt (d : Dev) (k : Fin 19) (f : MonEng → MonEng) : (d.upMon k f).flt = d.flt := rfl
@[simp] theorem Dev.upMon_seq (d : Dev) (k : Fin 19) (f : MonEng → MonEng) : (d.upMon k f).seq = d.seq := rfl
@[simp] theorem Dev.upMon_hif (d : Dev) (k : Fin 19) (f : MonEng → MonEng) : (d.upMon k f).hif = d.hif := rfl

@[simp] theorem Dev.upSel_clk (d : Dev) (n : Ts) (f : SelEng → SelEng) : (d.upSel n f).clk = d.clk := rfl
@[simp] theorem Dev.upSel_regs (d : Dev) (n : Ts) (f : SelEng → SelEng) : (d.upSel n f).regs = d.regs := rfl
@[simp] theorem Dev.upSel_lat (d : Dev) (n : Ts) (f : SelEng → SelEng) : (d.upSel n f).lat = d.lat := rfl
@[simp] theorem Dev.upSel_half (d : Dev) (n : Ts) (f : SelEng → SelEng) : (d.upSel n f).half = d.half := rfl
@[simp] theorem Dev.upSel_snapping (d : Dev) (n : Ts) (f : SelEng → SelEng) : (d.upSel n f).snapping = d.snapping := rfl
@[simp] theorem Dev.upSel_shadow (d : Dev) (n : Ts) (f : SelEng → SelEng) : (d.upSel n f).shadow = d.shadow := rfl
@[simp] theorem Dev.upSel_cyc (d : Dev) (n : Ts) (f : SelEng → SelEng) : (d.upSel n f).cyc = d.cyc := rfl
@[simp] theorem Dev.upSel_agenda (d : Dev) (n : Ts) (f : SelEng → SelEng) : (d.upSel n f).agenda = d.agenda := rfl
@[simp] theorem Dev.upSel_alarms (d : Dev) (n : Ts) (f : SelEng → SelEng) : (d.upSel n f).alarms = d.alarms := rfl
@[simp] theorem Dev.upSel_events (d : Dev) (n : Ts) (f : SelEng → SelEng) : (d.upSel n f).events = d.events := rfl
@[simp] theorem Dev.upSel_hwSet (d : Dev) (n : Ts) (f : SelEng → SelEng) : (d.upSel n f).hwSet = d.hwSet := rfl
@[simp] theorem Dev.upSel_out (d : Dev) (n : Ts) (f : SelEng → SelEng) : (d.upSel n f).out = d.out := rfl
@[simp] theorem Dev.upSel_ts (d : Dev) (n : Ts) (f : SelEng → SelEng) : (d.upSel n f).ts = d.ts := rfl
@[simp] theorem Dev.upSel_views (d : Dev) (n : Ts) (f : SelEng → SelEng) : (d.upSel n f).views = d.views := rfl
@[simp] theorem Dev.upSel_corr (d : Dev) (n : Ts) (f : SelEng → SelEng) : (d.upSel n f).corr = d.corr := rfl
@[simp] theorem Dev.upSel_links (d : Dev) (n : Ts) (f : SelEng → SelEng) : (d.upSel n f).links = d.links := rfl
@[simp] theorem Dev.upSel_c4Held (d : Dev) (n : Ts) (f : SelEng → SelEng) : (d.upSel n f).c4Held = d.c4Held := rfl
@[simp] theorem Dev.upSel_mon (d : Dev) (n : Ts) (f : SelEng → SelEng) : (d.upSel n f).mon = d.mon := rfl
@[simp] theorem Dev.upSel_atm (d : Dev) (n : Ts) (f : SelEng → SelEng) : (d.upSel n f).atm = d.atm := rfl
@[simp] theorem Dev.upSel_us (d : Dev) (n : Ts) (f : SelEng → SelEng) : (d.upSel n f).us = d.us := rfl
@[simp] theorem Dev.upSel_ens (d : Dev) (n : Ts) (f : SelEng → SelEng) : (d.upSel n f).ens = d.ens := rfl
@[simp] theorem Dev.upSel_svc (d : Dev) (n : Ts) (f : SelEng → SelEng) : (d.upSel n f).svc = d.svc := rfl
@[simp] theorem Dev.upSel_hld (d : Dev) (n : Ts) (f : SelEng → SelEng) : (d.upSel n f).hld = d.hld := rfl
@[simp] theorem Dev.upSel_gnss (d : Dev) (n : Ts) (f : SelEng → SelEng) : (d.upSel n f).gnss = d.gnss := rfl
@[simp] theorem Dev.upSel_pwr (d : Dev) (n : Ts) (f : SelEng → SelEng) : (d.upSel n f).pwr = d.pwr := rfl
@[simp] theorem Dev.upSel_syn (d : Dev) (n : Ts) (f : SelEng → SelEng) : (d.upSel n f).syn = d.syn := rfl
@[simp] theorem Dev.upSel_cko (d : Dev) (n : Ts) (f : SelEng → SelEng) : (d.upSel n f).cko = d.cko := rfl
@[simp] theorem Dev.upSel_tdc (d : Dev) (n : Ts) (f : SelEng → SelEng) : (d.upSel n f).tdc = d.tdc := rfl
@[simp] theorem Dev.upSel_unit (d : Dev) (n : Ts) (f : SelEng → SelEng) : (d.upSel n f).unit = d.unit := rfl
@[simp] theorem Dev.upSel_tdcs (d : Dev) (n : Ts) (f : SelEng → SelEng) : (d.upSel n f).tdcs = d.tdcs := rfl
@[simp] theorem Dev.upSel_evo (d : Dev) (n : Ts) (f : SelEng → SelEng) : (d.upSel n f).evo = d.evo := rfl
@[simp] theorem Dev.upSel_evi (d : Dev) (n : Ts) (f : SelEng → SelEng) : (d.upSel n f).evi = d.evi := rfl
@[simp] theorem Dev.upSel_aud (d : Dev) (n : Ts) (f : SelEng → SelEng) : (d.upSel n f).aud = d.aud := rfl
@[simp] theorem Dev.upSel_plk (d : Dev) (n : Ts) (f : SelEng → SelEng) : (d.upSel n f).plk = d.plk := rfl
@[simp] theorem Dev.upSel_ldr (d : Dev) (n : Ts) (f : SelEng → SelEng) : (d.upSel n f).ldr = d.ldr := rfl
@[simp] theorem Dev.upSel_pts (d : Dev) (n : Ts) (f : SelEng → SelEng) : (d.upSel n f).pts = d.pts := rfl
@[simp] theorem Dev.upSel_port (d : Dev) (n : Ts) (f : SelEng → SelEng) : (d.upSel n f).port = d.port := rfl
@[simp] theorem Dev.upSel_lane (d : Dev) (n : Ts) (f : SelEng → SelEng) : (d.upSel n f).lane = d.lane := rfl
@[simp] theorem Dev.upSel_key (d : Dev) (n : Ts) (f : SelEng → SelEng) : (d.upSel n f).key = d.key := rfl
@[simp] theorem Dev.upSel_rsp (d : Dev) (n : Ts) (f : SelEng → SelEng) : (d.upSel n f).rsp = d.rsp := rfl
@[simp] theorem Dev.upSel_cst (d : Dev) (n : Ts) (f : SelEng → SelEng) : (d.upSel n f).cst = d.cst := rfl
@[simp] theorem Dev.upSel_rcd (d : Dev) (n : Ts) (f : SelEng → SelEng) : (d.upSel n f).rcd = d.rcd := rfl
@[simp] theorem Dev.upSel_flt (d : Dev) (n : Ts) (f : SelEng → SelEng) : (d.upSel n f).flt = d.flt := rfl
@[simp] theorem Dev.upSel_seq (d : Dev) (n : Ts) (f : SelEng → SelEng) : (d.upSel n f).seq = d.seq := rfl
@[simp] theorem Dev.upSel_hif (d : Dev) (n : Ts) (f : SelEng → SelEng) : (d.upSel n f).hif = d.hif := rfl

@[simp] theorem Dev.upSvc_clk (d : Dev) (n : Ts) (f : SvcEng → SvcEng) : (d.upSvc n f).clk = d.clk := rfl
@[simp] theorem Dev.upSvc_regs (d : Dev) (n : Ts) (f : SvcEng → SvcEng) : (d.upSvc n f).regs = d.regs := rfl
@[simp] theorem Dev.upSvc_lat (d : Dev) (n : Ts) (f : SvcEng → SvcEng) : (d.upSvc n f).lat = d.lat := rfl
@[simp] theorem Dev.upSvc_half (d : Dev) (n : Ts) (f : SvcEng → SvcEng) : (d.upSvc n f).half = d.half := rfl
@[simp] theorem Dev.upSvc_snapping (d : Dev) (n : Ts) (f : SvcEng → SvcEng) : (d.upSvc n f).snapping = d.snapping := rfl
@[simp] theorem Dev.upSvc_shadow (d : Dev) (n : Ts) (f : SvcEng → SvcEng) : (d.upSvc n f).shadow = d.shadow := rfl
@[simp] theorem Dev.upSvc_cyc (d : Dev) (n : Ts) (f : SvcEng → SvcEng) : (d.upSvc n f).cyc = d.cyc := rfl
@[simp] theorem Dev.upSvc_agenda (d : Dev) (n : Ts) (f : SvcEng → SvcEng) : (d.upSvc n f).agenda = d.agenda := rfl
@[simp] theorem Dev.upSvc_alarms (d : Dev) (n : Ts) (f : SvcEng → SvcEng) : (d.upSvc n f).alarms = d.alarms := rfl
@[simp] theorem Dev.upSvc_events (d : Dev) (n : Ts) (f : SvcEng → SvcEng) : (d.upSvc n f).events = d.events := rfl
@[simp] theorem Dev.upSvc_hwSet (d : Dev) (n : Ts) (f : SvcEng → SvcEng) : (d.upSvc n f).hwSet = d.hwSet := rfl
@[simp] theorem Dev.upSvc_out (d : Dev) (n : Ts) (f : SvcEng → SvcEng) : (d.upSvc n f).out = d.out := rfl
@[simp] theorem Dev.upSvc_ts (d : Dev) (n : Ts) (f : SvcEng → SvcEng) : (d.upSvc n f).ts = d.ts := rfl
@[simp] theorem Dev.upSvc_views (d : Dev) (n : Ts) (f : SvcEng → SvcEng) : (d.upSvc n f).views = d.views := rfl
@[simp] theorem Dev.upSvc_corr (d : Dev) (n : Ts) (f : SvcEng → SvcEng) : (d.upSvc n f).corr = d.corr := rfl
@[simp] theorem Dev.upSvc_links (d : Dev) (n : Ts) (f : SvcEng → SvcEng) : (d.upSvc n f).links = d.links := rfl
@[simp] theorem Dev.upSvc_c4Held (d : Dev) (n : Ts) (f : SvcEng → SvcEng) : (d.upSvc n f).c4Held = d.c4Held := rfl
@[simp] theorem Dev.upSvc_mon (d : Dev) (n : Ts) (f : SvcEng → SvcEng) : (d.upSvc n f).mon = d.mon := rfl
@[simp] theorem Dev.upSvc_atm (d : Dev) (n : Ts) (f : SvcEng → SvcEng) : (d.upSvc n f).atm = d.atm := rfl
@[simp] theorem Dev.upSvc_us (d : Dev) (n : Ts) (f : SvcEng → SvcEng) : (d.upSvc n f).us = d.us := rfl
@[simp] theorem Dev.upSvc_ens (d : Dev) (n : Ts) (f : SvcEng → SvcEng) : (d.upSvc n f).ens = d.ens := rfl
@[simp] theorem Dev.upSvc_sel (d : Dev) (n : Ts) (f : SvcEng → SvcEng) : (d.upSvc n f).sel = d.sel := rfl
@[simp] theorem Dev.upSvc_hld (d : Dev) (n : Ts) (f : SvcEng → SvcEng) : (d.upSvc n f).hld = d.hld := rfl
@[simp] theorem Dev.upSvc_gnss (d : Dev) (n : Ts) (f : SvcEng → SvcEng) : (d.upSvc n f).gnss = d.gnss := rfl
@[simp] theorem Dev.upSvc_pwr (d : Dev) (n : Ts) (f : SvcEng → SvcEng) : (d.upSvc n f).pwr = d.pwr := rfl
@[simp] theorem Dev.upSvc_syn (d : Dev) (n : Ts) (f : SvcEng → SvcEng) : (d.upSvc n f).syn = d.syn := rfl
@[simp] theorem Dev.upSvc_cko (d : Dev) (n : Ts) (f : SvcEng → SvcEng) : (d.upSvc n f).cko = d.cko := rfl
@[simp] theorem Dev.upSvc_tdc (d : Dev) (n : Ts) (f : SvcEng → SvcEng) : (d.upSvc n f).tdc = d.tdc := rfl
@[simp] theorem Dev.upSvc_unit (d : Dev) (n : Ts) (f : SvcEng → SvcEng) : (d.upSvc n f).unit = d.unit := rfl
@[simp] theorem Dev.upSvc_tdcs (d : Dev) (n : Ts) (f : SvcEng → SvcEng) : (d.upSvc n f).tdcs = d.tdcs := rfl
@[simp] theorem Dev.upSvc_evo (d : Dev) (n : Ts) (f : SvcEng → SvcEng) : (d.upSvc n f).evo = d.evo := rfl
@[simp] theorem Dev.upSvc_evi (d : Dev) (n : Ts) (f : SvcEng → SvcEng) : (d.upSvc n f).evi = d.evi := rfl
@[simp] theorem Dev.upSvc_aud (d : Dev) (n : Ts) (f : SvcEng → SvcEng) : (d.upSvc n f).aud = d.aud := rfl
@[simp] theorem Dev.upSvc_plk (d : Dev) (n : Ts) (f : SvcEng → SvcEng) : (d.upSvc n f).plk = d.plk := rfl
@[simp] theorem Dev.upSvc_ldr (d : Dev) (n : Ts) (f : SvcEng → SvcEng) : (d.upSvc n f).ldr = d.ldr := rfl
@[simp] theorem Dev.upSvc_pts (d : Dev) (n : Ts) (f : SvcEng → SvcEng) : (d.upSvc n f).pts = d.pts := rfl
@[simp] theorem Dev.upSvc_port (d : Dev) (n : Ts) (f : SvcEng → SvcEng) : (d.upSvc n f).port = d.port := rfl
@[simp] theorem Dev.upSvc_lane (d : Dev) (n : Ts) (f : SvcEng → SvcEng) : (d.upSvc n f).lane = d.lane := rfl
@[simp] theorem Dev.upSvc_key (d : Dev) (n : Ts) (f : SvcEng → SvcEng) : (d.upSvc n f).key = d.key := rfl
@[simp] theorem Dev.upSvc_rsp (d : Dev) (n : Ts) (f : SvcEng → SvcEng) : (d.upSvc n f).rsp = d.rsp := rfl
@[simp] theorem Dev.upSvc_cst (d : Dev) (n : Ts) (f : SvcEng → SvcEng) : (d.upSvc n f).cst = d.cst := rfl
@[simp] theorem Dev.upSvc_rcd (d : Dev) (n : Ts) (f : SvcEng → SvcEng) : (d.upSvc n f).rcd = d.rcd := rfl
@[simp] theorem Dev.upSvc_flt (d : Dev) (n : Ts) (f : SvcEng → SvcEng) : (d.upSvc n f).flt = d.flt := rfl
@[simp] theorem Dev.upSvc_seq (d : Dev) (n : Ts) (f : SvcEng → SvcEng) : (d.upSvc n f).seq = d.seq := rfl
@[simp] theorem Dev.upSvc_hif (d : Dev) (n : Ts) (f : SvcEng → SvcEng) : (d.upSvc n f).hif = d.hif := rfl

@[simp] theorem Dev.upHld_clk (d : Dev) (n : Ts) (f : HldEng → HldEng) : (d.upHld n f).clk = d.clk := rfl
@[simp] theorem Dev.upHld_regs (d : Dev) (n : Ts) (f : HldEng → HldEng) : (d.upHld n f).regs = d.regs := rfl
@[simp] theorem Dev.upHld_lat (d : Dev) (n : Ts) (f : HldEng → HldEng) : (d.upHld n f).lat = d.lat := rfl
@[simp] theorem Dev.upHld_half (d : Dev) (n : Ts) (f : HldEng → HldEng) : (d.upHld n f).half = d.half := rfl
@[simp] theorem Dev.upHld_snapping (d : Dev) (n : Ts) (f : HldEng → HldEng) : (d.upHld n f).snapping = d.snapping := rfl
@[simp] theorem Dev.upHld_shadow (d : Dev) (n : Ts) (f : HldEng → HldEng) : (d.upHld n f).shadow = d.shadow := rfl
@[simp] theorem Dev.upHld_cyc (d : Dev) (n : Ts) (f : HldEng → HldEng) : (d.upHld n f).cyc = d.cyc := rfl
@[simp] theorem Dev.upHld_agenda (d : Dev) (n : Ts) (f : HldEng → HldEng) : (d.upHld n f).agenda = d.agenda := rfl
@[simp] theorem Dev.upHld_alarms (d : Dev) (n : Ts) (f : HldEng → HldEng) : (d.upHld n f).alarms = d.alarms := rfl
@[simp] theorem Dev.upHld_events (d : Dev) (n : Ts) (f : HldEng → HldEng) : (d.upHld n f).events = d.events := rfl
@[simp] theorem Dev.upHld_hwSet (d : Dev) (n : Ts) (f : HldEng → HldEng) : (d.upHld n f).hwSet = d.hwSet := rfl
@[simp] theorem Dev.upHld_out (d : Dev) (n : Ts) (f : HldEng → HldEng) : (d.upHld n f).out = d.out := rfl
@[simp] theorem Dev.upHld_ts (d : Dev) (n : Ts) (f : HldEng → HldEng) : (d.upHld n f).ts = d.ts := rfl
@[simp] theorem Dev.upHld_views (d : Dev) (n : Ts) (f : HldEng → HldEng) : (d.upHld n f).views = d.views := rfl
@[simp] theorem Dev.upHld_corr (d : Dev) (n : Ts) (f : HldEng → HldEng) : (d.upHld n f).corr = d.corr := rfl
@[simp] theorem Dev.upHld_links (d : Dev) (n : Ts) (f : HldEng → HldEng) : (d.upHld n f).links = d.links := rfl
@[simp] theorem Dev.upHld_c4Held (d : Dev) (n : Ts) (f : HldEng → HldEng) : (d.upHld n f).c4Held = d.c4Held := rfl
@[simp] theorem Dev.upHld_mon (d : Dev) (n : Ts) (f : HldEng → HldEng) : (d.upHld n f).mon = d.mon := rfl
@[simp] theorem Dev.upHld_atm (d : Dev) (n : Ts) (f : HldEng → HldEng) : (d.upHld n f).atm = d.atm := rfl
@[simp] theorem Dev.upHld_us (d : Dev) (n : Ts) (f : HldEng → HldEng) : (d.upHld n f).us = d.us := rfl
@[simp] theorem Dev.upHld_ens (d : Dev) (n : Ts) (f : HldEng → HldEng) : (d.upHld n f).ens = d.ens := rfl
@[simp] theorem Dev.upHld_sel (d : Dev) (n : Ts) (f : HldEng → HldEng) : (d.upHld n f).sel = d.sel := rfl
@[simp] theorem Dev.upHld_svc (d : Dev) (n : Ts) (f : HldEng → HldEng) : (d.upHld n f).svc = d.svc := rfl
@[simp] theorem Dev.upHld_gnss (d : Dev) (n : Ts) (f : HldEng → HldEng) : (d.upHld n f).gnss = d.gnss := rfl
@[simp] theorem Dev.upHld_pwr (d : Dev) (n : Ts) (f : HldEng → HldEng) : (d.upHld n f).pwr = d.pwr := rfl
@[simp] theorem Dev.upHld_syn (d : Dev) (n : Ts) (f : HldEng → HldEng) : (d.upHld n f).syn = d.syn := rfl
@[simp] theorem Dev.upHld_cko (d : Dev) (n : Ts) (f : HldEng → HldEng) : (d.upHld n f).cko = d.cko := rfl
@[simp] theorem Dev.upHld_tdc (d : Dev) (n : Ts) (f : HldEng → HldEng) : (d.upHld n f).tdc = d.tdc := rfl
@[simp] theorem Dev.upHld_unit (d : Dev) (n : Ts) (f : HldEng → HldEng) : (d.upHld n f).unit = d.unit := rfl
@[simp] theorem Dev.upHld_tdcs (d : Dev) (n : Ts) (f : HldEng → HldEng) : (d.upHld n f).tdcs = d.tdcs := rfl
@[simp] theorem Dev.upHld_evo (d : Dev) (n : Ts) (f : HldEng → HldEng) : (d.upHld n f).evo = d.evo := rfl
@[simp] theorem Dev.upHld_evi (d : Dev) (n : Ts) (f : HldEng → HldEng) : (d.upHld n f).evi = d.evi := rfl
@[simp] theorem Dev.upHld_aud (d : Dev) (n : Ts) (f : HldEng → HldEng) : (d.upHld n f).aud = d.aud := rfl
@[simp] theorem Dev.upHld_plk (d : Dev) (n : Ts) (f : HldEng → HldEng) : (d.upHld n f).plk = d.plk := rfl
@[simp] theorem Dev.upHld_ldr (d : Dev) (n : Ts) (f : HldEng → HldEng) : (d.upHld n f).ldr = d.ldr := rfl
@[simp] theorem Dev.upHld_pts (d : Dev) (n : Ts) (f : HldEng → HldEng) : (d.upHld n f).pts = d.pts := rfl
@[simp] theorem Dev.upHld_port (d : Dev) (n : Ts) (f : HldEng → HldEng) : (d.upHld n f).port = d.port := rfl
@[simp] theorem Dev.upHld_lane (d : Dev) (n : Ts) (f : HldEng → HldEng) : (d.upHld n f).lane = d.lane := rfl
@[simp] theorem Dev.upHld_key (d : Dev) (n : Ts) (f : HldEng → HldEng) : (d.upHld n f).key = d.key := rfl
@[simp] theorem Dev.upHld_rsp (d : Dev) (n : Ts) (f : HldEng → HldEng) : (d.upHld n f).rsp = d.rsp := rfl
@[simp] theorem Dev.upHld_cst (d : Dev) (n : Ts) (f : HldEng → HldEng) : (d.upHld n f).cst = d.cst := rfl
@[simp] theorem Dev.upHld_rcd (d : Dev) (n : Ts) (f : HldEng → HldEng) : (d.upHld n f).rcd = d.rcd := rfl
@[simp] theorem Dev.upHld_flt (d : Dev) (n : Ts) (f : HldEng → HldEng) : (d.upHld n f).flt = d.flt := rfl
@[simp] theorem Dev.upHld_seq (d : Dev) (n : Ts) (f : HldEng → HldEng) : (d.upHld n f).seq = d.seq := rfl
@[simp] theorem Dev.upHld_hif (d : Dev) (n : Ts) (f : HldEng → HldEng) : (d.upHld n f).hif = d.hif := rfl

end Sys2Proof.Machine
end

