-- ==== Sys2Proof/Laws/Ops.lean ====
section
/-! SUPPORT. What each shared operation can do, said once: registers after a write, and what the notices of the block (events, interrupts, counters, records, timers) leave alone. -/

namespace Sys2Proof.Machine

/-! Repetition. -/

@[simp] theorem Dev.when_true (d : Dev) (f : Dev → Dev) : d.when true f = f d := rfl
@[simp] theorem Dev.when_false (d : Dev) (f : Dev → Dev) : d.when false f = d := rfl

/-- What each single effect keeps, a repetition keeps. -/
theorem Dev.each_keeps {α : Type} (P : Dev → Prop) (f : α → Dev → Dev) (h : ∀ x d, P d → P (f x d)) (l : List α) (d : Dev) (hd : P d) : P (d.each l f) := by
  induction l generalizing d with
  | nil => exact hd
  | cons x l ih => exact ih (f x d) (h x d hd)

theorem Dev.each_proj {α β : Type} (p : Dev → β) (f : α → Dev → Dev) (h : ∀ x d, p (f x d) = p d) (l : List α) (d : Dev) : p (d.each l f) = p d :=
  Dev.each_keeps (fun e => p e = p d) f (fun x e he => (h x e).trans he) l d rfl

theorem Dev.when_proj {β : Type} (p : Dev → β) (f : Dev → Dev) (d : Dev) (c : Bool) (h : ∀ d, p (f d) = p d) : p (d.when c f) = p d := by
  cases c
  · rfl
  · exact h d

/-! Registers. -/

/-- A register reads the value written to it. -/
@[simp] theorem Dev.reg_setReg_same (d : Dev) (pg off : Nat) (w : Word) : (d.setReg pg off w).reg pg off = w := sget_sset_same _ _ _ _

/-- A register at another address keeps its value. -/
theorem Dev.reg_setReg_ne (d : Dev) {pg off pg' off' : Nat} (w : Word) (h : 4096 * pg' + off' ≠ 4096 * pg + off) : (d.setReg pg off w).reg pg' off' = d.reg pg' off' :=
  sget_sset_ne _ _ _ h

/-- A field reads the value put into it, cut to its width. -/
theorem Dev.get_put_same (d : Dev) (pg : Nat) (f : Fld) (v : Nat) (h : f.hi < 96) : (d.put pg f v).get pg f = v % 2 ^ (f.hi + 1 - f.lo) := by
  simp only [Dev.get, Dev.put, Dev.reg_setReg_same]
  exact Fld.get_put_same f v _ h

/-- A put leaves every register at another address alone. -/
theorem Dev.reg_put_ne (d : Dev) {pg pg' off : Nat} (f : Fld) (v : Nat) (h : 4096 * pg' + off ≠ 4096 * pg + f.off) : (d.put pg f v).reg pg' off = d.reg pg' off :=
  Dev.reg_setReg_ne d _ h

/-- A put leaves the other fields of its register alone. -/
theorem Dev.get_put_disj (d : Dev) (pg : Nat) (f g : Fld) (v : Nat) (ho : g.off = f.off) (h : g.hi < f.lo ∨ f.hi < g.lo) (hg : g.hi < 96) :
    (d.put pg f v).get pg g = d.get pg g := by
  simp only [Dev.get, Dev.put, ho, Dev.reg_setReg_same]
  exact Fld.get_put_disj f g v _ h hg

/-- A put leaves the fields of other registers alone. -/
theorem Dev.get_put_ne (d : Dev) {pg pg' : Nat} (f g : Fld) (v : Nat) (h : 4096 * pg' + g.off ≠ 4096 * pg + f.off) : (d.put pg f v).get pg' g = d.get pg' g := by
  unfold Dev.get
  rw [Dev.reg_put_ne d f v h]

/-- The canonical form of the registers survives every write of one. -/
theorem Dev.regs_swf_setReg (d : Dev) (pg off : Nat) (w : Word) (h : swf resetWord d.regs = true) : swf resetWord (d.setReg pg off w).regs = true :=
  swf_sset _ _ _ _ h

theorem Dev.regs_swf_put (d : Dev) (pg : Nat) (f : Fld) (v : Nat) (h : swf resetWord d.regs = true) : swf resetWord (d.put pg f v).regs = true :=
  Dev.regs_swf_setReg d _ _ _ h

/-! Notices: what counting, interrupting, recording and setting timers leave alone. -/

/-- Nothing but registers, output, the interrupt table, the timers, the stamps of events, the bits just set, the sequencers and the recorder differs. -/
def Dev.Quiet (d e : Dev) : Prop :=
  e = { d with regs := e.regs, out := e.out, hif := e.hif, agenda := e.agenda, alarms := e.alarms, events := e.events, hwSet := e.hwSet, seq := e.seq, rcd := e.rcd }

theorem Dev.Quiet.refl (d : Dev) : d.Quiet d := rfl

theorem Dev.Quiet.trans {a b c : Dev} (h : a.Quiet b) (k : b.Quiet c) : a.Quiet c := by
  unfold Dev.Quiet at h k ⊢
  rw [k, h]

theorem Dev.Quiet.when {d : Dev} (c : Bool) (f : Dev → Dev) (h : ∀ e : Dev, e.Quiet (f e)) : d.Quiet (d.when c f) := by
  cases c
  · exact Dev.Quiet.refl d
  · exact h d

theorem Dev.Quiet.each {α : Type} {d : Dev} (l : List α) (f : α → Dev → Dev) (h : ∀ (x : α) (e : Dev), e.Quiet (f x e)) : d.Quiet (d.each l f) :=
  Dev.each_keeps (fun e => d.Quiet e) f (fun x _ he => he.trans (h x _)) l d (Dev.Quiet.refl d)

theorem Dev.quiet_setReg (d : Dev) (pg off : Nat) (w : Word) : d.Quiet (d.setReg pg off w) := rfl
theorem Dev.quiet_put (d : Dev) (pg : Nat) (f : Fld) (v : Nat) : d.Quiet (d.put pg f v) := rfl
theorem Dev.quiet_puti (d : Dev) (pg : Nat) (f : Fld) (v : Int) : d.Quiet (d.puti pg f v) := rfl
theorem Dev.quiet_putb (d : Dev) (pg : Nat) (f : Fld) (b : Bool) : d.Quiet (d.putb pg f b) := rfl
theorem Dev.quiet_rcd (d : Dev) (r : RecEng) : d.Quiet { d with rcd := r } := rfl
theorem Dev.quiet_after (d : Dev) (dt : Nat) (i : Instr) : d.Quiet (d.after dt i) := rfl
theorem Dev.quiet_cancel (d : Dev) (i : Instr) : d.Quiet (d.cancel i) := rfl
theorem Dev.quiet_timer (d : Dev) (dt : Nat) (i : Instr) : d.Quiet (d.timer dt i) := rfl
theorem Dev.quiet_afterTime (d : Dev) (n : Ts) (ns : Nat) (i : Instr) : d.Quiet (d.afterTime n ns i) := rfl
theorem Dev.quiet_timerTime (d : Dev) (n : Ts) (ns : Nat) (i : Instr) : d.Quiet (d.timerTime n ns i) := rfl
theorem Dev.quiet_stampAs (d : Dev) (pg kind mec : Nat) : d.Quiet (d.stampAs pg kind mec) := rfl
theorem Dev.quiet_raiseBits (d : Dev) (pg : Nat) (f : Fld) (m : Nat) : d.Quiet (d.raiseBits pg f m) := rfl
theorem Dev.quiet_setAgain (d : Dev) (n : Fin 8) (e : Nat) : d.Quiet (d.setAgain n e) := rfl
theorem Dev.quiet_emit (d : Dev) (o : Output) : d.Quiet (d.emit o) := rfl

theorem Dev.quiet_pmcStep (d : Dev) (pg k : Nat) : d.Quiet (d.pmcStep pg k) := by
  unfold Dev.pmcStep
  dsimp only
  split
  · exact (d.quiet_put pg (HDR.PMC_CNT_COUNT k) 0).trans ((d.put pg (HDR.PMC_CNT_COUNT k) 0).quiet_put pg (HDR.PMC_CNT_WRAPPED k) 1)
  · exact d.quiet_put _ _ _

theorem Dev.quiet_pmc (d : Dev) (pg ev : Nat) (a : Attr) : d.Quiet (d.pmc pg ev a) := by
  unfold Dev.pmc
  split
  · exact Dev.Quiet.refl d
  · exact Dev.Quiet.each _ _ fun k e => Dev.Quiet.when _ _ fun e => e.quiet_pmcStep pg k

theorem Dev.quiet_count (d : Dev) (pg : Nat) (f : Fld) (a : Attr) : d.Quiet (d.count pg f a) := by
  unfold Dev.count
  split
  · exact Dev.Quiet.refl d
  · exact (d.quiet_put _ _ _).trans (Dev.quiet_pmc _ _ _ _)

theorem Dev.quiet_ibi (d : Dev) (l : List Nat) : d.Quiet (d.ibi l) := Dev.Quiet.when _ _ fun e => e.quiet_emit _

theorem Dev.quiet_sendMsix (d : Dev) (fv : Nat × Nat) : d.Quiet (d.sendMsix fv) := by
  unfold Dev.sendMsix
  split
  · rfl
  · split <;> rfl

theorem Dev.quiet_resum (d : Dev) (pg : Nat) : d.Quiet (d.resum pg) := by
  unfold Dev.resum
  dsimp only
  split
  · exact Dev.Quiet.refl d
  · split
    · refine Dev.Quiet.trans ?_ (Dev.Quiet.when _ _ fun e => e.quiet_ibi _)
      split
      · exact Dev.Quiet.trans (d.quiet_put _ _ _) (Dev.quiet_sendMsix _ _)
      · exact d.quiet_put _ _ _
    · exact d.quiet_put _ _ _

theorem Dev.quiet_intBits (d : Dev) (pg m : Nat) : d.Quiet (d.intBits pg m) := by
  unfold Dev.intBits
  exact ((((d.quiet_raiseBits _ _ _).trans (Dev.quiet_put _ _ _ _)).trans (Dev.quiet_stampAs _ _ _ _)).trans (Dev.quiet_pmc _ _ _ _)).trans (Dev.quiet_resum _ _)

theorem Dev.quiet_int (d : Dev) (pg b : Nat) : d.Quiet (d.int pg b) := d.quiet_intBits pg _

theorem Dev.quiet_seqNotice (d : Dev) (n : Fin 8) (e : Nat) (t : Bool) : d.Quiet (d.seqNotice n e t) := by
  unfold Dev.seqNotice
  dsimp only
  split
  · exact d.quiet_after _ _
  · split
    · exact d.quiet_after _ _
    · exact Dev.Quiet.refl d

theorem Dev.quiet_event (d : Dev) (e : Nat) : d.Quiet (d.event e) := by
  unfold Dev.event
  refine Dev.Quiet.each _ _ fun n d => ?_
  dsimp only
  exact (((d.quiet_raiseBits _ _ _).trans (Dev.Quiet.when _ _ fun d => d.quiet_setAgain _ _)).trans (Dev.Quiet.when _ _ fun d => (d.quiet_count _ _ _).trans (Dev.quiet_int _ _ _))).trans (Dev.quiet_seqNotice _ _ _ _)

theorem Dev.quiet_flush (d : Dev) : d.Quiet d.flush := by
  unfold Dev.flush
  split
  · exact d.quiet_rcd _
  · exact ((d.quiet_rcd _).trans (Dev.quiet_put _ _ _ _)).trans (Dev.quiet_afterTime _ _ _ _)

theorem Dev.quiet_lose (d : Dev) : d.Quiet d.lose := by
  unfold Dev.lose
  dsimp only
  exact ((d.quiet_count Pg.rec REC.LOST_COUNT {}).trans (Dev.quiet_rcd _ _)).trans (Dev.Quiet.when _ _ fun e => e.quiet_int _ _)

theorem Dev.quiet_levelUp (d : Dev) : d.Quiet d.levelUp := by
  unfold Dev.levelUp
  dsimp only
  exact (d.quiet_put _ _ _).trans (Dev.Quiet.when _ _ fun e => (e.quiet_event _).trans (Dev.quiet_flush _))

theorem Dev.quiet_spill (d : Dev) (o : Option Record) : d.Quiet (d.spill o) := by
  unfold Dev.spill
  split
  · split
    · exact Dev.Quiet.refl d
    · split
      · exact d.quiet_rcd _
      · exact d.quiet_count _ _ _
  · exact Dev.Quiet.refl d

theorem Dev.quiet_writeLine (d : Dev) (w : Record) : d.Quiet (d.writeLine w) := by
  unfold Dev.writeLine
  exact (d.quiet_spill _).trans ((Dev.quiet_rcd _ _).trans (Dev.quiet_put _ _ _ _))

theorem Dev.quiet_enter (d : Dev) (typ source : Nat) (p : List Nat) (l : Bool) : d.Quiet (d.enter typ source p l) := by
  unfold Dev.enter
  split
  · exact d.quiet_lose
  · dsimp only
    split
    · exact ((d.quiet_rcd _).trans (Dev.quiet_put _ _ _ _)).trans (Dev.quiet_writeLine _ _)
    · exact (((d.quiet_rcd _).trans (Dev.quiet_put _ _ _ _)).trans (Dev.quiet_rcd _ _)).trans (Dev.quiet_levelUp _)

theorem Dev.quiet_record (d : Dev) (typ source : Nat) (p : List Nat) (named : Bool) (key : Nat) : d.Quiet (d.record typ source p named key) := by
  unfold Dev.record
  dsimp only
  split
  · split
    · exact d.quiet_rcd _
    · exact d.quiet_enter _ _ _ _
  · exact d.quiet_enter _ _ _ _

/-! The registers that notices leave alone: every page's own registers, but those of GLB, REC and SEQ. -/

/-- An own register of a page that no notice writes. -/
def Calm (pg off : Nat) : Prop := 0x100 ≤ off ∧ off < 4096 ∧ pg ≠ Pg.glb ∧ pg ≠ Pg.rec ∧ ¬ (Pg.seq 0 ≤ pg ∧ pg ≤ Pg.seq 7)

theorem Dev.reg_when (d : Dev) (c : Bool) (f : Dev → Dev) {pg off : Nat} (h : ∀ e : Dev, (f e).reg pg off = e.reg pg off) : (d.when c f).reg pg off = d.reg pg off :=
  Dev.when_proj (fun e => e.reg pg off) f d c h

theorem Dev.reg_each {α : Type} (d : Dev) (l : List α) (f : α → Dev → Dev) {pg off : Nat} (h : ∀ (x : α) (e : Dev), (f x e).reg pg off = e.reg pg off) :
    (d.each l f).reg pg off = d.reg pg off :=
  Dev.each_proj (fun e => e.reg pg off) f h l d

/-- The same registers, whatever else differs. -/
theorem Dev.reg_congr {d e : Dev} (h : d.regs = e.regs) (pg off : Nat) : d.reg pg off = e.reg pg off := by unfold Dev.reg; rw [h]

theorem Dev.reg_pmcStep (d : Dev) (pg k : Nat) {pg' off : Nat} (hk : k < 4) (h : 0x60 ≤ off) (h' : off < 4096) : (d.pmcStep pg k).reg pg' off = d.reg pg' off := by
  unfold Dev.pmcStep
  dsimp only
  split
  · rw [Dev.reg_put_ne _ _ _ (by dsimp only; omega), Dev.reg_put_ne _ _ _ (by dsimp only; omega)]
  · rw [Dev.reg_put_ne _ _ _ (by dsimp only; omega)]

theorem Dev.reg_pmc (d : Dev) (pg ev : Nat) (a : Attr) {pg' off : Nat} (h : 0x60 ≤ off) (h' : off < 4096) : (d.pmc pg ev a).reg pg' off = d.reg pg' off := by
  unfold Dev.pmc
  split
  · rfl
  · simp only [Dev.each, List.foldl]
    rw [Dev.reg_when _ _ _ fun e => e.reg_pmcStep _ _ (by omega) h h', Dev.reg_when _ _ _ fun e => e.reg_pmcStep _ _ (by omega) h h',
      Dev.reg_when _ _ _ fun e => e.reg_pmcStep _ _ (by omega) h h', Dev.reg_when _ _ _ fun e => e.reg_pmcStep _ _ (by omega) h h']

theorem Dev.reg_count (d : Dev) (pg : Nat) (f : Fld) (a : Attr) {pg' off : Nat} (h : 0x60 ≤ off) (h' : off < 4096) (hf : f.off < 4096) (hn : pg' ≠ pg ∨ off ≠ f.off) :
    (d.count pg f a).reg pg' off = d.reg pg' off := by
  unfold Dev.count
  split
  · rfl
  · dsimp only
    rw [Dev.reg_pmc _ _ _ _ h h', Dev.reg_put_ne _ _ _ (by omega)]

theorem Dev.reg_sendMsix (d : Dev) (fv : Nat × Nat) {pg off : Nat} : (d.sendMsix fv).reg pg off = d.reg pg off := by
  unfold Dev.sendMsix
  split
  · rfl
  · split <;> rfl

theorem slotOf_lt (pg : Nat) : slotOf pg < 256 := by
  unfold slotOf pageRow
  split
  · next r h =>
    have hm := List.mem_of_find?_eq_some h
    have hr := List.find?_some h
    simp only [PageRow.has, Bool.and_eq_true, decide_eq_true_eq] at hr
    simp only [pageRows, List.mem_cons, List.mem_nil_iff, or_false] at hm
    rcases hm with h | h | h | h | h | h | h | h | h | h | h | h | h | h | h | h | h | h | h | h | h | h | h | h | h | h | h | h | h | h | h | h | h | h | h <;>
      (subst h; dsimp only at hr ⊢; omega)
  · omega

theorem Dev.reg_ibi (d : Dev) (l : List Nat) {pg off : Nat} : (d.ibi l).reg pg off = d.reg pg off := Dev.reg_when _ _ _ fun _ => rfl

theorem Dev.reg_resum (d : Dev) (pg : Nat) {pg' off : Nat} (h : pg' ≠ 0 ∨ off < 0x140 ∨ 0x160 ≤ off) (h' : off < 4096) : (d.resum pg).reg pg' off = d.reg pg' off := by
  have hs := slotOf_lt pg
  have hp (v : Nat) : (d.put Pg.glb (GLB.INT_SUM_SUM (slotOf pg / 32)) v).reg pg' off = d.reg pg' off :=
    Dev.reg_put_ne _ _ _ (by dsimp only [Pg.glb]; omega)
  unfold Dev.resum
  dsimp only
  split
  · rfl
  · split
    · rw [Dev.reg_when _ _ _ fun e => e.reg_ibi _]
      split
      · rw [Dev.reg_sendMsix, hp]
      · exact hp _
    · exact hp _

theorem Dev.reg_stampAs (d : Dev) (pg kind mec : Nat) {pg' off : Nat} : (d.stampAs pg kind mec).reg pg' off = d.reg pg' off := rfl

theorem Dev.reg_setAgain (d : Dev) (n : Fin 8) (e : Nat) {pg off : Nat} : (d.setAgain n e).reg pg off = d.reg pg off := rfl

theorem Dev.reg_raiseBits (d : Dev) {pg pg' off : Nat} (f : Fld) (m : Nat) (h : 4096 * pg' + off ≠ 4096 * pg + f.off) : (d.raiseBits pg f m).reg pg' off = d.reg pg' off :=
  sget_sset_ne _ _ _ h

theorem Dev.reg_intBits (d : Dev) (pg m : Nat) {pg' off : Nat} (h : Calm pg' off) : (d.intBits pg m).reg pg' off = d.reg pg' off := by
  obtain ⟨h1, h2, h3, -, -⟩ := h
  unfold Dev.intBits
  rw [Dev.reg_resum _ _ (.inl h3) h2, Dev.reg_pmc _ _ _ _ (by omega) h2, Dev.reg_stampAs, Dev.reg_put_ne _ _ _ (by dsimp only [Pg.glb, Pg.rec, Pg.seq] at *; omega),
    Dev.reg_raiseBits _ _ _ (by dsimp only [Pg.glb, Pg.rec, Pg.seq] at *; omega)]

theorem Dev.reg_int (d : Dev) (pg b : Nat) {pg' off : Nat} (h : Calm pg' off) : (d.int pg b).reg pg' off = d.reg pg' off := d.reg_intBits pg _ h

theorem Dev.reg_seqNotice (d : Dev) (n : Fin 8) (e : Nat) (t : Bool) {pg off : Nat} : (d.seqNotice n e t).reg pg off = d.reg pg off := by
  unfold Dev.seqNotice
  dsimp only
  split
  · rfl
  · split <;> rfl

theorem Dev.reg_event (d : Dev) (e : Nat) {pg off : Nat} (he : e < 128) (h : Calm pg off) : (d.event e).reg pg off = d.reg pg off := by
  have ⟨h1, h2, h3, h4, h5⟩ := h
  unfold Dev.event
  refine Dev.reg_each _ _ _ fun n d => ?_
  have hn := n.isLt
  dsimp only
  rw [Dev.reg_seqNotice, Dev.reg_when _ _ _ fun e => (e.count _ _).reg_int _ _ h |>.trans (e.reg_count _ _ _ (by omega) h2 (by dsimp only [Pg.glb, Pg.rec, Pg.seq] at *; omega) (.inl (by dsimp only [Pg.glb, Pg.rec, Pg.seq] at *; omega)))]
  rw [Dev.reg_when _ _ _ fun e' => e'.reg_setAgain n e, Dev.reg_raiseBits _ _ _ (by dsimp only [Pg.glb, Pg.rec, Pg.seq] at *; omega)]

theorem Dev.reg_flush (d : Dev) {pg off : Nat} (h : Calm pg off) : d.flush.reg pg off = d.reg pg off := by
  obtain ⟨h1, h2, h3, h4, h5⟩ := h
  unfold Dev.flush
  split
  · rfl
  · exact Dev.reg_put_ne _ _ _ (by dsimp only [Pg.glb, Pg.rec, Pg.seq] at *; omega)

theorem Dev.reg_lose (d : Dev) {pg off : Nat} (h : Calm pg off) : d.lose.reg pg off = d.reg pg off := by
  have ⟨h1, h2, h3, h4, h5⟩ := h
  unfold Dev.lose
  dsimp only
  rw [Dev.reg_when _ _ _ fun e => e.reg_int _ _ h]
  exact (Dev.reg_congr rfl _ _).trans (d.reg_count _ _ _ (by omega) h2 (by dsimp only [Pg.glb, Pg.rec, Pg.seq] at *; omega) (.inl (by dsimp only [Pg.glb, Pg.rec, Pg.seq] at *; omega)))

theorem Dev.reg_spill (d : Dev) (o : Option Record) {pg off : Nat} (h : Calm pg off) : (d.spill o).reg pg off = d.reg pg off := by
  have ⟨h1, h2, h3, h4, h5⟩ := h
  unfold Dev.spill
  split
  · split
    · rfl
    · split
      · dsimp only [Dev.reg]
      · exact d.reg_count _ _ _ (by omega) h2 (by dsimp only [Pg.glb, Pg.rec, Pg.seq] at *; omega) (.inl (by dsimp only [Pg.glb, Pg.rec, Pg.seq] at *; omega))
  · rfl

theorem Dev.reg_writeLine (d : Dev) (w : Record) {pg off : Nat} (h : Calm pg off) : (d.writeLine w).reg pg off = d.reg pg off := by
  have ⟨h1, h2, h3, h4, h5⟩ := h
  unfold Dev.writeLine
  dsimp only
  rw [Dev.reg_put_ne _ _ _ (by dsimp only [Pg.glb, Pg.rec, Pg.seq] at *; omega)]
  exact (Dev.reg_congr rfl _ _).trans (d.reg_spill _ h)

theorem Dev.reg_levelUp (d : Dev) {pg off : Nat} (h : Calm pg off) : d.levelUp.reg pg off = d.reg pg off := by
  have ⟨h1, h2, h3, h4, h5⟩ := h
  unfold Dev.levelUp
  dsimp only
  rw [Dev.reg_when _ _ _ fun e => (e.event 15).reg_flush h |>.trans (e.reg_event 15 (by omega) h), Dev.reg_put_ne _ _ _ (by dsimp only [Pg.glb, Pg.rec, Pg.seq] at *; omega)]

theorem Dev.reg_enter (d : Dev) (typ source : Nat) (p : List Nat) (l : Bool) {pg off : Nat} (h : Calm pg off) : (d.enter typ source p l).reg pg off = d.reg pg off := by
  have ⟨h1, h2, h3, h4, h5⟩ := h
  unfold Dev.enter
  split
  · exact d.reg_lose h
  · dsimp only
    split
    · rw [Dev.reg_writeLine _ _ h, Dev.reg_put_ne _ _ _ (by dsimp only [Pg.glb, Pg.rec, Pg.seq] at *; omega)]
      exact Dev.reg_congr rfl _ _
    · rw [Dev.reg_levelUp _ h]
      refine (Dev.reg_congr rfl _ _).trans ((Dev.reg_put_ne _ REC.NEXT_SEQ_SEQ (d.get Pg.rec REC.NEXT_SEQ_SEQ + 1) (by dsimp only [Pg.glb, Pg.rec, Pg.seq] at *; omega)).trans (Dev.reg_congr rfl _ _))

/-- A record leaves every calm register alone. -/
theorem Dev.reg_record (d : Dev) (typ source : Nat) (p : List Nat) (named : Bool) (key : Nat) {pg off : Nat} (h : Calm pg off) : (d.record typ source p named key).reg pg off = d.reg pg off := by
  unfold Dev.record
  dsimp only
  split
  · split
    · exact Dev.reg_congr rfl _ _
    · exact d.reg_enter _ _ _ _ h
  · exact d.reg_enter _ _ _ _ h

theorem Dev.get_record (d : Dev) (typ source : Nat) (p : List Nat) (named : Bool) (key : Nat) (pg : Nat) (f : Fld) (h : Calm pg f.off) : (d.record typ source p named key).get pg f = d.get pg f := by
  unfold Dev.get; rw [d.reg_record _ _ _ _ _ h]

theorem Dev.get_int (d : Dev) (pg b pg' : Nat) (f : Fld) (h : Calm pg' f.off) : (d.int pg b).get pg' f = d.get pg' f := by
  unfold Dev.get; rw [d.reg_int _ _ h]

theorem Dev.get_event (d : Dev) (e pg : Nat) (f : Fld) (he : e < 128) (h : Calm pg f.off) : (d.event e).get pg f = d.get pg f := by
  unfold Dev.get; rw [d.reg_event _ he h]

theorem Dev.get_flush (d : Dev) (pg : Nat) (f : Fld) (h : Calm pg f.off) : d.flush.get pg f = d.get pg f := by
  unfold Dev.get; rw [d.reg_flush h]

theorem Dev.get_congr {d e : Dev} (h : d.regs = e.regs) (pg : Nat) (f : Fld) : d.get pg f = e.get pg f := by
  unfold Dev.get; rw [Dev.reg_congr h]

end Sys2Proof.Machine
end

