-- ==== Sys2Proof/Laws/Steps.lean ====
section
/-! SUPPORT. What a command's frame leaves: the state after each way of running an effect, and what a write does once its verdict is known. -/

namespace Sys2Proof.Machine

theorem State.run_eq (s : State) (f : Dev → Dev) : s.run f = .next (s.withDev (f s.dev)) := rfl
theorem State.runTime_eq (s : State) (f : Dev → Dev) : s.runTime f = .next (s.withTime (f s.dev)) := rfl
theorem State.runStore_eq (s : State) (f : List (Nat × BitVec 64) → Dev → List (Nat × BitVec 64) × Dev) :
    s.runStore f = .next (s.withStore (f s.store s.dev)) := rfl
theorem State.runReset_eq (s : State) (f : List (Nat × BitVec 64) → Dev → List (Nat × BitVec 64) × Dev) :
    s.runReset f = .next (s.withReset (f s.store s.dev)) := rfl

@[simp] theorem State.withDev_store (s : State) (d : Dev) : (s.withDev d).store = s.store := rfl
@[simp] theorem State.withDev_pending (s : State) (d : Dev) : (s.withDev d).pending = s.pending := rfl
@[simp] theorem State.withDev_clk (s : State) (d : Dev) : (s.withDev d).dev.clk = s.dev.clk := rfl
@[simp] theorem State.withDev_regs (s : State) (d : Dev) : (s.withDev d).dev.regs = d.regs := rfl
theorem State.withDev_reg (s : State) (d : Dev) (pg off : Nat) : (s.withDev d).dev.reg pg off = d.reg pg off := rfl
theorem State.withDev_get (s : State) (d : Dev) (pg : Nat) (f : Fld) : (s.withDev d).dev.get pg f = d.get pg f := rfl
@[simp] theorem State.withStore_store (s : State) (r : List (Nat × BitVec 64) × Dev) : (s.withStore r).store = r.1 := rfl
@[simp] theorem State.withStore_pending (s : State) (r : List (Nat × BitVec 64) × Dev) : (s.withStore r).pending = s.pending := rfl
@[simp] theorem State.withStore_clk (s : State) (r : List (Nat × BitVec 64) × Dev) : (s.withStore r).dev.clk = s.dev.clk := rfl
@[simp] theorem State.withReset_store (s : State) (r : List (Nat × BitVec 64) × Dev) : (s.withReset r).store = r.1 := rfl
@[simp] theorem State.withReset_pending (s : State) (r : List (Nat × BitVec 64) × Dev) : (s.withReset r).pending = s.pending := rfl
@[simp] theorem State.withTime_store (s : State) (d : Dev) : (s.withTime d).store = s.store := rfl
@[simp] theorem State.withTime_pending (s : State) (d : Dev) : (s.withTime d).pending = s.pending := rfl
@[simp] theorem State.withTime_mec (s : State) (d : Dev) : (s.withTime d).dev.clk.mec = s.dev.clk.mec := rfl

/-- A write the fabric serves, with the lock of its block off, has its effect on the device it took. -/
theorem Dev.write_served {s : State} {m : Master} {pg off : Nat} (h : Served s m pg off) (v : Nat) (eff : Dev → Dev) :
    s.dev.write m pg off v eff = eff (s.took m pg off v) := by
  obtain ⟨h1, h2⟩ := h
  have hm : s.dev.lockMiss pg off v = s.dev := by
    unfold Dev.lockMiss
    split
    · rw [h2]; rfl
    · rfl
  unfold Dev.write
  rw [h1, hm]
  simp [Dev.lockedWhole, h2]

theorem Dev.writeIf_served {s : State} {m : Master} {pg off : Nat} (h : s.dev.gate m pg off = .served) (v : Nat) (ok : Bool) (cnt : Fld) (eff : Dev → Dev) :
    s.dev.writeIf m pg off v ok cnt eff = if ok then eff (s.took m pg off v) else s.dev.discardIn pg cnt := by
  unfold Dev.writeIf; rw [h]

theorem Dev.writeOr_served {s : State} {m : Master} {pg off : Nat} (h : s.dev.gate m pg off = .served) (v : Nat) (ok : Bool) (no eff : Dev → Dev) :
    s.dev.writeOr m pg off v ok no eff = if ok then eff (s.took m pg off v) else (no s.dev).pmc pg 4 := by
  unfold Dev.writeOr; rw [h]

theorem Dev.keyWrite_served {s : State} {m : Master} {pg off : Nat} (h : s.dev.gate m pg off = .served) (v : Nat) (ok : Bool) (eff : Dev → Dev) :
    s.dev.keyWrite m pg off v ok eff = if ok then eff (s.took m pg off v) else (s.dev.count (Pg.key 0) KEY0.WR_DISC_COUNT).pmc pg 4 := by
  unfold Dev.keyWrite; rw [h]

/-- A write the fabric does not serve is counted and has no effect. -/
theorem Dev.write_discarded {d : Dev} {m : Master} {pg off : Nat} (h : d.gate m pg off ≠ .served) (v : Nat) (eff : Dev → Dev) :
    d.write m pg off v eff = d.discard (d.gate m pg off) pg := by
  unfold Dev.write
  split
  · next hg => exact absurd hg h
  · rfl

/-- An instruction of a sequencer in RUN whose clock runs has its effect. -/
theorem Dev.seqIssue_run {d : Dev} {n : Fin 8} (h : d.seqState n = seqRun) (hf : d.seq[n].frozen = false) (f : Dev → Dev) : d.seqIssue n f = f (d.seqTaken n) := by
  unfold Dev.seqIssue
  rw [if_neg]
  rintro (h1 | h1)
  · exact h1 h
  · rw [hf] at h1; cases h1

/-- A link message that the pair takes has its effect, and the claim is judged anew. -/
theorem Dev.kwgTake_takes {d : Dev} {h : KwgHead} (e : d.kwgTakes h = true) (f : Dev → Dev) : d.kwgTake h f = (f (d.kwgSeen h)).plkEval := by
  simp only [Dev.kwgTakes, Bool.and_eq_true, decide_eq_true_eq] at e
  obtain ⟨⟨h1, h2⟩, h3⟩ := e
  unfold Dev.kwgTake
  rw [if_neg, if_neg (by omega)]
  rintro (h | h)
  · omega
  · rw [Option.isNone_iff_eq_none] at h; rw [h] at h2; cases h2

/-- A served write differs in registers and stamps alone. -/
theorem Dev.quiet_served (d : Dev) (m : Master) (pg off v : Nat) : d.Quiet (d.served m pg off v) := by
  unfold Dev.served
  dsimp only
  refine (d.quiet_pmc pg 3 { master := some m, addr := some (4096 * pg + off) }).trans ?_
  generalize d.pmc pg 3 { master := some m, addr := some (4096 * pg + off) } = e
  have hs : ∀ t : Nat, e.Quiet ((((e.put pg HDR.LAST_WR_MEC_MEC t).put pg HDR.LAST_WR_MASTER_OFS off).put pg HDR.LAST_WR_MASTER_MASTER (masterId m)).stampAs pg 0 t) := fun t =>
    (((e.quiet_put _ _ _).trans (Dev.quiet_put _ _ _ _)).trans (Dev.quiet_put _ _ _ _)).trans (Dev.quiet_stampAs _ _ _ _)
  split
  · exact Dev.Quiet.refl e
  · split
    · exact (hs _).trans (Dev.Quiet.when _ _ fun e =>
        (((Dev.quiet_put _ _ _ _).trans (Dev.quiet_put _ _ _ _)).trans (Dev.quiet_put _ _ _ _)).trans (Dev.quiet_put _ _ _ _))
    · exact hs _

/-- A served write leaves every own register of every page alone. -/
theorem Dev.reg_served (d : Dev) (m : Master) (pg off v : Nat) {p o : Nat} (h : 0x100 ≤ o) (h' : o < 4096) : (d.served m pg off v).reg p o = d.reg p o := by
  unfold Dev.served
  dsimp only
  rw [← d.reg_pmc pg 3 { master := some m, addr := some (4096 * pg + off) } (pg' := p) (off := o) (by omega) h']
  generalize d.pmc pg 3 { master := some m, addr := some (4096 * pg + off) } = e
  have hp (t : Nat) : ((((e.put pg HDR.LAST_WR_MEC_MEC t).put pg HDR.LAST_WR_MASTER_OFS off).put pg HDR.LAST_WR_MASTER_MASTER (masterId m)).stampAs pg 0 t).reg p o = e.reg p o := by
    rw [Dev.reg_stampAs, Dev.reg_put_ne _ _ _ (by dsimp only; omega), Dev.reg_put_ne _ _ _ (by dsimp only; omega), Dev.reg_put_ne _ _ _ (by dsimp only; omega)]
  split
  · rfl
  · split
    · rw [Dev.reg_when _ _ _ fun e => by
        rw [Dev.reg_put_ne _ _ _ (by dsimp only; omega), Dev.reg_put_ne _ _ _ (by dsimp only; omega), Dev.reg_put_ne _ _ _ (by dsimp only; omega), Dev.reg_put_ne _ _ _ (by dsimp only; omega)]]
      exact hp _
    · exact hp _

end Sys2Proof.Machine
end

