-- ==== Sys2Proof/Laws/Store.lean ====
section
/-! SUPPORT. The laws of the client store: a read after a write of a word and of a field, and the canonical form, which every operation on it keeps. -/

namespace Sys2Proof.Machine

theorem Words.word_lt (s : Words) (k : Nat) : s.word k < 2 ^ 64 := (sget (fun _ => 0#64) s k).isLt

/-- The word written reads back, cut to 64 bits. -/
@[simp] theorem Words.word_setWord_same (s : Words) (k v : Nat) : (s.setWord k v).word k = v % 2 ^ 64 := by
  unfold Words.word Words.setWord
  rw [sget_sset_same]
  exact BitVec.toNat_ofNat v 64

/-- A write leaves every other word alone. -/
theorem Words.word_setWord_ne (s : Words) {j k : Nat} (v : Nat) (h : j ≠ k) : (s.setWord k v).word j = s.word j := by
  unfold Words.word Words.setWord
  rw [sget_sset_ne _ _ _ h]

/-- A field write leaves every other word alone. -/
theorem Words.word_setFld_ne (s : Words) {i j : Nat} (f : EFld) (v : Nat) (h : j ≠ 8 * i + f.w) : (s.setFld i f v).word j = s.word j :=
  Words.word_setWord_ne s _ h

/-! The canonical form. -/

theorem Memory.wf_nil : Memory.wf [] = true := rfl

theorem Memory.wf_setWord (s : Words) (k v : Nat) (h : Memory.wf s = true) : Memory.wf (s.setWord k v) = true := swf_sset _ _ _ _ h

theorem Memory.wf_setFld (s : Words) (i : Nat) (f : EFld) (v : Nat) (h : Memory.wf s = true) : Memory.wf (s.setFld i f v) = true := Memory.wf_setWord _ _ _ h

theorem Memory.wf_freeEntry (r : Words × Dev) (i : Nat) (h : Memory.wf r.1 = true) : Memory.wf (freeEntry r i).1 = true :=
  Memory.wf_setFld _ _ _ _ (Memory.wf_setFld _ _ _ _ h)

theorem Memory.wf_dropGrant (r : Words × Dev) (i t : Nat) (h : Memory.wf r.1 = true) : Memory.wf (dropGrant r i t).1 = true := by
  unfold dropGrant
  split
  · exact h
  · dsimp only
    split
    · exact Memory.wf_freeEntry _ i (Memory.wf_setFld _ _ _ _ h)
    · exact Memory.wf_setFld _ _ _ _ h

theorem Memory.wf_releaseEntry (r : Words × Dev) (i : Nat) (h : Memory.wf r.1 = true) : Memory.wf (releaseEntry r i).1 = true :=
  Memory.wf_freeEntry _ i (Memory.wf_setFld _ _ _ _ h)

theorem Memory.wf_releases (l : List Nat) (r : Words × Dev) (h : Memory.wf r.1 = true) : Memory.wf (l.foldl releaseEntry r).1 = true := by
  induction l generalizing r with
  | nil => exact h
  | cons i l ih => exact ih _ (Memory.wf_releaseEntry r i h)

theorem Memory.wf_releaseAll (r : Words × Dev) (f : Words → Nat → Bool) (h : Memory.wf r.1 = true) : Memory.wf (releaseAll r f).1 = true := by
  unfold releaseAll
  dsimp only
  exact Memory.wf_releases _ r h

theorem Memory.wf_countDrop (s : Words) (o : Option Nat) (h : Memory.wf s = true) : Memory.wf (countDrop s o) = true := by
  cases o with
  | none => exact h
  | some i => exact Memory.wf_setFld s i eDrops (min 255 (s.fld i eDrops + 1)) h

theorem Memory.wf_ite_setWord (s : Words) (c : Prop) [Decidable c] (k v : Nat) (h : Memory.wf s = true) : Memory.wf (if c then s else s.setWord k v) = true := by
  by_cases hc : c
  · rw [if_pos hc]; exact h
  · rw [if_neg hc]; exact Memory.wf_setWord s k v h

theorem Memory.wf_cstPut (r : Words × Dev) (m : Master) (form : CstForm) (addr : Nat) (wide : Bool) (v : Nat) (h : Memory.wf r.1 = true) :
    Memory.wf (cstPut r m form addr wide v).1 = true := by
  unfold cstPut
  extract_lets
  split
  · dsimp only
    refine Memory.wf_releaseEntry _ _ ?_
    apply Memory.wf_ite_setWord
    exact h
  · apply Memory.wf_ite_setWord
    exact h

/-- A host write keeps the canonical form. -/
theorem Memory.wf_cstWrite (r : Words × Dev) (m : Master) (form : CstForm) (addr : Nat) (wide : Bool) (v : Nat) (h : Memory.wf r.1 = true) :
    Memory.wf (cstWrite r m form addr wide v).1 = true := by
  unfold cstWrite
  split
  · exact h
  · exact Memory.wf_cstPut r m form addr wide v h

/-- The store of the reset state has the form. -/
theorem Memory.wf_reset : Memory.wf State.reset.store = true := rfl

end Sys2Proof.Machine
end

