-- ==== Sys2Proof/WellFormed.lean ====
section
/-! DEFINITION. Which commands are well formed: every number an operand carries fits the register, the frame field or the container field the spec gives it. The meanings take any operand; a field too wide is cut to its width. -/

namespace Sys2Proof

/-- Numbers of 8, 16, 32 and 64 bits. -/
def octet (v : Nat) : Bool := decide (v < 2 ^ 8)
def half (v : Nat) : Bool := decide (v < 2 ^ 16)
def word (v : Nat) : Bool := decide (v < 2 ^ 32)
def dword (v : Nat) : Bool := decide (v < 2 ^ 64)

/-- An offset of a register in its page (R12). -/
def offset (o : Nat) : Bool := decide (o < 4096) && decide (o % 4 = 0)

/-- Octets of a frame, a message or a container. -/
def octets (l : List Nat) : Bool := l.all octet

/-- A VLAN tag's control information. -/
def tci (o : Option Nat) : Bool := o.all half

/-- R136: at most one estimate for each of the 96 channels. -/
def GnssSol.wf (x : GnssSol) : Bool := decide (x.sats.length ≤ 96)

/-- R236: a PTP message. -/
def PtpMsg.wf (x : PtpMsg) : Bool :=
  decide (x.src < 2 ^ 128) && decide (x.dst < 2 ^ 128) && dword x.clockId && half x.portNum && octet x.domain && octets x.covered

/-- R259: an NTP request. -/
def NtpMsg.wf (x : NtpMsg) : Bool :=
  decide (x.src < 2 ^ 128) && decide (x.dst < 2 ^ 128) && decide (x.version < 8) && decide (x.mode < 8) && octet x.poll && dword x.xmit

/-- R205: a received frame. -/
def RxFrame.wf (x : RxFrame) : Bool :=
  octets x.data && tci x.sTci && tci x.cTci && dword x.edge &&
  (match x.body with
   | .ptp m => m.wf
   | .ntp m => m.wf
   | .pause q => half q
   | .macControl | .esmc _ _ | .other => true)

def SigIn.wf (x : SigIn) : Bool := x.msg.wf && tci x.sTci && tci x.cTci
def DreqIn.wf (x : DreqIn) : Bool := x.msg.wf && half x.seq && half x.bound && tci x.sTci && tci x.cTci
def NtpIn.wf (x : NtpIn) : Bool := x.msg.wf && half x.bound && tci x.sTci && tci x.cTci

/-- R410: when a link message came in. -/
def LaneRx.wf (x : LaneRx) : Bool := dword x.edge

/-- R399: the head of a link message. -/
def KwgHead.wf (h : KwgHead) : Bool := dword h.mec && word h.claim

/-- R408: a health report. -/
def Health.wf (x : Health) : Bool := decide (x.role < 8) && word x.utc && decide (x.pending < 4) && decide (x.leapAt < 2 ^ 48) && x.words.all word

/-- R411: a mirrored entry. -/
def MirrorEntry.wf (x : MirrorEntry) : Bool :=
  decide (x.atype < 4) && decide (x.addr < 2 ^ 128) && dword x.clock && half x.num && decide (x.dom < 8) && decide (x.keySlot < 256) && half x.sTci && half x.cTci && word x.keyId

/-- R421: a container: a header of 256 octets, or none fetched yet. -/
def Container.wf (c : Container) : Bool :=
  (c.head.isEmpty || c.head.length == 256) && octets c.head && octets c.body && (c.writes.all fun e => decide (e.1 < 2 ^ 25) && dword e.2) && decide (c.origin < 2)

/-- R419: the flash. -/
def Flash.wf (f : Flash) : Bool := f.running.all Container.wf && f.ret.all Container.wf && f.staging.all Container.wf && f.cal.all Container.wf && f.cfg.all Container.wf

/-- R416: what a boot meets. -/
def BootIn.wf (x : BootIn) : Bool := x.flash.all Flash.wf

/-- A well-formed command. -/
def wellFormed (c : Instr) : Bool :=
  match c with
  | .utcOffsetWrite _ _ v => word v
  | .leapPendingWrite _ _ v => word v
  | .leapAtWrite _ _ v => dword v
  | .snap _ _ v => word v
  | .ppsEdge _ t => dword t
  | .usSyncRx _ x => half x.seq
  | .usFollowUpRx _ x => half x.seq
  | .usAnnounceRx _ x => octet x.priority1 && octet x.cls && octet x.acc
  | .usDelayRespRx _ x => half x.seq
  | .usGrantRx _ _ dur => word dur
  | .gnssStart visible => visible.all fun g => decide (g.svid < 256)
  | .searchDwell _ found => found.all fun c => decide (c < 256)
  | .bandBHandover _ cn0 => decide (cn0 < 256)
  | .gnssPulse sec => decide (sec < 2 ^ 48)
  | .gnssSolution x => x.wf
  | .antBiasFault a b => decide (a < 65536) && decide (b < 65536)
  | .gnssUtcDecode _ _ sec => decide (sec < 2 ^ 48)
  | .lockGate _ count _ tune => word count && word tune
  | .tdcStamp _ _ _ _ _ _ ps => word ps
  | .calTableCheck counts => decide (counts.length ≤ 1024)
  | .eviEdge _ _ ps => word ps
  | .anComplete _ abil _ _ => half abil
  | .frameRx _ f => f.wf
  | .hostRxWrite _ sTci cTci data mec => octets data && tci sTci && tci cTci && decide (mec < 2 ^ 64)
  | .hostTxFrame _ _ data => octets data
  | .delayReqRx _ x => x.wf
  | .ntpRequestRx _ x => x.wf
  | .ntsRequestRx _ x => x.wf
  | .signalingRx _ x => x.wf
  | .capacityCount kind inst => decide (kind ≤ 18) && decide (inst < 16)
  | .cstWrite _ addr _ v => decide (addr < 2 ^ 28) && dword v
  | .cstSetWrite _ addr _ v => decide (addr < 2 ^ 28) && dword v
  | .cstClearWrite _ addr _ v => decide (addr < 2 ^ 28) && dword v
  | .scrubPass errs => errs.all fun e => decide (e.1 < 2 ^ 23)
  | .brineExit _ v => word v
  | .audFrameBoundary _ _ recs samples => samples.all word && recs.all fun x => x.2.all word
  | .seqWr _ _ _ _ _ addr => word addr && decide (addr % 4 = 0)
  | .seqWaitb _ _ _ _ _ _ tmo => decide (tmo < 4096)
  | .seqWaite _ _ _ _ tmo => decide (tmo < 4096)
  | .seqAdd _ _ _ _ k => half k
  | .seqSub _ _ _ _ k => half k
  | .seqAnd _ _ _ _ k => half k
  | .seqOr _ _ _ _ k => half k
  | .seqRec _ tag => half tag
  | .thermalSample _ _ _ _ mw => word mw
  | .helloRx h uid epoch => h.wf && dword uid && word epoch
  | .handoverRequestRx h => h.wf
  | .healthRx h x => h.wf && x.wf
  | .kwgSyncRx h f => h.wf && f.wf
  | .kwgRespRx h sync _ _ f => h.wf && dword sync && f.wf
  | .mirrorEntryRx h x => h.wf && x.wf
  | .boot x => x.wf
  | .partnerContainerRx h c => h.wf && c.wf
  | .registerWrite _ addr wide v => decide (addr < 2 ^ 25) && (if wide then dword v else word v)
  | .mgmtWriteTransfer octs => octets octs
  | .pcieLinkUp width speed => decide (width ≤ 16) && decide (speed ≤ 6)
  | .packageReset _ key => octet key
  | .regionCmd _ key target => octet key && decide (target < 16)
  | .dieCmd _ key target => octet key && decide (target < 16)
  | .incrWrite _ _ v => dword v
  | .modeWrite _ _ v => word v
  | .slewStart _ _ v => dword v
  | .stepArm _ _ key => octet key
  | .execRel _ _ key => octet key
  | .execAbs _ _ key => octet key
  | .disarm _ _ key => octet key
  | .manUncWrite _ _ v => word v
  | .bindWrite _ _ v => word v
  | .xtsRateWrite _ v => word v
  | .monEnable _ _ v => word v
  | .monDisable _ _ v => word v
  | .forceDqWrite _ _ v => word v
  | .monWtrWrite _ _ v => word v
  | .refConfigWrite _ _ off v => offset off && dword v
  | .uartPop _ _ v => word v
  | .uartTxWrite _ _ v => word v
  | .uartEnWrite _ _ v => word v
  | .steerValWrite _ _ v => word v
  | .usConfigWrite _ _ off v => offset off && dword v
  | .svcRunWrite _ _ v => word v
  | .svcHeartbeat _ _ v => word v
  | .gnssConfigWrite _ _ off v => offset off && dword v
  | .gnssPosWrite _ off v => offset off && dword v
  | .ht4Write _ off v => offset off && dword v
  | .synEnable _ _ v => word v
  | .synDisable _ _ v => word v
  | .synConfigWrite _ _ off v => offset off && dword v
  | .scaleWrite _ _ v => word v
  | .ssCtlWrite _ _ off v => offset off && dword v
  | .ckoCtlWrite _ _ v => word v
  | .ckoDivWrite _ _ v => word v
  | .ckoPhaseWrite _ _ v => word v
  | .tdcPop _ _ v => word v
  | .strConfigWrite _ _ off v => offset off && dword v
  | .tdcMuxWrite _ _ off v => offset off && dword v
  | .calEntWrite _ v => word v
  | .evoStop _ _ off v => offset off && dword v
  | .eviCtlWrite _ _ v _ => word v
  | .portEnable _ _ v => word v
  | .portDisable _ _ v => word v
  | .portConfigWrite _ _ off v => offset off && dword v
  | .lpiCtlWrite _ _ v => word v
  | .htxWpWrite _ _ v => word v
  | .ringConfigWrite _ _ off v => offset off && dword v
  | .ptsPop _ _ v => word v
  | .ptsDelayWrite _ _ off v => offset off && dword v
  | .rspEnWrite _ v => word v
  | .domCtlWrite _ _ v => word v
  | .brineEnter _ v => word v
  | .hashSeedWrite _ v => word v
  | .fenceWrite _ _ v => word v
  | .unwrapKey _ _ blob => octets blob
  | .keyNtsCurWrite _ v => word v
  | .audEnable _ _ _ v => word v
  | .audDisable _ _ _ v => word v
  | .audMaskWrite _ _ _ v => word v
  | .audConfigWrite _ _ _ off v => offset off && dword v
  | .seqEnable _ _ v => word v
  | .seqDisable _ _ v => word v
  | .seqInstrWrite _ _ _ v => word v
  | .recCursorWrite _ v => word v
  | .fltClr _ _ v => word v
  | .fltClrAll _ v => word v
  | .fltForceWrite _ _ v => word v
  | .pmcSelWrite _ _ _ v => word v
  | .pmcFilterWrite _ off v => offset off && dword v
  | .powerCapWrite _ v => word v
  | .pwrReqWrite _ _ v => word v
  | .sclkSsWrite _ v => word v
  | .plkEnable _ v => word v
  | .plkDisable _ v => word v
  | .openSession _ c => c.wf
  | .kick _ v => word v
  | .softRst _ _ v => word v
  | .freezeWrite _ _ v => word v
  | .intStsClear _ _ v => word v
  | .intForce _ _ v => word v
  | .intEnWrite _ _ v => word v
  | .powerOn | .pkgRstN | .railFault .. | .c4RegionReset .. | .regionResetComplete .. | .linkRemeasure .. | .replicaCheck .. | .applicationTick .. | .boundPublish ..
  | .clockClassHoldExpiry .. | .leapApply .. | .slewComplete .. | .stepArmExpiry .. | .stepApply .. | .snapDone .. | .walkComplete .. | .pulseMissed ..
  | .refFreqTimeout .. | .acquireExpiry .. | .wtrExpiry .. | .dqHoldExpiry .. | .monitorSecond .. | .uartRxByte .. | .tlmTimeout .. | .usDelayReqTx .. | .usGrantRenew ..
  | .usGrantRetry .. | .usGrantLapse .. | .usSyncTimeout .. | .usAnnounceTimeout .. | .synceEsmcRx .. | .esmcTimeout .. | .synceGate .. | .gnssMeasurement
  | .ensembleEval | .selectorEval .. | .switchEnd .. | .lockAchieved .. | .servoUpdate .. | .svcWatchdogExpiry .. | .holdoverBin .. | .raimHoldExpiry ..
  | .surveyComplete | .surveyRestart | .jamAlarm .. | .alarmWithdraw .. | .gnssWake | .gnssSleep | .vcoCalDone .. | .lockingTimeout .. | .synRefLoss ..
  | .freezeTimeout .. | .ssApply .. | .dpllUpdate .. | .tdcFreqGate .. | .streamWrite | .rotationStart | .rotationSwitch | .precisionTest .. | .rotationSwitchBack
  | .mclkUnlock | .evoEdge .. | .evoDriverEnable .. | .lanePllLocked .. | .trainComplete .. | .trainTimeout .. | .alignUp .. | .alignTimeout .. | .linkLoss ..
  | .remoteFault .. | .remoteFaultClear .. | .pauseExpiry .. | .frameTx .. | .verifySend .. | .lpiEntry .. | .lpiWake .. | .probeDwell .. | .probeStale ..
  | .calSlotStart .. | .calSlotEnd .. | .admissionEpoch | .wheelSlot | .esmcInfoPdu .. | .overloadSecond | .katDone .. | .katNow .. | .cryptoOp .. | .keyCommit
  | .audOscLock .. | .audStart .. | .wsEdge .. | .audInputLoss .. | .audRateMeasure .. | .triggerStart .. | .seqNop .. | .seqRd .. | .seqSetb .. | .seqClrb ..
  | .seqWaitt .. | .seqJmp .. | .seqJz .. | .seqJnz .. | .seqDjnz .. | .seqSnap .. | .seqRaise .. | .seqHalt .. | .seqCall .. | .seqRet .. | .seqIllegal ..
  | .seqWaitEnd .. | .seqBudgetExpiry .. | .flushComplete | .snapshotComplete | .pinPoll | .collectorRailDisagree .. | .linkWordError .. | .linkResyncTimeout ..
  | .pmcAutoLatch | .admissionCycle | .capStep | .pfwAssert | .pfwDeassert | .monitorTrip | .autoExit | .caveRevoke | .caveCclkStop | .caveStore | .caveEntered
  | .caveExitDone | .oscLoss | .oscReturn | .oscRelock | .caveBrownout | .kwgBlockLock .. | .kwgAlignTimeout | .helloTx | .kwgTagFail .. | .kwgLinkTimeout | .hbToggle
  | .partnerLost | .takeCondition | .claimWaitEnd | .witGrantFall | .reqTimeout | .healthTx | .kwgSyncTx | .selftest .. | .bootDone | .bootWatchdogExpiry | .loadComplete
  | .copyDone | .selfConfirm | .sessionTimeout | .ldrWatchdogExpiry | .pciePerst | .mclkRelock | .witGrantRise | .claimInChange .. | .hbInEdge | .monitorClear
  | .lpiRxEntry .. | .pcieLinkDown | .snapJoint .. | .accept .. | .skipWtr .. | .restart .. | .keptClear .. | .align .. | .testEnter .. | .testExit .. | .relock ..
  | .tdcArm .. | .tdcDisarm .. | .tdcFlush .. | .tdcCalNow .. | .tdcRestore .. | .evoArm .. | .restartAn .. | .restartLink .. | .statClr .. | .preVerify ..
  | .clusterReset .. | .ptsCalNow .. | .qFlush .. | .cntClr .. | .lookup .. | .scrubNow .. | .unfence .. | .importKey .. | .deriveKey .. | .retireKey .. | .destroyKey ..
  | .keyAbort .. | .attest .. | .submitToken .. | .realign .. | .audCntClr .. | .seqStart .. | .seqStop .. | .clrFault .. | .recFlush .. | .recClear .. | .recSnap ..
  | .pmcLatch .. | .enterCave .. | .exitCave .. | .take .. | .handover .. | .plkAbort .. | .verifyHdr .. | .loadBody .. | .verifyBody .. | .activate .. | .confirm ..
  | .ldrAbort .. | .calCommit .. | .restoreImage .. | .msixUnmask .. | .testDis .. => true

end Sys2Proof
end

