-- ==== Sys2Proof/Tests/Slice0.lean ====
section
/-! SUPPORT. The model's own tests: the well-formedness smoke test, a few steps against values worked out from the spec, and for each obligation with hypotheses states that meet them. -/

set_option Elab.async false

namespace Sys2Proof.Tests

open Sys2Proof Sys2Proof.Machine

/-! Ill-formed commands, one for each check of WellFormed.lean, and well-formed ones beside them. -/

def msg : PtpMsg := ⟨0, 0, 0, false, 0, 0, 0, none, [], .malformed⟩
def ntp : NtpMsg := ⟨false, 0, 0, 4, 3, 48, false, 0, 0, none⟩
def frame : RxFrame := ⟨64, true, false, false, 0, 0, .plain, 0, none, none, false, 0, 0, 0, [], .other⟩
def dreqIn : DreqIn := ⟨msg, 0, 0, 0, 0, 0, (0, 0), (0, 0), none, none⟩
def ntpIn : NtpIn := ⟨ntp, 0, 0, 0, (0, 0), none, none⟩
def sigIn : SigIn := ⟨msg, [], 0, none, none⟩
def report : Health := ⟨0, true, true, (0, 0), (0, 0), 0, 0, 0, []⟩
def entry : MirrorEntry := ⟨false, 0, 0, 0, 0, 0, 0, 0, 0, 0, 0, 0, 0, [], 0, [], 0, 0, 0, 0, 0⟩
def image : Container := ⟨[], [], [], [], 0⟩
def badImage : Container := ⟨[1], [], [], [], 0⟩
def flash : Flash := ⟨none, none, none, none, none⟩

theorem test_ill_formed_1 : (([
    .utcOffsetWrite .pf0 0 (2 ^ 32), .leapPendingWrite .pf0 0 (2 ^ 32), .leapAtWrite .pf0 0 (2 ^ 64), .snap .pf0 0 (2 ^ 32),
    .ppsEdge 0 (2 ^ 64), .usGrantRx 0 0 (2 ^ 32), .bandBHandover 0 (256), .gnssPulse (2 ^ 48),
    .antBiasFault (65536) 0, .antBiasFault 0 (65536), .gnssUtcDecode 0 0 (2 ^ 48), .lockGate 0 (2 ^ 32) 0 0,
    .lockGate 0 0 0 (2 ^ 32), .tdcStamp 0 0 0 0 false 0 (2 ^ 32), .eviEdge 0 false (2 ^ 32), .anComplete 0 (2 ^ 16) false false,
    .hostRxWrite 0 none none [256] 0, .hostRxWrite 0 (some (2 ^ 16)) none [] 0, .hostRxWrite 0 none (some (2 ^ 16)) [] 0, .hostRxWrite 0 none none [] (2 ^ 64),
    .hostTxFrame 0 false [256], .capacityCount (18 + 1) 0, .capacityCount 0 (16), .cstWrite .pf0 (2 ^ 28) false 0,
    .cstWrite .pf0 0 false (2 ^ 64), .cstSetWrite .pf0 (2 ^ 28) false 0, .cstSetWrite .pf0 0 false (2 ^ 64), .cstClearWrite .pf0 (2 ^ 28) false 0,
    .cstClearWrite .pf0 0 false (2 ^ 64), .brineExit .pf0 (2 ^ 32), .seqWr 0 false false 0 0 (2 ^ 32), .seqWaitb 0 false 0 false 0 0 (4096),
    .seqWaite 0 0 false 0 (4096), .seqAdd 0 0 false 0 (2 ^ 16), .seqSub 0 0 false 0 (2 ^ 16), .seqAnd 0 0 false 0 (2 ^ 16),
    .seqOr 0 0 false 0 (2 ^ 16), .seqRec 0 (2 ^ 16), .thermalSample 0 0 0 0 (2 ^ 32), .helloRx ⟨2 ^ 64, 0⟩ 0 0,
    .helloRx ⟨0, 0⟩ (2 ^ 64) 0, .helloRx ⟨0, 0⟩ 0 (2 ^ 32), .handoverRequestRx ⟨2 ^ 64, 0⟩, .healthRx ⟨2 ^ 64, 0⟩ report,
    .kwgSyncRx ⟨2 ^ 64, 0⟩ ⟨0, 0⟩, .kwgSyncRx ⟨0, 0⟩ ⟨2 ^ 64, 0⟩, .kwgRespRx ⟨2 ^ 64, 0⟩ 0 ⟨0, 0, 0⟩ ⟨0, 0, 0⟩ ⟨0, 0⟩, .kwgRespRx ⟨0, 0⟩ (2 ^ 64) ⟨0, 0, 0⟩ ⟨0, 0, 0⟩ ⟨0, 0⟩,
    .kwgRespRx ⟨0, 0⟩ 0 ⟨0, 0, 0⟩ ⟨0, 0, 0⟩ ⟨2 ^ 64, 0⟩, .mirrorEntryRx ⟨2 ^ 64, 0⟩ entry, .partnerContainerRx ⟨2 ^ 64, 0⟩ image, .registerWrite .pf0 (2 ^ 25) false 0,
    .mgmtWriteTransfer [256], .pcieLinkUp (16 + 1) 0, .pcieLinkUp 0 (6 + 1), .packageReset .pf0 256,
    .regionCmd .pf0 256 0, .regionCmd .pf0 0 (16), .dieCmd .pf0 256 0, .dieCmd .pf0 0 (16)] : List Instr).all fun c => !wellFormed c) = true := by decide +kernel

theorem test_ill_formed_2 : (([
    .incrWrite .pf0 0 (2 ^ 64), .modeWrite .pf0 0 (2 ^ 32), .slewStart .pf0 0 (2 ^ 64), .stepArm .pf0 0 256,
    .execRel .pf0 0 256, .execAbs .pf0 0 256, .disarm .pf0 0 256, .manUncWrite .pf0 0 (2 ^ 32),
    .bindWrite .pf0 0 (2 ^ 32), .xtsRateWrite .pf0 (2 ^ 32), .monEnable .pf0 0 (2 ^ 32), .monDisable .pf0 0 (2 ^ 32),
    .forceDqWrite .pf0 0 (2 ^ 32), .monWtrWrite .pf0 0 (2 ^ 32), .refConfigWrite .pf0 0 4096 0, .refConfigWrite .pf0 0 2 0,
    .refConfigWrite .pf0 0 0 (2 ^ 64), .uartPop .pf0 0 (2 ^ 32), .uartTxWrite .pf0 0 (2 ^ 32), .uartEnWrite .pf0 0 (2 ^ 32),
    .steerValWrite .pf0 0 (2 ^ 32), .usConfigWrite .pf0 0 4096 0, .usConfigWrite .pf0 0 2 0, .usConfigWrite .pf0 0 0 (2 ^ 64),
    .svcRunWrite .pf0 0 (2 ^ 32), .svcHeartbeat .pf0 0 (2 ^ 32), .gnssConfigWrite .pf0 0 4096 0, .gnssConfigWrite .pf0 0 2 0,
    .gnssConfigWrite .pf0 0 0 (2 ^ 64), .gnssPosWrite .pf0 4096 0, .gnssPosWrite .pf0 2 0, .gnssPosWrite .pf0 0 (2 ^ 64),
    .ht4Write .pf0 4096 0, .ht4Write .pf0 2 0, .ht4Write .pf0 0 (2 ^ 64), .synEnable .pf0 0 (2 ^ 32),
    .synDisable .pf0 0 (2 ^ 32), .synConfigWrite .pf0 0 4096 0, .synConfigWrite .pf0 0 2 0, .synConfigWrite .pf0 0 0 (2 ^ 64),
    .scaleWrite .pf0 0 (2 ^ 32), .ssCtlWrite .pf0 0 4096 0, .ssCtlWrite .pf0 0 2 0, .ssCtlWrite .pf0 0 0 (2 ^ 64),
    .ckoCtlWrite .pf0 0 (2 ^ 32), .ckoDivWrite .pf0 0 (2 ^ 32), .ckoPhaseWrite .pf0 0 (2 ^ 32), .tdcPop .pf0 0 (2 ^ 32),
    .strConfigWrite .pf0 0 4096 0, .strConfigWrite .pf0 0 2 0, .strConfigWrite .pf0 0 0 (2 ^ 64), .tdcMuxWrite .pf0 0 4096 0,
    .tdcMuxWrite .pf0 0 2 0, .tdcMuxWrite .pf0 0 0 (2 ^ 64), .calEntWrite .pf0 (2 ^ 32), .evoStop .pf0 0 4096 0,
    .evoStop .pf0 0 2 0, .evoStop .pf0 0 0 (2 ^ 64), .eviCtlWrite .pf0 0 (2 ^ 32) false, .portEnable .pf0 0 (2 ^ 32)] : List Instr).all fun c => !wellFormed c) = true := by decide +kernel

theorem test_ill_formed_3 : (([
    .portDisable .pf0 0 (2 ^ 32), .portConfigWrite .pf0 0 4096 0, .portConfigWrite .pf0 0 2 0, .portConfigWrite .pf0 0 0 (2 ^ 64),
    .lpiCtlWrite .pf0 0 (2 ^ 32), .htxWpWrite .pf0 0 (2 ^ 32), .ringConfigWrite .pf0 0 4096 0, .ringConfigWrite .pf0 0 2 0,
    .ringConfigWrite .pf0 0 0 (2 ^ 64), .ptsPop .pf0 0 (2 ^ 32), .ptsDelayWrite .pf0 0 4096 0, .ptsDelayWrite .pf0 0 2 0,
    .ptsDelayWrite .pf0 0 0 (2 ^ 64), .rspEnWrite .pf0 (2 ^ 32), .domCtlWrite .pf0 0 (2 ^ 32), .brineEnter .pf0 (2 ^ 32),
    .hashSeedWrite .pf0 (2 ^ 32), .fenceWrite .pf0 0 (2 ^ 32), .unwrapKey .pf0 0 [256], .keyNtsCurWrite .pf0 (2 ^ 32),
    .audEnable .pf0 0 false (2 ^ 32), .audDisable .pf0 0 false (2 ^ 32), .audMaskWrite .pf0 0 false (2 ^ 32), .audConfigWrite .pf0 0 false 4096 0,
    .audConfigWrite .pf0 0 false 2 0, .audConfigWrite .pf0 0 false 0 (2 ^ 64), .seqEnable .pf0 0 (2 ^ 32), .seqDisable .pf0 0 (2 ^ 32),
    .seqInstrWrite .pf0 0 0 (2 ^ 32), .recCursorWrite .pf0 (2 ^ 32), .fltClr .pf0 0 (2 ^ 32), .fltClrAll .pf0 (2 ^ 32),
    .fltForceWrite .pf0 0 (2 ^ 32), .pmcSelWrite .pf0 0 0 (2 ^ 32), .pmcFilterWrite .pf0 4096 0, .pmcFilterWrite .pf0 2 0,
    .pmcFilterWrite .pf0 0 (2 ^ 64), .powerCapWrite .pf0 (2 ^ 32), .pwrReqWrite .pf0 0 (2 ^ 32), .sclkSsWrite .pf0 (2 ^ 32),
    .plkEnable .pf0 (2 ^ 32), .plkDisable .pf0 (2 ^ 32), .kick .pf0 (2 ^ 32), .softRst .pf0 0 (2 ^ 32),
    .freezeWrite .pf0 0 (2 ^ 32), .intStsClear .pf0 0 (2 ^ 32), .intForce .pf0 0 (2 ^ 32), .intEnWrite .pf0 0 (2 ^ 32),
    .usSyncRx 0 ⟨0, 2 ^ 16, false, 0, 0, 0, none⟩, .usFollowUpRx 0 ⟨0, 2 ^ 16, 0, 0, none⟩, .usAnnounceRx 0 ⟨0, 256, 0, 0, [], none⟩, .usAnnounceRx 0 ⟨0, 0, 256, 0, [], none⟩,
    .usAnnounceRx 0 ⟨0, 0, 0, 256, [], none⟩, .usDelayRespRx 0 ⟨0, 2 ^ 16, 0, 0, none⟩, .gnssStart [⟨0, 255⟩, ⟨0, 256⟩], .searchDwell 0 (some 256),
    .gnssSolution ⟨List.replicate 97 ⟨0, 0, 0, 0, 0, 0, 0, true⟩, 0, (0, 0, 0), []⟩, .calTableCheck (List.replicate 1025 0), .frameRx 0 { frame with data := [256] }, .frameRx 0 { frame with sTci := some (2 ^ 16) }] : List Instr).all fun c => !wellFormed c) = true := by decide +kernel

theorem test_ill_formed_4 : (([
    .frameRx 0 { frame with cTci := some (2 ^ 16) }, .frameRx 0 { frame with edge := 2 ^ 64 }, .frameRx 0 { frame with body := .ptp { msg with src := 2 ^ 128 } }, .frameRx 0 { frame with body := .ptp { msg with dst := 2 ^ 128 } },
    .frameRx 0 { frame with body := .ptp { msg with clockId := 2 ^ 64 } }, .frameRx 0 { frame with body := .ptp { msg with portNum := 2 ^ 16 } }, .frameRx 0 { frame with body := .ptp { msg with domain := 256 } }, .frameRx 0 { frame with body := .ptp { msg with covered := [256] } },
    .frameRx 0 { frame with body := .ntp { ntp with src := 2 ^ 128 } }, .frameRx 0 { frame with body := .ntp { ntp with dst := 2 ^ 128 } }, .frameRx 0 { frame with body := .ntp { ntp with version := 8 } }, .frameRx 0 { frame with body := .ntp { ntp with mode := 8 } },
    .frameRx 0 { frame with body := .ntp { ntp with poll := 256 } }, .frameRx 0 { frame with body := .ntp { ntp with xmit := 2 ^ 64 } }, .frameRx 0 { frame with body := .pause (2 ^ 16) }, .delayReqRx 0 { dreqIn with msg := { msg with src := 2 ^ 128 } },
    .delayReqRx 0 { dreqIn with seq := 2 ^ 16 }, .delayReqRx 0 { dreqIn with bound := 2 ^ 16 }, .delayReqRx 0 { dreqIn with sTci := some (2 ^ 16) }, .delayReqRx 0 { dreqIn with cTci := some (2 ^ 16) },
    .ntpRequestRx 0 { ntpIn with msg := { ntp with mode := 8 } }, .ntpRequestRx 0 { ntpIn with bound := 2 ^ 16 }, .ntpRequestRx 0 { ntpIn with sTci := some (2 ^ 16) }, .ntsRequestRx 0 { ntpIn with cTci := some (2 ^ 16) },
    .signalingRx 0 { sigIn with msg := { msg with dst := 2 ^ 128 } }, .signalingRx 0 { sigIn with sTci := some (2 ^ 16) }, .signalingRx 0 { sigIn with cTci := some (2 ^ 16) }, .scrubPass [(2 ^ 23, false)],
    .audFrameBoundary 0 false [] [2 ^ 32], .audFrameBoundary 0 false [(0, [2 ^ 32])] [], .seqWr 0 false false 0 0 2, .registerWrite .pf0 0 false (2 ^ 32),
    .registerWrite .pf0 0 true (2 ^ 64), .healthRx ⟨0, 2 ^ 32⟩ report, .healthRx ⟨0, 0⟩ { report with role := 8 }, .healthRx ⟨0, 0⟩ { report with utc := 2 ^ 32 },
    .healthRx ⟨0, 0⟩ { report with pending := 4 }, .healthRx ⟨0, 0⟩ { report with leapAt := 2 ^ 48 }, .healthRx ⟨0, 0⟩ { report with words := [2 ^ 32] }, .mirrorEntryRx ⟨0, 0⟩ { entry with atype := 4 },
    .mirrorEntryRx ⟨0, 0⟩ { entry with addr := 2 ^ 128 }, .mirrorEntryRx ⟨0, 0⟩ { entry with clock := 2 ^ 64 }, .mirrorEntryRx ⟨0, 0⟩ { entry with num := 2 ^ 16 }, .mirrorEntryRx ⟨0, 0⟩ { entry with dom := 8 },
    .mirrorEntryRx ⟨0, 0⟩ { entry with keySlot := 256 }, .mirrorEntryRx ⟨0, 0⟩ { entry with sTci := 2 ^ 16 }, .mirrorEntryRx ⟨0, 0⟩ { entry with cTci := 2 ^ 16 }, .mirrorEntryRx ⟨0, 0⟩ { entry with keyId := 2 ^ 32 },
    .openSession .pf0 { image with head := [0] }, .openSession .pf0 { image with head := List.replicate 256 256 }, .openSession .pf0 { image with body := [256] }, .openSession .pf0 { image with writes := [(2 ^ 25, 0)] },
    .openSession .pf0 { image with writes := [(0, 2 ^ 64)] }, .openSession .pf0 { image with origin := 2 }, .partnerContainerRx ⟨0, 0⟩ { image with origin := 2 }, .boot ⟨some { flash with running := some badImage }, [], [], true, (true, true)⟩,
    .boot ⟨some { flash with ret := some badImage }, [], [], true, (true, true)⟩, .boot ⟨some { flash with staging := some badImage }, [], [], true, (true, true)⟩, .boot ⟨some { flash with cal := some badImage }, [], [], true, (true, true)⟩, .boot ⟨some { flash with cfg := some badImage }, [], [], true, (true, true)⟩] : List Instr).all fun c => !wellFormed c) = true := by decide +kernel

theorem test_well_formed_1 : (([
    .utcOffsetWrite .pf0 0 0, .leapPendingWrite .pf0 0 0, .leapAtWrite .pf0 0 0, .snap .pf0 0 0, .ppsEdge 0 0, .usSyncRx 0 ⟨0, 0, false, 0, 0, 0, none⟩,
    .usFollowUpRx 0 ⟨0, 0, 0, 0, none⟩, .usAnnounceRx 0 ⟨0, 0, 0, 0, [], none⟩, .usDelayRespRx 0 ⟨0, 0, 0, 0, none⟩, .usGrantRx 0 0 0, .gnssStart [], .searchDwell 0 none,
    .bandBHandover 0 0, .gnssPulse 0, .gnssSolution ⟨[], 0, (0, 0, 0), []⟩, .antBiasFault 0 0, .gnssUtcDecode 0 0 0, .lockGate 0 0 0 0,
    .tdcStamp 0 0 0 0 false 0 0, .calTableCheck [], .eviEdge 0 false 0, .anComplete 0 0 false false, .frameRx 0 frame, .hostRxWrite 0 none none [] 0,
    .hostTxFrame 0 false [], .delayReqRx 0 dreqIn, .ntpRequestRx 0 ntpIn, .ntsRequestRx 0 ntpIn, .signalingRx 0 sigIn, .capacityCount 0 0,
    .cstWrite .pf0 0 false 0, .cstSetWrite .pf0 0 false 0, .cstClearWrite .pf0 0 false 0, .scrubPass [], .brineExit .pf0 0, .audFrameBoundary 0 false [] [],
    .seqWr 0 false false 0 0 0, .seqWaitb 0 false 0 false 0 0 0, .seqWaite 0 0 false 0 0, .seqAdd 0 0 false 0 0, .seqSub 0 0 false 0 0, .seqAnd 0 0 false 0 0,
    .seqOr 0 0 false 0 0, .seqRec 0 0, .thermalSample 0 0 0 0 0, .helloRx ⟨0, 0⟩ 0 0, .handoverRequestRx ⟨0, 0⟩, .healthRx ⟨0, 0⟩ report,
    .kwgSyncRx ⟨0, 0⟩ ⟨0, 0⟩, .kwgRespRx ⟨0, 0⟩ 0 ⟨0, 0, 0⟩ ⟨0, 0, 0⟩ ⟨0, 0⟩, .mirrorEntryRx ⟨0, 0⟩ entry, .boot ⟨none, [], [], true, (true, true)⟩, .partnerContainerRx ⟨0, 0⟩ image, .registerWrite .pf0 0 false 0,
    .mgmtWriteTransfer [], .pcieLinkUp 0 0, .packageReset .pf0 0, .regionCmd .pf0 0 0, .dieCmd .pf0 0 0, .incrWrite .pf0 0 0,
    .modeWrite .pf0 0 0, .slewStart .pf0 0 0, .stepArm .pf0 0 0, .execRel .pf0 0 0, .execAbs .pf0 0 0, .disarm .pf0 0 0,
    .manUncWrite .pf0 0 0, .bindWrite .pf0 0 0, .xtsRateWrite .pf0 0, .monEnable .pf0 0 0, .monDisable .pf0 0 0, .forceDqWrite .pf0 0 0] : List Instr).all wellFormed) = true := by decide +kernel

theorem test_well_formed_2 : (([
    .monDisable .pf0 0 0, .forceDqWrite .pf0 0 0, .monWtrWrite .pf0 0 0, .refConfigWrite .pf0 0 0 0, .uartPop .pf0 0 0, .uartTxWrite .pf0 0 0,
    .uartEnWrite .pf0 0 0, .steerValWrite .pf0 0 0, .usConfigWrite .pf0 0 0 0, .svcRunWrite .pf0 0 0, .svcHeartbeat .pf0 0 0, .gnssConfigWrite .pf0 0 0 0,
    .gnssPosWrite .pf0 0 0, .ht4Write .pf0 0 0, .synEnable .pf0 0 0, .synDisable .pf0 0 0, .synConfigWrite .pf0 0 0 0, .scaleWrite .pf0 0 0,
    .ssCtlWrite .pf0 0 0 0, .ckoCtlWrite .pf0 0 0, .ckoDivWrite .pf0 0 0, .ckoPhaseWrite .pf0 0 0, .tdcPop .pf0 0 0, .strConfigWrite .pf0 0 0 0,
    .tdcMuxWrite .pf0 0 0 0, .calEntWrite .pf0 0, .evoStop .pf0 0 0 0, .eviCtlWrite .pf0 0 0 false, .portEnable .pf0 0 0, .portDisable .pf0 0 0,
    .portConfigWrite .pf0 0 0 0, .lpiCtlWrite .pf0 0 0, .htxWpWrite .pf0 0 0, .ringConfigWrite .pf0 0 0 0, .ptsPop .pf0 0 0, .ptsDelayWrite .pf0 0 0 0,
    .rspEnWrite .pf0 0, .domCtlWrite .pf0 0 0, .brineEnter .pf0 0, .hashSeedWrite .pf0 0, .fenceWrite .pf0 0 0, .unwrapKey .pf0 0 [],
    .keyNtsCurWrite .pf0 0, .audEnable .pf0 0 false 0, .audDisable .pf0 0 false 0, .audMaskWrite .pf0 0 false 0, .audConfigWrite .pf0 0 false 0 0, .seqEnable .pf0 0 0,
    .seqDisable .pf0 0 0, .seqInstrWrite .pf0 0 0 0, .recCursorWrite .pf0 0, .fltClr .pf0 0 0, .fltClrAll .pf0 0, .fltForceWrite .pf0 0 0,
    .pmcSelWrite .pf0 0 0 0, .pmcFilterWrite .pf0 0 0, .powerCapWrite .pf0 0, .pwrReqWrite .pf0 0 0, .sclkSsWrite .pf0 0, .plkEnable .pf0 0,
    .plkDisable .pf0 0, .openSession .pf0 image, .kick .pf0 0, .softRst .pf0 0 0, .freezeWrite .pf0 0 0, .intStsClear .pf0 0 0,
    .intForce .pf0 0 0, .intEnWrite .pf0 0 0] : List Instr).all wellFormed) = true := by decide +kernel

/-! The states of the tests: what a reset leaves, and that with BOOT_DONE set. -/

/-- After the boot: BOOT_DONE is 1 and every other register is as reset left it. -/
def rd : Dev := ({} : Dev).put Pg.glb GLB.BOOT_STS_BOOT_DONE 1

/-- A state with this device, an empty client store and an empty queue. -/
def st (d : Dev) : State := ⟨d, [], []⟩

/-- `Served`, as a Bool. -/
def srv (d : Dev) (m : Master) (pg off : Nat) : Bool := decide (d.gate m pg off = .served) && !d.locked pg

theorem srv_served (d : Dev) (m : Master) (pg off : Nat) : srv d m pg off = true ↔ Served (st d) m pg off := by
  simp [srv, Served, st]

/-- As `rd`, with this value in KEY_LC_STS, whose life cycle the fuses give. -/
def inLife (lc : Nat) : Dev := { rd with regs := rd.regs ++ [(4096 * Pg.key 0 + 0x1B0, BitVec.ofNat 96 lc)] }

/-- The device with these register fields. -/
def withFlds (d : Dev) (l : List (Nat × Fld × Nat)) : Dev := l.foldl (fun d e => d.put e.1 e.2.1 e.2.2) d

/-- The device that a booted one with these register fields is. -/
def at_ (l : List (Nat × Fld × Nat)) : Dev := withFlds rd l

/-- As `at_` in the life cycle OPERATIONAL, with key slot 0 ACTIVE for the link. -/
def linkKeyed (l : List (Nat × Fld × Nat)) : Dev :=
  withFlds (inLife 2) ((Pg.key 1, KEY1.ATTR0_STATE 0, keyActive) :: (Pg.key 1, KEY1.ATTR0_DEST 0, 0x21) :: (Pg.key 1, KEY1.ATTR0_USAGE 0, 3) :: l)

/-- A booted device with a monitor in this state and of this cause. -/
def mon (k : Fin 19) (state cause : Nat) : Dev := (rd.mput k MON.STS_STATE state).mput k MON.STS_CAUSE cause

/-- The device with these units granted. -/
def powered (d : Dev) (l : List (Nat × Nat)) : Dev := { d with pwr := { d.pwr with units := l.map fun x => ⟨x.1, x.2, 0, 0, some 0, 0⟩ } }


/-! States that meet the hypotheses of the statements: the machine as a whole and its timescales. -/

theorem test_StoreKeepsForm_met : Memory.wf [(0, 1#64)] = true ∧ ∃ t, step ⟨rd, [(0, 1#64)], [.synceGate 0 0]⟩ = .next t := ⟨by decide +kernel, _, rfl⟩

theorem test_MecCountsTicks_met : (st rd).pending = [] ∧ mayReset (.synceGate 0 0) = false ∧ (∃ t, exec (.synceGate 0 0) (st rd) = .next t) ∧
    mayReset .powerOn = true ∧ ∃ t, exec .powerOn (st rd) = .next t :=
  ⟨rfl, rfl, ⟨_, rfl⟩, rfl, ⟨_, rfl⟩⟩

theorem test_OnlyStepsAndSlewsMoveTime_met : mayReset (.synceGate 0 0) = false ∧ movesTime (.synceGate 0 0) = false ∧ (∃ t, exec (.synceGate 0 0) (st rd) = .next t) ∧
    mayReset .powerOn = true ∧ ∃ t, exec .powerOn (st rd) = .next t :=
  ⟨rfl, rfl, ⟨_, rfl⟩, rfl, ⟨_, rfl⟩⟩

/-- A slew with `r` left, of a maximum rate of 50 ns/s. -/
def slewing (r : Int) : Dev := rd.upTs 0 fun e => { e with slewRem := r }

theorem test_IdleTickAdvancesTime_met :
    let adj := clampN 1 1000 ((slewing 0).get (Pg.ts 0) TS.SLEW_MAX_RATE) * 2 ^ 48 / 10 ^ 9
    adj = 14073748 ∧ (slewing 14073748).ts[0].slewRem.natAbs ≤ adj ∧
    (adj < (slewing 14073749).ts[0].slewRem.natAbs ∧ 0 < (slewing 14073749).ts[0].slewRem) ∧
    (adj < (slewing (-14073749)).ts[0].slewRem.natAbs ∧ (slewing (-14073749)).ts[0].slewRem < 0) := by decide +kernel

theorem test_SlewRemovesItsAmount_met :
    0 ≤ ((slewing 5).acc 0 : Int) + (slewing 5).tickAdd 0 ∧ 0 ≤ ((slewing 5).acc 0 : Int) + (slewing 5).ts[0].slewRem ∧ ∃ t, exec (.slewComplete 0) (st (slewing 5)) = .next t :=
  ⟨by decide +kernel, by decide +kernel, _, rfl⟩

theorem test_BoundCodes_met :
    (0 < 137400 * 256 ∧ 7 ≤ 30 ∧ cdiv (137400 * 256) (2 ^ (7 + 8)) ≤ 2047 ∧ ∀ k < 7, 2047 < cdiv (137400 * 256) (2 ^ (k + 8))) ∧
    (cdiv (2047 * 2 ^ 30 * 256) (2 ^ (30 + 8)) ≤ 2047 ∧ ∀ k < 30, 2047 < cdiv (2047 * 2 ^ 30 * 256) (2 ^ (k + 8))) ∧
    encodeBound (some (2047 * 2 ^ 30 * 256 + 1)) = 0xFFFF ∧ decodeBound (encodeBound (some 1)) = some 256 := by decide +kernel

theorem test_TimeFormat_met : let t := 2 ^ 48 * (10 ^ 9 * 2 ^ 16) - 1
    time96 t < 2 ^ 94 ∧ untime96 (time96 t) = t := by decide +kernel

theorem test_StepArming_met :
    let armed := rd.upTs 0 fun e => { e with arm := some (.pf0, 0) }
    let due := rd.upTs 0 fun e => { e with step := some (.rel 1, 0, false) }
    (rd.gate .pf0 (Pg.ts 0) 0x188 = .served ∧ rd.mayStep 0 .pf0 = true ∧ rd.ts[0].step = none ∧ rd.ts[0].arm = none) ∧
    (armed.gate .pf0 (Pg.ts 0) 0x188 = .served ∧ armed.ts[0].arm = some (.pf0, 0) ∧ armed.now ≤ 0 ∧ armed.ts[0].step = none) ∧
    (due.gate .pf0 (Pg.ts 0) 0x188 = .served ∧ due.ts[0].step.isSome = true) := by decide +kernel

/-- Servo core 0 may step: PERMIT, more phase than the threshold, and a reference that another one corroborates. -/
def stepping : Dev :=
  let d := (withFlds rd [(Pg.ts 0, TS.STEP_CTL_PERMIT, 1), (Pg.ts 0, TS.STEP_THR_THR, 1), (Pg.sel, SEL.STS_SEL_K 0, 1)]).puti (Pg.svc 0) SVC.XHAT_X 65537
  (d.mput 2 MON.STS_STATE monQualified).upMon 1 fun e => { e with pass := e.pass.set 2 65535 }

theorem test_StepArming_core :
    stepping.gate (.svc 0) (Pg.ts 0) 0x188 = .served ∧ stepping.mayStep 0 (.svc 0) = true ∧ (stepping.puti (Pg.svc 0) SVC.XHAT_X 65536).mayStep 0 (.svc 0) = false ∧
    stepping.ts[(0 : Ts)].step = none ∧ stepping.ts[(0 : Ts)].arm = none := by decide +kernel

theorem test_StepArming_unarmed : ∀ x, rd.ts[(0 : Ts)].arm = some (.pf0, x) → x < rd.now := nofun

/-- A leap is pending on TSA for the second that stands. -/
def leaping : Dev := (at_ [(Pg.ts 0, TS.LEAP_CTL_PENDING, 1), (Pg.ts 0, TS.UTC_OFFSET_VALID, 1), (Pg.ts 0, TS.UTC_OFFSET_OFFSET, 37)])

theorem test_LeapTakesEffect_met : leaping.leapPending 0 = true ∧ leaping.get (Pg.ts 0) TS.LEAP_AT_SEC ≤ leaping.sec 0 ∧ srv leaping .pf0 (Pg.ts 0) 0x300 = true := by
  decide +kernel

theorem test_leap_counts_offset : (leaping.applyLeap 0).get (Pg.ts 0) TS.UTC_OFFSET_OFFSET = 38 := by decide +kernel

theorem test_ServedWriteIsShown_met :
    ((regAt (Pg.ts 0) 0x188).any fun r => isCommand r 0x5A000001) = true ∧ noReadback (Pg.ts 0) 0x188 = false ∧
    ((regAt (Pg.ts 0) 0x120).any fun r => !isCommand r 5) = true ∧ noReadback Pg.glb 0x70 = true ∧ rd.now < 2 ^ 64 := by decide +kernel

theorem test_DiscardedWriteIsCountedOnly_met :
    let cave := (at_ [(Pg.pwr, PWR.STS_MAIN_STATE, 2)])
    ({} : Dev).gate .pf0 (Pg.ts 0) 0x120 = .preboot ∧ rd.gate .pf0 (Pg.ts 0) 0xFFC = .unimpl ∧ cave.gate .mgmt (Pg.seq 0) 0x100 = .cave ∧
    rd.gate .pf1 (Pg.ts 0) 0x120 = .refused ∧ rd.on Pg.glb HDR.PAGE_CTL_FREEZE = false ∧ rd.on (Pg.ts 0) HDR.PAGE_CTL_FREEZE = false := by decide +kernel

theorem test_BootAndCaveCloseTheFabric_met :
    let cave := (at_ [(Pg.pwr, PWR.STS_MAIN_STATE, 2)])
    (({} : Dev).on Pg.glb GLB.BOOT_STS_BOOT_DONE = false ∧ ({} : Dev).inCave = false ∧ (pageRow (Pg.ts 0)).isSome = true) ∧
    (cave.inCave = true ∧ ((pageRow (Pg.seq 0)).any fun r => !r.cave) = true ∧ cave.on Pg.glb GLB.BOOT_STS_BOOT_DONE = true) ∧
    (rd.inCave = false ∧ regAt (Pg.ts 0) 0xFFC = none) := by decide +kernel

theorem test_ClassesDecideWrites_met :
    rd.on Pg.glb GLB.BOOT_STS_BOOT_DONE = true ∧ rd.inCave = false ∧ (regAt Pg.rec 0x160).isSome = true ∧ (regAt (Pg.key 3) 0x150).isSome = true ∧
    rd.gate .pf2 Pg.rec 0x160 = .served ∧ rd.gate .pf2 Pg.rec 0x100 = .refused ∧ rd.gate .pf1 (Pg.key 3) 0x150 = .served ∧ rd.gate .pf1 (Pg.key 3) 0x108 = .refused ∧
    rd.gate .pf1 (Pg.syn 0) 0x100 = .served := by decide +kernel

/-- A register with bits of each access type, at one bit each: 0 RW, 1 W1C, 2 W1S, 3 RWL. -/
theorem test_LockedFieldsKeep_met :
    ∃ r : RegDesc, bit r.rw 0 = true ∧ bit r.w1c 0 = false ∧ bit r.w1s 0 = false ∧ bit r.w1c 1 = true ∧ bit r.w1s 1 = false ∧ bit r.w1s 2 = true ∧
      bit r.rwl 3 = true ∧ bit r.rw 3 = false ∧ bit r.w1c 3 = false ∧ bit r.w1s 3 = false ∧ bit r.rw 4 = false ∧ bit r.rwl 4 = false ∧ bit r.w1c 4 = false :=
  ⟨⟨0x100, 0, 1, 0, 1, 32, false, .val, 0, 1, 2, 4, 8, 0⟩, by decide⟩

theorem test_LockedFieldsKeep_locked :
    let d := at_ [(Pg.flt, FLT.CTL_LOCK, 1), (Pg.seq 0, SEQ.PERM_CTL_LOCK, 1)]
    d.locked Pg.flt = true ∧ d.locked (Pg.seq 0) = true ∧ d.gate .pf0 (Pg.seq 0) 0x120 = .served ∧ d.gate .pf0 Pg.flt 0x100 = .served ∧
    ((regAt (Pg.seq 0) 0x120).any fun r => r.rwl != 0 && (r.rw ||| r.w1c ||| r.w1s ||| r.wo) == 0) = true ∧
    ((regAt Pg.flt 0x100).any fun r => (r.rw ||| r.w1c ||| r.w1s ||| r.wo) != 0) = true := by decide +kernel

/-! States that meet the hypotheses of the statements about one unit. -/

theorem test_PlainWritesTouchOneRegister_met :
    [(Pg.pmc, 0x110), (Pg.pwr, 0x104), (Pg.clkd, 0x104), (Pg.pts 23, 0x110), (Pg.ts 1, 0x308), (Pg.port 0, 0x1A4)].all
      (fun x => srv rd .pf0 x.1 x.2 && ((regAt x.1 x.2).any fun r => 0x100 ≤ r.start x.2)) = true := by decide +kernel

theorem test_MsixTablesAreSeparate_met : pfOf .pf1 = some 1 ∧ pfOf .mgmt = none ∧ pfOf .pf1 ≠ some 0 ∧ rd.inCave = false := by decide +kernel

/-- Sequencer 0 in RUN at its first word, with 7 in V1 and 2 in V2. -/
def running : Dev := at_ [(Pg.seq 0, SEQ.STS_STATE, seqRun), (Pg.seq 0, SEQ.V_V 1, 7), (Pg.seq 0, SEQ.V_V 2, 2)]

/-- As `running`, with one return address on the stack. -/
def called : Dev := (running.put (Pg.seq 0) SEQ.STS_DEPTH 1).put (Pg.seq 0) SEQ.STACK_RET 9

theorem test_SequencerArithmetic_met : running.seqState 0 = seqRun ∧ running.seq[0].frozen = false ∧ running.seqPc 0 < 510 ∧ running.instrWord 0 511 / 2 ^ 27 ≠ 1 := by
  decide +kernel

theorem test_SequencerStack_met :
    (running.get (Pg.seq 0) SEQ.STS_DEPTH = 0 ∧ running.instrWord 0 511 / 2 ^ 27 ≠ 1) ∧
    (called.seqState 0 = seqRun ∧ called.seq[0].frozen = false ∧ 1 ≤ called.get (Pg.seq 0) SEQ.STS_DEPTH ∧ called.get (Pg.seq 0) SEQ.STACK_RET / 2 ^ (9 * 0) % 512 ≠ 511) ∧
    (let full := running.put (Pg.seq 0) SEQ.STS_DEPTH 4
     full.seqState 0 = seqRun ∧ full.get (Pg.seq 0) SEQ.STS_DEPTH = 4) := by decide +kernel

/-- The value of V1 after the command. -/
def v1 (o : Host.Outcome State Fault Refusal) : Option Nat := match o with
  | .next t => some (t.dev.v 0 1)
  | _ => none

theorem test_seq_alu : v1 (execSeqAdd 0 1 true 0 0xFFFF (st running)) = some 0x10006 ∧ v1 (execSeqSub 0 1 true 0 8 (st running)) = some 0xFFFFFFFF ∧
    v1 (execSeqSub 0 1 false 2 0 (st running)) = some 5 ∧ v1 (execSeqAnd 0 1 false 2 0 (st running)) = some 2 ∧ v1 (execSeqOr 0 1 true 0 8 (st running)) = some 15 := by
  decide +kernel

theorem test_KeyImportIsChecked_met :
    let d := inLife 2
    d.gate .pf0 (Pg.key 0) 0x100 = .served ∧ d.on (Pg.key 0) KEY0.RES_BUSY = false ∧ d.powerFails = false ∧ d.lifeCycle < 3 := by decide +kernel

theorem test_BusyKeyStoreRefuses_met :
    let d := at_ [(Pg.key 0, KEY0.RES_BUSY, 1)]
    d.gate .pf0 (Pg.key 0) 0x100 = .served ∧ d.on (Pg.key 0) KEY0.RES_BUSY = true ∧ Instr.keyAbort .pf0 ∈ [Instr.importKey .pf0 0, .keyAbort .pf0] := by decide +kernel

theorem test_StampQueueOfAChannel_met :
    srv rd .pf0 (Pg.tdc 15) 0x120 = true ∧ srv rd .pf0 (Pg.tdc 0) 0x108 = true ∧ bit 1 0 = true ∧ rd.tdc[0].queue.length < 256 ∧
    256 ≤ (rd.upTdc 0 fun e => { e with queue := List.replicate 256 ⟨0, 0, false, false, false, 0, 0, 0⟩ }).tdc[0].queue.length := by decide +kernel

/-- The recorder holds one record of this type, source and payload. -/
def holding : Dev := { rd with rcd := { buf := [⟨0x12, false, false, 0x10, 0, 0, 0, 0, 5, [1]⟩], track := [(0x12, 0x10, 5)] } }

theorem test_RecorderBuffer_met :
    4096 ≤ (List.replicate 4096 (⟨0x12, false, false, 0x10, 0, 0, 0, 0, 5, [1]⟩ : Record)).length ∧ holding.rcd.buf.length < 4096 ∧ holding.on Pg.rec REC.STS_WT = false ∧
    (holding.rcd.track.find? fun t => t.1 = 0x12 ∧ t.2.1 = 0x10) = some (0x12, 0x10, 5) ∧
    (let d := { holding with rcd := { holding.rcd with buf := [⟨0x12, false, false, 0xFFFF, 0, 0, 0, 0, 5, [1]⟩] } }
     d.behind 0x10 = 1 ∧ holding.behind 0x10 = 0) ∧
    ((holding.rcd.buf.find? fun r => r.seqNo = 5).any fun w => decide (w.payload = [1] ∧ w.rpt < 65535 ∧ cdiv (holding.now - w.mec) (2 ^ 24) ≤ 65535)) = true := by
  decide +kernel

theorem test_FaultClearSparesLive_met :
    let d := at_ [(Pg.glb, HDR.FLT_STS_LAT, 6), (Pg.glb, HDR.FLT_STS_LIVE, 4)]
    (d.justSet (4096 * Pg.glb + HDR.FLT_STS_LAT.off) = 0 ∧ ({ d with hwSet := [(4096 * Pg.glb + HDR.FLT_STS_LAT.off, (0, 2))] }).justSet (4096 * Pg.glb + HDR.FLT_STS_LAT.off) = 2) ∧
    (d.get Pg.glb HDR.FLT_STS_LAT &&& 2 &&& d.get Pg.glb HDR.FLT_STS_LIVE) = 0 ∧ (d.get Pg.glb HDR.FLT_STS_LAT &&& 6 &&& d.get Pg.glb HDR.FLT_STS_LIVE) ≠ 0 ∧
    d.on Pg.flt HDR.PAGE_CTL_FREEZE = false ∧ (d.fltClear .pf0 Pg.glb 6).get Pg.glb HDR.FLT_STS_LAT = 4 ∧
    (d.fltClear .pf0 Pg.glb 6).get Pg.flt FLT.CLR_REFUSED_COUNT = 1 := by decide +kernel

theorem test_CountersRollOver_met :
    let last := at_ [(Pg.glb, HDR.PMC_CNT_COUNT 3, 2 ^ 48 - 1)]
    rd.get Pg.glb (HDR.PMC_CNT_COUNT 3) < 2 ^ 48 - 1 ∧ last.get Pg.glb (HDR.PMC_CNT_COUNT 3) = 2 ^ 48 - 1 ∧
    (srv rd .pf0 Pg.glb 0x30 = true ∧ bit (2 ^ 31 + 2 ^ 29 + 3) 29 = true ∧ bit (2 ^ 31 + 2 ^ 29 + 3) 30 = false ∧ bit (2 ^ 31 + 2 ^ 29 + 3) 31 = true ∧
      (2 ^ 31 + 2 ^ 29 + 3) % 4096 = 3 ∧ rd.domainOn Pg.glb = true) := by decide +kernel

theorem test_StoreWriteTouchesOneWord_met :
    (mayStore .pf2 = false ∧ mayStore .pf0 = true ∧ ({} : Dev).cstOn = false) ∧
    (let w : Words := {}; w.fld (8 / 8) eState ≠ entActive ∧ w.fld 0 eLock = 0) := by decide +kernel

/-- A pair whose link is UP under an ACTIVE link key, and which has accepted a message of MEC 5. -/
def linked : Dev := { linkKeyed [(Pg.plk, PLK.CTL_EN, 1), (Pg.plk, PLK.STS_LINK, linkUp)] with plk := { lastMec := 5 } }

theorem test_ReplaysAreDropped_met : linkHello ≤ linked.link ∧ linked.linkKey.isSome = true ∧ 5 ≤ linked.plk.lastMec ∧ linked.on Pg.plk HDR.PAGE_CTL_FREEZE = false := by decide +kernel

/-! States that meet the hypotheses of the completion statements, a witness for each clause. -/

theorem test_TimescaleCommandsComplete_met :
    ((5 : Int).natAbs ≤ 2 ^ 32 ∧ 2 ^ 32 < (-(2 ^ 32) - 1 : Int).natAbs) ∧
    (leaping.leapPending 0 = true ∧ leaping.get (Pg.ts 0) TS.LEAP_AT_SEC ≤ leaping.sec 0) ∧
    (srv leaping .pf0 (Pg.ts 0) 0x300 = true ∧ (((st leaping).took .pf0 (Pg.ts 0) 0x300 36).storeReg (Pg.ts 0) 0x300 36).get (Pg.ts 0) TS.LEAP_CTL_PENDING = 1 ∧
      (((st rd).took .pf0 (Pg.ts 0) 0x300 36).storeReg (Pg.ts 0) 0x300 36).get (Pg.ts 0) TS.LEAP_CTL_PENDING = 0) ∧
    (srv rd .pf0 (Pg.ts 1) 0x304 = true ∧ rd.leapPending 1 = false ∧ srv rd .pf0 (Pg.ts 1) 0x308 = true) ∧
    (let d := at_ [(Pg.ts 0, TS.STS_MODE, 1)]
     d.gate .pf0 (Pg.ts 0) 0x120 = .served ∧ d.mayIncr 0 .pf0 = true ∧ d.hldBlocks 0 = false ∧ d.gate .pf0 (Pg.ts 0) 0x130 = .served ∧ d.gate .pf0 (Pg.ts 0) 0x140 = .served) ∧
    (let d := slewing (-14073748)
     d.ts[(0 : Ts)].slewRem ≠ 0 ∧ d.ts[(0 : Ts)].slewRem.natAbs ≤ clampN 1 1000 (d.get (Pg.ts 0) TS.SLEW_MAX_RATE) * 2 ^ 48 / second) := by
  decide +kernel

theorem test_StepAndBindingCommandsComplete_met :
    (let d := rd.upTs 0 fun e => { e with arm := some (.pf0, 0) }
     d.gate .pf0 (Pg.ts 0) 0x188 = .served ∧ d.mayStep 0 .pf0 = true ∧ d.ts[(0 : Ts)].step = none ∧ d.ts[(0 : Ts)].arm = some (.pf0, 0) ∧ d.now = 0 ∧ 0x5A % 256 = 0x5A) ∧
    (rd.ts[0].step = none ∧ rd.ts[1].step = none) ∧
    (let d := rd.upTs 0 fun e => { e with cls := rd.classNow 0 + 1, clsBetter := some (rd.classNow 0, -20 * (accSecond : Int)) }
     d.ts[(0 : Ts)].clsBetter = some (rd.classNow 0, -20 * (accSecond : Int)) ∧ d.classNow 0 = rd.classNow 0 ∧ d.classNow 0 ≠ d.ts[(0 : Ts)].cls ∧
     -20 * (accSecond : Int) + d.get (Pg.ts 0) TS.CC_CTL_HOLD * accSecond ≤ d.stepFree 0) ∧
    (srv rd .pf0 (Pg.ts 0) 0x190 && srv rd .pf0 (Pg.ts 0) 0x70 && srv rd .pf0 (Pg.ts 0) (0x440 + 4 * 47) && srv rd .pf0 (Pg.ts 0) 0x408) = true ∧
    (let d := (st rd).took .pf0 (Pg.ts 0) 0x440 1
     let e := (st rd).took .pf0 (Pg.ts 0) 0x440 33
     let st1 := d.get (Pg.ts 1) TS.BOUND_STS_STATE
     1 % 2 ≠ d.get (Pg.ts 0) (TSA.BIND_SEL 0) ∧ (st1 = 0 ∨ st1 = 3) ∧ bit 1 5 = false ∧ 33 % 2 ≠ e.get (Pg.ts 0) (TSA.BIND_SEL 0) ∧ bit 33 5 = true) ∧
    (let d := { rd with corr := rd.corr.set 47 (-3) }
     d.corr[(47 : Fin 48)] ≠ 0 ∧ d.on (Pg.ts 0) (TSA.BIND_HOLD 47) = false ∧ d.corr[(47 : Fin 48)].natAbs ≤ clampN 1 1000 d.ts[0].walkRate * 2 ^ 48 / second) := by
  decide +kernel

theorem test_MonitorCommandsComplete_met :
    (List.finRange 19).all (fun k => srv rd .pf0 (monPg k) (monBase k) && srv rd .pf0 (monPg k) (monBase k + 4) && srv rd .pf0 (monPg k) (monBase k + 0x0C)) = true ∧
    (((st rd).took .pf0 (monPg 3) (monBase 3) (2 ^ 31)).storeReg (monPg 3) (monBase 3) (2 ^ 31)).mstate 3 = monDisabled ∧
    (((st (mon 3 monLost 0)).took .pf0 (monPg 3) (monBase 3) 0).storeReg (monPg 3) (monBase 3) 0).mstate 3 ≠ monDisabled ∧
    (let d := ((st (mon 3 monQualified 0)).took .pf0 (monPg 3) (monBase 3) (2 ^ 31 + 2 ^ 29)).storeReg (monPg 3) (monBase 3) (2 ^ 31 + 2 ^ 29)
     bit (2 ^ 31 + 2 ^ 29) 31 = true ∧ d.mstate 3 = monQualified) ∧
    (let d := ((st (mon 3 monDisqualified 7)).took .pf0 (monPg 3) (monBase 3) (2 ^ 31)).storeReg (monPg 3) (monBase 3) (2 ^ 31)
     bit (2 ^ 31) 31 = true ∧ bit (2 ^ 31) 29 = false ∧ d.mstate 3 = monDisqualified ∧ d.mcause 3 = 7) ∧
    (let a := (st (mon 3 monDisqualified 3)).took .pf0 (monPg 3) (monBase 3 + 0x0C) 1
     let b := (st (mon 3 monDisqualified 2)).took .pf0 (monPg 3) (monBase 3 + 0x0C) 1
     a.mstate 3 = monDisqualified ∧ a.mcause 3 = 3 ∧ b.mstate 3 = monDisqualified ∧ b.mcause 3 = 2) ∧
    (((st (mon 18 monWtr 0)).took .pf0 (monPg 18) (monBase 18 + 4) 60).storeReg (monPg 18) (monBase 18 + 4) 60).mstate 18 = monWtr ∧
    ((3 ≤ (10 : Fin 19).val ∧ (10 : Fin 19).val ≤ 10 ∧ (mon 10 monLost 0).get (monPg 10) REF.IN_CTL_FORMAT = 0) ∧ (mon 10 monLost 0).mstate 10 ≠ monDisabled ∧ (mon 1 monLost 0).mstate 1 ≠ monDisabled) := by
  decide +kernel

theorem test_MonitorCommandsComplete_timers :
    (let d := rd.upMon 3 fun e => { e with pps := true, freq := true, last := some 0, missed := 1 }
     let e := (d.count (monPg 3) (MON.MISS_CNT_COUNT (monBase 3))).upMon 3 fun e => { e with missed := e.missed + 1 }
     d.mon[3].pps = true ∧ d.mon[3].freq = true ∧ d.mon[3].last.isSome = true ∧ 2 ≤ e.mon[3].missed) ∧
    (let d := rd.upMon 3 fun e => { e with pps := true, last := some 0 }
     ((d.count (monPg 3) (MON.MISS_CNT_COUNT (monBase 3))).upMon 3 fun e => { e with missed := e.missed + 1 }).mon[3].missed < 2) ∧
    ((mon 3 monAcquire 0).mstate 3 = monAcquire ∧ (mon 3 monAcquire 0).mon[3].seen = false ∧ ((mon 3 monAcquire 0).upMon 3 fun e => { e with seen := true }).mon[3].seen = true) ∧
    (rd.waiting (.refFreqTimeout 3) = false ∧ rd.mon[3].freq = false ∧ (rd.upMon 3 fun e => { e with freq := true }).waiting (.refFreqTimeout 3) = false) ∧
    (let d := (mon 3 monWtr 0).upMon 3 fun e => { e with freshX := true }
     d.mstate 3 = monWtr ∧ d.returnCheck 3 = some true) ∧
    (let d := ((mon 0 monWtr 0).puti Pg.sel (SEL.XLAST_X 0) (2 ^ 40)).upMon 0 fun e => { e with hasLast := true, freshX := true, gt := some 256 }
     let e := (d.put (Pg.ts 0) TS.BOUND_STS_CODE 1).mput 0 MON.BREF_BREF 1
     e.mstate 0 = monWtr ∧ e.returnCheck 0 = some false) ∧
    (let d := mon 3 monDisqualified 8
     d.mstate 3 = monDisqualified ∧ heldCause (d.mcause 3) = true ∧ d.dqCond 3 (d.mcause 3) = false) ∧
    (mon 3 monLost 0).mstate 3 ≠ monDisabled ∧
    (srv rd .pf0 (monPg 3) 0x200 = true ∧ monLost < (((st (mon 3 monQualified 0)).took .pf0 (monPg 3) 0x200 0).storeReg (monPg 3) 0x200 0).mstate 3 ∧
      (((st (mon 3 monLost 0)).took .pf0 (monPg 3) 0x200 0).storeReg (monPg 3) 0x200 0).mstate 3 ≤ monLost) := by
  decide +kernel

/-- A clamped increment is one above the greatest or below the least (R63). -/
theorem test_IncrementAndModeWritesComplete_met :
    (rd.mayIncr 0 .pf0 = false ∧ rd.gate (.svc 0) (Pg.ts 0) 0x120 = .served ∧ rd.mayIncr 0 (.svc 0) = true ∧ rd.hldBlocks 0 = false) ∧
    (let d := rd.upHld 0 fun e => { e with entryWrite := some 7 }
     d.gate (.svc 0) (Pg.ts 0) 0x120 = .served ∧ d.mayIncr 0 (.svc 0) = true ∧ d.hld[(0 : Ts)].entryWrite = some 7) ∧
    (incrMin - 1 < incrMin ∧ ¬ (incrMin < incrMin ∨ incrMax < incrMin) ∧ ¬ (incrMax < incrMin ∨ incrMax < incrMax) ∧ incrMax < incrMax + 1 ∧ incrMax + 1 < 2 ^ 64) ∧
    rd.gate .pf0 (Pg.ts 0) 0x130 = .served ∧ rd.gate .loader (Pg.ts 0) 0x130 = .served := by decide +kernel

theorem test_SlewCommandsComplete_met :
    (rd.gate (.svc 0) (Pg.ts 0) 0x140 = .served ∧ rd.mayIncr 0 (.svc 0) = true ∧ rd.hldBlocks 0 = false) ∧
    ((sgn 64 (2 ^ 64 - second * 2 ^ 16)).natAbs ≤ second * 2 ^ 16 ∧ second * 2 ^ 16 < (sgn 64 (second * 2 ^ 16 + 1)).natAbs) ∧
    (let d := at_ [(Pg.sel, SEL.STS_STATE 0, selHoldover)]
     d.mayIncr 0 (.svc 0) = true ∧ d.hldBlocks 0 = true) ∧
    (rd.upTs 0 fun e => { e with ending := true, slewRem := -5 }).ts[(0 : Ts)].ending = true ∧ rd.ts[(0 : Ts)].ending = false := by decide +kernel

/-- A booted device whose upstream session 0 runs with this engine. -/
def session (e : UsEng) : Dev := { mon 11 monLost 0 with us := rd.us.set 0 e }

theorem test_SourceInputCommandsComplete_met :
    (let d := at_ [(Pg.atm 0, ATM.UART_CTL_EN, 1), (Pg.atm 0, ATM.TLM_CTL_TMO, 1)]
     d.on (Pg.atm 0) ATM.UART_CTL_EN = true ∧ d.get (Pg.atm 0) ATM.TLM_CTL_TMO ≠ 0 ∧ (d.tlmRestart 0).atm[0].rx.length < 256 ∧
     ((((d.tlmRestart 0).upAtm 0 fun e => { e with rx := e.rx ++ [255] }).uartShow 0).on (Pg.atm 0) ATM.TLM_CTL_MATCH_EN = false ∧
     d.gate .pf0 (Pg.atm 0) 0x22C = .served ∧ d.atm[0].tx = [])) ∧
    (srv rd .pf0 (Pg.atm 1) 0x228 = true ∧ bit 1 0 = true ∧ srv rd .pf0 (Pg.atm 1) 0x220 = true ∧
      (((st rd).took .pf0 (Pg.atm 1) 0x220 (2 ^ 31)).storeReg (Pg.atm 1) 0x220 (2 ^ 31)).get (Pg.atm 1) ATM.UART_CTL_EN ≠ rd.get (Pg.atm 1) ATM.UART_CTL_EN) ∧
    (let d := at_ [(Pg.atm 0, ATM.STEER_CTL_EN, 1), (Pg.ts 0, TS.BOUND_STS_STATE, 1), (Pg.ts 0, TS.BOUND_STS_TRACE, 1)]
     d.gate (.svc 0) (Pg.atm 0) 0x254 = .served ∧ (((st d).took (.svc 0) (Pg.atm 0) 0x254 5).storeReg (Pg.atm 0) 0x254 5).steering 0 = true ∧
     (((st rd).took (.svc 0) (Pg.atm 0) 0x254 5).storeReg (Pg.atm 0) 0x254 5).steering 0 = false) ∧
    (srv rd .pf0 (Pg.us 0) 0x200 = true ∧ (((st (mon 11 monLost 0)).took .pf0 (Pg.us 0) 0x200 0).storeReg (Pg.us 0) 0x200 0).mstate (usK 0) ≠ monDisabled) := by
  decide +kernel

theorem test_SourceInputCommandsComplete_session :
    (let d := session { followed := some 7, two := some (3, 0, 0), sync := some (1, 2), req := some (4, 9), gotSync := true, gotAnn := true, missed := 2 }
     d.usRuns 0 = true ∧ d.us[(0 : Fin 4)].followed = some 7 ∧ d.us[(0 : Fin 4)].two = some (3, 0, 0) ∧ d.us[(0 : Fin 4)].sync = some (1, 2) ∧ d.us[(0 : Fin 4)].req = some (4, 9) ∧
     d.us[(0 : Fin 4)].gotSync = true ∧ d.us[(0 : Fin 4)].gotAnn = true ∧
     3 ≤ ((d.count (Pg.us 0) (MON.MISS_CNT_COUNT 0x100)).upUs 0 fun e => { e with missed := e.missed + 1 }).us[(0 : Fin 4)].missed) ∧
    (let d := (session { followed := some 7 }).put (Pg.us 0) US.TT_ID_CLOCK_ID 7
     d.usRuns 0 = true ∧ d.get (Pg.us 0) US.TT_ID_CLOCK_ID ≠ 0 ∧ d.get (Pg.us 0) US.TT_ID_CLOCK_ID = 7 ∧ d.us[(0 : Fin 4)].followed = some 7) ∧
    (let d := (session { grants := #v[0, 300, 0] }).put (Pg.us 0) US.CFG_MODE 1
     d.usRuns 0 = true ∧ d.get (Pg.us 0) US.CFG_MODE = 1 ∧ d.us[(0 : Fin 4)].grants[(0 : Fin 3)] = 0 ∧ d.us[(0 : Fin 4)].grants[(1 : Fin 3)] ≠ 0) ∧
    rd.waiting (.esmcTimeout 3) = false ∧
    (let d := { mon 0 monLost 0 with gnss := { rd.gnss with meas := some (5, some 256, 3) } }
     d.gnss.meas = some (5, some 256, 3) ∧ d.inCave = false ∧ d.mstate 0 ≠ monDisabled) := by
  decide +kernel

theorem test_SelectionCommandsComplete_met :
    (let d := at_ [(Pg.sel, SEL.STS_STATE 0, selSwitching)]
     let e := { d with sel := d.sel.set 0 { settle := some 3 } }
     d.selState 0 = selSwitching ∧ d.ts[(0 : Ts)].slewRem = 0 ∧ d.sel[(0 : Ts)].settle = none ∧ e.selState 0 = selSwitching ∧ e.ts[(0 : Ts)].slewRem = 0 ∧
       e.sel[(0 : Ts)].settle = some (2 + 1)) ∧
    (let d := { at_ [(Pg.sel, SEL.STS_STATE 0, selAcquire), (Pg.sel, SEL.STS_STATE 1, selRelock), (Pg.sel, SEL.LOCK_TIME 0, 1), (Pg.sel, SEL.LOCK_TIME 1, 1)] with sel := rd.sel.set 0 { lock := 1 } |>.set 1 { lock := 1 } }
     d.selState 0 = selAcquire ∧ max 1 (d.get Pg.sel (SEL.LOCK_TIME 0)) ≤ d.sel[(0 : Ts)].lock ∧
     d.selState 1 = selRelock ∧ d.slewLeft 1 = 0 ∧ max 1 (d.get Pg.sel (SEL.LOCK_TIME 1)) ≤ d.sel[(1 : Ts)].lock) ∧
    ((at_ [(Pg.plk, PLK.FOLLOW_TS, 1)]).servoUpdate 0).get Pg.plk PLK.FOLLOW_TS ≠ 0 ∧ (rd.servoUpdate 1).get Pg.plk PLK.FOLLOW_TS ≠ 1 ∧
    (srv rd .pf0 (Pg.svc 1) 0x100 && srv rd .pf0 (Pg.svc 1) 0x104) = true ∧
    (let d := { at_ [(Pg.svc 0, SVC.CTL_RUN, 1)] with svc := rd.svc.set 0 { begun := true } }
     d.coreRuns 0 = true ∧ (((st d).took .pf0 (Pg.svc 0) 0x104 0).storeReg (Pg.svc 0) 0x104 0).coreRuns 0 = true) := by
  decide +kernel

theorem test_GnssCommandsComplete_met :
    (srv rd .pf0 (Pg.gnss 5) 0x100 && srv rd .pf0 (Pg.gnss 6) 0x108) = true ∧
    (let d := at_ [(Pg.gnss 4, GNSS4.POS_CTL_MODE, 1)]
     d.gate .pf0 (Pg.gnss 4) 0x110 = .served ∧ d.fixedPos = true) ∧
    (let d := at_ [(Pg.gnss 0, GNSS0.CTL_MODE, 1)]
     d.gate .pf0 (Pg.gnss 7) 0x128 = .served ∧ d.ht4Mode = true) ∧
    (let d := powered (at_ [(Pg.gnss 0, GNSS0.CTL_EN, 1)]) [(kindGnss, 0), (kindSearch, 0)]
     let e := { d with gnss := { d.gnss with eng := d.gnss.eng.set 0 (some (⟨0, 3⟩, 2, 0)) } }
     let f := { d with gnss := { d.gnss with eng := d.gnss.eng.set 0 (some (⟨0, 3⟩, 1, 0)) } }
     d.mayStart = true ∧ e.gnss.eng[(0 : Fin 8)] = some (⟨0, 3⟩, 2, 0) ∧ (0 : Int) ≤ e.stepFree 0 ∧ e.granted kindSearch 0 = true ∧ (List.range 96).find? (fun c => e.chan c = chIdle) = some 0 ∧
     f.gnss.eng[(0 : Fin 8)] = some (⟨0, 3⟩, 1, 0)) ∧
    (let d := rd.setChan 95 (chPut GNSS3.CH_STS_TRK_A 1 0)
     d.ht4Mode = false ∧ chF GNSS3.CH_STS_TRK_A (d.chan 95) = 1 ∧ d.chan 95 ≠ chIdle) ∧
    (let d := (rd.put (Pg.gnss 0) GNSS0.ALM_CTL_CLR 1).upGnss fun g => { g with pass := g.pass.set 3 1 }
     max 1 (d.get (Pg.gnss 0) GNSS0.ALM_CTL_CLR) ≤ d.gnss.pass[(3 : Fin 4)]) ∧
    bit ((rd.put (Pg.gnss 5) GNSS5.SPF_CTL_EN 0).get (Pg.gnss 5) GNSS5.SPF_CTL_EN) 0 = false ∧
    ((rd.put (Pg.gnss 0) GNSS0.STS_STATE gnssTiming).gstate = gnssTiming ∧ (rd.put (Pg.gnss 4) GNSS4.POS_CTL_MODE 0).fixedPos = false) ∧
    (let d := (rd.put (Pg.gnss 4) GNSS4.POS_CTL_MODE 0).upGnss fun g => { g with surN := 86400 }
     d.fixedPos = false ∧ clampN 60 86400 (d.get (Pg.gnss 4) GNSS4.POS_CTL_SURVEY) ≤ d.gnss.surN) ∧
    (let d := { rd.put (Pg.gnss 4) GNSS4.POS_CTL_MODE 0 with gnss := { rd.gnss with surAt := -10 * (accSecond : Int) - 1 } }
     d.fixedPos = false ∧ d.gnss.surAt + 10 * (accSecond : Int) < d.stepFree 0) ∧
    (let d := at_ [(Pg.pwr, PWR.STS_MAIN_STATE, 2), (Pg.gnss 6, GNSS6.CAVE_CTL_EN, 1), (Pg.gnss 0, GNSS0.CTL_EN, 1), (Pg.gnss 0, GNSS0.STS_STATE, gnssSleep)]
     d.inCave = true ∧ d.on (Pg.gnss 6) GNSS6.CAVE_CTL_EN = true ∧ d.gstate = gnssSleep ∧ d.on (Pg.gnss 0) GNSS0.CTL_EN = true) := by decide +kernel

/-- A booted device with synthesizer 0 in this state. -/
def syn0 (state : Nat) : Dev := rd.put (Pg.syn 0) SYN.STS_STATE state

theorem test_SynthesisCommandsComplete_met :
    ([(Pg.syn 3, 0x100), (Pg.syn 3, 0x104), (Pg.syn 3, 0x108), (Pg.syn 3, 0x124), (Pg.syn 3, 0x128), (Pg.cko, 0x80 + 0x100 * 15), (Pg.cko, 0x84), (Pg.cko, 0x8C)].all
      fun x => srv rd .pf0 x.1 x.2) = true ∧
    bit 0 31 = false ∧ (rd.put (Pg.syn 0) SYN.SS_CTL_SS_EN 0).on (Pg.syn 0) SYN.SS_CTL_SS_EN = false ∧
    (let d := withFlds (syn0 synStart) [(Pg.syn 0, SYN.REF_CTL_SRC, 1), (Pg.syn 0, SYN.BAND_FMIN 5, 9000), (Pg.syn 0, SYN.BAND_FMAX 5, 10000), (Pg.syn 0, SYN.FREQ_INT_NINT, 96)]
     d.synState 0 = synStart ∧ d.synBand 0 = some 5) ∧
    ((syn0 synStart).synState 0 = synStart ∧ ((syn0 synStart).put (Pg.syn 0) SYN.REF_CTL_SRC 1).synBand 0 = none) ∧
    ((syn0 synLocked).synState 0 ≠ synOff ∧ (syn0 synLocked).synState 0 ≠ synStart ∧ (syn0 synLocked).synState 0 ≠ synTest) ∧
    (let d := (syn0 synLocking).upSyn 0 fun e => { e with tried := 256 }
     d.synState 0 = synLocking ∧ 256 ≤ d.syn[(0 : Fin 4)].tried) ∧
    (rd.put (Pg.syn 0) SYN.REF_CTL_SRC 2).synOsc 0 = false ∧
    (let d := { (syn0 synFreeze).put (Pg.syn 0) SYN.REF_CTL_SRC 1 with clk := { acc := rd.clk.acc.set 0 (100 * milli * 2 ^ 48) } }
     d.synState 0 = synFreeze ∧ d.synPresent 0 = true ∧ d.syn[(0 : Fin 4)].frozeAt + 100 * milli ≤ d.freeNs) ∧
    ((syn0 synOff).synState 0 = synOff ∧ (syn0 synTest).synState 0 = synTest) ∧
    (let d := (syn0 synLocked).put (Pg.syn 0) SYN.CTL_MODE 0
     d.syn[(0 : Fin 4)].alignAt = none ∧ d.synState 0 = synLocked ∧ d.get (Pg.syn 0) SYN.CTL_MODE ≠ 1) ∧
    (let d := ((st rd).took .pf0 Pg.cko 0x80 0).storeReg Pg.cko 0x80 0
     d.get Pg.cko (CKO.CTL_SRC 0) = rd.get Pg.cko (CKO.CTL_SRC 0)) ∧
    (let d := ((st rd).took .pf0 Pg.cko 0x80 (2 ^ 32 - 1)).storeReg Pg.cko 0x80 (2 ^ 32 - 1)
     d.get Pg.cko (CKO.CTL_SRC 0) ≠ rd.get Pg.cko (CKO.CTL_SRC 0)) ∧
    (let s := st (rd.put Pg.cko (CKO.STS_RUNNING 0) 1)
     ((s.took .pf0 Pg.cko 0x8C 5).storeReg Pg.cko 0x8C 5).on Pg.cko (CKO.STS_RUNNING 0) = true) := by decide +kernel

/-- A booted device in Cave. -/
def cave : Dev := at_ [(Pg.pwr, PWR.STS_MAIN_STATE, 2)]

/-- A booted device whose power fails. -/
def failing : Dev := { rd with pwr := { rd.pwr with pfw := true } }

theorem test_ResetAndBootCommandsComplete_met :
    (rd.pwr.rst = false ∧ rd.powerFails = false) ∧
    (let d := { failing with rcd := { failing.rcd with flushing := some 0 } }
     d.pwr.rst = false ∧ d.powerFails = true ∧ d.rcd.flushing.isSome = true) ∧
    cave.inCave = true ∧
    (rd.gate .pf0 Pg.glb 0x108 = .served ∧ 0xC3 % 256 = 0xC3 ∧ regionOf (10 % 16) = some .host ∧ regionOf 0 = some .time ∧ 1 % 16 = (1 : Fin 2).val) ∧
    (let d := { cave with flt := { cave.flt with c4Wait := [.store, .time] } }
     Region.store ∈ d.flt.c4Wait ∧ Region.time ∈ d.flt.c4Wait ∧ ¬ ((d.cancel (.c4RegionReset .time)).inCave = true ∧ darkInCave .time = true) ∧
     (d.cancel (.c4RegionReset .store)).inCave = true ∧ darkInCave .store = true ∧ Region.store ∉ d.pwr.held) ∧
    (({} : Dev).on Pg.glb GLB.BOOT_STS_BOOT_DONE = false ∧ ({} : Dev).ldr.boot = none) := by decide +kernel

/-- A boot that stands at this stage, due now. -/
def booting (stage : Nat) : Dev := { ({} : Dev) with ldr := { boot := some ⟨⟨none, [], [], true, (true, true)⟩, stage, 0⟩ } }

theorem test_ResetAndBootCommandsComplete_boot :
    ((booting 10).on Pg.glb GLB.BOOT_STS_BOOT_DONE = false ∧ (booting 10).ldr.boot = some ⟨⟨none, [], [], true, (true, true)⟩, 10, 0⟩ ∧ 10 < bootPlan.length ∧
      0 ≤ (booting 10).freeNs) ∧
    (booting bootPlan.length).bootThrough = true ∧ 10 ≠ bootHeld ∧
    (let d := { rd.put Pg.glb GLB.LINK_STS_UNCAL 16 with links := rd.links.set 4 { rd.links[4] with tried := -10 * (accSecond : Int) } }
     d.on Pg.glb GLB.BOOT_STS_BOOT_DONE = true ∧ d.uncal (4 : Fin 5).val = true ∧ d.rotPhase = 0 ∧ d.links[(4 : Fin 5)].tried + 10 * (accSecond : Int) ≤ d.stepFree 0) ∧
    linkBest [(7, 6), (8, 5)] = some 8 ∧ linkBest [(7, 6), (7, 6), (7, 6), (8, 5)] = none := by decide +kernel

theorem test_HostCommandsComplete_met :
    (rd.gate .pf0 (Pg.ts 0) 0x08 = .served ∧ bit 0x10 0 = false ∧ rd.within (Pg.ts 0) = none ∧
      { rd with flt := { resetting := [.time] } }.within (Pg.ts 0) = some .time) ∧ (srv rd .pf0 (Pg.ts 0) 0x10 && srv rd .pf0 (Pg.ts 0) 0x14 && srv rd .pf0 (Pg.ts 0) 0x18) = true ∧
    (pfOf .pf2 = some 2 ∧ rd.inCave = false) ∧ (rd.caveState ≠ caveExiting ∧ (rd.pcieUp 8 4).caveState = rd.caveState) ∧ rd.gate .pf0 Pg.glb 0x124 = .served := by
  decide +kernel

theorem test_FaultCommandsComplete_met :
    (rd.gate .pf1 (Pg.ts 0) 0x24 = .served ∧ mayClear .pf1 = true ∧ srv rd .pf0 Pg.flt 0x104 = true) ∧
    (rd.gate .pf0 (Pg.ts 0) 0x20 = .served ∧ mayForce .pf0 = true ∧ bit 15 4 = false ∧ ((st rd).took .pf0 (Pg.ts 0) 0x20 15).on Pg.flt FLT.CTL_C4_FORCE = rd.on Pg.flt FLT.CTL_C4_FORCE) ∧
    (let d := rd.put Pg.flt FLT.CTL_C4_FORCE 1
     d.on Pg.flt FLT.CTL_C4_FORCE = true ∧ ((st d).took .pf0 (Pg.ts 0) 0x20 31).on Pg.flt FLT.CTL_C4_FORCE = d.on Pg.flt FLT.CTL_C4_FORCE) ∧
    ((rd.cycleSync (Pg.ts 0) 3).gate .pf0 (Pg.ts 0) (0x30 + 4 * 3) = .served ∧ (rd.cycleSync (Pg.ts 0) 3).locked (Pg.ts 0) = false) ∧
    srv rd .pf0 Pg.pmc 0x104 = true ∧ (rd.put Pg.pmc PMC.CTL_AUTO 1).on Pg.pmc PMC.CTL_AUTO = true ∧ srv rd .pf0 Pg.pmc 0x108 = true := by decide +kernel

theorem test_RegisterWritesComplete_met :
    (srv rd .pf0 Pg.sel 0x100 && srv rd .pf0 Pg.hld 0x100) = true ∧ rd.inCave = false ∧
    ((regAt Pg.sel 0x100).all fun r => r.width ≤ 32) = true ∧ ((regAt Pg.hld 0x100).all fun r => r.width ≤ 32) = true ∧
    mgmtOperands (oct 4 (4096 * Pg.pts 23 + 0x110) ++ oct 4 77) = some (4096 * Pg.pts 23 + 0x110, 77) ∧
    (let d := (rd.put Pg.hif HIF.MGMT_CTL_EN 1).put Pg.hif HIF.MGMT_CTL_CLASS 1
     d.on Pg.hif HIF.MGMT_CTL_EN = true ∧ srv d .mgmt (Pg.pts 23) 0x110 = true) := by decide +kernel

theorem test_mgmt_write_reaches_port :
    let d := (rd.put Pg.hif HIF.MGMT_CTL_EN 1).put Pg.hif HIF.MGMT_CTL_CLASS 1
    (match execMgmtWriteTransfer (oct 4 (4096 * Pg.pts 23 + 0x110) ++ oct 4 77) (st d) with
      | .next t => decide (t = (st d).withDev (((st d).took .mgmt (Pg.pts 23) 0x110 77).storeReg (Pg.pts 23) 0x110 77)) && decide (t.dev.get (Pg.pts 23) PTS.ASYM_ASYM = 77)
      | _ => false) = true := by decide +kernel

/-- Rotation stands in this phase at this unit. -/
def rotAt (phase cur : Nat) : Dev := at_ [(Pg.tdcCal, TDCCAL.ROT_STS_PHASE, phase), (Pg.tdcCal, TDCCAL.ROT_STS_CUR, cur)]

theorem test_MeasurementCommandsComplete_met :
    (let d := powered (at_ [(Pg.tdc 15, TDC.CTL_EN, 1), (Pg.tdc 15, TDC.MUX_SRC, 1), (Pg.tdc 15, TDC.CTL_EDGE, 2)]) [(kindTdc, 3)]
     d.tdcTakes 15 false = true ∧ d.tdcTakes 15 true = true) ∧
    (srv rd .pf0 (Pg.tdc 15) 0x108 && srv rd .pf0 (Pg.tdc 15) 0x120 && srv rd .pf0 Pg.tdcCal 0x108 && srv rd .pf0 Pg.tdcCal 0x114) = true ∧ bit 1 0 = true ∧
    (let w : Stamp := ⟨0, 0, false, false, false, 0, 0, 0⟩
     let d := (rd.put Pg.hif HIF.STS_LINK_UP 1).upTdc 3 fun e => { e with fifo := [w, w] }
     d.on Pg.hif HIF.STS_LINK_UP = true ∧ d.streamTurn = some 3 ∧ d.tdc[(3 : Fin 16)].fifo = w :: [w]) ∧
    (rd.gate .pf0 (Pg.tdc 0) 0x180 = .served ∧ (rd.put (Pg.tdc 0) TDC.CTL_DEST 0).get (Pg.tdc 0) TDC.CTL_DEST ≠ 1 ∧ (rd.put (Pg.tdc 0) TDC.CTL_DEST 0).get (Pg.tdc 0) TDC.CTL_DEST ≠ 2) ∧
    (rd.gate .pf0 (Pg.tdc 0) 0x100 = .served ∧ (0x100 ≠ 0x104) ∧ rd.gate .pf0 (Pg.tdc 5) 0x104 = .served ∧ 1 % 128 ≠ 0x7F ∧ rd.get Pg.tdcCal TDCCAL.PROBE_CTL_CH ≠ 5) ∧
    (let d := powered (withFlds (rotAt rotIdle 0) [(Pg.tdcCal, TDCCAL.ROT_CTL_EN, 1), (Pg.tdcCal, TDCCAL.ROT_STS_PERM, 0x1F)]) [(kindTdcs, 0)]
     (d.timer d.rotPeriod .rotationStart).rotMay = true) ∧
    ((rotAt rotIn 5).rotPhase = rotIn ∧ (rotAt rotIn 5).rotCur = (5 : Fin 17) ∧ (rotAt rotCal 5).rotPhase = rotCal ∧ (rotAt rotOut 5).rotPhase = rotOut) ∧
    (let d := (st ((rotAt rotIdle 0).put Pg.tdcCal TDCCAL.ROT_STS_PERM 15)).took .pf0 Pg.tdcCal 0x108 (calWord 15 2)
     (15 : Fin 32).val < 16 ∧ d.rotPerm = (15 : Fin 32).val ∧ d.rotPhase = rotIdle) ∧
    (let d := ((st rd).took .pf0 Pg.tdcCal 0x114 5).storeReg Pg.tdcCal 0x114 5
     (0 : Fin 17).val = min 16 (d.get Pg.tdcCal TDCCAL.CAL_IDX_UNIT)) ∧
    ((rd.put Pg.tdcCal TDCCAL.MCLK_STS_LOCK 1).on Pg.tdcCal TDCCAL.MCLK_STS_LOCK = true ∧ (rd.put Pg.tdcCal TDCCAL.MCLK_STS_LOCK 0).on Pg.tdcCal TDCCAL.MCLK_STS_LOCK = false) := by
  decide +kernel

theorem test_PulseAndCaptureCommandsComplete_met :
    (let d := at_ [(Pg.evo, EVO.CTL_EN 15, 1), (Pg.evo, EVO.WIDTH_WIDTH 15, 10 * 65536), (Pg.ts 0, TS.BOUND_STS_STATE, 1)]
     let e := (st d).took .pf0 Pg.evo (0x104 + 0x40 * 15) 1
     srv d .pf0 Pg.evo (0x104 + 0x40 * 15) = true ∧ e.on Pg.evo (EVO.CTL_EN 15) = true ∧ e.evoRefuses 15 = false) ∧
    (srv rd .pf0 Pg.evo (0x100 + 0x40 * 15) = true ∧ bit 0 31 = false ∧ bit (2 ^ 31) 31 = true) ∧
    (let d := { rd with evo := rd.evo.set 3 { pulse := some 0 } }
     d.evoDue 3 = true) ∧
    (let d := rd.put Pg.evo (EVO.CTL_EN 3) 1
     d.evoMay 3 = true ∧ d.evo[(3 : Fin 16)].pulse = none) ∧
    ((rd.put Pg.evi (EVI.CTL_EN 15) 1).on Pg.evi (EVI.CTL_EN 15) = true ∧ (rd.put Pg.evi (EVI.CTL_EN 15) 1).domainOn Pg.evi = true ∧ srv rd .pf0 Pg.evi (0x100 + 0x10 * 15) = true) := by
  decide +kernel

theorem test_MeasurementCommandsComplete_times :
    ((at_ [(Pg.tdc 15, TDC.MUX_SRC, 1)]).muxEdge 15 0 false 1000000).1 = some false ∧ (rd.muxEdge 15 0 false 0).1 = none ∧ rd.tdcs.linkUntil ≤ rd.now ∧
    (let d := { rotAt rotIn 5 with clk := { acc := rd.clk.acc.set 0 (2100 * milli * 2 ^ 48) } }
     d.rotPhase = rotIn ∧ d.rotCur = (5 : Fin 17) ∧ d.overlapOver 5 (2100 * milli) = true) ∧
    (let d := { rotAt rotCal 5 with clk := { acc := rd.clk.acc.set 0 (135220000 * 2 ^ 48) } }
     let e := { rotAt rotSelf 16 with clk := { acc := rd.clk.acc.set 0 (139320000 * 2 ^ 48) }, tdcs := { checked := true } }
     d.rotPhase = rotCal ∧ d.tdcs.checked = false ∧ d.calPast 135220000 = true ∧ e.rotPhase = rotSelf ∧ e.tdcs.checked = true ∧ e.tdcs.passed = false ∧
     ([] : List (Fin 1024)).length = 0 ∧ e.calPast 139320000 = true) ∧
    (let d := { rotAt rotOut 5 with clk := { acc := rd.clk.acc.set 0 (2099980000 * 2 ^ 48) } }
     d.rotPhase = rotOut ∧ d.rotCur = (5 : Fin 17) ∧ d.overlapOver 5 2099980000 = true) := by decide +kernel

/-- Port 0 in this state. -/
def port0 (state : Nat) : Dev := at_ [(ppg 0, PORT.STS_STATE, state)]

theorem test_PortLinkCommandsComplete_met :
    ([(ppg 23, 0x100), (ppg 23, 0x104), (ppg 23, 0x10C), (ppg 23, 0x120), (Pg.pc 5, 0x100)].all fun x => srv rd .pf0 x.1 x.2) = true ∧
    (((st rd).took .pf0 (ppg 23) 0x100 0).storeReg (ppg 23) 0x100 0).on (ppg 23) PORT.CTL_EN = false ∧
    ((port0 portWait).portState 0 = portWait ∧ (port0 portAn).portState 0 = portAn ∧ (port0 portTrain).portState 0 = portTrain ∧ (port0 portRfault).portState 0 = portRfault) ∧
    (let d := port0 portAlign
     d.portState 0 = portAlign ∧ d.pts[(0 : Fin 24)].slot = none ∧ d.pts[(0 : Fin 24)].due = false) ∧
    ((port0 portUp).portState 0 = portUp ∧ (port0 portUp).portUpQ 0 = true ∧ (port0 portUp).pts[(0 : Fin 24)].slot = none) ∧
    (let d := (port0 portUp).put (ppg 0) PORT.CTL_AN_EN 1
     ((st d).took .pf0 (ppg 0) 0x10C 1).portRuns 0 = true ∧ ((st d).took .pf0 (ppg 0) 0x10C 1).on (ppg 0) PORT.CTL_AN_EN = true ∧
     ((st d).took .pf0 (ppg 0) 0x10C 2).portRuns 0 = true ∧ ((st d).took .pf0 (ppg 0) 0x10C 4).portUpQ 0 = true) ∧
    (let d := withFlds (port0 portUp) [(ppg 0, PORT.PRE_CTL_EN, 1), (ppg 0, PORT.PRE_STS_VERIFY, 2)]
     d.verifying 0 = true ∧ d.port[(0 : Fin 24)].tries < 3 ∧ (d.upPort 0 fun e => { e with tries := 3 }).verifying 0 = true ∧
       3 ≤ (d.upPort 0 fun e => { e with tries := 3 }).port[(0 : Fin 24)].tries) ∧
    (let d := (port0 portUp).upPort 0 fun e => { e with lpiEn := true }
     d.lpiMay 0 = true) ∧
    (let d := (port0 portUp).put (ppg 0) PORT.LPI_STS_TX_LPI 1
     let e := ((st d).took .pf0 (ppg 0) 0x120 0).storeReg (ppg 0) 0x120 0
     d.on (ppg 0) PORT.LPI_STS_TX_LPI = true ∧ e.on (ppg 0) PORT.LPI_STS_TX_LPI = true ∧ e.on (ppg 0) PORT.LPI_CTL_EN = d.on (ppg 0) PORT.LPI_CTL_EN) ∧
    (let d := (port0 portUp).put (ppg 0) PORT.LPI_CTL_EN 1
     d.portUpQ 0 = true ∧ d.on (ppg 0) PORT.LPI_CTL_EN = true ∧ d.portRate 0 < 3 ∧ d.on (ppg 0) PORT.LPI_STS_RX_LPI = false) := by decide +kernel

theorem test_PortTrafficCommandsComplete_met :
    ((port0 portUp).portUpQ 0 = true ∧ ((port0 portUp).launched 0).portUpQ 0 = true ∧ (rd.launched 0).portUpQ 0 = false) ∧
    (let d := rd.upPort 0 fun e => { e with paused := some 0 }
     d.port[(0 : Fin 24)].paused = some 0 ∧ 0 ≤ d.now) ∧
    (rd.put Pg.hif HIF.STS_LINK_UP 1).on Pg.hif HIF.STS_LINK_UP = true ∧
    (srv rd .pf0 (ppg 0) 0x1A4 && srv rd .pf0 (tpg 0) 0x108 && srv rd .pf0 (tpg 0) 0x324 && srv rd .pf0 (tpg 0) 0x110) = true ∧
    (let d := (port0 portUp).put (ppg 0) PORT.HTX_WP_WP 1
     d.htxEmpty 0 = false ∧ d.get (ppg 0) PORT.HOST_RATE_RATE ≠ 0 ∧ (List.replicate 13 0).length < 14 ∧ 14 ≤ (List.replicate 14 0).length ∧ d.portUpQ 0 = true) ∧
    (rd.gate .pf0 (ppg 0) 0x180 = .served ∧ (rd.put (ppg 0) PORT.HOST_RATE_RATE 0).get (ppg 0) PORT.HOST_RATE_RATE = 0) ∧
    (let d := (port0 portUp).put (tpg 0) PTS.CTL_PROBE_EN 1
     let e := { (d.put (Pg.tdc 0) TDC.MUX_SRC (tapCode 0)) with tdcs := { d.tdcs with probeFrom := -(milli * 2 ^ 48 : Int) } }
     d.dwelt 0 = false ∧ e.dwelt 0 = true) ∧
    (let d := { rd with pts := rd.pts.set 0 { probeAt := some (-(10001 * milli * 2 ^ 48 : Int)) } }
     d.probeOld 0 = true ∧ d.pts[(0 : Fin 24)].probeAt.isSome = true) ∧
    (let d := { rd with pts := rd.pts.set 0 { due := true } }
     let u := (port0 portUp).upPts 0 fun e => { e with called := true }
     let b := { d with pts := d.pts.set 1 { slot := some (false, 0, 5) } }
     d.pts[(0 : Fin 24)].slot = none ∧ d.pts[(0 : Fin 24)].due = true ∧ d.slotRuns = false ∧ d.tdcs.slotFree ≤ d.stepFree 0 ∧
     u.pts[(0 : Fin 24)].slot = none ∧ u.portUpQ 0 = true ∧ u.slotDue 0 = true ∧ u.slotRuns = false ∧
     b.pts[(0 : Fin 24)].slot = none ∧ b.pts[(0 : Fin 24)].due = true ∧ b.slotRuns = true) ∧
    (let d := { rd with pts := rd.pts.set 0 { slot := some (true, 0, slotTail (rd.portRate 0)) } }
     let e := { rd with pts := rd.pts.set 0 { slot := some (true, 0, 0) } }
     d.pts[(0 : Fin 24)].slot = some (true, 0, slotTail (d.portRate 0)) ∧ slotTail (d.portRate 0) ≤ d.now + slotTail (d.portRate 0) ∧
     e.pts[(0 : Fin 24)].slot = some (true, 0, 0) ∧ 0 ≤ e.now) ∧
    (let d := { rd with plk := { due := true } }
     let e := { rd with plk := { slot := some (0, 0) } }
     d.plk.slot = none ∧ d.plk.due = true ∧ d.slotRuns = false ∧ d.tdcs.slotFree ≤ d.stepFree 0 ∧ e.plk.slot = some (0, 0) ∧ 0 ≤ e.now) ∧
    (let d := (st rd).took .pf0 (tpg 0) 0x108 1
     d.pts[(0 : Fin 24)].slot = none ∧ d.pts[(0 : Fin 24)].due = false) := by decide +kernel

theorem test_ResponderCommandsComplete_met :
    ((powered rd [(kindSignal, 0)]).granted kindSignal 0 = true ∧ (powered rd [(kindSignal, 0)]).nextSlot ≤ (powered rd [(kindSignal, 0)]).wheelNow) ∧
    (let d := withFlds (port0 portUp) [(Pg.rsp 5, RSP5.PORT_CTL_ESMC_EN 0, 1), (Pg.rsp 0, RSP0.CTL_EN, 1)]
     d.esmcOn 0 = true) ∧
    (let d := { powered rd [(kindPipe, 1)] with clk := { acc := rd.clk.acc.set 0 accSecond } }
     d.heldLong kindPipe 1 = true ∧ d.unitCounted kindPipe 1 = false) ∧
    (srv rd .pf0 (Pg.rsp 0) 0x100 && srv rd .pf0 (Pg.rsp 0) 0x114 && srv rd .pf0 (Pg.rsp 2) (0x100 + 0x40 * 7)) = true ∧
    (bit (2 ^ 31) 31 = true ∧ ((st rd).took .pf0 (Pg.rsp 0) 0x100 (2 ^ 31)).get (Pg.rsp 0) RSP0.CLOCK_ID_ID = 0 ∧
      ((st (rd.put (Pg.rsp 0) RSP0.CLOCK_ID_ID 5)).took .pf0 (Pg.rsp 0) 0x100 (2 ^ 31)).get (Pg.rsp 0) RSP0.CLOCK_ID_ID ≠ 0) ∧
    ((((st rd).took .pf0 (Pg.rsp 2) 0x100 0x700).storeReg (Pg.rsp 2) 0x100 0x700).domCheck.domFields 0 = rd.domFields 0 ∧
      (((st rd).took .pf0 (Pg.rsp 2) 0x100 (2 ^ 31)).storeReg (Pg.rsp 2) 0x100 (2 ^ 31)).domCheck.domFields 0 ≠ rd.domFields 0) := by decide +kernel

theorem test_ClientStoreCommandsComplete_met :
    (let d := at_ [(Pg.cst, CST.STS_PWR, 2)]
     mayStore .pf1 = true ∧ mayStore (.seq 0) = true ∧ d.cstOn = true ∧ ((st d).took .pf0 Pg.cst 0x108 2).cstOn = true) ∧
    (srv rd .pf0 Pg.cst 0x108 && srv rd .pf0 Pg.cst 0x100) = true ∧
    (let d := ((st (at_ [(Pg.cst, CST.STS_PWR, 2)])).took .pf0 Pg.cst 0x100 (2 ^ 31)).storeReg Pg.cst 0x100 (2 ^ 31)
     d.on Pg.cst CST.CTL_BRINE = true ∧ d.cstOn = true ∧ d.brineRefused = false) ∧
    (let d := ((st (powered (at_ [(Pg.cst, CST.STS_PWR, 3)]) [(kindStore, 0)])).took .pf0 Pg.cst 0x100 0).storeReg Pg.cst 0x100 0
     Master.pf0 ≠ .collector ∧ d.on Pg.cst CST.CTL_BRINE = false ∧ d.get Pg.cst CST.STS_PWR = 3 ∧ d.granted kindStore 0 = true) ∧
    (rd.inCave = false ∧ rd.on Pg.cst CST.CTL_BRINE = false) ∧ (rd.gate .pf0 Pg.cst 0x140 = .served ∧ rd.get Pg.cst CST.STS_USED = 0) := by decide +kernel

/-- Lane 3 in this state with this FENCE. -/
def lane3 (state fence : Nat) : Dev := at_ [(Pg.cl 3, CL.STS_STATE, state), (Pg.cl 3, CL.CTL_FENCE, fence)]

theorem test_LaneAndKeyCommandsComplete_lane :
    (let d := (lane3 laneLoad 0).cancel (.katDone 3 true)
     (lane3 laneLoad 0).laneState 3 = laneLoad ∧ (lane3 laneLoad 0).lane[(3 : Fin 16)].draining = false ∧ (lane3 laneLoad 0).on (Pg.cl 3) CL.CTL_FENCE = false ∧
     (lane3 laneLoad 1).on (Pg.cl 3) CL.CTL_FENCE = true ∧ d.laneState 3 = laneLoad) ∧
    (srv rd .pf0 (Pg.cl 3) 0x100 && srv rd .pf0 (Pg.cl 3) 0x104) = true ∧
    (let d := ((st (lane3 laneRun 0)).took .pf0 (Pg.cl 3) 0x100 (2 ^ 31)).storeReg (Pg.cl 3) 0x100 (2 ^ 31)
     d.on (Pg.cl 3) CL.CTL_FENCE = true ∧ d.laneState 3 = laneRun) ∧
    (let d := ((st ((lane3 laneLoad 1).upLane 3 fun e => { e with passed := true })).took .pf0 (Pg.cl 3) 0x100 0).storeReg (Pg.cl 3) 0x100 0
     d.on (Pg.cl 3) CL.CTL_FENCE = false ∧ d.laneState 3 = laneLoad ∧ d.lane[(3 : Fin 16)].passed = true) ∧
    ((st (lane3 laneRun 0)).took .pf0 (Pg.cl 3) 0x104 1).laneState 3 = laneRun ∧
    (let d := (st (lane3 laneFault 0)).took .pf0 (Pg.cl 3) 0x104 2
     d.on (Pg.cl 3) CL.CTL_FENCE = false ∧ d.laneState 3 = laneFault) ∧
    (let o : LaneOp := ⟨0, 0, 0, [], 0, .sig ⟨msg, [], 0, none, none⟩⟩
     (rd.upLane 3 fun e => { e with queue := [o] }).lane[(3 : Fin 16)].queue = o :: []) := by decide +kernel

/-- In OPERATIONAL, with a USAGE, a DEST and an epoch for a new key, and every word of it staged. -/
def staged : Dev := { withFlds (inLife 2) [(Pg.key 0, KEY0.NEW_ATTR, 2 ^ 26 + 0x21), (Pg.key 0, KEY0.NEW_EPOCH_EPOCH, 1)] with
  key := { staged := (List.range 8).map fun k => (k, k) } }

theorem test_LaneAndKeyCommandsComplete_key :
    (let d := (st staged).took .pf0 (Pg.key 0) 0x100 (7 * 65536 + 1)
     staged.gate .pf0 (Pg.key 0) 0x100 = .served ∧ d.keyRefusal (d.importOf 7).1 = 0) ∧
    (let s := linkKeyed [(Pg.key 1, KEY1.ATTR0_USAGE 0, 8), (Pg.key 0, KEY0.NEW_ATTR, 2 ^ 26 + 0x21), (Pg.key 0, KEY0.NEW_EPOCH_EPOCH, 1), (Pg.key 0, KEY0.NEW_ATTR_PARENT, 0)]
     let d := (st s).took .pf0 (Pg.key 0) 0x100 (7 * 65536 + 2)
     d.keyRefusal (d.deriveOf 7).1 = 0) ∧
    (let d := (st staged).took .pf0 (Pg.key 0) 0x100 6
     d.keyRefusal 0 = 0) ∧
    (let s := linkKeyed []
     let d := (st s).took .pf0 (Pg.key 0) 0x100 3
     mayInvalidate .pf0 = true ∧ mayInvalidate .kwager = true ∧ s.gate .kwager (Pg.key 0) 0x100 = .served ∧ d.keyRefusal 0 = 0 ∧ d.keyState 0 = keyActive) ∧
    (let s := { rd with key := { run := some ⟨1, 0, 0, {}⟩ } }
     s.key.run = some ⟨1, 0, 0, {}⟩) ∧
    (rd.gate .pf0 (Pg.key 3) 0x108 = .served ∧ rd.gate .pf1 (Pg.key 3) 0x150 = .served ∧ rd.gate .pf0 (Pg.key 0) 0x340 = .served) := by decide +kernel

/-- Direction rx of audio port 2 in this state. -/
def aud2 (rx : Bool) (state : Nat) : Dev := rd.aput 2 rx AUD.STS_STATE state

theorem test_AudioCommandsComplete_met :
    ([0x100, 0x200].all fun b => [0, 4, 8, 0xC, 0x20].all fun o => srv rd .pf0 (Pg.aud 2) (b + o)) = true ∧ audCtlOff false = 0x100 ∧ audCtlOff true = 0x200 ∧ dirOf true = 1 ∧
    (let d := powered (aud2 false audWait) [(kindAudio, 0)]
     d.audState 2 false = audWait ∧ d.audSlave 2 false = false ∧ d.granted kindAudio 0 = true ∧ (d.upAud 2 false fun e => { e with osc := true }).audQual 2 = false ∧
     ((d.put (Pg.ts 0) TS.BOUND_STS_STATE 1).upAud 2 false fun e => { e with osc := true }).audQual 2 = true) ∧
    (let d := (aud2 true audWait).upAud 2 true fun e => { e with startAt := some 0 }
     (d.audEng 2 true).startAt = some 0 ∧ d.audState 2 true = audWait ∧ 0 ≤ d.audView 2 ∧ d.audQual 2 = false ∧ (d.put (Pg.ts 0) TS.BOUND_STS_STATE 1).audQual 2 = true) ∧
    ((aud2 false audFree).audState 2 false = audFree ∧ (aud2 true audRun).audState 2 true = audRun) ∧
    (let d := (aud2 true audRun).aput 2 true AUD.CTL_CLK 1
     d.audSlave 2 true = true ∧ d.audState 2 true ≠ audOff) ∧
    (let d := (st (aud2 false audRun)).took .pf0 (Pg.aud 2) (0x10C + 0x100 * dirOf false) 1
     d.audSlave 2 false = false ∧ d.audState 2 false = audRun) := by decide +kernel

theorem test_SequencerControlCompletes_met :
    (srv rd .pf0 (Pg.seq 7) 0x100 && srv rd .pf0 (Pg.seq 7) 0x104) = true ∧
    (let d := fun (x : Nat) (v : Nat) => (st (at_ [(Pg.seq 7, SEQ.STS_STATE, x)])).took .pf0 (Pg.seq 7) 0x104 v
     (d seqIdle 1).seqState 7 = seqIdle ∧ (d seqRun 2).seqState 7 = seqRun ∧ (d seqWaiting 2).seqState 7 = seqWaiting ∧ (d seqFaulted 3).seqState 7 = seqFaulted) ∧
    (let d := at_ [(Pg.seq 7, SEQ.STS_STATE, seqIdle), (Pg.seq 7, SEQ.TRIG_EN 0, 1), (Pg.seq 7, SEQ.TRIG_EVT 0, 33), (Pg.seq 7, SEQ.EVT_PEND_PEND 1, 2)]
     d.seqState 7 = seqIdle ∧ d.seq[(7 : Fin 8)].frozen = false ∧ d.on (Pg.seq 7) (SEQ.TRIG_EN 0) = true ∧ d.evPending 7 (d.get (Pg.seq 7) (SEQ.TRIG_EVT 0)) = true) ∧
    (let d := { at_ [(Pg.seq 0, SEQ.STS_STATE, seqRun)] with clk := { acc := rd.clk.acc.set 0 ((milli + 1) * 2 ^ 48) }, seq := rd.seq.set 0 { budget := 1 } }
     d.seqOverdue 0 = true) ∧
    (let d := { at_ [(Pg.seq 0, SEQ.STS_STATE, seqWaiting)] with seq := rd.seq.set 0 { wait := some (.mec 5) } }
     d.seq[(0 : Fin 8)].wait = some (.mec 5) ∧ d.seqState 0 = seqWaiting ∧ d.seq[(0 : Fin 8)].frozen = false) ∧
    (rd.gate .pf0 (Pg.seq 0) (0x800 + 4 * 511) = .served ∧ (rd.put (Pg.seq 0) SEQ.CTL_EN 0).on (Pg.seq 0) SEQ.CTL_EN = false) := by decide +kernel

theorem test_SequencerInstructionsComplete_met :
    (let d := withFlds running [(Pg.seq 0, SEQ.PERM_CTL_BAR2_WR, 1), (Pg.seq 0, SEQ.PERM_CTL_BAR2_RD, 1), (Pg.seq 0, SEQ.WIN_EN 0, 1), (Pg.seq 0, SEQ.WIN_BASE 0, Pg.cst),
       (Pg.seq 0, SEQ.WIN_COUNT 0, 1)]
     let e := d.seqTaken 0
     d.seqState 0 = seqRun ∧ d.seq[(0 : Fin 8)].frozen = false ∧ seqAddrOk true (192 * 2 ^ 20 - 4) = true ∧ e.seqMayWrite 0 true (192 * 2 ^ 20 - 4) = true ∧
     seqAddrOk false (4096 * Pg.cst + 0x108) = true ∧ e.seqMayWrite 0 false (4096 * Pg.cst + 0x108) = true ∧ e.seqMayRead 0 true = true ∧ e.seqMayRead 0 false = true ∧
     seqAddrOk false (e.dataWord 0 0) = true ∧ (2 : Fin 4) ≠ 0 ∧ (61 : Fin 64).val ≤ 61 ∧ (3 : Fin 16).val < 4 ∧ 4 < (5 : Fin 16).val) ∧
    ((running.seqTaken 0).get (Pg.seq 0) SEQ.STS_DEPTH < 4 ∧ 0 < (called.seqTaken 0).get (Pg.seq 0) SEQ.STS_DEPTH) := by decide +kernel

theorem test_RecorderCommandsComplete_met :
    (srv rd .pf0 Pg.rec 0x10C && srv rd .pf1 Pg.rec 0x160 && srv rd (.seq 0) Pg.rec 0x10C) = true ∧ Master.seq 0 ≠ .pf0 ∧
    (let d := { rd with rcd := { flushing := some 3, snapRun := some ⟨⟨0, 0, 0⟩, 0, 0, [], 0, 0, []⟩ } }
     d.rcd.flushing = some 3 ∧ d.rcd.snapRun = some ⟨⟨0, 0, 0⟩, 0, 0, [], 0, 0, []⟩) := by decide +kernel

/-- The loader in this phase with this lock owner, and a session of PF0. -/
def loader (phase owner : Nat) : Dev := { rd with ldr := { jnl := { phase := phase, owner := owner }, sess := [(0, image)] } }

theorem test_LoaderCommandsComplete_met :
    srv rd .pf0 Pg.ldr 0x104 = true ∧ srv rd .pf0 Pg.ldr 0x128 = true ∧ ((st rd).took .pf0 Pg.ldr 0x104 9).powerFails = false ∧
    (let d := (st (loader phIdle noOwner)).took .pf0 Pg.ldr 0x104 8
     let e := (st (loader phIdle noOwner)).took .pf0 Pg.ldr 0x104 9
     d.ldr.jnl.owner = noOwner ∧ e.ldr.jnl.phase = phIdle ∧ e.ldr.jnl.owner = noOwner ∧ d.powerFails = false ∧ d.session .pf0 = some image) ∧
    ([phOpen, phLoading, phLoaded, phVerified, phTrial].all fun ph =>
      let d := (st (loader ph (masterId .pf0))).took .pf0 Pg.ldr 0x104 3
      decide (d.ldr.jnl.owner = masterId .pf0 ∧ d.ldr.jnl.phase = ph ∧ d.ownerBody = some image)) = true ∧
    ((loader phLoading 0).powerFails = false ∧ (loader phLoading 0).ldr.jnl.phase = phLoading) ∧
    ([phCopyRet, phOverwrite, phRestoring, phSlot, phCal].all fun ph =>
      decide (((loader ph 0).cancel .copyDone).powerFails = false ∧ ((loader ph 0).cancel .copyDone).ldr.jnl.phase = ph)) = true ∧
    (let d := { withFlds (loader phTrial 0) [(Pg.ldr, LDR.POLICY_SELF_CONF, 1), (Pg.ldr, LDR.POLICY_CONF_TIME, 1)] with clk := { acc := rd.clk.acc.set 0 accSecond } }
     d.ldr.jnl.phase = phTrial ∧ d.mayConfirm = true ∧ d.powerFails = false) ∧
    (phOpen ≤ (loader phVerified 0).ldr.jnl.phase ∧ (loader phVerified 0).ldr.jnl.phase ≤ phVerified) ∧
    (let d := (st (loader phTrial 0)).took .pf0 Pg.ldr 0x128 (2 ^ 30)
     (d.storeReg Pg.ldr 0x128 (2 ^ 30)).ldrWatched = true ∧ bit (2 ^ 30) 30 = true ∧ (((st rd).took .pf0 Pg.ldr 0x128 0).storeReg Pg.ldr 0x128 0).ldrWatched = false) ∧
    (loader phTrial 0).ldrWatched = true ∧
    (linked.kwgTakes ⟨6, 0⟩ = true ∧ (linked.kwgSeen ⟨6, 0⟩).link = linkUp ∧ (linked.kwgSeen ⟨6, 0⟩).powerFails = false ∧
      (linked.kwgSeen ⟨6, 0⟩).on Pg.glb GLB.BOOT_STS_BOOT_DONE = true) := by decide +kernel

theorem test_PowerCommandsComplete_met :
    (srv rd .pf0 Pg.pwr 0x104 && srv rd .pf0 Pg.clkd 0x104 && srv rd .pf0 (Pg.syn 3) 0x28 && srv rd .pf0 Pg.pwr 0x110) = true ∧
    (let e := fun (d : Dev) => (d.upPwr fun e => { e with samples := 0, cool := true }).timer second .capStep
     let w := { rd with pwr := { rd.pwr with samples := 5 } }
     (e (rd.put Pg.pwr PWR.STS_MAIN_HOT 1)).on Pg.pwr PWR.STS_MAIN_HOT = true ∧ (e w).on Pg.pwr PWR.STS_MAIN_HOT = false ∧ w.pwr.cool = true ∧ w.pwr.samples ≠ 0) ∧
    rd.on Pg.glb GLB.BOOT_STS_BOOT_DONE = true ∧
    (let e := fun (d : Dev) => ((d.upPwr fun e => { e with pfw := true }).cancel .autoExit).powerFail
     (e (rd.put Pg.pwr PWR.CTL_PFW_CAVE 1)).on Pg.pwr PWR.CTL_PFW_CAVE = true ∧ (e (rd.put Pg.pwr PWR.CTL_PFW_CAVE 0)).on Pg.pwr PWR.CTL_PFW_CAVE = false) ∧
    (let e := fun (d : Dev) => ((d.upPwr fun e => { e with trip := true }).cancel .autoExit).powerFail
     rd.caveState ≠ caveIn ∧ rd.caveState ≠ caveEntering ∧ (e (rd.put Pg.pwr PWR.CTL_MON_CAVE 1)).on Pg.pwr PWR.CTL_MON_CAVE = true ∧
     (e (rd.put Pg.pwr PWR.CTL_MON_CAVE 0)).on Pg.pwr PWR.CTL_MON_CAVE = false) ∧
    (let d := at_ [(Pg.pwr, PWR.STS_MAIN_STATE, 2), (Pg.pwr, PWR.CTL_AUTO_EXIT, 1)]
     d.on Pg.pwr PWR.CTL_AUTO_EXIT = true ∧ d.powerFails = false) ∧
    (at_ [(Pg.pwr, PWR.STS_MAIN_STATE, caveEntering)]).caveState = caveEntering ∧
    (let d := at_ [(Pg.pwr, PWR.STS_MAIN_STATE, caveExiting), (Pg.hif, HIF.STS_LINK_UP, 1)]
     d.caveState = caveExiting ∧ d.on Pg.hif HIF.STS_LINK_UP = true) ∧
    ((rd.put Pg.clkd CLKD.STS_OSC_PRESENT 0).on Pg.clkd CLKD.STS_OSC_PRESENT = false ∧ (rd.put Pg.clkd CLKD.STS_OSC_PRESENT 1).on Pg.clkd CLKD.STS_OSC_PRESENT = true) := by
  decide +kernel

/-- The pair in this role with its link in this state. -/
def pair (role link : Nat) : Dev := at_ [(Pg.plk, PLK.CTL_EN, 1), (Pg.plk, PLK.STS_ROLE, role), (Pg.plk, PLK.STS_LINK, link)]

theorem test_PairCommandsComplete_met :
    (srv rd .pf0 Pg.plk 0x100 && srv rd .pf0 Pg.plk 0x104) = true ∧
    (((st rd).took .pf0 Pg.plk 0x100 (2 ^ 31)).storeReg Pg.plk 0x100 (2 ^ 31)).on Pg.plk PLK.CTL_EN = true ∧
    (((st rd).took .pf0 Pg.plk 0x100 0).storeReg Pg.plk 0x100 0).on Pg.plk PLK.CTL_EN = false ∧
    ((pair roleStandby linkAlign).link = linkAlign ∧ (pair roleStandby linkAlign).plk.slot = none ∧ (pair roleStandby linkAlign).plk.due = false ∧ (pair roleStandby linkHello).link = linkHello ∧ (pair roleStandby linkUp).link = linkUp) ∧
    (¬ ((pair roleStandby linkUp).syncSend.role = roleActive) ∧
      (let d := ((pair roleActive linkUp).put Pg.plk PLK.MIR_MIR 1).syncSend
       d.role = roleActive ∧ bit (d.get Pg.plk PLK.MIR_MIR) 0 = true)) ∧
    (let d := pair roleStandby linkUp
     d.on Pg.plk PLK.CTL_EN = true ∧ d.on Pg.glb GLB.BOOT_STS_BOOT_DONE = true ∧ d.inCave = false ∧
     bit ((d.timer milli .hbToggle).get Pg.flt FLT.CLASS_STS_LAT) 4 = false ∧ bit (((d.put Pg.flt FLT.CLASS_STS_LAT 16).timer milli .hbToggle).get Pg.flt FLT.CLASS_STS_LAT) 4 = true) ∧
    ((pair roleStandby linkUp).role ≠ roleOff ∧ ((pair roleStandby linkUp).upPlk fun e => { e with hbAt := (pair roleStandby linkUp).freeNs }).role = (pair roleStandby linkUp).role) ∧
    (let d := (st (pair roleStandby linkUp)).took .pf0 Pg.plk 0x104 1
     let e := (st ((pair roleStandby linkUp).put Pg.plk PLK.CTL_WIT_EN 1)).took .pf0 Pg.plk 0x104 5
     let f := (st (withFlds (pair roleStandby linkUp) [(Pg.plk, PLK.CTL_WIT_EN, 0), (Pg.plk, PLK.STS_P_LOST, 1), (Pg.plk, PLK.STS_PINS, 0)])).took .pf0 Pg.plk 0x104 5
     d.role = roleStandby ∧ d.link = linkUp ∧ e.role = roleStandby ∧ e.on Pg.plk PLK.CTL_WIT_EN = true ∧ f.role = roleStandby ∧ f.pin 0 = false ∧ f.on Pg.plk PLK.STS_P_LOST = true) ∧
    (((st (pair roleActive linkUp)).took .pf0 Pg.plk 0x104 2).role = roleActive ∧ ((st (pair roleRequesting linkUp)).took .pf0 Pg.plk 0x104 3).role = roleRequesting) ∧
    (let d := { (pair roleRequesting linkUp).put Pg.plk PLK.STS_PINS 4 with plk := { grantAt := some 0 } }
     d.role = roleRequesting ∧ d.claimGranted = true ∧ d.plk.grantAt.isSome = true) ∧
    ((pair roleRequesting linkUp).role = roleRequesting ∧ (pair roleRequesting linkUp).plk.grantAt = none ∧ (pair roleStandby linkUp).role ≠ roleRequesting) := by decide +kernel

theorem test_PairCommandsComplete_messages :
    (let d := ((pair roleActive linkUp).put Pg.plk PLK.CTL_WIT_EN 1).witPin 2 false
     d.on Pg.plk PLK.CTL_WIT_EN = true ∧ d.role = roleActive) ∧
    (let s := linked.put Pg.plk PLK.STS_LINK linkHello
     let d := s.kwgSeen ⟨6, 0⟩
     s.kwgTakes ⟨6, 0⟩ = true ∧ d.link = linkHello ∧ d.keyEpoch (d.get Pg.plk PLK.KEY_SLOT) = 0 ∧ d.get Pg.plk PLK.PUID_UID = 0) ∧
    (let s := withFlds linked [(Pg.plk, PLK.STS_ROLE, roleActive)]
     s.kwgTakes ⟨6, 0⟩ = true ∧ (s.kwgSeen ⟨6, 0⟩).link = linkUp ∧ (s.kwgSeen ⟨6, 0⟩).role = roleActive) ∧
    (let s := linked.upPlk fun e => { e with sync := some (7, ⟨0, 0, 0⟩) }
     s.kwgTakes ⟨6, 0⟩ = true ∧ (s.kwgSeen ⟨6, 0⟩).link = linkUp ∧ (s.kwgSeen ⟨6, 0⟩).plk.sync = some (7, ⟨0, 0, 0⟩)) ∧
    (let s := withFlds linked [(Pg.plk, PLK.STS_ROLE, roleStandby), (Pg.plk, PLK.MIR_MIR, 1)]
     s.kwgTakes ⟨6, 0⟩ = true ∧ s.link = linkUp ∧ s.role = roleStandby ∧ bit (s.get Pg.plk PLK.MIR_MIR) 0 = true) := by decide +kernel


end Sys2Proof.Tests
end

section
/-! SUPPORT. The bits that a subtraction takes, and the registers of the common headers that notices leave alone. -/

namespace Sys2Proof.Machine

/-! Bits of a number. -/

/-- Taking from a number its bits that another number names clears exactly those. -/
theorem testBit_sub_and (a b i : Nat) : (a - (a &&& b)).testBit i = (a.testBit i && !b.testBit i) := by
  have hm : (a &&& b) % 2 = 1 ↔ a % 2 = 1 ∧ b % 2 = 1 := Nat.and_mod_two_eq_one
  induction i generalizing a b with
  | zero =>
    have hle : a &&& b ≤ a := Nat.and_le_left
    simp only [Nat.testBit_zero]
    rw [← decide_not, ← Bool.decide_and, decide_eq_decide]
    omega
  | succ i ih =>
    have hd : (a - (a &&& b)) / 2 = a / 2 - (a / 2 &&& b / 2) := by
      have := Nat.and_div_two (a := a) (b := b)
      have hle : a &&& b ≤ a := Nat.and_le_left
      omega
    rw [Nat.testBit_succ, hd, ih _ _ Nat.and_mod_two_eq_one, Nat.testBit_succ, Nat.testBit_succ]

/-- A bit below 5 of the complement within 5 bits. -/
theorem testBit_complement_five (j c : Nat) (hc : c < 5) : (0x1F - j % 32).testBit c = !j.testBit c := by
  have h := Nat.testBit_two_pow_sub_succ (x := j % 2 ^ 5) (n := 5) (Nat.mod_lt _ (by decide)) c
  have e : 2 ^ 5 - (j % 2 ^ 5 + 1) = 0x1F - j % 32 := by omega
  rw [e] at h
  rw [h, Nat.testBit_mod_two_pow]
  simp [hc]

/-! The registers of the common header that notices leave alone (R442): all but INT_STS, the local counters and INT_MEC. -/

/-- An offset of the common header that no notice writes. -/
def HeaderCalm (off : Nat) : Prop := off < 0x100 ∧ off ≠ 0x10 ∧ off ≠ 0xE0 ∧ ¬ (0x40 ≤ off ∧ off < 0x60)

/-- A write of an own register leaves the common header of every page alone. -/
theorem Dev.reg_put_own (d : Dev) {pg pg' off : Nat} (f : Fld) (v : Nat) (hf : 0x100 ≤ f.off) (hf' : f.off < 4096) (h : off < 0x100) :
    (d.put pg f v).reg pg' off = d.reg pg' off := d.reg_put_ne f v (by omega)

/-- A counted event writes the local counters alone. -/
theorem Dev.reg_pmc_outside (d : Dev) (pg ev : Nat) (a : Attr) {pg' off : Nat} (h : ¬ (0x40 ≤ off ∧ off < 0x60)) (h' : off < 4096) :
    (d.pmc pg ev a).reg pg' off = d.reg pg' off := by
  have hstep (k : Nat) (hk : k < 4) (e : Dev) : (e.pmcStep pg k).reg pg' off = e.reg pg' off := by
    have hp (e : Dev) (v : Nat) : (e.put pg (HDR.PMC_CNT_COUNT k) v).reg pg' off = e.reg pg' off := e.reg_put_ne _ _ (by dsimp only; omega)
    unfold Dev.pmcStep
    dsimp only
    split
    · rw [Dev.reg_put_ne _ _ _ (by dsimp only; omega), hp]
    · exact hp _ _
  unfold Dev.pmc
  split
  · rfl
  · simp only [Dev.each, List.foldl]
    rw [Dev.reg_when _ _ _ (hstep 3 (by omega)), Dev.reg_when _ _ _ (hstep 2 (by omega)), Dev.reg_when _ _ _ (hstep 1 (by omega)),
      Dev.reg_when _ _ _ (hstep 0 (by omega))]

/-- A counted event leaves the fields outside the local counters alone. -/
theorem Dev.get_pmc_outside (d : Dev) (pg ev : Nat) (a : Attr) (pg' : Nat) (f : Fld) (h : ¬ (0x40 ≤ f.off ∧ f.off < 0x60)) (h' : f.off < 4096) :
    (d.pmc pg ev a).get pg' f = d.get pg' f := by
  unfold Dev.get; rw [d.reg_pmc_outside _ _ _ h h']

/-- A COUNT field advances by one and saturates, unless its page is frozen (R368, R443). -/
theorem Dev.get_count_same (d : Dev) (pg : Nat) (f : Fld) (a : Attr) (hi : f.hi < 96) (h : ¬ (0x40 ≤ f.off ∧ f.off < 0x60)) (h' : f.off < 4096) :
    (d.count pg f a).get pg f = if d.on pg HDR.PAGE_CTL_FREEZE then d.get pg f else min (d.get pg f + 1) (2 ^ (f.hi + 1 - f.lo) - 1) := by
  unfold Dev.count
  split
  · rfl
  · dsimp only
    rw [Dev.get_pmc_outside _ _ _ _ _ _ h h', Dev.get_put_same _ _ _ _ hi]
    have := Nat.two_pow_pos (f.hi + 1 - f.lo)
    exact Nat.mod_eq_of_lt (by omega)

theorem Dev.reg_count_header (d : Dev) (pg : Nat) (f : Fld) (a : Attr) {pg' off : Nat} (hf : 0x100 ≤ f.off) (hf' : f.off < 4096) (h : HeaderCalm off) :
    (d.count pg f a).reg pg' off = d.reg pg' off := by
  obtain ⟨h1, -, -, h4⟩ := h
  unfold Dev.count
  split
  · rfl
  · dsimp only
    rw [Dev.reg_pmc_outside _ _ _ _ h4 (by omega), Dev.reg_put_own _ _ _ hf hf' h1]

theorem Dev.reg_int_header (d : Dev) (pg b : Nat) {pg' off : Nat} (h : HeaderCalm off) : (d.int pg b).reg pg' off = d.reg pg' off := by
  obtain ⟨h1, h2, h3, h4⟩ := h
  unfold Dev.int Dev.intBits
  rw [Dev.reg_resum _ _ (by omega) (by omega), Dev.reg_pmc_outside _ _ _ _ h4 (by omega), Dev.reg_stampAs, Dev.reg_put_ne _ _ _ (by dsimp only; omega),
    Dev.reg_raiseBits _ _ _ (by dsimp only; omega)]

theorem Dev.reg_event_header (d : Dev) (e : Nat) {pg off : Nat} (he : e < 128) (h : HeaderCalm off) : (d.event e).reg pg off = d.reg pg off := by
  have h1 := h.1
  unfold Dev.event
  refine Dev.reg_each _ _ _ fun n d => ?_
  dsimp only
  rw [Dev.reg_seqNotice, Dev.reg_when _ _ _ fun e => (Dev.reg_int_header _ _ _ h).trans (e.reg_count_header _ _ _ (by decide) (by decide) h),
    Dev.reg_when _ _ _ fun e' => e'.reg_setAgain n e, Dev.reg_raiseBits _ _ _ (by dsimp only; omega)]

theorem Dev.reg_flush_header (d : Dev) {pg off : Nat} (h : HeaderCalm off) : d.flush.reg pg off = d.reg pg off := by
  unfold Dev.flush
  split
  · rfl
  · exact Dev.reg_put_own _ _ _ (by decide) (by decide) h.1

theorem Dev.reg_lose_header (d : Dev) {pg off : Nat} (h : HeaderCalm off) : d.lose.reg pg off = d.reg pg off := by
  unfold Dev.lose
  dsimp only
  rw [Dev.reg_when _ _ _ fun e => e.reg_int_header _ _ h]
  exact (Dev.reg_congr rfl _ _).trans (d.reg_count_header _ _ _ (by decide) (by decide) h)

theorem Dev.reg_spill_header (d : Dev) (o : Option Record) {pg off : Nat} (h : HeaderCalm off) : (d.spill o).reg pg off = d.reg pg off := by
  unfold Dev.spill
  split
  · split
    · rfl
    · split
      · dsimp only [Dev.reg]
      · exact d.reg_count_header _ _ _ (by decide) (by decide) h
  · rfl

theorem Dev.reg_writeLine_header (d : Dev) (w : Record) {pg off : Nat} (h : HeaderCalm off) : (d.writeLine w).reg pg off = d.reg pg off := by
  unfold Dev.writeLine
  dsimp only
  rw [Dev.reg_put_own _ _ _ (by decide) (by decide) h.1]
  exact (Dev.reg_congr rfl _ _).trans (d.reg_spill_header _ h)

theorem Dev.reg_levelUp_header (d : Dev) {pg off : Nat} (h : HeaderCalm off) : d.levelUp.reg pg off = d.reg pg off := by
  unfold Dev.levelUp
  dsimp only
  rw [Dev.reg_when _ _ _ fun e => (Dev.reg_flush_header _ h).trans (e.reg_event_header 15 (by decide) h), Dev.reg_put_own _ _ _ (by decide) (by decide) h.1]

theorem Dev.reg_enter_header (d : Dev) (typ source : Nat) (p : List Nat) (l : Bool) {pg off : Nat} (h : HeaderCalm off) :
    (d.enter typ source p l).reg pg off = d.reg pg off := by
  unfold Dev.enter
  split
  · exact d.reg_lose_header h
  · dsimp only
    split
    · rw [Dev.reg_writeLine_header _ _ h, Dev.reg_put_own _ _ _ (by decide) (by decide) h.1]
      exact Dev.reg_congr rfl _ _
    · rw [Dev.reg_levelUp_header _ h]
      exact (Dev.reg_congr rfl _ _).trans ((Dev.reg_put_own _ REC.NEXT_SEQ_SEQ (d.get Pg.rec REC.NEXT_SEQ_SEQ + 1) (by decide) (by decide) h.1).trans (Dev.reg_congr rfl _ _))

/-- A record leaves the calm registers of every common header alone. -/
theorem Dev.reg_record_header (d : Dev) (typ source : Nat) (p : List Nat) (named : Bool) (key : Nat) {pg off : Nat} (h : HeaderCalm off) :
    (d.record typ source p named key).reg pg off = d.reg pg off := by
  unfold Dev.record
  dsimp only
  split
  · split
    · exact Dev.reg_congr rfl _ _
    · exact d.reg_enter_header _ _ _ _ h
  · exact d.reg_enter_header _ _ _ _ h

end Sys2Proof.Machine
end

section
/-! PROOF. A clear of latched classes spares the live ones (O30). -/

namespace Sys2Proof.Machine

/-! A clear of latched classes (R357), in its parts. -/

/-- What differs by registers, notices and timers alone has the same clock. -/
theorem Dev.Quiet.clk_eq {d e : Dev} (h : d.Quiet e) : e.clk = d.clk := by unfold Dev.Quiet at h; rw [h]

/-- The named classes that are latched, and were not latched by hardware in this cycle. -/
def Dev.clearWant (d : Dev) (pg classes : Nat) : Nat :=
  d.get pg HDR.FLT_STS_LAT &&& classes &&& (0x1F - d.justSet (4096 * pg + HDR.FLT_STS_LAT.off) % 32)

/-- The classes a clear refuses: those wanted that are live, now or earlier in this cycle. -/
def Dev.clearNo (d : Dev) (pg classes : Nat) : Nat :=
  d.clearWant pg classes &&& (d.get pg HDR.FLT_STS_LIVE ||| d.justSet (4096 * pg + HDR.FLT_STS_LAT.off) / 256)

/-- The classes a clear takes. -/
def Dev.clearOk (d : Dev) (pg classes : Nat) : Nat := d.clearWant pg classes - d.clearNo pg classes

/-- What follows the fall of the latched classes `ok`: the record of the clear, the die pins with GLB, a halted core that resumes, the watch of a self-confirmation. -/
def Dev.clearFollows (d : Dev) (m : Master) (pg ok : Nat) : Dev :=
  let d := d.record 0x91 (srcPage pg) (oct 2 pg ++ [ok, 1, masterId m])
  let d := d.when (pg == Pg.glb) fun d => d.put Pg.flt FLT.DIE_STS_PIN 0
  let d := d.each [0, 1] fun (n : Ts) d => d.when (pg == Pg.svc n.val && bit ok 2) fun d => d.coreResume n
  d.confBreak pg ok

/-- What the refusal of the classes `no` leaves: its count, its interrupt and its record. -/
def Dev.clearRefuses (d : Dev) (m : Master) (pg no : Nat) : Dev :=
  ((d.count Pg.flt FLT.CLR_REFUSED_COUNT).int Pg.flt 5).record 0x91 (srcPage pg) (oct 2 pg ++ [no, 2, masterId m])

/-- The latched classes of a page without the classes `ok`, and what follows their fall. -/
def Dev.clearTakes (d : Dev) (m : Master) (pg ok : Nat) : Dev :=
  (d.put pg HDR.FLT_STS_LAT (d.get pg HDR.FLT_STS_LAT - ok)).clearFollows m pg ok

/-- A clear takes the classes that are wanted and not refused, then counts those it refuses, then brings the view of the page up to date. -/
theorem Dev.fltClear_eq (d : Dev) (m : Master) (pg classes : Nat) :
    d.fltClear m pg classes =
      ((d.when (d.clearOk pg classes != 0) fun e => e.clearTakes m pg (d.clearOk pg classes)).when
        (d.clearNo pg classes != 0) fun e => e.clearRefuses m pg (d.clearNo pg classes)).fltView pg := by
  unfold Dev.fltClear Dev.clearTakes Dev.clearFollows Dev.clearRefuses Dev.clearOk Dev.clearNo Dev.clearWant
  rfl

/-- A register that only the fall of LAT and the counting of a refusal may change in a clear: a calm one of a common header, or the count of refusals. -/
def ClearSpares (pg off : Nat) : Prop := HeaderCalm off ∨ (pg = Pg.flt ∧ off = FLT.CLR_REFUSED_COUNT.off)

theorem headerCalm_fltSts : HeaderCalm HDR.FLT_STS.off := by unfold HeaderCalm; decide

theorem clearSpares_fltSts (pg : Nat) : ClearSpares pg HDR.FLT_STS.off := .inl headerCalm_fltSts

theorem clearSpares_pageCtl (pg : Nat) : ClearSpares pg HDR.PAGE_CTL.off := .inl (by unfold HeaderCalm; decide)

theorem clearSpares_clrRefused : ClearSpares Pg.flt FLT.CLR_REFUSED_COUNT.off := .inr ⟨rfl, rfl⟩

/-- No notice writes the count of refusals. -/
theorem calm_clrRefused : Calm Pg.flt FLT.CLR_REFUSED_COUNT.off := by unfold Calm; decide

theorem ClearSpares.reg_record {pg off : Nat} (h : ClearSpares pg off) (d : Dev) (typ source : Nat) (p : List Nat) :
    (d.record typ source p).reg pg off = d.reg pg off := by
  obtain h | ⟨rfl, rfl⟩ := h
  · exact d.reg_record_header _ _ _ _ _ h
  · exact d.reg_record _ _ _ _ _ calm_clrRefused

theorem ClearSpares.reg_put {pg off : Nat} (h : ClearSpares pg off) (d : Dev) (pg' : Nat) (f : Fld) (v : Nat) (hf : 0x100 ≤ f.off) (hf' : f.off < 4096)
    (hn : pg' ≠ Pg.flt ∨ f.off ≠ FLT.CLR_REFUSED_COUNT.off) : (d.put pg' f v).reg pg off = d.reg pg off := by
  obtain h | ⟨rfl, rfl⟩ := h
  · exact d.reg_put_own _ _ hf hf' h.1
  · exact d.reg_put_ne _ _ (by dsimp only [Pg.flt] at hn ⊢; omega)

theorem ClearSpares.reg_coreResume {pg off : Nat} (h : ClearSpares pg off) (d : Dev) (n : Ts) : (d.coreResume n).reg pg off = d.reg pg off := by
  have hs (e : Dev) : (e.showLoop n).reg pg off = e.reg pg off :=
    h.reg_put _ _ _ _ (by decide) (by decide) (.inr (by decide))
  unfold Dev.coreResume
  split
  · dsimp only
    split
    · exact (hs _).trans (Dev.reg_congr rfl _ _)
    · exact (Dev.reg_congr rfl _ _).trans ((hs _).trans (Dev.reg_congr rfl _ _))
  · rfl

theorem Dev.clk_coreResume (d : Dev) (n : Ts) : (d.coreResume n).clk = d.clk := by
  unfold Dev.coreResume
  split
  · dsimp only
    split <;> rfl
  · rfl

theorem Dev.reg_confBreak (d : Dev) (pg ok : Nat) {pg' off : Nat} : (d.confBreak pg ok).reg pg' off = d.reg pg' off := by
  unfold Dev.confBreak
  split <;> rfl

theorem Dev.clk_confBreak (d : Dev) (pg ok : Nat) : (d.confBreak pg ok).clk = d.clk := by
  unfold Dev.confBreak
  split <;> rfl

theorem ClearSpares.reg_clearFollows {pg off : Nat} (h : ClearSpares pg off) (d : Dev) (m : Master) (pg' ok : Nat) :
    (d.clearFollows m pg' ok).reg pg off = d.reg pg off := by
  unfold Dev.clearFollows
  dsimp only
  rw [Dev.reg_confBreak, Dev.reg_each _ _ _ fun n e => e.reg_when _ _ fun e => h.reg_coreResume e n,
    Dev.reg_when _ _ _ fun e => h.reg_put e Pg.flt FLT.DIE_STS_PIN 0 (by decide) (by decide) (.inr (by decide)), h.reg_record]

theorem Dev.clk_clearFollows (d : Dev) (m : Master) (pg ok : Nat) : (d.clearFollows m pg ok).clk = d.clk := by
  unfold Dev.clearFollows
  dsimp only
  rw [Dev.clk_confBreak, Dev.each_proj Dev.clk _ fun n e => Dev.when_proj Dev.clk _ e _ fun e => e.clk_coreResume n, Dev.when_proj Dev.clk (fun e => e.put Pg.flt FLT.DIE_STS_PIN 0) _ _ fun _ => rfl,
    (d.quiet_record _ _ _ _ _).clk_eq]

theorem ClearSpares.reg_fltView {pg off : Nat} (h : ClearSpares pg off) (d : Dev) (pg' : Nat) : (d.fltView pg').reg pg off = d.reg pg off := by
  have hs := slotOf_lt pg'
  unfold Dev.fltView
  dsimp only
  rw [h.reg_put _ _ _ _ (by decide) (by decide) (.inr (by decide)), h.reg_put _ _ _ _ (by decide) (by decide) (.inr (by decide)),
    h.reg_put _ _ _ _ (by dsimp only; omega) (by dsimp only; omega) (.inr (by dsimp only; omega))]

theorem Dev.reg_clearRefuses_header (d : Dev) (m : Master) (pg no : Nat) {pg' off : Nat} (h : HeaderCalm off) :
    (d.clearRefuses m pg no).reg pg' off = d.reg pg' off := by
  unfold Dev.clearRefuses
  rw [Dev.reg_record_header _ _ _ _ _ _ h, Dev.reg_int_header _ _ _ h, Dev.reg_count_header _ _ _ _ (by decide) (by decide) h]

/-- A refusal is counted once. -/
theorem Dev.clrRefused_clearRefuses (d : Dev) (m : Master) (pg no : Nat) (hf : d.on Pg.flt HDR.PAGE_CTL_FREEZE = false) :
    (d.clearRefuses m pg no).get Pg.flt FLT.CLR_REFUSED_COUNT = min (d.get Pg.flt FLT.CLR_REFUSED_COUNT + 1) (2 ^ 32 - 1) := by
  unfold Dev.clearRefuses
  rw [Dev.get_record _ _ _ _ _ _ _ _ calm_clrRefused, Dev.get_int _ _ _ _ _ calm_clrRefused, Dev.get_count_same _ _ _ _ (by decide) (by decide) (by decide), hf]
  rfl

theorem Dev.clk_clearRefuses (d : Dev) (m : Master) (pg no : Nat) : (d.clearRefuses m pg no).clk = d.clk :=
  (((d.quiet_count _ _ _).trans (Dev.quiet_int _ _ _)).trans (Dev.quiet_record _ _ _ _ _ _)).clk_eq

/-- LAT of a page without some of its classes reads as that. -/
theorem Dev.get_put_lat_sub (d : Dev) (pg ok : Nat) :
    (d.put pg HDR.FLT_STS_LAT (d.get pg HDR.FLT_STS_LAT - ok)).get pg HDR.FLT_STS_LAT = d.get pg HDR.FLT_STS_LAT - ok := by
  rw [Dev.get_put_same _ _ _ _ (by decide)]
  have := HDR.FLT_STS_LAT.get_lt (d.reg pg HDR.FLT_STS_LAT.off)
  exact Nat.mod_eq_of_lt (Nat.lt_of_le_of_lt (Nat.sub_le _ _) this)

/-- The taking of some classes leaves the registers that a clear spares alone, but for LAT. -/
theorem ClearSpares.reg_clearTakes {pg off : Nat} (h : ClearSpares pg off) (d : Dev) (m : Master) (pg' ok : Nat) (hn : 4096 * pg + off ≠ 4096 * pg' + HDR.FLT_STS.off) :
    (d.clearTakes m pg' ok).reg pg off = d.reg pg off :=
  (h.reg_clearFollows _ m pg' ok).trans (d.reg_put_ne _ _ hn)

/-- What a clear leaves in FLT_STS of its page is what the fall of the classes it takes leaves there. -/
theorem Dev.reg_fltClear_fltSts (d : Dev) (m : Master) (pg classes : Nat) :
    (d.fltClear m pg classes).reg pg HDR.FLT_STS.off =
      (d.when (d.clearOk pg classes != 0) fun e => e.put pg HDR.FLT_STS_LAT (e.get pg HDR.FLT_STS_LAT - d.clearOk pg classes)).reg pg HDR.FLT_STS.off := by
  have h := clearSpares_fltSts pg
  rw [d.fltClear_eq, h.reg_fltView, Dev.reg_when _ _ _ fun e => e.reg_clearRefuses_header m pg _ headerCalm_fltSts]
  cases d.clearOk pg classes != 0
  · rfl
  · exact h.reg_clearFollows _ m pg _

/-- LAT of the page loses exactly the classes taken. -/
theorem Dev.lat_fltClear (d : Dev) (m : Master) (pg classes : Nat) :
    (d.fltClear m pg classes).get pg HDR.FLT_STS_LAT = d.get pg HDR.FLT_STS_LAT - d.clearOk pg classes := by
  refine (congrArg HDR.FLT_STS_LAT.get (d.reg_fltClear_fltSts m pg classes)).trans ?_
  by_cases h : d.clearOk pg classes = 0
  · rw [h]; rfl
  · rw [bne_iff_ne.mpr h]
    exact d.get_put_lat_sub pg _

/-- LIVE of the page stays. -/
theorem Dev.live_fltClear (d : Dev) (m : Master) (pg classes : Nat) :
    (d.fltClear m pg classes).get pg HDR.FLT_STS_LIVE = d.get pg HDR.FLT_STS_LIVE :=
  (congrArg HDR.FLT_STS_LIVE.get (d.reg_fltClear_fltSts m pg classes)).trans
    (Dev.when_proj (fun e => e.get pg HDR.FLT_STS_LIVE) _ _ _ fun e => e.get_put_disj pg _ _ _ rfl (by decide) (by decide))

/-- The taking of classes leaves the count of refusals and FREEZE of the FLT page alone. -/
theorem Dev.get_when_clearTakes (d : Dev) (m : Master) (pg ok : Nat) (c : Bool) (f : Fld) (h : ClearSpares Pg.flt f.off) (hn : f.off ≠ HDR.FLT_STS.off) (hf : f.off < 4096) :
    (d.when c fun e => e.clearTakes m pg ok).get Pg.flt f = d.get Pg.flt f := by
  unfold Dev.get
  rw [Dev.reg_when _ _ _ fun e => h.reg_clearTakes e m pg ok (by dsimp only [Pg.flt] at hn ⊢; omega)]

/-- A clear that refuses no class counts none. -/
theorem Dev.clrRefused_fltClear_none (d : Dev) (m : Master) (pg classes : Nat) (h : d.clearNo pg classes = 0) :
    (d.fltClear m pg classes).get Pg.flt FLT.CLR_REFUSED_COUNT = d.get Pg.flt FLT.CLR_REFUSED_COUNT := by
  rw [← d.get_when_clearTakes m pg (d.clearOk pg classes) (d.clearOk pg classes != 0) FLT.CLR_REFUSED_COUNT clearSpares_clrRefused (by decide) (by decide), d.fltClear_eq, h]
  unfold Dev.get
  rw [clearSpares_clrRefused.reg_fltView]
  rfl

/-- A clear that refuses some class counts once. -/
theorem Dev.clrRefused_fltClear_some (d : Dev) (m : Master) (pg classes : Nat) (h : d.clearNo pg classes ≠ 0) (hf : d.on Pg.flt HDR.PAGE_CTL_FREEZE = false) :
    (d.fltClear m pg classes).get Pg.flt FLT.CLR_REFUSED_COUNT = min (d.get Pg.flt FLT.CLR_REFUSED_COUNT + 1) (2 ^ 32 - 1) := by
  have hc : (d.clearNo pg classes != 0) = true := bne_iff_ne.mpr h
  have hg := d.get_when_clearTakes m pg (d.clearOk pg classes) (d.clearOk pg classes != 0)
  have hv (e : Dev) : (e.fltView pg).get Pg.flt FLT.CLR_REFUSED_COUNT = e.get Pg.flt FLT.CLR_REFUSED_COUNT := by
    unfold Dev.get; rw [clearSpares_clrRefused.reg_fltView]
  rw [d.fltClear_eq, hv, hc, Dev.when_true, Dev.clrRefused_clearRefuses, hg _ clearSpares_clrRefused (by decide) (by decide)]
  unfold Dev.on at hf ⊢
  rw [hg HDR.PAGE_CTL_FREEZE (clearSpares_pageCtl _) (by decide) (by decide), hf]

/-- A clear moves no clock. -/
theorem Dev.clk_fltClear (d : Dev) (m : Master) (pg classes : Nat) : (d.fltClear m pg classes).clk = d.clk := by
  rw [d.fltClear_eq]
  exact (Dev.when_proj Dev.clk _ _ _ fun e => e.clk_clearRefuses m pg _).trans (Dev.when_proj Dev.clk _ _ _ fun e => (e.put _ _ _).clk_clearFollows m pg _)

/-- The classes that fall are those latched, named, not just latched and not live. -/
theorem Dev.clear_bits (d : Dev) (pg classes c : Nat) (hc : c < 5) :
    bit (d.get pg HDR.FLT_STS_LAT - d.clearOk pg classes) c =
      (bit (d.get pg HDR.FLT_STS_LAT) c && !(bit classes c && !bit (d.justSet (4096 * pg + HDR.FLT_STS_LAT.off)) c &&
        !bit (d.get pg HDR.FLT_STS_LIVE ||| d.justSet (4096 * pg + HDR.FLT_STS_LAT.off) / 256) c)) := by
  have hsub : d.clearOk pg classes = d.get pg HDR.FLT_STS_LAT &&& d.clearOk pg classes := by
    apply Nat.eq_of_testBit_eq
    intro i
    rw [Nat.testBit_and, Dev.clearOk, Dev.clearNo, testBit_sub_and, Dev.clearWant, Nat.testBit_and, Nat.testBit_and]
    cases (d.get pg HDR.FLT_STS_LAT).testBit i <;> simp
  rw [hsub]
  simp only [bit]
  rw [testBit_sub_and, Dev.clearOk, Dev.clearNo, testBit_sub_and, Dev.clearWant, Nat.testBit_and, Nat.testBit_and, testBit_complement_five _ _ hc]
  cases (d.get pg HDR.FLT_STS_LAT).testBit c <;> simp

/-- Settles O30: LAT loses the classes a clear takes, which are those wanted and not refused; the count follows the refusals. -/
theorem faultClearSparesLive : Obligations.FaultClearSparesLive := by
  unfold Obligations.FaultClearSparesLive
  intro d m pg classes
  refine ⟨fun c hc => ?_, d.live_fltClear m pg classes, d.clrRefused_fltClear_none m pg classes, d.clrRefused_fltClear_some m pg classes, d.clk_fltClear m pg classes⟩
  dsimp only
  rw [d.lat_fltClear, Dev.clear_bits _ _ _ _ hc]

end Sys2Proof.Machine
end

section
/-! PROOF. Stored values, locked fields (O19), the state after reset (O3) and register accesses (O46). -/

namespace Sys2Proof.Machine

/-! Access types of a stored value, and the lock of a block (R13, R14, R476). -/

/-- What a stored value leaves in bit i: set by W1S, else cleared by W1C where hardware has not just set it, else taken by RW and by RWL while unlocked, else kept. -/
theorem RegDesc.getLsbD_store (r : RegDesc) (o : Nat) (locked : Bool) (just v i : Nat) (w : Word) (hi : i < 96) :
    (r.store o locked just v w).getLsbD i =
      ((if bit (r.rwAt o) i || (!locked && bit r.rwl i) then bit v i else w.getLsbD i) && !(bit v i && bit r.w1c i && !bit just i) || (bit v i && bit r.w1s i)) := by
  have hrw : (r.rwAt o ||| (if locked then 0 else r.rwl)).testBit i = (bit (r.rwAt o) i || (!locked && bit r.rwl i)) := by
    cases locked <;> simp [bit]
  simp only [RegDesc.store, BitVec.getLsbD_or, BitVec.getLsbD_and, BitVec.getLsbD_not, BitVec.getLsbD_ofNat, hi, hrw]
  simp only [bit, decide_true, Bool.true_and]
  by_cases h : ((r.rwAt o).testBit i || (!locked && r.rwl.testBit i)) = true
  · simp [h]
  · simp [h]

/-- A locked register whose RWL fields are all it has stays whole, and one with other fields does not. -/
theorem Dev.lockedWhole_eq (d : Dev) {pg off : Nat} {r : RegDesc} (hr : regAt pg off = some r) (hl : d.locked pg = true) :
    d.lockedWhole pg off = (r.rwl != 0 && (r.rw ||| r.w1c ||| r.w1s ||| r.wo) == 0) := by
  unfold Dev.lockedWhole; rw [hr, hl]; rfl

/-- A served write of a register that is locked whole has its count alone. -/
theorem Dev.write_lockedWhole (d : Dev) {m : Master} {pg off : Nat} (v : Nat) (eff : Dev → Dev) (hg : d.gate m pg off = .served) (h : d.lockedWhole pg off = true) :
    d.write m pg off v eff = d.lockMiss pg off v := by
  unfold Dev.write; rw [hg]; exact if_pos h

/-- A served write of a register that is not locked whole is counted where a locked field keeps its value, and served. -/
theorem Dev.write_lockedPart (d : Dev) {m : Master} {pg off : Nat} (v : Nat) (eff : Dev → Dev) (hg : d.gate m pg off = .served) (h : d.lockedWhole pg off = false) :
    d.write m pg off v eff = eff ((d.lockMiss pg off v).served m pg off v) := by
  unfold Dev.write; rw [hg]; exact if_neg (by rw [h]; decide)

/-- WR_DISC counts a write whose value differs from what a locked RWL bit holds (R476). -/
theorem Dev.wrDisc_lockMiss (d : Dev) {pg off : Nat} (v : Nat) {r : RegDesc} (hr : regAt pg off = some r) (hl : d.locked pg = true) :
    (d.lockMiss pg off v).get pg HDR.PAGE_STS_WR_DISC =
      if ((v ^^^ (d.reg pg (r.start off)).toNat) &&& r.rwl) = 0 ∨ d.on pg HDR.PAGE_CTL_FREEZE = true then d.get pg HDR.PAGE_STS_WR_DISC
      else min (d.get pg HDR.PAGE_STS_WR_DISC + 1) (2 ^ 16 - 1) := by
  have hm : d.lockMiss pg off v = d.when (((v ^^^ (d.reg pg (r.start off)).toNat) &&& r.rwl) != 0) fun d => (d.count pg HDR.PAGE_STS_WR_DISC).pmc pg 4 := by
    unfold Dev.lockMiss; rw [hr, hl]; rfl
  rw [hm]
  by_cases h : ((v ^^^ (d.reg pg (r.start off)).toNat) &&& r.rwl) = 0
  · rw [if_pos (.inl h), h]; rfl
  · rw [bne_iff_ne.mpr h, Dev.when_true, Dev.get_pmc_outside _ _ _ _ _ _ (by decide) (by decide), Dev.get_count_same _ _ _ _ (by decide) (by decide) (by decide)]
    simp only [h, false_or]

/-- Settles O19: by the value of one stored bit, and by whether RWL fields are all the register has. -/
theorem lockedFieldsKeep : Obligations.LockedFieldsKeep := by
  unfold Obligations.LockedFieldsKeep
  refine ⟨fun r o locked just v i w hi => ?_, fun d m pg off v r eff hg hr hl => ⟨fun h0 h1 => ?_, fun h1 => ?_, d.wrDisc_lockMiss v hr hl⟩⟩
  · dsimp only
    rw [r.getLsbD_store o locked just v i w hi]
    refine ⟨?_, ?_, ?_, ?_, ?_⟩
    · intro hs hv; simp [hs, hv]
    · intro hc hs hv hj; simp [hc, hs, hv, hj]
    · intro hrw hc hs; simp [hrw, hc, hs]
    · intro hl hrw hc hs; cases locked <;> simp [hl, hrw, hc, hs]
    · rintro hrw hl (hv | ⟨hc | hj, hs⟩)
      · simp [hrw, hl, hv]
      · simp [hrw, hl, hc, hs]
      · simp [hrw, hl, hj, hs]
  · exact d.write_lockedWhole v eff hg (by rw [d.lockedWhole_eq hr hl, h1, bne_iff_ne.mpr h0]; rfl)
  · exact d.write_lockedPart v eff hg (by rw [d.lockedWhole_eq hr hl, beq_eq_false_iff_ne.mpr h1, Bool.and_false])

/-! What reset leaves (R16, R18, R62). -/

/-- At reset nothing is stored in a register: it reads its reset value. -/
theorem State.reset_reg (pg off : Nat) : State.reset.dev.reg pg off = resetWord (4096 * pg + off) := rfl

/-- The reset values of a timescale page: the nominal increment, the slew rate and an unbounded bound. -/
theorem State.reset_ts (n : Ts) : State.reset.dev.get (Pg.ts n) TS.INCR_INCR = 2 ^ 48 ∧ State.reset.dev.get (Pg.ts n) TS.INCR_EFF_EFF = 2 ^ 48 ∧
    State.reset.dev.get (Pg.ts n) TS.SLEW_MAX_RATE = 50 ∧ State.reset.dev.get (Pg.ts n) TS.BOUND_STS_CODE = 0xFFFF := by
  revert n; decide +kernel

/-- No boot is done at reset. -/
theorem State.reset_bootDone : State.reset.dev.get Pg.glb GLB.BOOT_STS_BOOT_DONE = 0 := by decide +kernel

/-- The accumulators are 0 at reset. -/
theorem State.reset_acc (n : Ts) : State.reset.dev.acc n = 0 := by
  revert n; decide

/-- Settles O3: the state after reset, register by register. -/
theorem resetState : Obligations.ResetState :=
  ⟨rfl, rfl, rfl, State.reset_acc, State.reset_reg, State.reset_ts, State.reset_bootDone⟩

/-! Register accesses that name a command (R12, R437, R438, R440). -/

/-- A write that is served names a register. -/
theorem Dev.regAt_of_served {d : Dev} {m : Master} {pg off : Nat} (h : d.gate m pg off = .served) : ∃ r, regAt pg off = some r := by
  cases hr : regAt pg off with
  | some r => exact ⟨r, rfl⟩
  | none =>
    exfalso
    unfold Dev.gate at h
    dsimp only at h
    rw [hr, Option.isNone_none, if_pos rfl] at h
    split at h
    · nomatch h
    · split at h
      · nomatch h
      · split at h
        · nomatch h
        · split at h <;> nomatch h

/-- A 32-bit access to an aligned address of BAR0, by a master whose link is up, writes the word there. -/
theorem routeWrite_word {m : Master} {a v : Nat} {s : State} (hc : (s.dev.inCave && (pfOf m).isSome) = false) (ha : a % 4 = 0) (hb : a < 2 ^ 25) :
    routeWrite m a false v s = writeWord m a v s := by
  unfold routeWrite
  rw [hc, if_neg Bool.false_ne_true, if_neg Bool.false_ne_true, if_neg (by omega)]
  rfl

/-- A 32-bit write of a register of at most 32 bits, outside GLB, is the command its offset and value spell. -/
theorem writeWord_narrow {m : Master} {pg off v : Nat} {s : State} {r : RegDesc} (hr : regAt pg off = some r) (hw : r.width ≤ 32) (hpg : pg ≠ Pg.glb)
    (ho : off < 4096) (hv : v < 2 ^ 32) : writeWord m (4096 * pg + off) v s = routeReg m pg off v s := by
  have h1 : (4096 * pg + off) / 4096 = pg := by omega
  have h2 : (4096 * pg + off) % 4096 = off := by omega
  unfold writeWord
  dsimp only
  rw [h1, h2, hr, Nat.mod_eq_of_lt hv]
  simp only [hpg, false_and, if_false, hw, if_true]

/-- No monitor lies on a page outside REF, ATM, US and GNSS 0 (R83). -/
theorem monAt_none {pg : Nat} (off : Nat) (h : pg < Pg.ref 0 ∨ Pg.gnss 0 < pg) : monAt pg off = none := by
  have hk : ∀ k : Fin 19, Pg.ref 0 ≤ monPg k ∧ monPg k ≤ Pg.gnss 0 := by decide
  unfold monAt
  refine List.find?_eq_none.mpr fun k _ => ?_
  have hne : monPg k ≠ pg := by have := hk k; omega
  simp [hne]

/-- An own register of the selector or the holdover page has no command of its own. -/
theorem routeReg_selHld {m : Master} {pg off v : Nat} {s : State} (hpg : pg = Pg.sel ∨ pg = Pg.hld) (ho : 0x100 ≤ off) :
    routeReg m pg off v s = execPlain m pg off v s := by
  have hm : monAt pg off = none := monAt_none off (by dsimp only [Pg.sel, Pg.hld, Pg.ref] at hpg ⊢; omega)
  unfold routeReg
  rw [if_neg (by omega), hm]
  rcases hpg with rfl | rfl <;> rfl

/-- A value stored in the selector page brings nothing else; one in the holdover page lets both units follow (R125). -/
theorem Dev.plainStore_selHld (d : Dev) {pg : Nat} (off v : Nat) (hpg : pg = Pg.sel ∨ pg = Pg.hld) :
    d.plainStore pg off v = if pg = Pg.hld then ((d.storeReg pg off v).hldFollow 0).hldFollow 1 else d.storeReg pg off v := by
  rcases hpg with rfl | rfl <;> rfl

/-- The path asymmetry of a port has 32 bits (R224). -/
theorem regAt_ptsAsym_width (p : Fin 24) : ∀ r, regAt (Pg.pts p) 0x110 = some r → r.width ≤ 32 := by
  have h : ∀ p : Fin 24, (regAt (Pg.pts p) 0x110).all (fun r => r.width ≤ 32) = true := by decide +kernel
  intro r hr
  have := h p
  rw [hr] at this
  exact of_decide_eq_true this

/-- An own register of a port, stamp or cluster page goes to the commands of those pages. -/
theorem routeReg_port {m : Master} {pg off v : Nat} {s : State} (hpg : Pg.port 0 ≤ pg) (hpg' : pg < Pg.rsp 0) (ho : 0x100 ≤ off) :
    routeReg m pg off v s = routePort m pg off v s := by
  dsimp only [Pg.port, Pg.rsp] at hpg hpg'
  have hm : monAt pg off = none := monAt_none off (by dsimp only [Pg.gnss]; omega)
  unfold routeReg
  rw [if_neg (by omega), hm]
  dsimp only [Pg.ts, Pg.svc, Pg.ref, Pg.gnss, Pg.syn, Pg.tdc, Pg.evo, Pg.port, Pg.rsp]
  rw [if_neg (by omega), if_neg (by omega), if_neg (by omega), if_neg (by omega), if_neg (by omega), if_neg (by omega), if_neg (by omega), if_neg (by omega),
    if_neg (by omega), if_pos (by omega)]

/-- A write of the path asymmetry of a port is its command. -/
theorem routeReg_ptsAsym (m : Master) (p : Fin 24) (v : Nat) (s : State) : routeReg m (Pg.pts p) 0x110 v s = execPtsDelayWrite m p 0x110 v s := by
  have hp : Fin.ofNat 24 ((Pg.pts p - Pg.port 0) / 2) = p := by
    apply Fin.ext; dsimp only [Pg.pts, Pg.port, Fin.ofNat]; omega
  rw [routeReg_port (by dsimp only [Pg.pts, Pg.port]; omega) (by dsimp only [Pg.pts, Pg.rsp]; omega) (by decide)]
  unfold routePort
  rw [if_neg (by dsimp only [Pg.pts, Pg.pc]; omega), hp, if_neg (by dsimp only [Pg.pts]; omega)]
  rfl

/-- Settles O46: the access passes to the command of its register, whose write is served. -/
theorem registerWritesComplete : Obligations.RegisterWritesComplete := by
  unfold Obligations.RegisterWritesComplete
  refine fun s => ⟨fun m pg off v hpg ho ho' ha hv hw hc hs => ?_, fun p v octets hv hop hen hs => ?_⟩
  · obtain ⟨r, hr⟩ := Dev.regAt_of_served hs.1
    calc exec (.registerWrite m (4096 * pg + off) false v) s
        = routeWrite m (4096 * pg + off) false v s := rfl
      _ = writeWord m (4096 * pg + off) v s := routeWrite_word (by rw [hc]; rfl) (by omega) (by dsimp only [Pg.sel, Pg.hld] at hpg; omega)
      _ = routeReg m pg off v s := writeWord_narrow hr (hw r hr) (by dsimp only [Pg.sel, Pg.hld, Pg.glb] at hpg ⊢; omega) ho' hv
      _ = execPlain m pg off v s := routeReg_selHld hpg ho
      _ = .next (s.withDev ((s.took m pg off v).plainStore pg off v)) := by rw [execPlain, State.run_eq, Dev.write_served hs]
      _ = _ := by rw [Dev.plainStore_selHld _ _ _ hpg]
  · obtain ⟨r, hr⟩ := Dev.regAt_of_served hs.1
    calc exec (.mgmtWriteTransfer octets) s
        = routeWrite .mgmt (4096 * Pg.pts p + 0x110) false v s := by
          show execMgmtWriteTransfer octets s = _
          rw [execMgmtWriteTransfer, hen, hop]; rfl
      _ = writeWord .mgmt (4096 * Pg.pts p + 0x110) v s := routeWrite_word (Bool.and_false _) (by omega) (by dsimp only [Pg.pts]; omega)
      _ = routeReg .mgmt (Pg.pts p) 0x110 v s := writeWord_narrow hr (regAt_ptsAsym_width p r hr) (by dsimp only [Pg.pts, Pg.glb]; omega) (by decide) hv
      _ = execPtsDelayWrite .mgmt p 0x110 v s := routeReg_ptsAsym .mgmt p v s
      _ = _ := by rw [execPtsDelayWrite, State.run_eq, Dev.writeStore, Dev.write_served hs]; rfl

end Sys2Proof.Machine
end

section
/-! PROOF. What every command answers: a next state with the queue it found, and which commands may move the clock (O1, O2, O7). -/

namespace Sys2Proof.Machine

/-! Answers. Each command runs its effect in one of four frames, which fix what becomes of the queue and of the clock (R18, R27, R40). -/

/-- The outcome of a command on a state is a next state with the queue of that state, whose clock stands in a relation to the clock before. -/
def Answers (R : Clock → Clock → Prop) (s : State) (o : Host.Outcome State Fault Refusal) : Prop :=
  ∃ t, o = .next t ∧ t.pending = s.pending ∧ R s.dev.clk t.dev.clk

/-- The clock stays. -/
abbrev KeepsClock (c c' : Clock) : Prop := c' = c

/-- The clock stays, or a package reset has put it at its reset value. -/
abbrev KeepsOrResets (c c' : Clock) : Prop := c' = c ∨ c' = {}

/-- The MEC stays. -/
abbrev KeepsMec (c c' : Clock) : Prop := c'.mec = c.mec

theorem Answers.of_withDev {s : State} {o : Host.Outcome State Fault Refusal} {d : Dev} (h : o = .next (s.withDev d)) : Answers KeepsClock s o := ⟨_, h, rfl, rfl⟩

theorem Answers.of_withStore {s : State} {o : Host.Outcome State Fault Refusal} {r : List (Nat × BitVec 64) × Dev} (h : o = .next (s.withStore r)) : Answers KeepsClock s o :=
  ⟨_, h, rfl, rfl⟩

theorem State.answers_run (s : State) (f : Dev → Dev) : Answers KeepsClock s (s.run f) := .of_withDev (s.run_eq f)

/-- What may make a package reset keeps the clock or clears it. -/
theorem State.clk_withReset (s : State) (r : List (Nat × BitVec 64) × Dev) : KeepsOrResets s.dev.clk (s.withReset r).dev.clk := by
  unfold KeepsOrResets State.withReset
  dsimp only
  split
  · exact .inr rfl
  · exact .inl rfl

theorem State.answers_runReset (s : State) (f : List (Nat × BitVec 64) → Dev → List (Nat × BitVec 64) × Dev) : Answers KeepsOrResets s (s.runReset f) :=
  ⟨_, s.runReset_eq f, rfl, s.clk_withReset _⟩

theorem Answers.orResets {s : State} {o : Host.Outcome State Fault Refusal} (h : Answers KeepsClock s o) : Answers KeepsOrResets s o := by
  obtain ⟨t, ho, hp, hc⟩ := h
  exact ⟨t, ho, hp, .inl hc⟩

/-- A command that answers completes. -/
theorem Answers.completes {R : Clock → Clock → Prop} {s : State} {c : Instr} (h : Answers R s (exec c s)) : Completes c s := by
  obtain ⟨t, ho, hp, -⟩ := h
  exact ⟨t, ho, hp⟩

/-- What is known of the clock that a command answers, holds of the next state. -/
theorem Answers.clk_next {R : Clock → Clock → Prop} {s t : State} {o : Host.Outcome State Fault Refusal} (h : Answers R s o) (ht : o = .next t) : R s.dev.clk t.dev.clk := by
  obtain ⟨t', ho, -, hc⟩ := h
  rw [ho] at ht
  cases ht
  exact hc

/-- An answer on a state with the same queue and the same clock. -/
theorem Answers.congr {R : Clock → Clock → Prop} {s s' : State} {o : Host.Outcome State Fault Refusal} (h : Answers R s' o) (hp : s'.pending = s.pending) (hc : s'.dev.clk = s.dev.clk) :
    Answers R s o := by
  unfold Answers at h ⊢
  rwa [← hp, ← hc]

/-- A choice between two commands answers what both answer. -/
theorem Answers.ite {R : Clock → Clock → Prop} {s : State} {a b : Host.Outcome State Fault Refusal} (c : Prop) [Decidable c] (ha : Answers R s a) (hb : Answers R s b) :
    Answers R s (if c then a else b) := by
  split
  · exact ha
  · exact hb

/-- A command that is no step, no last tick of a slew and cannot make a package reset keeps the clock. -/
theorem exec_keepsClock (c : Instr) (s : State) (hr : mayReset c = false) (hm : movesTime c = false) : Answers KeepsClock s (exec c s) := by
  cases c
  case stepApply | slewComplete => nomatch hm
  case powerOn | pkgRstN | caveBrownout | packageReset | boot | bootWatchdogExpiry | copyDone | ldrWatchdogExpiry | registerWrite | mgmtWriteTransfer => nomatch hr
  case cryptoOp | claimWaitEnd | mirrorEntryRx | cstWrite | cstSetWrite | cstClearWrite | brineExit | admissionCycle | thermalSample | capStep | caveRevoke | caveStore | caveEntered |
      softRst | freezeWrite | regionCmd | dieCmd | c4RegionReset | delayReqRx | signalingRx | wheelSlot | domCtlWrite =>
    exact Answers.of_withStore rfl
  all_goals exact Answers.of_withDev rfl

/-! Register accesses. Each block's table of commands ends in commands that keep the clock, but for GLB_RST_CMD (R449). -/

theorem routeHeader_keepsClock (m : Master) (pg off v : Nat) (s : State) : Answers KeepsClock s (routeHeader m pg off v s) := by
  unfold routeHeader
  dsimp only
  repeat' with_reducible apply Answers.ite
  all_goals exact ⟨_, rfl, rfl, rfl⟩

theorem routeTime_keepsClock (m : Master) (n : Ts) (off v : Nat) (s : State) : Answers KeepsClock s (routeTime m n off v s) := by
  unfold routeTime
  dsimp only
  repeat' with_reducible apply Answers.ite
  all_goals exact ⟨_, rfl, rfl, rfl⟩

theorem routeMonitor_keepsClock (m : Master) (k : Fin 19) (off v : Nat) (s : State) : Answers KeepsClock s (routeMonitor m k off v s) := by
  unfold routeMonitor
  dsimp only
  repeat' with_reducible apply Answers.ite
  all_goals exact ⟨_, rfl, rfl, rfl⟩

theorem routeReference_keepsClock (m : Master) (pg off v : Nat) (s : State) : Answers KeepsClock s (routeReference m pg off v s) := by
  unfold routeReference
  dsimp only
  repeat' with_reducible apply Answers.ite
  all_goals exact ⟨_, rfl, rfl, rfl⟩

theorem routeGnss_keepsClock (m : Master) (p : Fin 8) (off v : Nat) (s : State) : Answers KeepsClock s (routeGnss m p off v s) := by
  unfold routeGnss
  repeat' with_reducible apply Answers.ite
  all_goals exact ⟨_, rfl, rfl, rfl⟩

theorem routeSynthesis_keepsClock (m : Master) (pg off v : Nat) (s : State) : Answers KeepsClock s (routeSynthesis m pg off v s) := by
  unfold routeSynthesis
  dsimp only
  repeat' with_reducible apply Answers.ite
  all_goals exact ⟨_, rfl, rfl, rfl⟩

theorem routeTdc_keepsClock (m : Master) (pg off v : Nat) (s : State) : Answers KeepsClock s (routeTdc m pg off v s) := by
  unfold routeTdc
  dsimp only
  repeat' with_reducible apply Answers.ite
  all_goals exact ⟨_, rfl, rfl, rfl⟩

theorem routePulse_keepsClock (m : Master) (pg off v : Nat) (s : State) : Answers KeepsClock s (routePulse m pg off v s) := by
  unfold routePulse
  dsimp only
  repeat' with_reducible apply Answers.ite
  all_goals exact ⟨_, rfl, rfl, rfl⟩

theorem routePort_keepsClock (m : Master) (pg off v : Nat) (s : State) : Answers KeepsClock s (routePort m pg off v s) := by
  unfold routePort
  dsimp only
  repeat' with_reducible apply Answers.ite
  all_goals exact ⟨_, rfl, rfl, rfl⟩

theorem routeService_keepsClock (m : Master) (pg off v : Nat) (s : State) : Answers KeepsClock s (routeService m pg off v s) := by
  unfold routeService
  repeat' with_reducible apply Answers.ite
  all_goals exact ⟨_, rfl, rfl, rfl⟩

theorem routeLane_keepsClock (m : Master) (n : Fin 16) (off v : Nat) (s : State) : Answers KeepsClock s (routeLane m n off v s) := by
  unfold routeLane
  repeat' with_reducible apply Answers.ite
  all_goals exact ⟨_, rfl, rfl, rfl⟩

theorem routeKey_keepsClock (m : Master) (pg off v : Nat) (s : State) : Answers KeepsClock s (routeKey m pg off v s) := by
  unfold routeKey
  dsimp only
  repeat' with_reducible apply Answers.ite
  all_goals exact ⟨_, rfl, rfl, rfl⟩

theorem routeAudio_keepsClock (m : Master) (p : Fin 4) (off v : Nat) (s : State) : Answers KeepsClock s (routeAudio m p off v s) := by
  unfold routeAudio
  dsimp only
  repeat' with_reducible apply Answers.ite
  all_goals exact ⟨_, rfl, rfl, rfl⟩

theorem routeSequencer_keepsClock (m : Master) (n : Fin 8) (off v : Nat) (s : State) : Answers KeepsClock s (routeSequencer m n off v s) := by
  unfold routeSequencer
  dsimp only
  repeat' with_reducible apply Answers.ite
  all_goals exact ⟨_, rfl, rfl, rfl⟩

theorem routeControl_keepsClock (m : Master) (pg off v : Nat) (s : State) : Answers KeepsClock s (routeControl m pg off v s) := by
  unfold routeControl
  repeat' with_reducible apply Answers.ite
  all_goals exact ⟨_, rfl, rfl, rfl⟩

theorem routePair_keepsClock (m : Master) (off v : Nat) (s : State) : Answers KeepsClock s (routePair m off v s) := by
  unfold routePair
  repeat' with_reducible apply Answers.ite
  all_goals exact ⟨_, rfl, rfl, rfl⟩

theorem routeLoader_keepsClock (m : Master) (off v : Nat) (s : State) : Answers KeepsClock s (routeLoader m off v s) := by
  unfold routeLoader
  dsimp only
  repeat' with_reducible apply Answers.ite
  all_goals exact ⟨_, rfl, rfl, rfl⟩

/-- GLB_RST_CMD alone may make a package reset. -/
theorem routeGlobal_keepsOrResets (m : Master) (pg off v : Nat) (s : State) : Answers KeepsOrResets s (routeGlobal m pg off v s) := by
  unfold routeGlobal
  dsimp only
  refine .ite _ (.ite _ (.ite _ ?_ (.ite _ ?_ (.ite _ (s.answers_runReset _) ?_))) ?_) ?_
  all_goals
    refine Answers.orResets ?_
    repeat' with_reducible apply Answers.ite
    all_goals exact ⟨_, rfl, rfl, rfl⟩

/-- The command that a write of a whole register spells keeps the clock or resets it. -/
theorem routeReg_keepsOrResets (m : Master) (pg off v : Nat) (s : State) : Answers KeepsOrResets s (routeReg m pg off v s) := by
  unfold routeReg
  refine .ite _ (routeHeader_keepsClock ..).orResets ?_
  split
  · exact (routeMonitor_keepsClock ..).orResets
  · dsimp only
    repeat' with_reducible apply Answers.ite
    · exact routeGlobal_keepsOrResets ..
    · exact (routeTime_keepsClock ..).orResets
    · exact ⟨_, rfl, rfl, .inl rfl⟩
    · exact ⟨_, rfl, rfl, .inl rfl⟩
    · exact ⟨_, rfl, rfl, .inl rfl⟩
    · exact (s.answers_run _).orResets
    · exact (routeReference_keepsClock ..).orResets
    · exact (routeGnss_keepsClock ..).orResets
    · exact (routeSynthesis_keepsClock ..).orResets
    · exact (routeTdc_keepsClock ..).orResets
    · exact (routePulse_keepsClock ..).orResets
    · exact (routePort_keepsClock ..).orResets
    · exact (routeService_keepsClock ..).orResets
    · exact (routeLane_keepsClock ..).orResets
    · exact (routeKey_keepsClock ..).orResets
    · exact (routeAudio_keepsClock ..).orResets
    · exact (routeSequencer_keepsClock ..).orResets
    · exact (routeControl_keepsClock ..).orResets
    · exact (routePair_keepsClock ..).orResets
    · exact (routeLoader_keepsClock ..).orResets
    · exact (s.answers_run _).orResets

/-- A 32-bit access is a register write, or holds a part of one, or is discarded. -/
theorem writeWord_keepsOrResets (m : Master) (a v : Nat) (s : State) : Answers KeepsOrResets s (writeWord m a v s) := by
  unfold writeWord
  dsimp only
  refine .ite _ (s.answers_run _).orResets ?_
  split
  · exact (s.answers_run _).orResets
  · refine .ite _ (routeReg_keepsOrResets ..) ?_
    split
    · split
      · exact (routeReg_keepsOrResets ..).congr rfl rfl
      · exact ⟨_, rfl, rfl, .inl rfl⟩
    · exact (s.answers_run _).orResets

/-- A second half that keeps the clock or resets it leaves that of both halves so. -/
theorem Answers.andThen {s : State} {o : Host.Outcome State Fault Refusal} {f : State → Host.Outcome State Fault Refusal} (h : Answers KeepsOrResets s o)
    (k : ∀ t, Answers KeepsOrResets t (f t)) : Answers KeepsOrResets s (andThen o f) := by
  obtain ⟨t, rfl, hp, hc⟩ := h
  obtain ⟨u, ho, hp', hc'⟩ := k t
  refine ⟨u, ho, hp'.trans hp, ?_⟩
  obtain hc' | hc' := hc'
  · exact hc' ▸ hc
  · exact .inr hc'

theorem routeWrite_keepsOrResets (m : Master) (a : Nat) (wide : Bool) (v : Nat) (s : State) : Answers KeepsOrResets s (routeWrite m a wide v s) := by
  unfold routeWrite
  dsimp only
  refine .ite _ ?_ (.ite _ ?_ (.ite _ ?_ (.ite _ ?_ ?_)))
  · exact ⟨_, rfl, rfl, .inl rfl⟩
  · exact (s.answers_run _).orResets
  · exact writeWord_keepsOrResets ..
  · exact (s.answers_run _).orResets
  · exact (writeWord_keepsOrResets ..).andThen fun t => writeWord_keepsOrResets ..

theorem execMgmtWriteTransfer_keepsOrResets (octets : List Nat) (s : State) : Answers KeepsOrResets s (execMgmtWriteTransfer octets s) := by
  unfold execMgmtWriteTransfer
  split
  · exact ⟨_, rfl, rfl, .inl rfl⟩
  · split
    · exact routeWrite_keepsOrResets ..
    · exact (s.answers_run _).orResets

/-- A command that can make a package reset keeps the clock or puts it at its reset value. -/
theorem exec_keepsOrResets (c : Instr) (s : State) (hr : mayReset c = true) : Answers KeepsOrResets s (exec c s) := by
  cases c
  case registerWrite m addr wide v => exact routeWrite_keepsOrResets m addr wide v s
  case mgmtWriteTransfer octets => exact execMgmtWriteTransfer_keepsOrResets octets s
  case powerOn | pkgRstN | caveBrownout | packageReset | boot | bootWatchdogExpiry | copyDone | ldrWatchdogExpiry =>
    exact ⟨s.withReset _, rfl, rfl, s.clk_withReset _⟩
  all_goals nomatch hr

/-- A step and the last tick of a slew keep the MEC. -/
theorem exec_keepsMec (c : Instr) (s : State) (hm : movesTime c = true) : Answers KeepsMec s (exec c s) := by
  cases c
  case stepApply | slewComplete => exact ⟨_, rfl, rfl, rfl⟩
  all_goals nomatch hm

/-! The obligations. -/

/-- Settles O1: the front command is taken off the queue and run. -/
theorem stepRunsFrontCommand : Obligations.StepRunsFrontCommand := fun _ _ _ => rfl

/-- Settles O2: each command runs in a frame that leaves the queue alone, or passes on to one that does. -/
theorem everyCommandAnswers : Obligations.EveryCommandAnswers := by
  unfold Obligations.EveryCommandAnswers
  intro c s
  cases hr : mayReset c with
  | true => exact (exec_keepsOrResets c s hr).completes
  | false =>
    cases hm : movesTime c with
    | true => exact (exec_keepsMec c s hm).completes
    | false => exact (exec_keepsClock c s hr hm).completes

/-- Settles O7: by the frame that each command runs in. -/
theorem onlyStepsAndSlewsMoveTime : Obligations.OnlyStepsAndSlewsMoveTime := by
  unfold Obligations.OnlyStepsAndSlewsMoveTime
  exact ⟨fun c s t ht hr hm => (exec_keepsClock c s hr hm).clk_next ht, fun c s t ht hr => (exec_keepsOrResets c s hr).clk_next ht⟩

end Sys2Proof.Machine
end

section
/-! PROOF. What a served write leaves (O15), and what a discarded one counts (O16). -/

namespace Sys2Proof.Machine

/-! Effects on registers alone. -/

/-- Nothing but registers differs. -/
def Dev.OnlyRegs (d e : Dev) : Prop := e = { d with regs := e.regs }

/-- Nothing but registers and event stamps differs. -/
def Dev.OnlyMarks (d e : Dev) : Prop := e = { d with regs := e.regs, events := e.events }

theorem Dev.OnlyRegs.refl (d : Dev) : d.OnlyRegs d := rfl

theorem Dev.OnlyRegs.trans {a b c : Dev} (h : a.OnlyRegs b) (k : b.OnlyRegs c) : a.OnlyRegs c := by
  unfold Dev.OnlyRegs at h k ⊢
  rw [k, h]

theorem Dev.OnlyRegs.clk_eq {d e : Dev} (h : d.OnlyRegs e) : e.clk = d.clk := by unfold Dev.OnlyRegs at h; rw [h]

theorem Dev.OnlyRegs.events_eq {d e : Dev} (h : d.OnlyRegs e) : e.events = d.events := by unfold Dev.OnlyRegs at h; rw [h]

theorem Dev.OnlyRegs.marks {d e : Dev} (h : d.OnlyRegs e) : d.OnlyMarks e := by
  unfold Dev.OnlyRegs at h
  unfold Dev.OnlyMarks
  rw [h]

theorem Dev.OnlyMarks.trans {a b c : Dev} (h : a.OnlyMarks b) (k : b.OnlyMarks c) : a.OnlyMarks c := by
  unfold Dev.OnlyMarks at h k ⊢
  rw [k, h]

theorem Dev.onlyRegs_put (d : Dev) (pg : Nat) (f : Fld) (v : Nat) : d.OnlyRegs (d.put pg f v) := rfl

theorem Dev.onlyRegs_pmcStep (d : Dev) (pg k : Nat) : d.OnlyRegs (d.pmcStep pg k) := by
  unfold Dev.pmcStep
  dsimp only
  split
  · exact (d.onlyRegs_put _ _ _).trans (Dev.onlyRegs_put _ _ _ _)
  · exact d.onlyRegs_put _ _ _

/-- A counted event changes registers alone. -/
theorem Dev.onlyRegs_pmc (d : Dev) (pg ev : Nat) (a : Attr) : d.OnlyRegs (d.pmc pg ev a) := by
  unfold Dev.pmc
  split
  · exact .refl d
  · refine Dev.each_keeps d.OnlyRegs _ (fun k e h => ?_) _ d (.refl d)
    unfold Dev.when
    split
    · exact h.trans (e.onlyRegs_pmcStep pg k)
    · exact h

theorem Dev.onlyRegs_count (d : Dev) (pg : Nat) (f : Fld) (a : Attr) : d.OnlyRegs (d.count pg f a) := by
  unfold Dev.count
  split
  · exact .refl d
  · exact (d.onlyRegs_put _ _ _).trans (Dev.onlyRegs_pmc _ _ _ _)

/-! What a served write leaves, in its parts (R32, R35, R444). -/

/-- The MEC that a write carries depends on the clock and the event stamps alone. -/
theorem Dev.serveMec_congr {d e : Dev} (hc : e.clk = d.clk) (he : e.events = d.events) (pg : Nat) : e.serveMec pg = d.serveMec pg := by
  unfold Dev.serveMec Dev.stampOf Dev.now
  rw [hc, he]

/-- The calendar word of a tick depends on the clock and the own registers of the page of TSA alone. -/
theorem Dev.calOf_congr {d e : Dev} (hc : e.clk = d.clk) (hr : ∀ o, 0x100 ≤ o → o < 4096 → e.reg (Pg.ts 0) o = d.reg (Pg.ts 0) o) (t : Nat) : e.calOf t = d.calOf t := by
  have hg (f : Fld) (h : 0x100 ≤ f.off) (h' : f.off < 4096) : e.get (Pg.ts 0) f = d.get (Pg.ts 0) f := by
    unfold Dev.get
    rw [hr f.off h h']
  unfold Dev.calOf Dev.calAt Dev.geti Dev.acc Dev.now
  rw [hc, hg TS.UTC_OFFSET_VALID (by decide) (by decide), hg TS.UTC_OFFSET_OFFSET (by decide) (by decide), hg TS.LEAP_CTL_PENDING (by decide) (by decide),
    hg TS.LEAP_AT_SEC (by decide) (by decide), hg TS.INCR_EFF_EFF (by decide) (by decide)]

/-- LAST_WR and the event stamp of a write served at a MEC. -/
def Dev.lastWr (d : Dev) (m : Master) (pg off t : Nat) : Dev :=
  (((d.put pg HDR.LAST_WR_MEC_MEC t).put pg HDR.LAST_WR_MASTER_OFS off).put pg HDR.LAST_WR_MASTER_MASTER (masterId m)).stampAs pg 0 t

/-- The readback group of a command served at a MEC. -/
def Dev.readback (d : Dev) (m : Master) (pg off v t : Nat) : Dev :=
  (((d.put pg HDR.CMD_RB_OFS_OFS off).put pg HDR.CMD_RB_VAL_VAL v).put pg HDR.CMD_RB_MEC_MEC t).put pg HDR.CMD_RB_MASTER_MASTER (masterId m)

/-- A write of this value enters the readback group. -/
def entersReadback (pg off v : Nat) : Bool := (regAt pg off).any fun r => isCommand r v && !noReadback pg off

/-- The event that counts an accepted write (R368). -/
def Dev.accepted (d : Dev) (m : Master) (pg off : Nat) : Dev := d.pmc pg 3 { master := some m, addr := some (4096 * pg + off) }

theorem Dev.serveMec_accepted (d : Dev) (m : Master) (pg off : Nat) : (d.accepted m pg off).serveMec pg = d.serveMec pg :=
  Dev.serveMec_congr (d.onlyRegs_pmc _ _ _).clk_eq (d.onlyRegs_pmc _ _ _).events_eq pg

/-- A served write of SNAP_CTL is counted alone. -/
theorem Dev.served_snapCtl (d : Dev) (m : Master) (pg v : Nat) : d.served m pg 0x70 v = d.accepted m pg 0x70 := rfl

/-- Any other is counted, shows in LAST_WR, and in the readback group where it enters it. -/
theorem Dev.served_eq (d : Dev) (m : Master) (pg off v : Nat) (h : off ≠ 0x70) :
    d.served m pg off v = (((d.accepted m pg off).lastWr m pg off (d.serveMec pg)).when (entersReadback pg off v) fun e => e.readback m pg off v (d.serveMec pg)) := by
  rw [← d.serveMec_accepted m pg off]
  unfold Dev.served entersReadback
  dsimp only
  rw [if_neg h]
  split
  · next r hr => rw [hr]; rfl
  · next hr => rw [hr]; rfl

theorem Dev.reg_accepted (d : Dev) (m : Master) (pg off : Nat) {p o : Nat} (h : 0x60 ≤ o) (h' : o < 4096) : (d.accepted m pg off).reg p o = d.reg p o :=
  d.reg_pmc _ _ _ h h'

/-- LAST_WR is all that a write leaves there. -/
theorem Dev.reg_lastWr (d : Dev) (m : Master) (pg off t : Nat) {p o : Nat} (h : p ≠ pg ∨ (o ≠ 0x60 ∧ o ≠ 0x68)) (h' : o < 4096) : (d.lastWr m pg off t).reg p o = d.reg p o := by
  unfold Dev.lastWr
  rw [Dev.reg_stampAs, Dev.reg_put_ne _ _ _ (by dsimp only; omega), Dev.reg_put_ne _ _ _ (by dsimp only; omega), Dev.reg_put_ne _ _ _ (by dsimp only; omega)]

/-- The readback group is all that a command leaves there. -/
theorem Dev.reg_readback (d : Dev) (m : Master) (pg off v t : Nat) {p o : Nat} (h : p ≠ pg ∨ o < 0xC0 ∨ 0xE0 ≤ o) (h' : o < 4096) : (d.readback m pg off v t).reg p o = d.reg p o := by
  unfold Dev.readback
  rw [Dev.reg_put_ne _ _ _ (by dsimp only; omega), Dev.reg_put_ne _ _ _ (by dsimp only; omega), Dev.reg_put_ne _ _ _ (by dsimp only; omega), Dev.reg_put_ne _ _ _ (by dsimp only; omega)]

theorem masterId_lt (m : Master) : masterId m < 256 := by
  cases m <;> (dsimp only [masterId]; omega)

theorem Dev.get_stampAs (d : Dev) (pg kind mec pg' : Nat) (f : Fld) : (d.stampAs pg kind mec).get pg' f = d.get pg' f := by
  unfold Dev.get; rw [Dev.reg_stampAs]

/-- The event stamp of a page reads as it was kept. -/
theorem Dev.stampOf_stampAs (d : Dev) (pg kind mec : Nat) : (d.stampAs pg kind mec).stampOf pg kind = some ⟨mec, d.calOf mec⟩ := by
  unfold Dev.stampOf Dev.stampAs
  rw [sget_sset_same]

theorem Dev.calOf_put_header (d : Dev) (pg : Nat) (f : Fld) (v t : Nat) (h : f.off < 0x100) : (d.put pg f v).calOf t = d.calOf t :=
  Dev.calOf_congr (d.put_clk pg f v) (fun _ _ _ => d.reg_put_ne _ _ (by omega)) t

theorem Dev.get_lastWr_mec (d : Dev) (m : Master) (pg off t : Nat) (h : t < 2 ^ 64) : (d.lastWr m pg off t).get pg HDR.LAST_WR_MEC_MEC = t := by
  unfold Dev.lastWr
  rw [Dev.get_stampAs, Dev.get_put_ne _ _ _ _ (by dsimp only; omega), Dev.get_put_ne _ _ _ _ (by dsimp only; omega), Dev.get_put_same _ _ _ _ (by decide)]
  exact Nat.mod_eq_of_lt h

theorem Dev.get_lastWr_ofs (d : Dev) (m : Master) (pg off t : Nat) (h : off < 4096) : (d.lastWr m pg off t).get pg HDR.LAST_WR_MASTER_OFS = off := by
  unfold Dev.lastWr
  rw [Dev.get_stampAs, Dev.get_put_disj _ _ HDR.LAST_WR_MASTER_MASTER HDR.LAST_WR_MASTER_OFS _ rfl (by decide) (by decide), Dev.get_put_same _ _ _ _ (by decide)]
  exact Nat.mod_eq_of_lt h

theorem Dev.get_lastWr_master (d : Dev) (m : Master) (pg off t : Nat) : (d.lastWr m pg off t).get pg HDR.LAST_WR_MASTER_MASTER = masterId m := by
  unfold Dev.lastWr
  rw [Dev.get_stampAs, Dev.get_put_same _ _ _ _ (by decide)]
  exact Nat.mod_eq_of_lt (masterId_lt m)

theorem Dev.stampOf_lastWr (d : Dev) (m : Master) (pg off t : Nat) : (d.lastWr m pg off t).stampOf pg 0 = some ⟨t, d.calOf t⟩ := by
  unfold Dev.lastWr
  rw [Dev.stampOf_stampAs, Dev.calOf_put_header _ _ _ _ _ (by decide), Dev.calOf_put_header _ _ _ _ _ (by decide), Dev.calOf_put_header _ _ _ _ _ (by decide)]

theorem Dev.get_readback_ofs (d : Dev) (m : Master) (pg off v t : Nat) (h : off < 4096) : (d.readback m pg off v t).get pg HDR.CMD_RB_OFS_OFS = off := by
  unfold Dev.readback
  rw [Dev.get_put_ne _ _ _ _ (by dsimp only; omega), Dev.get_put_ne _ _ _ _ (by dsimp only; omega), Dev.get_put_ne _ _ _ _ (by dsimp only; omega), Dev.get_put_same _ _ _ _ (by decide)]
  exact Nat.mod_eq_of_lt h

theorem Dev.get_readback_val (d : Dev) (m : Master) (pg off v t : Nat) (h : v < 2 ^ 64) : (d.readback m pg off v t).get pg HDR.CMD_RB_VAL_VAL = v := by
  unfold Dev.readback
  rw [Dev.get_put_ne _ _ _ _ (by dsimp only; omega), Dev.get_put_ne _ _ _ _ (by dsimp only; omega), Dev.get_put_same _ _ _ _ (by decide)]
  exact Nat.mod_eq_of_lt h

theorem Dev.get_readback_mec (d : Dev) (m : Master) (pg off v t : Nat) (h : t < 2 ^ 64) : (d.readback m pg off v t).get pg HDR.CMD_RB_MEC_MEC = t := by
  unfold Dev.readback
  rw [Dev.get_put_ne _ _ _ _ (by dsimp only; omega), Dev.get_put_same _ _ _ _ (by decide)]
  exact Nat.mod_eq_of_lt h

theorem Dev.get_readback_master (d : Dev) (m : Master) (pg off v t : Nat) : (d.readback m pg off v t).get pg HDR.CMD_RB_MASTER_MASTER = masterId m := by
  unfold Dev.readback
  rw [Dev.get_put_same _ _ _ _ (by decide)]
  exact Nat.mod_eq_of_lt (masterId_lt m)

theorem Dev.onlyMarks_lastWr (d : Dev) (m : Master) (pg off t : Nat) : d.OnlyMarks (d.lastWr m pg off t) := rfl

theorem Dev.onlyRegs_readback (d : Dev) (m : Master) (pg off v t : Nat) : d.OnlyRegs (d.readback m pg off v t) := rfl

/-- A served write changes registers and event stamps alone. -/
theorem Dev.onlyMarks_served (d : Dev) (m : Master) (pg off v : Nat) : d.OnlyMarks (d.served m pg off v) := by
  have ha : d.OnlyRegs (d.accepted m pg off) := d.onlyRegs_pmc _ _ _
  by_cases h : off = 0x70
  · subst h
    exact ha.marks
  · rw [d.served_eq m pg off v h]
    refine (ha.marks.trans (Dev.onlyMarks_lastWr _ m pg off (d.serveMec pg))).trans ?_
    cases entersReadback pg off v
    · exact (Dev.OnlyRegs.refl _).marks
    · exact (Dev.onlyRegs_readback _ m pg off v _).marks

/-- A served write leaves every register outside the common header of its page alone, but for the counters. -/
theorem Dev.reg_served_outside (d : Dev) (m : Master) (pg off v : Nat) {p o : Nat} (h : 0x60 ≤ o) (h' : o < 4096) (hp : p ≠ pg ∨ 0x100 ≤ o) :
    (d.served m pg off v).reg p o = d.reg p o := by
  by_cases h0 : off = 0x70
  · subst h0
    exact d.reg_accepted m pg 0x70 h h'
  · rw [d.served_eq m pg off v h0, Dev.reg_when _ _ _ fun e => e.reg_readback m pg off v _ (by omega) h', Dev.reg_lastWr _ _ _ _ _ (by omega) h', d.reg_accepted m pg off h h']

/-- What stands in LAST_WR after a served write is what it left there. -/
theorem Dev.reg_served_lastWr (d : Dev) (m : Master) (pg off v : Nat) (h : off ≠ 0x70) {o : Nat} (ho : o < 0xC0) :
    (d.served m pg off v).reg pg o = ((d.accepted m pg off).lastWr m pg off (d.serveMec pg)).reg pg o := by
  rw [d.served_eq m pg off v h, Dev.reg_when _ _ _ fun e => e.reg_readback m pg off v _ (by omega) (by omega)]

/-- A write that enters the readback group leaves it so. -/
theorem Dev.served_readback (d : Dev) (m : Master) (pg off v : Nat) (h : off ≠ 0x70) (hr : entersReadback pg off v = true) :
    d.served m pg off v = ((d.accepted m pg off).lastWr m pg off (d.serveMec pg)).readback m pg off v (d.serveMec pg) := by
  rw [d.served_eq m pg off v h, hr, Dev.when_true]

/-- A write that does not enter the readback group leaves it alone. -/
theorem Dev.reg_served_noReadback (d : Dev) (m : Master) (pg off v : Nat) (hr : entersReadback pg off v = false) {o : Nat} (h : 0xC0 ≤ o) (h' : o < 0xE0) :
    (d.served m pg off v).reg pg o = d.reg pg o := by
  by_cases h0 : off = 0x70
  · subst h0
    exact d.reg_accepted m pg 0x70 (by omega) (by omega)
  · rw [d.served_eq m pg off v h0, hr, Dev.when_false, Dev.reg_lastWr _ _ _ _ _ (by omega) (by omega), d.reg_accepted m pg off (by omega) (by omega)]

theorem Dev.stampOf_served (d : Dev) (m : Master) (pg off v : Nat) (h : off ≠ 0x70) : (d.served m pg off v).stampOf pg 0 = some ⟨d.serveMec pg, d.calOf (d.serveMec pg)⟩ := by
  have hc : (d.accepted m pg off).calOf (d.serveMec pg) = d.calOf (d.serveMec pg) :=
    Dev.calOf_congr (d.onlyRegs_pmc _ _ _).clk_eq (fun o h h' => d.reg_accepted m pg off (by omega) h') _
  rw [← hc, ← Dev.stampOf_lastWr _ m pg off, d.served_eq m pg off v h]
  exact Dev.when_proj (fun e => e.stampOf pg 0) _ _ _ fun e => rfl

theorem Dev.now_le_serveMec (d : Dev) (pg : Nat) : d.now ≤ d.serveMec pg := by
  unfold Dev.serveMec
  split
  · exact Nat.le_max_left _ _
  · exact Nat.le_refl _

theorem Dev.stamp_le_serveMec (d : Dev) (pg : Nat) (x : EventStamp) (h : d.stampOf pg 0 = some x) : x.mec + 2 ≤ d.serveMec pg := by
  unfold Dev.serveMec
  rw [h]
  exact Nat.le_max_right _ _

/-- Settles O15: by the parts of a served write, each of which writes registers of its own. -/
theorem servedWriteIsShown : Obligations.ServedWriteIsShown := by
  unfold Obligations.ServedWriteIsShown
  intro d m pg off v ho hv ht
  have hget (f : Fld) (h : off ≠ 0x70) (hf : f.off < 0xC0) : (d.served m pg off v).get pg f = ((d.accepted m pg off).lastWr m pg off (d.serveMec pg)).get pg f :=
    congrArg f.get (d.reg_served_lastWr m pg off v h hf)
  refine ⟨fun h => ⟨?_, d.stampOf_served m pg off v h, ?_, ?_⟩, fun r h hr hc hn => ?_, fun hr o h h' => d.reg_served_noReadback m pg off v ?_ h h', ?_,
    fun p o h h' hp => d.reg_served_outside m pg off v h h' hp, d.now_le_serveMec pg, d.stamp_le_serveMec pg, d.onlyMarks_served m pg off v⟩
  · exact (hget _ h (by decide)).trans (Dev.get_lastWr_mec _ _ _ _ _ ht)
  · exact (hget _ h (by decide)).trans (Dev.get_lastWr_ofs _ _ _ _ _ ho)
  · exact (hget _ h (by decide)).trans (Dev.get_lastWr_master _ _ _ _ _)
  · have he : entersReadback pg off v = true := by
      unfold entersReadback; rw [hr, Option.any_some, hc, hn]; rfl
    rw [d.served_readback m pg off v h he]
    exact ⟨Dev.get_readback_ofs _ _ _ _ _ _ ho, Dev.get_readback_val _ _ _ _ _ _ hv, Dev.get_readback_mec _ _ _ _ _ _ ht, Dev.get_readback_master _ _ _ _ _ _⟩
  · unfold entersReadback
    cases hreg : regAt pg off with
    | none => rfl
    | some r =>
      rw [Option.any_some]
      obtain hc | hn := hr r hreg
      · rw [hc]; rfl
      · rw [hn]; exact Bool.and_false _
  · rintro rfl p o h h'
    exact d.reg_accepted m pg 0x70 h h'

/-! A discarded write (R34, R437, R440, R441, R454). -/

/-- A discarded write changes registers alone. -/
theorem Dev.onlyRegs_discard (d : Dev) (g : Gate) (pg : Nat) : d.OnlyRegs (d.discard g pg) := by
  have hc (p : Nat) (f : Fld) : d.OnlyRegs ((d.count p f).pmc pg 4) := (d.onlyRegs_count _ _ _).trans (Dev.onlyRegs_pmc _ _ _ _)
  cases g with
  | served | lost => exact .refl d
  | preboot | cave | refused => exact hc _ _
  | unimpl => exact d.onlyRegs_count _ _ _

/-- A discarded write leaves every register alone but the counters of the common header and the discard counters of GLB. -/
theorem Dev.reg_discard (d : Dev) (g : Gate) (pg : Nat) {p o : Nat} (h : 0x60 ≤ o) (h' : o < 4096) (hn : ¬ (p = Pg.glb ∧ 0x114 ≤ o ∧ o ≤ 0x11C)) :
    (d.discard g pg).reg p o = d.reg p o := by
  have hp (e : Dev) : (e.pmc pg 4).reg p o = e.reg p o := e.reg_pmc _ _ _ h h'
  have hglb (f : Fld) (hf : 0x114 ≤ f.off) (hf' : f.off ≤ 0x11C) : (d.count Pg.glb f).reg p o = d.reg p o := by
    refine d.reg_count _ _ _ h h' (by omega) ?_
    by_cases hpg : p = Pg.glb
    · exact .inr (by omega)
    · exact .inl hpg
  cases g with
  | served | lost => rfl
  | preboot | cave => exact (hp _).trans (hglb _ (by decide) (by decide))
  | unimpl => exact hglb _ (by decide) (by decide)
  | refused => exact (hp _).trans (d.reg_count _ _ _ h h' (by decide) (.inr (by dsimp only; omega)))

/-- A discarded write counts once in a field of its page that no freeze stops. -/
theorem Dev.get_discardCount (d : Dev) (pg p : Nat) (f : Fld) (hi : f.hi < 96) (h : ¬ (0x40 ≤ f.off ∧ f.off < 0x60)) (h' : f.off < 4096) (hf : d.on p HDR.PAGE_CTL_FREEZE = false) :
    ((d.count p f).pmc pg 4).get p f = min (d.get p f + 1) (2 ^ (f.hi + 1 - f.lo) - 1) := by
  rw [Dev.get_pmc_outside _ _ _ _ _ _ h h', d.get_count_same _ _ _ hi h h', hf]
  rfl

/-- Settles O16: by the reason of the discard. -/
theorem discardedWriteIsCountedOnly : Obligations.DiscardedWriteIsCountedOnly := by
  unfold Obligations.DiscardedWriteIsCountedOnly
  intro d m pg off v eff
  have hw {g : Gate} (h : d.gate m pg off = g) (hg : g ≠ .served) : d.write m pg off v eff = d.discard g pg := by
    rw [Dev.write_discarded (by rw [h]; exact hg), h]
  refine ⟨fun h => ?_, fun hf => ⟨fun h => ?_, fun h => ?_, fun h => ?_⟩, fun hf h => ?_⟩
  · rw [hw rfl h]
    exact ⟨fun p o ho ho' hn => d.reg_discard _ pg ho ho' hn, d.onlyRegs_discard _ pg⟩
  · rw [hw h (by decide)]
    exact d.get_discardCount pg _ _ (by decide) (by decide) (by decide) hf
  · rw [hw h (by decide)]
    refine (d.get_count_same _ _ _ (by decide) (by decide) (by decide)).trans ?_
    rw [hf]
    rfl
  · rw [hw h (by decide)]
    exact d.get_discardCount pg _ _ (by decide) (by decide) (by decide) hf
  · rw [hw h (by decide)]
    exact d.get_discardCount pg _ _ (by decide) (by decide) (by decide) hf

end Sys2Proof.Machine
end

section
/-! PROOF. The commands of the timescales' replicas and leaps (O34), of resets and the boot (O43), and of faults and counters (O45) answer the states their rules give. -/

namespace Sys2Proof.Machine

/-! The state after a command that may make a package reset, once it is known whether it made one. -/

/-- A package reset leaves the clock at its reset value (R18). -/
theorem packageBegin_clk (q : Words × Dev) (held : Bool) : (packageBegin q held).2.clk = {} := rfl

theorem State.withReset_made (s : State) {r : Words × Dev} (h : r.2.clk = {}) : s.withReset r = s.afterReset r := by
  unfold State.withReset State.afterReset
  rw [if_pos h]

theorem State.withReset_packageBegin (s : State) (q : Words × Dev) (held : Bool) : s.withReset (packageBegin q held) = s.afterReset (packageBegin q held) :=
  s.withReset_made (packageBegin_clk q held)

theorem State.withReset_kept (s : State) {r : Words × Dev} (h : r.2.clk = s.dev.clk) : s.withReset r = s.withStore r := by
  unfold State.withReset State.withStore
  rw [h, ite_eq_right_iff.mpr Eq.symm]

/-! Replica checks and leaps. -/

/-- Settles O34: by the comparison of a check, the moment of a leap, and the fields a write leaves. -/
theorem timescaleCommandsComplete : Obligations.TimescaleCommandsComplete := by
  unfold Obligations.TimescaleCommandsComplete
  refine fun s => ⟨fun n die upset => ⟨fun h => ?_, fun h => ?_⟩, fun n => ⟨fun hp ht => ?_, fun h => ?_⟩, fun m n v hs => ⟨fun h => ?_, fun kind h hk => ?_⟩,
    fun m n v hs => ⟨fun h => ?_, fun hp hg => ?_⟩, fun m n v hs => ?_⟩
  · show execReplicaCheck n die upset s = _
    rw [execReplicaCheck, State.run_eq]
    dsimp only
    rw [if_neg (Nat.not_lt.mpr h)]
  · show execReplicaCheck n die upset s = _
    rw [execReplicaCheck, State.run_eq]
    dsimp only
    rw [if_pos h]
  · show execLeapApply n s = _
    rw [execLeapApply, State.run_eq, if_pos (by rw [hp, decide_eq_true ht]; rfl)]
  · show execLeapApply n s = _
    have hc : (s.dev.leapPending n && decide (s.dev.get (Pg.ts n) TS.LEAP_AT_SEC ≤ s.dev.sec n)) = false := by
      obtain h | h := h
      · rw [h]; rfl
      · rw [decide_eq_false (Nat.not_le.mpr h), Bool.and_false]
    rw [execLeapApply, State.run_eq, hc]
    rfl
  · show execUtcOffsetWrite m n v s = _
    rw [execUtcOffsetWrite, State.run_eq, Dev.writeStore, Dev.write_served hs]
    dsimp only at h ⊢
    rw [if_pos h]
  · show execUtcOffsetWrite m n v s = _
    rw [execUtcOffsetWrite, State.run_eq, Dev.writeStore, Dev.write_served hs]
    dsimp only at h ⊢
    rw [h, if_neg hk]
  · show execLeapPendingWrite m n v s = _
    rw [execLeapPendingWrite, State.run_eq]
    dsimp only at h ⊢
    rw [Dev.writeStore, Dev.write_served hs, if_neg]
    obtain h | h := h <;> simp [h]
  · show execLeapPendingWrite m n v s = _
    rw [execLeapPendingWrite, State.run_eq]
    dsimp only at hg ⊢
    rw [Dev.writeStore, Dev.write_served hs, if_pos (by rw [hp, hg]; rfl)]
  · show execLeapAtWrite m n v s = _
    rw [execLeapAtWrite, State.run_eq, Dev.writeStore, Dev.write_served hs]
    rfl

/-! Resets and the boot. -/

/-- A served GLB_RST_CMD with its key sets its interrupt and has its effect (R449). -/
theorem rstCmd_served {r : Words × Dev} {m : Master} {key : Nat} (hg : r.2.gate m Pg.glb 0x108 = .served) (hk : key % 256 = 0xC3) (target op : Nat) (eff : Words × Dev → Words × Dev) :
    rstCmd r m key target op eff = eff (r.1, (r.2.served m Pg.glb 0x108 (rstWord key target op)).int Pg.glb 2) := by
  unfold rstCmd
  rw [hg]
  exact if_pos hk

/-- Power-on, PKG_RST_N and a Cave brown-out make a package reset, but that a running flush puts PKG_RST_N off. -/
theorem packageResets_complete (s : State) :
    exec .powerOn s = .next (s.afterReset (packageBegin (s.store, s.dev) true)) ∧
    (s.dev.pwr.rst = false →
      (s.dev.powerFails = false ∨ s.dev.rcd.flushing = none → exec .pkgRstN s = .next (s.afterReset (packageBegin (s.store, s.dev)))) ∧
      (s.dev.powerFails = true → s.dev.rcd.flushing.isSome = true →
        exec .pkgRstN s = .next (s.withDev ((s.dev.upPwr fun e => { e with rst := true }).timerTime 0 milli .pkgRstN)))) ∧
    (s.dev.inCave = true → exec .caveBrownout s = .next (s.afterReset (packageBegin (s.store, s.dev)))) := by
  refine ⟨?_, fun hr => ⟨fun h => ?_, fun hp hf => ?_⟩, fun hc => ?_⟩
  · show execPowerOn s = _
    rw [execPowerOn, State.runReset_eq, State.withReset_packageBegin]
  · show execPkgRstN s = _
    have hw : (s.dev.powerFails && s.dev.rcd.flushing.isSome) = false := by
      obtain h | h := h
      · rw [h]; rfl
      · rw [h]; exact Bool.and_false _
    rw [execPkgRstN, State.runReset_eq, hw, hr, Bool.false_and, if_neg Bool.false_ne_true, Bool.false_and, if_neg Bool.false_ne_true, State.withReset_packageBegin]
  · show execPkgRstN s = _
    rw [execPkgRstN, State.runReset_eq, hp, hf, hr, if_pos (by decide)]
    exact congrArg _ (s.withReset_kept rfl)
  · show execCaveBrownout s = _
    rw [execCaveBrownout, State.runReset_eq, if_pos hc, State.withReset_packageBegin]

/-- GLB_RST_CMD with its key resets the package, a region or a die. -/
theorem resetCommand_completes (s : State) (m : Master) (key target w : Nat) (hg : s.dev.gate m Pg.glb 0x108 = .served) (hk : key % 256 = 0xC3) :
    (w = rstWord key 0 3 → exec (.packageReset m key) s = .next (s.afterReset (packageBegin (s.store, (s.took m Pg.glb 0x108 w).int Pg.glb 2)))) ∧
    (∀ r, regionOf (target % 16) = some r → w = rstWord key target 1 →
      exec (.regionCmd m key target) s = .next (s.withStore (regionAsk (s.store, (s.took m Pg.glb 0x108 w).int Pg.glb 2) r))) ∧
    (∀ n : Fin 2, target % 16 = n.val → w = rstWord key target 2 →
      exec (.dieCmd m key target) s = .next (s.withStore (dieAsk (s.store, (s.took m Pg.glb 0x108 w).int Pg.glb 2) n))) := by
  refine ⟨?_, fun r hr => ?_, fun n hn => ?_⟩
  · rintro rfl
    show execPackageReset m key s = _
    rw [execPackageReset, State.runReset_eq, rstCmd_served (r := (s.store, s.dev)) hg hk, State.withReset_packageBegin]
  · rintro rfl
    show execRegionCmd m key target s = _
    rw [execRegionCmd, State.runStore_eq, rstCmd_served (r := (s.store, s.dev)) hg hk, hr]
  · rintro rfl
    show execDieCmd m key target s = _
    rw [execDieCmd, State.runStore_eq, rstCmd_served (r := (s.store, s.dev)) hg hk, hn]
    match n with
    | 0 => rfl
    | 1 => rfl

/-- A region that is not yet held joins those held. -/
theorem Dev.upPwr_held {d : Dev} {r : Region} (h : r ∉ d.pwr.held) :
    (d.upPwr fun e => { e with held := if r ∈ e.held then e.held else e.held ++ [r] }) = d.upPwr fun e => { e with held := e.held ++ [r] } := by
  unfold Dev.upPwr
  dsimp only
  rw [if_neg h]

/-- A region that waits for the reset of a C4 is reset, or held while it is dark in Cave. -/
theorem c4RegionReset_completes (s : State) (r : Region) (hr : r ∈ s.dev.flt.c4Wait) :
    let d := s.dev.cancel (.c4RegionReset r)
    (¬ (s.dev.inCave = true ∧ darkInCave r = true) → exec (.c4RegionReset r) s =
      .next (s.withStore (regionAsk (s.store, { d with flt := { d.flt with c4Wait := d.flt.c4Wait.filter (· ≠ r) } }) r))) ∧
    (s.dev.inCave = true → darkInCave r = true → r ∉ s.dev.pwr.held →
      exec (.c4RegionReset r) s = .next (s.withDev (d.upPwr fun e => { e with held := e.held ++ [r] }))) := by
  have hw : ¬ r ∉ (s.dev.cancel (.c4RegionReset r)).flt.c4Wait := not_not_intro hr
  refine ⟨fun h => ?_, fun hc hd hh => ?_⟩
  · show execC4RegionReset r s = _
    rw [execC4RegionReset, State.runStore_eq]
    dsimp only
    rw [if_neg hw, if_neg (by rw [Bool.and_eq_true]; exact h)]
  · show execC4RegionReset r s = _
    rw [execC4RegionReset, State.runStore_eq]
    dsimp only
    rw [if_neg hw, if_pos (by rw [Bool.and_eq_true]; exact ⟨hc, hd⟩)]
    rw [Dev.upPwr_held (d := s.dev.cancel (.c4RegionReset r)) hh]
    rfl

/-- A link measured again 10 s after its last attempts takes the best of its new ones, where one counts. -/
theorem linkRemeasure_completes (s : State) (n : Fin 5) (tries : List (Int × Nat)) (hb : s.dev.on Pg.glb GLB.BOOT_STS_BOOT_DONE = true) (hu : s.dev.uncal n.val = true)
    (hp : s.dev.rotPhase = 0) (ht : s.dev.links[n].tried + 10 * accSecond ≤ s.dev.stepFree 0) :
    let d0 := { s.dev with links := s.dev.links.set n { s.dev.links[n] with tried := s.dev.stepFree 0 } }
    let d := (d0.upTdcs fun e => { e with linkUntil := s.dev.now + 2 * milli, probeFrom := s.dev.stepFree 0 }).probeTo (Config.linkTap n.val % 128)
    (∀ x, linkBest tries = some x → exec (.linkRemeasure n tries) s = .next (s.withDev (d.linkGood n x))) ∧
    (linkBest tries = none → exec (.linkRemeasure n tries) s = .next (s.withDev d)) := by
  have hc : (!s.dev.on Pg.glb GLB.BOOT_STS_BOOT_DONE || !s.dev.uncal n.val || s.dev.rotPhase != 0 || decide (s.dev.stepFree 0 < s.dev.links[n].tried + 10 * accSecond)) = false := by
    rw [hb, hu, hp, decide_eq_false (Int.not_lt.mpr ht)]
    rfl
  refine ⟨fun x hx => ?_, fun hx => ?_⟩
  all_goals
    show execLinkRemeasure n tries s = _
    rw [execLinkRemeasure, State.run_eq, hc, if_neg Bool.false_ne_true, hx]

/-- A boot begins once after a package reset, and goes on where its next stage is due. -/
theorem boot_completes (s : State) (x : BootIn) (hb : s.dev.on Pg.glb GLB.BOOT_STS_BOOT_DONE = false) :
    (s.dev.ldr.boot = none → exec (.boot x) s = .next (s.withReset (bootRun (s.store, s.dev.bootBegin x) ⟨x, 0, s.dev.freeNs⟩))) ∧
    (∀ b, s.dev.ldr.boot = some b → b.stage < bootPlan.length → b.due ≤ s.dev.freeNs → exec (.boot x) s = .next (s.withReset (bootRun (s.store, s.dev) b))) := by
  refine ⟨fun h => ?_, fun b h hs hd => ?_⟩
  · show execBoot x s = _
    rw [execBoot, State.runReset_eq, hb, if_neg Bool.false_ne_true, h]
  · show execBoot x s = _
    rw [execBoot, State.runReset_eq, hb, if_neg Bool.false_ne_true, h]
    dsimp only
    rw [if_pos ⟨hs, hd⟩]

/-- The boot watchdog counts a failed boot and makes a package reset. -/
theorem bootWatchdogExpiry_completes (s : State) (b : BootRun) (hb : s.dev.ldr.boot = some b) (hs : b.stage ≠ bootHeld) :
    exec .bootWatchdogExpiry s = .next (s.afterReset (packageBegin (s.store, s.dev.upLdr fun e => { e with failed := e.failed + 1 }))) := by
  show execBootWatchdogExpiry s = _
  rw [execBootWatchdogExpiry, State.runReset_eq, hb, Option.all_some, beq_eq_false_iff_ne.mpr hs, if_neg Bool.false_ne_true, State.withReset_packageBegin]

/-- The end of the last stage ends the boot. -/
theorem bootDone_completes (s : State) (h : s.dev.bootThrough = true) : exec .bootDone s = .next (s.withDev (s.dev.cancel .bootDone).bootFinish) := by
  show execBootDone s = _
  rw [execBootDone, State.run_eq, if_pos h]

/-- Settles O43: command by command. -/
theorem resetAndBootCommandsComplete : Obligations.ResetAndBootCommandsComplete := by
  unfold Obligations.ResetAndBootCommandsComplete
  intro s
  obtain ⟨hpower, hpin, hcave⟩ := packageResets_complete s
  exact ⟨hpower, hpin, hcave, fun m key target w hg hk => resetCommand_completes s m key target w hg hk, c4RegionReset_completes s, fun _ => rfl,
    fun n tries hb hu hp ht => linkRemeasure_completes s n tries hb hu hp ht, fun x hb => boot_completes s x hb, bootDone_completes s, bootWatchdogExpiry_completes s⟩

/-! Faults and counters. -/

/-- The count of a link's errors leaves the pins of the dies alone. -/
theorem Dev.get_dieSts_count (d : Dev) (n : Fin 5) : (d.count Pg.flt (FLT.LINK_ERR_COUNT n)).get Pg.flt FLT.DIE_STS_PIN = d.get Pg.flt FLT.DIE_STS_PIN := by
  unfold Dev.get
  rw [d.reg_count _ _ _ (by decide) (by decide) (by dsimp only; omega) (.inr (by dsimp only; omega))]

/-- A look at a cycle counter writes the local counters alone. -/
theorem Dev.reg_cycleSync (d : Dev) (pg k : Nat) {pg' off : Nat} (hk : k < 4) (h : 0x60 ≤ off) (h' : off < 4096) : (d.cycleSync pg k).reg pg' off = d.reg pg' off := by
  unfold Dev.cycleSync
  dsimp only
  split
  · refine (Dev.reg_congr rfl _ _).trans ((Dev.reg_when _ _ _ fun e => e.reg_put_ne _ _ (by dsimp only; omega)).trans (d.reg_put_ne (HDR.PMC_CNT_COUNT k) _ (by dsimp only; omega)))
  · rfl

theorem Dev.reg_showNow (d : Dev) (pg : Nat) (f : Fld) (v : Nat) {pg' off : Nat} (h : 4096 * pg' + off ≠ 4096 * pg + f.off) : (d.showNow pg f v).reg pg' off = d.reg pg' off :=
  (Dev.reg_congr rfl _ _).trans (d.reg_put_ne f v h)

/-- The reader's copy leaves the PERIOD of the copies alone. -/
theorem Dev.period_readerCopy (d : Dev) (granted : Bool) : (d.readerCopy granted).get Pg.pmc PMC.CTL_PERIOD = d.get Pg.pmc PMC.CTL_PERIOD := by
  have hcalm : Calm Pg.pmc PMC.CTL_PERIOD.off := by unfold Calm; decide
  unfold Dev.get Dev.readerCopy
  dsimp only
  split
  · rw [Dev.reg_put_ne _ _ _ (by decide)]
  · rw [Dev.reg_int _ _ _ hcalm, Dev.reg_put_ne _ _ _ (by decide), Dev.reg_put_ne _ _ _ (by decide), Dev.reg_showNow _ _ _ _ (by decide),
      Dev.reg_each _ _ _ fun j e => e.reg_showNow _ _ _ (by dsimp only; omega), Dev.reg_each _ _ _ fun x e => e.reg_cycleSync _ _ (Nat.mod_lt _ (by decide)) (by decide) (by decide)]

/-- Clears by a master that may clear, of one page or of all. -/
theorem fltClears_complete (s : State) :
    (∀ (m : Master) (pg : Page) (v : Nat), s.dev.gate m pg 0x24 = .served → mayClear m = true →
      exec (.fltClr m pg v) s = .next (s.withDev ((s.took m pg 0x24 v).fltClear m pg (v % 32)).fltAfter)) ∧
    (∀ (m : Master) (v : Nat), Served s m Pg.flt 0x104 →
      exec (.fltClrAll m v) s = .next (s.withDev ((s.took m Pg.flt 0x104 v).each allPages fun pg d => d.fltClear m pg (v % 32)).fltAfter)) := by
  refine ⟨fun m pg v hg hm => ?_, fun m v hs => ?_⟩
  · show execFltClr m pg v s = _
    rw [execFltClr, State.run_eq, Dev.writeOr_served hg, if_pos hm]
  · show execFltClrAll m v s = _
    rw [execFltClrAll, State.run_eq, Dev.write_served hs]

/-- A force by a master that may force, with class 4 only where C4_FORCE allows it. -/
theorem fltForceWrite_completes (s : State) (m : Master) (pg : Page) (v : Nat) (hg : s.dev.gate m pg 0x20 = .served) (hm : mayForce m = true)
    (h4 : bit v 4 = false ∨ s.dev.on Pg.flt FLT.CTL_C4_FORCE = true) (hc : (s.took m pg 0x20 v).on Pg.flt FLT.CTL_C4_FORCE = s.dev.on Pg.flt FLT.CTL_C4_FORCE) :
    exec (.fltForceWrite m pg v) s = .next (s.withDev (((s.took m pg 0x20 v).put pg HDR.FLT_FORCE_FORCE (v % 32)).forceFollow pg)) := by
  have hstop : (bit v 4 && !(s.took m pg 0x20 v).on Pg.flt FLT.CTL_C4_FORCE) = false := by
    obtain h | h := h4
    · rw [h]; rfl
    · rw [hc, h]; exact Bool.and_false _
  show execFltForceWrite m pg v s = _
  rw [execFltForceWrite, State.run_eq, Dev.writeOr_served hg, if_pos hm]
  dsimp only
  rw [hstop]
  rfl

/-- Served writes of the PMC registers, and the copies that the reader makes. -/
theorem pmcCommands_complete (s : State) :
    (∀ (m : Master) (pg : Page) (k : Fin 4) (v off : Nat), off = 0x30 + 4 * k.val → (s.dev.cycleSync pg k).gate m pg off = .served → (s.dev.cycleSync pg k).locked pg = false →
      let d := (s.dev.cycleSync pg k).served m pg off v;
      exec (.pmcSelWrite m pg k v) s = .next (s.withDev (d.pmcSelect m pg k v ((s.dev.cycleSync pg k).reg pg (0x40 + 8 * k))))) ∧
    (∀ m : Master, Served s m Pg.pmc 0x104 →
      let d := s.took m Pg.pmc 0x104 1;
      exec (.pmcLatch m) s = .next (s.withDev (d.readerCopy (d.granted kindReader 0)))) ∧
    (s.dev.on Pg.pmc PMC.CTL_AUTO = true →
      let d := s.dev.readerCopy (s.dev.granted kindReader 0);
      exec .pmcAutoLatch s = .next (s.withDev (d.timer (max 1 (d.get Pg.pmc PMC.CTL_PERIOD) * milli) .pmcAutoLatch))) ∧
    (∀ (m : Master) (off v : Nat), Served s m Pg.pmc off →
      exec (.pmcFilterWrite m off v) s = .next (s.withDev ((s.took m Pg.pmc off v).storeReg Pg.pmc off v))) := by
  refine ⟨?_, fun m hs => ?_, fun ha => ?_, fun m off v hs => ?_⟩
  · rintro m pg k v _ rfl hg hl
    show execPmcSelWrite m pg k v s = _
    rw [execPmcSelWrite, State.run_eq]
    dsimp only
    rw [Dev.write_served (s := { s with dev := s.dev.cycleSync pg k }) ⟨hg, hl⟩]
  · show execPmcLatch m s = _
    rw [execPmcLatch, State.run_eq, Dev.write_served hs]
  · show execPmcAutoLatch s = _
    rw [execPmcAutoLatch, State.run_eq, if_pos ha, ← s.dev.period_readerCopy]
  · show execPmcFilterWrite m off v s = _
    rw [execPmcFilterWrite, State.run_eq, Dev.writeStore, Dev.write_served hs]
    rfl

/-- Settles O45: command by command. -/
theorem faultCommandsComplete : Obligations.FaultCommandsComplete := by
  unfold Obligations.FaultCommandsComplete
  intro s
  obtain ⟨hclr, hall⟩ := fltClears_complete s
  obtain ⟨hsel, hlatch, hauto, hfilter⟩ := pmcCommands_complete s
  refine ⟨fun _ _ => rfl, hclr, hall, fltForceWrite_completes s, rfl, fun _ => rfl, fun n => ?_, fun _ => rfl, hsel, hlatch, hauto, hfilter⟩
  show execLinkWordError n s = _
  rw [execLinkWordError, State.run_eq, Dev.get_dieSts_count]

end Sys2Proof.Machine
end

section
/-! PROOF. How a record enters the volatile buffer (O29). -/

namespace Sys2Proof.Machine

/-! What notices leave of the recorder (R341 to R344). -/

theorem Dev.OnlyRegs.rcd_eq {d e : Dev} (h : d.OnlyRegs e) : e.rcd = d.rcd := by unfold Dev.OnlyRegs at h; rw [h]

theorem Dev.rcd_count (d : Dev) (pg : Nat) (f : Fld) (a : Attr) : (d.count pg f a).rcd = d.rcd := (d.onlyRegs_count pg f a).rcd_eq

theorem Dev.rcd_sendMsix (d : Dev) (fv : Nat × Nat) : (d.sendMsix fv).rcd = d.rcd := by
  unfold Dev.sendMsix
  split
  · rfl
  · split <;> rfl

theorem Dev.rcd_ibi (d : Dev) (l : List Nat) : (d.ibi l).rcd = d.rcd := Dev.when_proj Dev.rcd _ _ _ fun _ => rfl

theorem Dev.rcd_resum (d : Dev) (pg : Nat) : (d.resum pg).rcd = d.rcd := by
  unfold Dev.resum
  dsimp only
  split
  · rfl
  · split
    · rw [Dev.when_proj Dev.rcd _ _ _ fun e => e.rcd_ibi _]
      split
      · exact Dev.rcd_sendMsix _ _
      · rfl
    · rfl

/-- An interrupt leaves the recorder alone. -/
theorem Dev.rcd_int (d : Dev) (pg b : Nat) : (d.int pg b).rcd = d.rcd := by
  unfold Dev.int Dev.intBits
  rw [Dev.rcd_resum, (Dev.onlyRegs_pmc _ _ _ _).rcd_eq]
  rfl

theorem Dev.rcd_seqNotice (d : Dev) (n : Fin 8) (e : Nat) (t : Bool) : (d.seqNotice n e t).rcd = d.rcd := by
  unfold Dev.seqNotice
  dsimp only
  split
  · rfl
  · split <;> rfl

/-- An event leaves the recorder alone. -/
theorem Dev.rcd_event (d : Dev) (e : Nat) : (d.event e).rcd = d.rcd := by
  unfold Dev.event
  refine Dev.each_proj Dev.rcd _ (fun n d => ?_) _ d
  dsimp only
  rw [Dev.rcd_seqNotice, Dev.when_proj Dev.rcd _ _ _ fun e => (Dev.rcd_int _ _ _).trans (e.rcd_count _ _ _), Dev.when_proj Dev.rcd (fun d => d.setAgain n e) _ _ fun _ => rfl]
  rfl

/-- An interrupt leaves the own registers of every page but GLB alone. -/
theorem Dev.reg_int_own (d : Dev) (pg b : Nat) {pg' off : Nat} (hg : pg' ≠ Pg.glb) (h : 0x100 ≤ off) (h' : off < 4096) : (d.int pg b).reg pg' off = d.reg pg' off := by
  unfold Dev.int Dev.intBits
  rw [Dev.reg_resum _ _ (.inl hg) h', Dev.reg_pmc _ _ _ _ (by omega) h', Dev.reg_stampAs, Dev.reg_put_ne _ _ _ (by dsimp only; omega), Dev.reg_raiseBits _ _ _ (by dsimp only; omega)]

/-- An event leaves the own registers of the recorder alone. -/
theorem Dev.reg_event_rec (d : Dev) (e : Nat) {off : Nat} (he : e < 128) (h : 0x100 ≤ off) (h' : off < 4096) : (d.event e).reg Pg.rec off = d.reg Pg.rec off := by
  unfold Dev.event
  refine Dev.reg_each _ _ _ fun n d => ?_
  have hn := n.isLt
  dsimp only
  rw [Dev.reg_seqNotice, Dev.reg_when _ _ _ fun e => (Dev.reg_int_own _ _ _ (by decide) h h').trans (e.reg_count _ _ _ (by omega) h' (by decide) (.inl (by dsimp only [Pg.rec, Pg.seq]; omega))),
    Dev.reg_when _ _ _ fun e' => e'.reg_setAgain n e, Dev.reg_raiseBits _ _ _ (by dsimp only [Pg.rec, Pg.seq]; omega)]

/-! A record that is lost (R344). -/

/-- A lost record leaves the buffer; the next one carries GAP. -/
theorem Dev.rcd_lose (d : Dev) : d.lose.rcd = { d.rcd with gapNext := true } := by
  unfold Dev.lose
  dsimp only
  rw [Dev.when_proj Dev.rcd _ _ _ fun e => e.rcd_int _ _]

theorem Dev.reg_lose_rec (d : Dev) {off : Nat} (h : 0x100 ≤ off) (h' : off < 4096) : d.lose.reg Pg.rec off = (d.count Pg.rec REC.LOST_COUNT).reg Pg.rec off := by
  unfold Dev.lose
  dsimp only
  rw [Dev.reg_when _ _ _ fun e => e.reg_int_own _ _ (by decide) h h']
  exact Dev.reg_congr rfl _ _

/-- A lost record uses no SEQ. -/
theorem Dev.nextSeq_lose (d : Dev) : d.lose.get Pg.rec REC.NEXT_SEQ_SEQ = d.get Pg.rec REC.NEXT_SEQ_SEQ := by
  unfold Dev.get
  rw [d.reg_lose_rec (by decide) (by decide), d.reg_count _ _ _ (by decide) (by decide) (by decide) (.inr (by decide))]

/-- A lost record is counted. -/
theorem Dev.lost_lose (d : Dev) (hf : d.on Pg.rec HDR.PAGE_CTL_FREEZE = false) : d.lose.get Pg.rec REC.LOST_COUNT = min (d.get Pg.rec REC.LOST_COUNT + 1) (2 ^ 32 - 1) := by
  have h := d.get_count_same Pg.rec REC.LOST_COUNT {} (by decide) (by decide) (by decide)
  rw [hf] at h
  unfold Dev.get at h ⊢
  rw [d.reg_lose_rec (by decide) (by decide), h]
  rfl

/-! A record that enters (R33, R341, R345). -/

theorem Dev.buf_flush (d : Dev) : d.flush.rcd.buf = d.rcd.buf := by
  unfold Dev.flush
  split <;> rfl

theorem Dev.gapNext_flush (d : Dev) : d.flush.rcd.gapNext = d.rcd.gapNext := by
  unfold Dev.flush
  split <;> rfl

/-- The level and its high-water mark leave the records. -/
theorem Dev.buf_levelUp (d : Dev) : d.levelUp.rcd.buf = d.rcd.buf := by
  unfold Dev.levelUp
  dsimp only
  rw [Dev.when_proj (fun e => e.rcd.buf) _ _ _ fun e => by rw [Dev.buf_flush, Dev.rcd_event]]
  rfl

/-- The level and its high-water mark leave the GAP that is due. -/
theorem Dev.gapNext_levelUp (d : Dev) : d.levelUp.rcd.gapNext = d.rcd.gapNext := by
  unfold Dev.levelUp
  dsimp only
  rw [Dev.when_proj (fun e => e.rcd.gapNext) _ _ _ fun e => by rw [Dev.gapNext_flush, Dev.rcd_event]]
  rfl

theorem Dev.nextSeq_flush (d : Dev) : d.flush.get Pg.rec REC.NEXT_SEQ_SEQ = d.get Pg.rec REC.NEXT_SEQ_SEQ := by
  unfold Dev.get Dev.flush
  split
  · rfl
  · exact congrArg _ (Dev.reg_put_ne _ REC.STS_FLUSHING 1 (by decide))

theorem Dev.nextSeq_levelUp (d : Dev) : d.levelUp.get Pg.rec REC.NEXT_SEQ_SEQ = d.get Pg.rec REC.NEXT_SEQ_SEQ := by
  have he (e : Dev) : (e.event 15).get Pg.rec REC.NEXT_SEQ_SEQ = e.get Pg.rec REC.NEXT_SEQ_SEQ := by
    unfold Dev.get
    rw [e.reg_event_rec 15 (by decide) (by decide) (by decide)]
  unfold Dev.levelUp
  dsimp only
  rw [Dev.when_proj (fun e => e.get Pg.rec REC.NEXT_SEQ_SEQ) _ _ _ fun e => (e.event 15).nextSeq_flush.trans (he e), Dev.get_put_ne _ _ _ _ (by decide)]

/-- The SEQ of the place that a record of a source takes. -/
def Dev.seqAt (d : Dev) (src : Nat) : Nat := (d.get Pg.rec REC.NEXT_SEQ_SEQ + 2 ^ 32 - d.behind src) % 2 ^ 32

/-- The record that enters the buffer at its place. -/
def Dev.newRecord (d : Dev) (typ src : Nat) (p : List Nat) : Record :=
  Record.numbered { typ := typ, gap := d.rcd.gapNext, source := src, mec := d.now, cal := d.cal, seqNo := d.seqAt src, payload := p } (d.seqAt src)

theorem Dev.newRecord_seqNo (d : Dev) (typ src : Nat) (p : List Nat) : (d.newRecord typ src p).seqNo = d.seqAt src := Nat.mod_mod _ _

/-- A record other than a SNAPSHOT carries its payload as it is. -/
theorem Dev.newRecord_payload (d : Dev) (typ src : Nat) (p : List Nat) (h : typ ≠ 0x04) : (d.newRecord typ src p).payload = p := if_neg fun hn => h hn.1

/-- A record that finds room, outside write-through, enters before the records it precedes. -/
theorem Dev.rcd_enter (d : Dev) (typ src : Nat) (p : List Nat) (hl : d.rcd.buf.length < 4096) (hw : d.on Pg.rec REC.STS_WT = false) :
    (d.enter typ src p).rcd.buf = d.rcd.buf.take (d.rcd.buf.length - d.behind src) ++ [d.newRecord typ src p] ++
      (d.rcd.buf.drop (d.rcd.buf.length - d.behind src)).map (fun (x : Record) => x.numbered (x.seqNo + 1)) ∧
    (d.enter typ src p).rcd.gapNext = false ∧ (d.enter typ src p).get Pg.rec REC.NEXT_SEQ_SEQ = (d.get Pg.rec REC.NEXT_SEQ_SEQ + 1) % 2 ^ 32 := by
  unfold Dev.enter
  rw [if_neg (Nat.not_le.mpr hl), hw]
  dsimp only
  rw [if_neg Bool.false_ne_true, if_neg Bool.false_ne_true, Dev.buf_levelUp, Dev.gapNext_levelUp, Dev.nextSeq_levelUp]
  refine ⟨rfl, rfl, ?_⟩
  exact (Dev.get_congr rfl _ _).trans (Dev.get_put_same _ _ _ _ (by decide))

/-- A record of a source stands before this one: it was made at this MEC by a source of a higher rank (R33). -/
def Dev.precedes (d : Dev) (src : Nat) (x : Record) : Bool := decide (x.mec = d.now ∧ srcRank src < srcRank x.source)

/-- The longest last part of the buffer, outside a running flush, that a record of a source stands before. -/
def Dev.preceded (d : Dev) (src : Nat) : List Record := ((d.rcd.buf.drop (d.rcd.flushing.getD 0)).reverse.takeWhile (d.precedes src)).reverse

theorem Dev.length_preceded (d : Dev) (src : Nat) : (d.preceded src).length = d.behind src := List.length_reverse

/-- What a record stands before is the last part of the buffer. -/
theorem Dev.preceded_suffix (d : Dev) (src : Nat) : d.preceded src <:+ d.rcd.buf := by
  refine List.IsSuffix.trans ?_ (List.drop_suffix (d.rcd.flushing.getD 0) d.rcd.buf)
  rw [← List.reverse_prefix, Dev.preceded, List.reverse_reverse]
  exact List.takeWhile_prefix _

theorem Dev.precedes_of_mem (d : Dev) (src : Nat) (x : Record) (h : x ∈ d.preceded src) : d.precedes src x = true :=
  List.all_eq_true.mp List.all_takeWhile x (List.mem_reverse.mp h)

theorem Dev.mem_drop_behind (d : Dev) (src : Nat) : ∀ x ∈ d.rcd.buf.drop (d.rcd.buf.length - d.behind src), x.mec = d.now ∧ srcRank src < srcRank x.source := by
  intro x hx
  rw [← d.length_preceded src, ← List.suffix_iff_eq_drop.mp (d.preceded_suffix src)] at hx
  exact of_decide_eq_true (d.precedes_of_mem src x hx)

/-! A repeat (R343). -/

/-- The record of a repeat counts it. -/
def Record.repeated (w : Record) (dt : Nat) : Record := { w with rpt := w.rpt + 1, lastDt := dt }

/-- A record that repeats the one tracked for its type and source, within the limits, changes that one alone. -/
theorem Dev.record_repeat (d : Dev) (typ src q : Nat) (p : List Nat) (w : Record) (ht : (d.rcd.track.find? fun t => t.1 = typ ∧ t.2.1 = src) = some (typ, src, q))
    (hb : (d.rcd.buf.find? fun r => r.seqNo = q) = some w) (hp : w.payload = p) (hr : w.rpt < 65535) (hd : cdiv (d.now - w.mec) (2 ^ 24) ≤ 65535) :
    (d.record typ src p).regs = d.regs ∧
    (d.record typ src p).rcd.buf = d.rcd.buf.map fun x => if x.seqNo = w.seqNo then x.repeated (cdiv (d.now - w.mec) (2 ^ 24)) else x := by
  unfold Dev.record
  rw [ht, Option.bind_some]
  dsimp only
  rw [hb]
  dsimp only
  rw [if_pos (by rw [decide_eq_true hp, decide_eq_true hr, decide_eq_true hd, Bool.or_true]; rfl)]
  exact ⟨rfl, rfl⟩

/-- A change of the records with one SEQ, which keeps their SEQ, changes the first found with it. -/
theorem find?_map_seqNo (l : List Record) (q : Nat) (f : Record → Record) (hf : ∀ x, (f x).seqNo = x.seqNo) :
    ((l.map fun x => if x.seqNo = q then f x else x).find? fun r => r.seqNo = q) = (l.find? fun r => r.seqNo = q).map f := by
  induction l with
  | nil => rfl
  | cons x l ih =>
    rw [List.map_cons]
    by_cases h : x.seqNo = q
    · rw [if_pos h, List.find?_cons_of_pos (by simp [hf, h]), List.find?_cons_of_pos (by simp [h])]
      rfl
    · rw [if_neg h, List.find?_cons_of_neg (by simp [h]), List.find?_cons_of_neg (by simp [h]), ih]

theorem map_seqNo_repeated (l : List Record) (q dt : Nat) : (l.map fun x => if x.seqNo = q then x.repeated dt else x).map (·.seqNo) = l.map (·.seqNo) := by
  rw [List.map_map]
  refine List.map_congr_left fun x _ => ?_
  dsimp only [Function.comp_apply]
  split <;> rfl

/-- Settles O29: a record is lost, enters at its place, or counts as a repeat. -/
theorem recorderBuffer : Obligations.RecorderBuffer := by
  unfold Obligations.RecorderBuffer
  refine fun d typ src p => ⟨fun hl => ?_, fun hl hw => ⟨d.mem_drop_behind src, ?_⟩, fun w q ht hb hp hr hd => ?_⟩
  · have he : d.enter typ src p = d.lose := if_pos hl
    rw [he, d.rcd_lose]
    exact ⟨rfl, rfl, d.nextSeq_lose, d.lost_lose⟩
  · obtain ⟨hbuf, hgap, hseq⟩ := d.rcd_enter typ src p hl hw
    exact ⟨d.newRecord typ src p, hbuf, rfl, rfl, d.newRecord_payload typ src p, d.newRecord_seqNo typ src p, rfl, rfl, rfl, rfl, hgap, hseq⟩
  · obtain ⟨hregs, hbuf⟩ := d.record_repeat typ src q p w ht hb hp hr hd
    have hq : w.seqNo = q := by simpa using List.find?_some hb
    dsimp only
    rw [hbuf, hq, find?_map_seqNo _ q (fun x => x.repeated _) fun _ => rfl, hb]
    exact ⟨hregs, map_seqNo_repeated _ _ _, rfl⟩

end Sys2Proof.Machine
end

section
/-! PROOF. The MEC (O6). -/

namespace Sys2Proof.Machine

/-- A package reset that was made leaves the clock at its reset value. -/
theorem State.withReset_clk_reset (s : State) {r : List (Nat × BitVec 64) × Dev} (h : r.2.clk = {}) : (s.withReset r).dev.clk = {} := if_pos h

/-- A power-on leaves the clock at its reset value. -/
theorem exec_powerOn_clk (s : State) : ∃ t, exec .powerOn s = .next t ∧ t.dev.clk = {} :=
  ⟨s.withReset (packageBegin (s.store, s.dev) true), rfl, s.withReset_clk_reset rfl⟩

/-- A tick leaves the clock that it counts (R40, R62). -/
theorem tick_clk (s : State) : (tick s).dev.clk = s.dev.tickClk := rfl

theorem step_idle {s : State} (h : s.pending = []) : step s = .next (tick s) := by
  unfold step
  rw [h]

/-- Settles O6: by what the frame of each command does to the clock, and by the clock that a tick leaves. -/
theorem mecCountsTicks : Obligations.MecCountsTicks := by
  unfold Obligations.MecCountsTicks
  refine ⟨fun s => ?_, fun s h => ⟨tick s, step_idle h, congrArg Clock.mec (tick_clk s)⟩, fun c s t ht hr => ?_, fun c s t ht hr => ?_⟩
  · obtain ⟨t, ht, hc⟩ := exec_powerOn_clk s
    exact ⟨t, ht, congrArg Clock.mec hc⟩
  · cases hm : movesTime c with
    | true => exact (exec_keepsMec c s hm).clk_next ht
    | false => exact congrArg Clock.mec ((exec_keepsClock c s hr hm).clk_next ht)
  · exact ((exec_keepsOrResets c s hr).clk_next ht).imp (congrArg Clock.mec) (congrArg Clock.mec)

end Sys2Proof.Machine
end

section
/-! PROOF. Bound codes (O10) and the 96-bit time (O11). -/

namespace Sys2Proof.Machine

/-! Bound codes (R46). -/

theorem cdiv_le_iff {a b c : Nat} (hb : 0 < b) : cdiv a b ≤ c ↔ a ≤ c * b := by
  unfold cdiv
  rw [Nat.div_le_iff_le_mul hb]
  omega

/-- The exponent that a bound is encoded with is the smallest of 0 to 30 that leaves at most 2,047 units, where there is one. -/
theorem encodeBound_eq {b e : Nat} (he : e ≤ 30) (hm : cdiv b (2 ^ (e + 8)) ≤ 2047) (hk : ∀ k < e, 2047 < cdiv b (2 ^ (k + 8))) :
    encodeBound (some b) = e * 2048 + max 1 (cdiv b (2 ^ (e + 8))) := by
  have hf : ((List.range 31).find? fun e => cdiv b (2 ^ (e + 8)) ≤ 2047) = some e := by
    rw [List.find?_range_eq_some]
    refine ⟨decide_eq_true hm, List.mem_range.mpr (by omega), fun k h => ?_⟩
    simpa using hk k h
  unfold encodeBound
  dsimp only
  rw [hf]

/-- A bound that the largest exponent reaches has such an exponent. -/
theorem exists_exponent {b : Nat} (h : b ≤ 2047 * 2 ^ 30 * 256) :
    ∃ e ≤ 30, cdiv b (2 ^ (e + 8)) ≤ 2047 ∧ ∀ k < e, 2047 < cdiv b (2 ^ (k + 8)) := by
  have h30 : cdiv b (2 ^ (30 + 8)) ≤ 2047 := (cdiv_le_iff (by decide)).mpr h
  cases hf : (List.range 31).find? fun e => cdiv b (2 ^ (e + 8)) ≤ 2047 with
  | none => exact absurd (decide_eq_true h30) (List.find?_eq_none.mp hf 30 (List.mem_range.mpr (by decide)))
  | some e =>
    obtain ⟨hm, he, hk⟩ := List.find?_range_eq_some.mp hf
    exact ⟨e, by have := List.mem_range.mp he; omega, of_decide_eq_true hm, fun k h => by simpa using hk k h⟩

/-- A bound that no exponent reaches is encoded as unbounded. -/
theorem encodeBound_above {b : Nat} (h : 2047 * 2 ^ 30 * 256 < b) : encodeBound (some b) = 0xFFFF := by
  have hf : ((List.range 31).find? fun e => cdiv b (2 ^ (e + 8)) ≤ 2047) = none := by
    rw [List.find?_eq_none]
    intro e he hc
    have hb : b ≤ 2047 * 2 ^ (e + 8) := (cdiv_le_iff (Nat.two_pow_pos _)).mp (of_decide_eq_true hc)
    have hp : 2 ^ (e + 8) ≤ 2 ^ (30 + 8) := Nat.pow_le_pow_right (by decide) (by have := List.mem_range.mp he; omega)
    omega
  unfold encodeBound
  dsimp only
  rw [hf]

theorem decodeBound_finite {e m : Nat} (he : e ≤ 30) (hm : m < 2048) : decodeBound (e * 2048 + m) = some (m * 2 ^ e * 256) := by
  have h1 : (e * 2048 + m) % 2 ^ 16 / 2048 = e := by omega
  have h2 : (e * 2048 + m) % 2048 = m := by omega
  unfold decodeBound
  rw [h1, h2, if_neg (by omega)]

theorem decodeBound_unbounded {m : Nat} (hm : m < 2048) : decodeBound (31 * 2048 + m) = none := if_pos (by omega)

/-- A bound is encoded as unbounded, or as a mantissa from 1 to 2,047 with an exponent from 0 to 30 that does not decode below it. -/
theorem encodeBound_cases (b : Nat) :
    (2047 * 2 ^ 30 * 256 < b ∧ encodeBound (some b) = 0xFFFF) ∨
    ∃ e m, e ≤ 30 ∧ 1 ≤ m ∧ m ≤ 2047 ∧ b ≤ m * 2 ^ e * 256 ∧ encodeBound (some b) = e * 2048 + m := by
  obtain h | h := Nat.lt_or_ge (2047 * 2 ^ 30 * 256) b
  · exact .inl ⟨h, encodeBound_above h⟩
  · obtain ⟨e, he, hm, hk⟩ := exists_exponent h
    refine .inr ⟨e, max 1 (cdiv b (2 ^ (e + 8))), he, Nat.le_max_left _ _, Nat.max_le.mpr ⟨by decide, hm⟩, ?_, encodeBound_eq he hm hk⟩
    have hb : b ≤ max 1 (cdiv b (2 ^ (e + 8))) * 2 ^ (e + 8) := (cdiv_le_iff (Nat.two_pow_pos _)).mp (Nat.le_max_right _ _)
    have hp : 2 ^ (e + 8) = 2 ^ e * 256 := Nat.pow_add 2 e 8
    rw [Nat.mul_assoc, ← hp]
    exact hb

/-- Settles O10: by the two ways in which a bound is encoded. -/
theorem boundCodes : Obligations.BoundCodes := by
  unfold Obligations.BoundCodes
  refine ⟨fun b e hb he hm hk => ?_, fun b => encodeBound_above, fun b h => ?_, rfl, fun e m => decodeBound_finite, fun m => decodeBound_unbounded, fun b => ?_, fun b c h => ?_, by decide⟩
  · have h1 : 1 ≤ cdiv b (2 ^ (e + 8)) := Nat.pos_of_ne_zero fun h0 => by
      have := (cdiv_le_iff (Nat.two_pow_pos (e + 8))).mp (Nat.le_of_eq h0)
      omega
    rw [encodeBound_eq he hm hk, Nat.max_eq_right h1]
  · obtain ⟨hb, -⟩ | ⟨e, m, he, -, hm, -, hc⟩ := encodeBound_cases b
    · omega
    · omega
  · cases b with
    | none => decide
    | some b => obtain ⟨-, hc⟩ | ⟨e, m, -, h1, -, -, hc⟩ := encodeBound_cases b <;> omega
  · obtain ⟨-, hc⟩ | ⟨e, m, he, -, hm, hb, hc⟩ := encodeBound_cases b
    · rw [hc] at h
      exact nomatch h
    · rw [hc, decodeBound_finite he (by omega)] at h
      cases h
      exact hb

/-! The 96-bit form of an engine time (R38, R39). -/

/-- The form holds FRAC, NS and SEC at their places, below bit 94. -/
theorem time96_fields {t : Nat} (h : t < 2 ^ 48 * (10 ^ 9 * 2 ^ 16)) :
    time96 t % 2 ^ 16 = t % 2 ^ 16 ∧ time96 t / 2 ^ 16 % 2 ^ 30 = t / 2 ^ 16 % 10 ^ 9 ∧ time96 t / 2 ^ 46 % 2 ^ 48 = t / (10 ^ 9 * 2 ^ 16) ∧ time96 t < 2 ^ 94 := by
  unfold time96
  simp only [Nat.shiftLeft_eq, second]
  omega

theorem untime96_eq (w : Nat) : untime96 w = w / 2 ^ 46 % 2 ^ 48 * (second * 2 ^ 16) + w / 2 ^ 16 % 2 ^ 30 * 2 ^ 16 + w % 2 ^ 16 := by
  unfold untime96
  simp only [Nat.shiftRight_eq_div_pow]

/-- The form of a time reads back as that time. -/
theorem untime96_time96 {t : Nat} (h : t < 2 ^ 48 * (10 ^ 9 * 2 ^ 16)) : untime96 (time96 t) = t := by
  obtain ⟨hf, hn, hs, -⟩ := time96_fields h
  rw [untime96_eq, hf, hn, hs]
  dsimp only [second]
  omega

/-- Settles O11: by the fields of the form, and by the division that truncates. -/
theorem timeFormat : Obligations.TimeFormat := by
  unfold Obligations.TimeFormat
  refine ⟨fun t h => ?_, fun d n => ?_⟩
  · obtain ⟨hf, hn, hs, hl⟩ := time96_fields h
    exact ⟨hf, hn, hs, hl, untime96_time96 h⟩
  · exact ⟨Nat.div_mul_le_self _ _, by rw [Nat.mul_comm]; exact Nat.lt_mul_div_succ _ (by decide)⟩

end Sys2Proof.Machine
end

section
/-! PROOF. The calendar word (O12). -/

namespace Sys2Proof.Machine

/-! The calendar (R42). -/

/-- The day of a year that begins in March has at most 367 values. -/
theorem dayOfYear_le {doe yoe : Nat} (h : doe < 146097) (hy : yoe = (doe - doe / 1460 + doe / 36524 - doe / 146096) / 365) :
    doe - (365 * yoe + yoe / 4 - yoe / 100) ≤ 366 := by
  subst hy
  omega

/-- Month and day of a day of a year that begins in March. -/
theorem monthDay_ranges {doy mp : Nat} (h : doy ≤ 366) (hm : mp = (5 * doy + 2) / 153) :
    1 ≤ doy - (153 * mp + 2) / 5 + 1 ∧ doy - (153 * mp + 2) / 5 + 1 ≤ 31 ∧ 1 ≤ (if mp < 10 then mp + 3 else mp - 9) ∧ (if mp < 10 then mp + 3 else mp - 9) ≤ 12 := by
  subst hm
  refine ⟨by omega, by omega, ?_, ?_⟩
  · split <;> omega
  · split <;> omega

/-- Year, month and day of a day keep their ranges. -/
theorem civil_ranges (z : Int) : (civil z).1 < 2 ^ 14 ∧ 1 ≤ (civil z).2.1 ∧ (civil z).2.1 ≤ 12 ∧ 1 ≤ (civil z).2.2 ∧ (civil z).2.2 ≤ 31 := by
  have hdoe : ((z + 719468) - (z + 719468).fdiv 146097 * 146097).toNat < 146097 := by
    rw [Int.fdiv_eq_ediv_of_nonneg _ (by decide)]
    omega
  obtain ⟨h1, h2, h3, h4⟩ := monthDay_ranges (dayOfYear_le hdoe rfl) rfl
  unfold civil
  dsimp only
  exact ⟨by omega, h3, h4, h1, h2⟩

/-! The word (R41, R44). -/

/-- An insertion is pending for the end of this second (R44). -/
def Dev.inserts (d : Dev) (acc : Nat) : Prop := d.get (Pg.ts 0) TS.LEAP_CTL_PENDING = 1 ∧ acc / accSecond + 1 = d.get (Pg.ts 0) TS.LEAP_AT_SEC

/-- The word is the sum of its fields at their places, each in its range. -/
theorem Dev.calAt_fields (d : Dev) (acc : Nat) : ∃ y mo dd h mi s : Nat,
    d.calAt acc = acc % accSecond / 2 ^ 48 + d.get (Pg.ts 0) TS.UTC_OFFSET_VALID * 2 ^ 31 + (mo * 2 ^ 22 + dd * 2 ^ 17 + h * 2 ^ 12 + mi * 2 ^ 6 + s) * 2 ^ 32 + y * 2 ^ 64 ∧
    y < 2 ^ 14 ∧ (1 ≤ mo ∧ mo ≤ 12) ∧ (1 ≤ dd ∧ dd ≤ 31) ∧ h < 24 ∧ mi < 60 ∧ s ≤ 60 ∧ (s = 60 ↔ d.inserts acc) := by
  unfold Dev.calAt
  simp only [Nat.shiftLeft_eq]
  generalize hu : ((acc / accSecond : Nat) : Int) - _ - _ = utc
  have htod : (utc - utc.fdiv 86400 * 86400).toNat < 86400 := by
    rw [Int.fdiv_eq_ediv_of_nonneg _ (by decide)]
    omega
  obtain ⟨hy, hm1, hm2, hd1, hd2⟩ := civil_ranges (utc.fdiv 86400)
  refine ⟨_, _, _, _, _, _, rfl, hy, ⟨hm1, hm2⟩, ⟨hd1, hd2⟩, by omega, by omega, ?_, ?_⟩
  · split <;> omega
  · unfold Dev.inserts
    split
    · next h => exact iff_of_true rfl h
    · next h => exact iff_of_false (by omega) h

/-- Settles O12: each field is read off at its place. -/
theorem calendarWord : Obligations.CalendarWord := by
  unfold Obligations.CalendarWord
  refine ⟨fun d acc => ?_, by decide, by decide, by decide, by decide⟩
  obtain ⟨y, mo, dd, h, mi, s, hw, hy, hmo, hdd, hh, hmi, hs, hins⟩ := d.calAt_fields acc
  have hv : d.get (Pg.ts 0) TS.UTC_OFFSET_VALID < 2 := Fld.get_lt TS.UTC_OFFSET_VALID _
  have hns : acc % accSecond / 2 ^ 48 < 10 ^ 9 := by dsimp only [accSecond, second]; omega
  have hs60 : d.calAt acc / 2 ^ 32 % 2 ^ 6 = s := by omega
  dsimp only
  rw [hs60]
  exact ⟨by omega, by omega, by omega, by omega, hins, hs, by omega, by omega, by omega, by omega, by omega, by omega, by omega, by omega⟩

end Sys2Proof.Machine
end

section
/-! PROOF. What a plain write stores (O20). -/

namespace Sys2Proof.Machine

/-! The device that a served write leaves, as the effect of the write finds it (R35). -/

theorem Dev.clk_served (d : Dev) (m : Master) (pg off v : Nat) : (d.served m pg off v).clk = d.clk := (d.quiet_served m pg off v).clk_eq

theorem Dev.ts_served (d : Dev) (m : Master) (pg off v : Nat) : (d.served m pg off v).ts = d.ts := by rw [d.onlyMarks_served m pg off v]

theorem Dev.hwSet_served (d : Dev) (m : Master) (pg off v : Nat) : (d.served m pg off v).hwSet = d.hwSet := by rw [d.onlyMarks_served m pg off v]

theorem Dev.now_served (d : Dev) (m : Master) (pg off v : Nat) : (d.served m pg off v).now = d.now := congrArg Clock.mec (d.clk_served m pg off v)

/-- A served write leaves every field of an own register alone. -/
theorem Dev.get_served (d : Dev) (m : Master) (pg off v pg' : Nat) (f : Fld) (h : 0x100 ≤ f.off) (h' : f.off < 4096) : (d.served m pg off v).get pg' f = d.get pg' f :=
  congrArg f.get (d.reg_served m pg off v h h')

theorem Dev.justSet_served (d : Dev) (m : Master) (pg off v a : Nat) : (d.served m pg off v).justSet a = d.justSet a := by
  unfold Dev.justSet
  rw [Dev.hwSet_served, Dev.now_served]

/-- The lock bits are own registers. -/
theorem Dev.locked_served (d : Dev) (m : Master) (pg off v pg' : Nat) : (d.served m pg off v).locked pg' = d.locked pg' := by
  have hon (p : Nat) (f : Fld) (h : 0x100 ≤ f.off) (h' : f.off < 4096) : (d.served m pg off v).on p f = d.on p f := by
    unfold Dev.on
    rw [d.get_served m pg off v p f h h']
  unfold Dev.locked
  rw [hon _ FLT.CTL_LOCK (by decide) (by decide), hon _ CLKD.CAVE_CTL_LOCK (by decide) (by decide), hon _ PLK.CTL_LOCK (by decide) (by decide),
    hon _ LDR.POLICY_LOCK (by decide) (by decide), hon _ HIF.MGMT_CTL_LOCK (by decide) (by decide), hon _ SEQ.PERM_CTL_LOCK (by decide) (by decide)]

/-! A stored register (R13). -/

theorem Dev.storeReg_eq (d : Dev) {pg off : Nat} {r : RegDesc} (hr : regAt pg off = some r) (v : Nat) :
    d.storeReg pg off v = d.setReg pg (r.start off) (r.store (r.start off) (d.locked pg) (d.justSet (4096 * pg + r.start off)) v (d.reg pg (r.start off))) := by
  unfold Dev.storeReg
  rw [hr]

theorem Dev.onlyRegs_storeReg (d : Dev) (pg off v : Nat) : d.OnlyRegs (d.storeReg pg off v) := by
  unfold Dev.storeReg
  split <;> rfl

/-- A device that differs in registers and event stamps alone makes a state that does. -/
theorem State.withDev_onlyMarks (s : State) {e : Dev} (h : s.dev.OnlyMarks e) : s.withDev e = { s with dev := { s.dev with regs := e.regs, events := e.events, hwSet := e.hwSet } } := by
  unfold Dev.OnlyMarks at h
  rw [h]
  rfl

theorem RegDesc.start_le (r : RegDesc) (off : Nat) : r.start off ≤ off := Nat.sub_le _ _

/-- The state that a command leaves whose write is served and stores its value. -/
theorem State.run_writeStore {s : State} {m : Master} {pg off : Nat} (h : Served s m pg off) (v : Nat) (eff : Dev → Dev) :
    (s.run fun d => d.writeStore m pg off v eff) = .next (s.withDev (eff ((s.took m pg off v).storeReg pg off v))) := by
  rw [State.run_eq, Dev.writeStore, Dev.write_served h]

/-- A command that stores a served value and has no other effect changes one register. -/
theorem writesOnly_of_writeStore {s : State} {m : Master} {c : Instr} {pg off v : Nat} (hoff : off < 4096) (h : Served s m pg off)
    (hc : exec c s = s.run fun d => d.writeStore m pg off v) : WritesOnly s c pg off v := by
  intro r hr hown
  have hst := Nat.lt_of_le_of_lt (r.start_le off) hoff
  have hm : s.dev.OnlyMarks ((s.took m pg off v).storeReg pg off v) := (s.dev.onlyMarks_served m pg off v).trans (Dev.onlyRegs_storeReg _ pg off v).marks
  refine ⟨s.withDev ((s.took m pg off v).storeReg pg off v), hc.trans (State.run_writeStore h v id), s.withDev_onlyMarks hm, ?_, fun pg' off' h1 h2 hne => ?_⟩
  · rw [State.withDev_reg, Dev.storeReg_eq _ hr, Dev.reg_setReg_same, Dev.locked_served, Dev.justSet_served, Dev.reg_served _ _ _ _ _ hown hst, h.2]
  · rw [State.withDev_reg, Dev.storeReg_eq _ hr, Dev.reg_setReg_ne _ _ (by omega), Dev.reg_served _ _ _ _ _ h1 h2]

/-- Settles O20: each of these commands stores its value and has no other effect. -/
theorem plainWritesTouchOneRegister : Obligations.PlainWritesTouchOneRegister := by
  unfold Obligations.PlainWritesTouchOneRegister
  exact fun s m v => ⟨fun off ho h => writesOnly_of_writeStore ho h rfl, fun h => writesOnly_of_writeStore (by decide) h rfl, fun h => writesOnly_of_writeStore (by decide) h rfl,
    fun p off ho h => writesOnly_of_writeStore ho h rfl, fun n h => writesOnly_of_writeStore (by decide) h rfl, fun p h => writesOnly_of_writeStore (by decide) h rfl⟩

end Sys2Proof.Machine
end

section
/-! PROOF. A leap that is due, and a written UTC offset (O14). -/

namespace Sys2Proof.Machine

/-! The registers of the UTC offset and the leap (R43). -/

/-- A field of RW bits takes its part of the stored value. -/
theorem RegDesc.get_store (r : RegDesc) (o : Nat) (locked : Bool) (just v : Nat) (w : Word) (f : Fld) (hf : f.hi < 96)
    (h : ∀ i < f.hi + 1, f.lo ≤ i → bit (r.rwAt o) i = true ∧ bit r.w1c i = false ∧ bit r.w1s i = false) :
    f.get (r.store o locked just v w) = v / 2 ^ f.lo % 2 ^ (f.hi + 1 - f.lo) := by
  refine Nat.eq_of_testBit_eq fun j => ?_
  rw [Fld.get_bit, Nat.testBit_mod_two_pow, ← Nat.shiftRight_eq_div_pow, Nat.testBit_shiftRight]
  by_cases hj : j < f.hi + 1 - f.lo
  · obtain ⟨h1, h2, h3⟩ := h (f.lo + j) (by omega) (by omega)
    rw [r.getLsbD_store o locked just v _ w (by omega), h1, h2, h3]
    simp [bit]
  · simp [hj]

/-- The row of TSA_UTC_OFFSET in the register map. -/
def utcOffsetRow : RegDesc := ⟨0x300, 0, 1, 0, 1, 32, false, .val, 0x0, 0x8000FFFF, 0x0, 0x0, 0x0, 0x0⟩

theorem regAt_utcOffset (n : Ts) : regAt (Pg.ts n) 0x300 = some utcOffsetRow := by
  revert n
  decide

theorem Dev.storeReg_utcOffset (d : Dev) (n : Ts) (v : Nat) :
    d.storeReg (Pg.ts n) 0x300 v = d.setReg (Pg.ts n) 0x300 (utcOffsetRow.store 0x300 (d.locked (Pg.ts n)) (d.justSet (4096 * Pg.ts n + 0x300)) v (d.reg (Pg.ts n) 0x300)) :=
  d.storeReg_eq (regAt_utcOffset n) v

/-- A stored UTC offset reads back. -/
theorem Dev.get_storeReg_utcOffset (d : Dev) (n : Ts) (v : Nat) :
    (d.storeReg (Pg.ts n) 0x300 v).get (Pg.ts n) TS.UTC_OFFSET_OFFSET = v % 2 ^ 16 ∧ (d.storeReg (Pg.ts n) 0x300 v).get (Pg.ts n) TS.UTC_OFFSET_VALID = v / 2 ^ 31 % 2 := by
  rw [d.storeReg_utcOffset n v]
  unfold Dev.get
  rw [Dev.reg_setReg_same]
  exact ⟨(RegDesc.get_store _ _ _ _ _ _ TS.UTC_OFFSET_OFFSET (by decide) (by decide)).trans (congrArg (· % 2 ^ 16) (Nat.div_one v)),
    RegDesc.get_store _ _ _ _ _ _ TS.UTC_OFFSET_VALID (by decide) (by decide)⟩

/-- The own registers of a page that notices leave alone, but for the two of the UTC offset of a timescale. -/
structure LeapSpares (n : Ts) (pg off : Nat) : Prop where
  calm : Calm pg off
  other : ¬ (pg = Pg.ts n ∧ (off = 0x300 ∨ off = 0x304))

theorem LeapSpares.reg_put {n : Ts} {pg off : Nat} (h : LeapSpares n pg off) (d : Dev) (f : Fld) (v : Nat) (hf : f.off = 0x300 ∨ f.off = 0x304) :
    (d.put (Pg.ts n) f v).reg pg off = d.reg pg off := by
  obtain ⟨⟨-, ho, -, -, -⟩, hn⟩ := h
  exact d.reg_put_ne f v (by omega)

theorem LeapSpares.reg_storeReg {n : Ts} {pg off : Nat} (h : LeapSpares n pg off) (d : Dev) (v : Nat) : (d.storeReg (Pg.ts n) 0x300 v).reg pg off = d.reg pg off := by
  obtain ⟨⟨-, ho, -, -, -⟩, hn⟩ := h
  rw [d.storeReg_utcOffset n v]
  exact d.reg_setReg_ne _ (by omega)

theorem calm_ts (n : Ts) {off : Nat} (h : 0x100 ≤ off) (h' : off < 4096) : Calm (Pg.ts n) off := by
  have hn := n.isLt
  refine ⟨h, h', ?_, ?_, ?_⟩ <;> dsimp only [Pg.ts, Pg.glb, Pg.rec, Pg.seq] <;> omega

/-! A leap takes effect (R44). -/

/-- A two's complement 16-bit number moved by one. -/
theorem unsgn_sgn_step (v : Nat) (up : Prop) [Decidable up] : unsgn 16 (sgn 16 v + if up then 1 else -1) = (v + if up then 1 else 2 ^ 16 - 1) % 2 ^ 16 := by
  unfold unsgn sgn
  split <;> split <;> omega

/-- The offset that a pending leap leaves. -/
def Dev.leapOffset (d : Dev) (n : Ts) : Int := d.geti (Pg.ts n) TS.UTC_OFFSET_OFFSET + if d.get (Pg.ts n) TS.LEAP_CTL_PENDING = 1 then 1 else -1

/-- The registers of a leap that takes effect. -/
def Dev.leapRegs (d : Dev) (n : Ts) : Dev :=
  ((d.puti (Pg.ts n) TS.UTC_OFFSET_OFFSET (d.leapOffset n)).put (Pg.ts n) TS.LEAP_CTL_PENDING 0).raiseBits (Pg.ts n) TS.LEAP_CTL_DONE 1

/-- A leap that takes effect writes its registers, and gives notice. -/
theorem Dev.reg_applyLeap (d : Dev) (n : Ts) {pg off : Nat} (h : Calm pg off) : (d.applyLeap n).reg pg off = (d.leapRegs n).reg pg off := by
  have hn := n.isLt
  unfold Dev.applyLeap
  dsimp only
  rw [Dev.reg_event _ _ (by omega) h, Dev.reg_record _ _ _ _ _ _ h]
  rfl

theorem Dev.get_applyLeap (d : Dev) (n : Ts) (f : Fld) (h : 0x100 ≤ f.off) (h' : f.off < 4096) : (d.applyLeap n).get (Pg.ts n) f = (d.leapRegs n).get (Pg.ts n) f :=
  congrArg f.get (d.reg_applyLeap n (calm_ts n h h'))

theorem Dev.get_raiseBits (d : Dev) (pg : Nat) (f g : Fld) (m : Nat) (pg' : Nat) : (d.raiseBits pg f m).get pg' g = (d.put pg f (d.get pg f ||| m)).get pg' g := rfl

theorem Dev.get_leapRegs_offset (d : Dev) (n : Ts) : (d.leapRegs n).get (Pg.ts n) TS.UTC_OFFSET_OFFSET =
    (d.get (Pg.ts n) TS.UTC_OFFSET_OFFSET + (if d.get (Pg.ts n) TS.LEAP_CTL_PENDING = 1 then 1 else 2 ^ 16 - 1)) % 2 ^ 16 := by
  unfold Dev.leapRegs Dev.puti
  rw [Dev.get_raiseBits, Dev.get_put_ne _ _ _ _ (by dsimp only; omega), Dev.get_put_ne _ _ _ _ (by dsimp only; omega), Dev.get_put_same _ _ _ _ (by decide), ← unsgn_sgn_step]
  exact Nat.mod_eq_of_lt (by unfold unsgn Dev.leapOffset Dev.geti; omega)

theorem Dev.get_leapRegs_valid (d : Dev) (n : Ts) : (d.leapRegs n).get (Pg.ts n) TS.UTC_OFFSET_VALID = d.get (Pg.ts n) TS.UTC_OFFSET_VALID := by
  unfold Dev.leapRegs Dev.puti
  rw [Dev.get_raiseBits, Dev.get_put_ne _ _ _ _ (by dsimp only; omega), Dev.get_put_ne _ _ _ _ (by dsimp only; omega),
    Dev.get_put_disj _ _ TS.UTC_OFFSET_OFFSET TS.UTC_OFFSET_VALID _ rfl (by decide) (by decide)]

theorem Dev.get_leapRegs_pending (d : Dev) (n : Ts) : (d.leapRegs n).get (Pg.ts n) TS.LEAP_CTL_PENDING = 0 := by
  unfold Dev.leapRegs
  rw [Dev.get_raiseBits, Dev.get_put_disj _ _ TS.LEAP_CTL_DONE TS.LEAP_CTL_PENDING _ rfl (by decide) (by decide), Dev.get_put_same _ _ _ _ (by decide)]
  rfl

theorem Dev.get_leapRegs_done (d : Dev) (n : Ts) : (d.leapRegs n).get (Pg.ts n) TS.LEAP_CTL_DONE = 1 := by
  unfold Dev.leapRegs
  rw [Dev.get_raiseBits, Dev.get_put_same _ _ _ _ (by decide)]
  exact Nat.or_mod_two_eq_one.mpr (.inr rfl)

/-- A leap leaves every spared register alone. -/
theorem LeapSpares.reg_applyLeap {n : Ts} {pg off : Nat} (h : LeapSpares n pg off) (d : Dev) : (d.applyLeap n).reg pg off = d.reg pg off := by
  rw [d.reg_applyLeap n h.calm]
  exact (h.reg_put _ TS.LEAP_CTL_DONE _ (.inr rfl)).trans ((h.reg_put _ TS.LEAP_CTL_PENDING _ (.inr rfl)).trans (h.reg_put d TS.UTC_OFFSET_OFFSET _ (.inl rfl)))

theorem execLeapApply_due {s : State} {n : Ts} (hp : s.dev.leapPending n = true) (hs : s.dev.get (Pg.ts n) TS.LEAP_AT_SEC ≤ s.dev.sec n) :
    exec (.leapApply n) s = .next (s.withDev (s.dev.applyLeap n)) := by
  show execLeapApply n s = _
  rw [execLeapApply, State.run_eq, if_pos (by rw [hp, decide_eq_true hs]; rfl)]

/-! A written offset (R43, R45). -/

/-- What a stored UTC offset does to a pending leap. -/
def Dev.leapClear (d : Dev) (n : Ts) : Dev :=
  if d.get (Pg.ts n) TS.LEAP_CTL_PENDING = 0 then d
  else ((d.smearCancel n).put (Pg.ts n) TS.LEAP_CTL_PENDING 0).record 0x12 (srcPage (Pg.ts n)) [n.val, d.get (Pg.ts n) TS.LEAP_CTL_PENDING]

theorem execUtcOffsetWrite_served {s : State} {m : Master} {n : Ts} (h : Served s m (Pg.ts n) 0x300) (v : Nat) :
    exec (.utcOffsetWrite m n v) s = .next (s.withDev (((s.took m (Pg.ts n) 0x300 v).storeReg (Pg.ts n) 0x300 v).leapClear n)) :=
  State.run_writeStore h v fun d => d.leapClear n

theorem Dev.reg_smearCancel (d : Dev) (n : Ts) (pg off : Nat) : (d.smearCancel n).reg pg off = d.reg pg off := by
  unfold Dev.smearCancel
  split <;> rfl

/-- Clearing a pending leap leaves the calm registers but LEAP_CTL alone. -/
theorem Dev.reg_leapClear (d : Dev) (n : Ts) {pg off : Nat} (h : Calm pg off) (hn : ¬ (pg = Pg.ts n ∧ off = 0x304)) : (d.leapClear n).reg pg off = d.reg pg off := by
  obtain ⟨-, ho, -, -, -⟩ := id h
  unfold Dev.leapClear
  split
  · rfl
  · rw [Dev.reg_record _ _ _ _ _ _ h, Dev.reg_put_ne _ _ _ (by dsimp only; omega), Dev.reg_smearCancel]

theorem Dev.get_leapClear_pending (d : Dev) (n : Ts) : (d.leapClear n).get (Pg.ts n) TS.LEAP_CTL_PENDING = 0 := by
  unfold Dev.leapClear
  split
  · assumption
  · rw [Dev.get_record _ _ _ _ _ _ _ _ (calm_ts n (by decide) (by decide)), Dev.get_put_same _ _ _ _ (by decide)]
    rfl

theorem Dev.get_leapClear_utcOffset (d : Dev) (n : Ts) (f : Fld) (h : f.off = 0x300) : (d.leapClear n).get (Pg.ts n) f = d.get (Pg.ts n) f :=
  congrArg f.get (d.reg_leapClear n (calm_ts n (by omega) (by omega)) (by omega))

/-- Settles O14: by the registers that a leap writes, and those that a written offset leaves. -/
theorem leapTakesEffect : Obligations.LeapTakesEffect := by
  unfold Obligations.LeapTakesEffect
  refine fun s n => ⟨fun hp hs => ⟨_, execLeapApply_due hp hs, ?_, ?_, ?_, ?_, rfl, rfl, fun pg off h1 h2 h3 h4 h5 h6 => ?_⟩,
    fun m v h => ⟨_, execUtcOffsetWrite_served h v, ?_, ?_, Dev.get_leapClear_pending _ n, rfl, rfl, fun pg off h1 h2 h3 h4 h5 h6 => ?_⟩⟩
  · exact (s.dev.get_applyLeap n _ (by decide) (by decide)).trans (s.dev.get_leapRegs_offset n)
  · exact (s.dev.get_applyLeap n _ (by decide) (by decide)).trans (s.dev.get_leapRegs_valid n)
  · exact (s.dev.get_applyLeap n _ (by decide) (by decide)).trans (s.dev.get_leapRegs_pending n)
  · exact (s.dev.get_applyLeap n _ (by decide) (by decide)).trans (s.dev.get_leapRegs_done n)
  · exact LeapSpares.reg_applyLeap ⟨⟨h1, h2, h3, h4, h5⟩, h6⟩ s.dev
  · exact (Dev.get_leapClear_utcOffset _ n _ rfl).trans (Dev.get_storeReg_utcOffset _ n v).1
  · exact (Dev.get_leapClear_utcOffset _ n _ rfl).trans (Dev.get_storeReg_utcOffset _ n v).2
  · have hk : LeapSpares n pg off := ⟨⟨h1, h2, h3, h4, h5⟩, h6⟩
    exact (Dev.reg_leapClear _ n hk.calm (by omega)).trans ((hk.reg_storeReg _ v).trans (s.dev.reg_served m _ _ v h1 h2))

end Sys2Proof.Machine
end

section
/-! PROOF. The commands of steps, bindings and bounds (O37). -/

namespace Sys2Proof.Machine

/-! Steps and arms (R60, R70, R72). -/

theorem stepArm_completes (s : State) (m : Master) (n : Ts) (key : Nat) (hg : s.dev.gate m (Pg.ts n) 0x188 = .served) (hm : s.dev.mayStep n m = true) (hk : key % 256 = 0x5A) :
    let d := (s.took m (Pg.ts n) 0x188 (stepWord key 1)).upTs n fun e => { e with arm := some (m, (s.took m (Pg.ts n) 0x188 (stepWord key 1)).now + 10 * second) }
    exec (.stepArm m n key) s = .next (s.withDev ((((d.put (Pg.ts n) TS.STEP_STS_ARMED 1).put (Pg.ts n) TS.STEP_STS_ARM_MASTER (masterId m)).put (Pg.ts n) TS.STEP_STS_RESULT 6).timer
      (10 * second) (.stepArmExpiry n))) := by
  show execStepArm m n key s = _
  rw [execStepArm, State.run_eq, Dev.writeIf_served hg, if_pos hm, if_pos hk]

/-- An EXEC of the master whose arm stands, with no step pending, is accepted. -/
theorem Dev.execStep_armed {d : Dev} {n : Ts} {m : Master} {t : Nat} (hs : d.ts[n].step = none) (ha : d.ts[n].arm = some (m, t)) (ht : d.now ≤ t) (op : StepOp) :
    d.execStep n m op = (d.disarm n).acceptStep n op ((d.disarm n).on (Pg.ts n) TS.STEP_CTL_AT_SEC) := by
  unfold Dev.execStep
  dsimp only
  rw [hs, ha]
  simp [ht]

theorem execSteps_complete (s : State) (m : Master) (n : Ts) (key t : Nat) (hg : s.dev.gate m (Pg.ts n) 0x188 = .served) (hm : s.dev.mayStep n m = true)
    (hs : s.dev.ts[n].step = none) (ha : s.dev.ts[n].arm = some (m, t)) (ht : s.dev.now ≤ t) :
    let d1 := s.took m (Pg.ts n) 0x188 (stepWord key 2)
    let d2 := s.took m (Pg.ts n) 0x188 (stepWord key 3)
    exec (.execRel m n key) s = .next (s.withDev ((d1.disarm n).acceptStep n (.rel (d1.geti (Pg.ts n) TS.STEP_AMT_AMT)) ((d1.disarm n).on (Pg.ts n) TS.STEP_CTL_AT_SEC))) ∧
    exec (.execAbs m n key) s = .next (s.withDev ((d2.disarm n).acceptStep n (.abs (untime96 (d2.get (Pg.ts n) TS.SET_TIME_TIME))) ((d2.disarm n).on (Pg.ts n) TS.STEP_CTL_AT_SEC))) := by
  have hts (v : Nat) := s.dev.ts_served m (Pg.ts n) 0x188 v
  have hnow (v : Nat) := s.dev.now_served m (Pg.ts n) 0x188 v
  have hexec (v : Nat) (op : StepOp) := Dev.execStep_armed (d := s.took m (Pg.ts n) 0x188 v) (by rw [hts]; exact hs) (by rw [hts]; exact ha) (by rw [hnow]; exact ht) op
  constructor
  · show execExecRel m n key s = _
    rw [execExecRel, State.run_eq, Dev.writeIf_served hg, if_pos hm, hexec]
  · show execExecAbs m n key s = _
    rw [execExecAbs, State.run_eq, Dev.writeIf_served hg, if_pos hm, hexec]

theorem disarm_completes (s : State) (m : Master) (n : Ts) (key : Nat) (hg : s.dev.gate m (Pg.ts n) 0x188 = .served) (hm : s.dev.mayStep n m = true) :
    exec (.disarm m n key) s = .next (s.withDev (((s.took m (Pg.ts n) 0x188 (stepWord key 4)).disarm n).put (Pg.ts n) TS.STEP_STS_RESULT 7)) := by
  show execDisarm m n key s = _
  rw [execDisarm, State.run_eq, Dev.writeIf_served hg, if_pos hm]

theorem stepArmExpiry_completes (s : State) (m : Master) (n : Ts) (t : Nat) (ha : s.dev.ts[n].arm = some (m, t)) (ht : t ≤ s.dev.now) :
    exec (.stepArmExpiry n) s = .next (s.withDev (s.dev.disarm n)) := by
  show execStepArmExpiry n s = _
  rw [execStepArmExpiry, State.run_eq, ha]
  dsimp only
  rw [if_pos ht]

/-! Classes (R59). -/

/-- Nothing is left of HOLD once it has passed. -/
theorem Dev.holdLeft_past {d : Dev} {n : Ts} {t : Int} (h : t + d.get (Pg.ts n) TS.CC_CTL_HOLD * accSecond ≤ d.stepFree n) : d.holdLeft n t = 0 := by
  unfold Dev.holdLeft
  rw [Int.toNat_of_nonpos (by omega)]
  rfl

/-- A lower class that has matched for HOLD takes effect. -/
theorem Dev.judgeClass_held {d : Dev} {n : Ts} {c : Nat} {t : Int} (hb : d.ts[n].clsBetter = some (c, t)) (hc : d.classNow n = c) (hn : c ≠ d.ts[n].cls)
    (h : t + d.get (Pg.ts n) TS.CC_CTL_HOLD * accSecond ≤ d.stepFree n) : d.judgeClass n = d.setClass n c := by
  unfold Dev.judgeClass
  dsimp only
  rw [hb, hc]
  dsimp only
  rw [if_neg hn]
  simp only [if_true, Dev.holdLeft_past h, or_true]

theorem clockClassHoldExpiry_completes (s : State) (n : Ts) (c : Nat) (t : Int) (hb : s.dev.ts[n].clsBetter = some (c, t)) (hc : s.dev.classNow n = c) (hn : c ≠ s.dev.ts[n].cls)
    (h : t + s.dev.get (Pg.ts n) TS.CC_CTL_HOLD * accSecond ≤ s.dev.stepFree n) : exec (.clockClassHoldExpiry n) s = .next (s.withDev (s.dev.setClass n c)) := by
  show execClockClassHoldExpiry n s = _
  rw [execClockClassHoldExpiry, State.run_eq, if_pos (by rw [hb]; rfl), Dev.judgeClass_held hb hc hn h]

theorem snapJoint_completes (s : State) (m : Master) (h : Served s m (Pg.ts 0) 0x70) :
    exec (.snapJoint m) s = .next (s.withDev (((s.took m (Pg.ts 0) 0x70 3).snapStart (Pg.ts 0)).snapStart (Pg.ts 1))) := by
  show execSnapJoint m s = _
  rw [execSnapJoint, State.run_eq, Dev.writeSnap, Dev.write_served h]
  rfl

/-! Bindings (R76, R77). -/

/-- A write of a binding entry on the device that took it: SEL is refused where it differs, its timescale is unqualified or forced, and FORCE is 0. -/
theorem bindWrite_completes (s : State) (m : Master) (i : Fin 48) (v : Nat) (h : Served s m (Pg.ts 0) (0x440 + 4 * i.val)) :
    let d := s.took m (Pg.ts 0) (0x440 + 4 * i.val) v
    let old := d.get (Pg.ts 0) (TSA.BIND_SEL i)
    let st := d.get (Pg.ts (v % 2)) TS.BOUND_STS_STATE
    let e := (if d.corr[i] = 0 then d else d.viewKeep i).storeReg (Pg.ts 0) (0x440 + 4 * i.val) v
    ((v % 2 ≠ old ∧ (st = 0 ∨ st = 3) ∧ bit v 5 = false) → exec (.bindWrite m i v) s = .next (s.withDev
      ((e.putb (Pg.ts 0) (TSA.BIND_REFUSED i) true).put (Pg.ts 0) (TSA.BIND_SEL i) old))) ∧
    ((v % 2 ≠ old ∧ ((st ≠ 0 ∧ st ≠ 3) ∨ bit v 5 = true)) → exec (.bindWrite m i v) s = .next (s.withDev
      ((e.putb (Pg.ts 0) (TSA.BIND_REFUSED i) false).register 0 (.bind i (v % 2))))) ∧
    (v % 2 = old → exec (.bindWrite m i v) s = .next (s.withDev (e.putb (Pg.ts 0) (TSA.BIND_REFUSED i) false))) := by
  intro d old st e
  have he : (d.when (d.corr[i] != 0) fun d => d.viewKeep i).storeReg (Pg.ts 0) (0x440 + 4 * i.val) v = e := by
    by_cases hc : d.corr[i] = 0 <;> simp [e, hc, Dev.when]
  have hx : exec (.bindWrite m i v) s = .next (s.withDev (
      let refused := v % 2 != old && (st == 0 || st == 3) && !bit v 5
      let e' := e.putb (Pg.ts 0) (TSA.BIND_REFUSED i) refused
      if refused then e'.put (Pg.ts 0) (TSA.BIND_SEL i) old else e'.when (v % 2 != old) fun d => d.register 0 (.bind i (v % 2)))) := by
    show execBindWrite m i v s = _
    rw [execBindWrite, State.run_eq, Dev.write_served h, ← he]
  rw [hx]
  refine ⟨fun ⟨hne, hst, hf⟩ => ?_, fun ⟨hne, hst⟩ => ?_, fun heq => ?_⟩
  · have hr : (v % 2 != old && (st == 0 || st == 3) && !bit v 5) = true := by simp [hne, hst, hf]
    simp only [hr, if_true]
  · have hn : (v % 2 != old) = true := bne_iff_ne.mpr hne
    have hr : (v % 2 != old && (st == 0 || st == 3) && !bit v 5) = false := by
      obtain ⟨h0, h3⟩ | hf := hst
      · simp [h0, h3]
      · simp [hf]
    simp only [hr, Bool.false_eq_true, if_false]
    rw [hn, Dev.when_true]
  · have hr : (v % 2 != old) = false := by simp [heq]
    simp only [hr, Bool.false_and, Dev.when_false, Bool.false_eq_true, if_false]

theorem walkComplete_completes (s : State) (n : Fin 48) (hc : s.dev.corr[n] ≠ 0) (hh : s.dev.on (Pg.ts 0) (TSA.BIND_HOLD n) = false)
    (hw : s.dev.corr[n].natAbs ≤ clampN 1 1000 s.dev.ts[0].walkRate * 2 ^ 48 / second) :
    exec (.walkComplete n) s = .next (s.withDev ({ s.dev.viewKeep n with corr := s.dev.corr.set n 0 }.showCorr n)) := by
  show execWalkComplete n s = _
  rw [execWalkComplete, State.run_eq, if_pos ⟨hc, by rw [hh]; rfl, hw⟩]

/-- Settles O37: command by command. -/
theorem stepAndBindingCommandsComplete : Obligations.StepAndBindingCommandsComplete := by
  unfold Obligations.StepAndBindingCommandsComplete
  exact fun s => ⟨fun _ => rfl, stepArm_completes s, execSteps_complete s, disarm_completes s, stepArmExpiry_completes s, fun _ => rfl, fun _ => rfl,
    clockClassHoldExpiry_completes s, fun m n v h => State.run_writeStore h v _, snapJoint_completes s, bindWrite_completes s, walkComplete_completes s,
    fun m v h => State.run_writeStore h v _⟩

end Sys2Proof.Machine
end

section
/-! SUPPORT. The engine of a timescale: what reads as set, and what leaves it alone. -/

namespace Sys2Proof.Machine

/-- An update of a timescale's engine reads back. -/
@[simp] theorem Dev.ts_upTs_same (d : Dev) (n : Ts) (f : TsEng → TsEng) : (d.upTs n f).ts[n] = f d.ts[n] := Vector.getElem_set_self _

/-- An update of one timescale's engine leaves the other's alone. -/
theorem Dev.ts_upTs_ne (d : Dev) {n k : Ts} (f : TsEng → TsEng) (h : k ≠ n) : (d.upTs n f).ts[k] = d.ts[k] :=
  Vector.getElem_set_ne n.isLt k.isLt fun e => h (Fin.ext e.symm)

/-- What an update of a timescale's engine keeps of it, it keeps of both. -/
theorem Dev.ts_upTs_proj {β : Type} (p : TsEng → β) (d : Dev) (n k : Ts) (f : TsEng → TsEng) (h : ∀ e, p (f e) = p e) : p (d.upTs n f).ts[k] = p d.ts[k] := by
  by_cases hk : k = n
  · subst hk
    rw [Dev.ts_upTs_same, h]
  · rw [d.ts_upTs_ne f hk]

/-- Notices leave the engines of the timescales alone. -/
theorem Dev.Quiet.ts_eq {d e : Dev} (h : d.Quiet e) : e.ts = d.ts := by unfold Dev.Quiet at h; rw [h]

@[simp] theorem Dev.int_ts (d : Dev) (pg b : Nat) : (d.int pg b).ts = d.ts := (d.quiet_int pg b).ts_eq
@[simp] theorem Dev.count_ts (d : Dev) (pg : Nat) (f : Fld) (a : Attr) : (d.count pg f a).ts = d.ts := (d.quiet_count pg f a).ts_eq
@[simp] theorem Dev.pmc_ts (d : Dev) (pg ev : Nat) (a : Attr) : (d.pmc pg ev a).ts = d.ts := (d.quiet_pmc pg ev a).ts_eq

@[simp] theorem State.withDev_ts (s : State) (d : Dev) : (s.withDev d).dev.ts = d.ts := rfl

/-- Timers hold no register. -/
theorem Dev.get_timer (d : Dev) (dt : Nat) (i : Instr) (pg : Nat) (f : Fld) : (d.timer dt i).get pg f = d.get pg f := rfl

/-- What an effect leaves of the engines, it leaves under a condition. -/
theorem Dev.when_ts (d : Dev) (c : Bool) (f : Dev → Dev) (h : ∀ e : Dev, (f e).ts = e.ts) : (d.when c f).ts = d.ts := Dev.when_proj Dev.ts f d c h

/-- And so does its repetition. -/
theorem Dev.each_ts {α : Type} (d : Dev) (l : List α) (f : α → Dev → Dev) (h : ∀ (x : α) (e : Dev), (f x e).ts = e.ts) : (d.each l f).ts = d.ts :=
  Dev.each_proj Dev.ts f h l d

end Sys2Proof.Machine
end

section
/-! PROOF. What one tick adds to a timescale (O8), and what a slew adds (O9). -/

namespace Sys2Proof.Machine

/-! What a slew adds in one tick (R68). -/

/-- A remainder of at most one tick's adjustment waits for SLEW_COMPLETE. -/
theorem walkTick_last {adj : Nat} {r : Int} (h : r.natAbs ≤ adj) : walkTick adj r = 0 := if_pos h

theorem walkTick_forward {adj : Nat} {r : Int} (h : adj < r.natAbs) (hr : 0 < r) : walkTick adj r = adj := by
  unfold walkTick
  rw [if_neg (Nat.not_le.mpr h), if_pos hr]

theorem walkTick_backward {adj : Nat} {r : Int} (h : adj < r.natAbs) (hr : r < 0) : walkTick adj r = -(adj : Int) := by
  unfold walkTick
  rw [if_neg (Nat.not_le.mpr h), if_neg (by omega)]

/-! The clock of a tick (R62). -/

/-- A tick adds to each accumulator what its timescale adds. -/
theorem tick_acc (s : State) (n : Ts) : (tick s).dev.acc n = ((s.dev.acc n : Int) + s.dev.tickAdd n).toNat := by
  have h : (tick s).dev.acc n = s.dev.tickClk.acc[n] := congrArg (fun c : Clock => c.acc[n]) (tick_clk s)
  rw [h]
  match n with
  | 0 => rfl
  | 1 => rfl

/-- An accumulator is held as SEC, NS and fraction (R38, R62). -/
theorem Dev.acc_parts (d : Dev) (n : Ts) : ∃ ns frac, ns < 10 ^ 9 ∧ frac < 2 ^ 48 ∧ d.acc n = d.sec n * (10 ^ 9 * 2 ^ 48) + ns * 2 ^ 48 + frac := by
  refine ⟨d.acc n % accSecond / 2 ^ 48, d.acc n % 2 ^ 48, ?_, ?_, ?_⟩
  · dsimp only [accSecond, second]
    omega
  · omega
  · dsimp only [Dev.sec, accSecond, second]
    omega

/-- Settles O8: by what a tick adds to the accumulator, and by the three cases of the slew. -/
theorem idleTickAdvancesTime : Obligations.IdleTickAdvancesTime := by
  unfold Obligations.IdleTickAdvancesTime
  refine fun s h => ⟨tick s, step_idle h, rfl, fun n => ?_⟩
  intro rem adj inc
  have hacc : (tick s).dev.acc n = ((s.dev.acc n : Int) + (inc + walkTick adj rem)).toNat := tick_acc s n
  refine ⟨fun hr => ?_, fun hr hp => ?_, fun hr hn => ?_, (tick s).dev.acc_parts n⟩
  · rw [walkTick_last hr] at hacc
    omega
  · rw [walkTick_forward hr hp] at hacc
    omega
  · rw [walkTick_backward hr hn] at hacc
    omega

/-! What a tick leaves of the engines of the timescales. -/

/-- The calibration slots judged in a second are alarms alone. -/
theorem Dev.quiet_slotPoints (d : Dev) : d.Quiet d.slotPoints :=
  Dev.Quiet.each _ _ fun _ _ => Dev.Quiet.when _ _ fun e => e.quiet_afterTime _ _ _

theorem Dev.ckoEval_ts (d : Dev) (m : Fin 16) : (d.ckoEval m).ts = d.ts := by
  unfold Dev.ckoEval
  dsimp only
  rw [Dev.when_ts _ _ _ fun e => e.int_ts _ _]
  exact d.when_ts _ _ fun _ => rfl

theorem Dev.ckoTurn_ts (d : Dev) (m : Fin 16) : (d.ckoTurn m).ts = d.ts := by
  unfold Dev.ckoTurn
  split
  · split
    · rfl
    · exact Dev.ckoEval_ts _ m
  · rfl

theorem Dev.setAligned_ts (d : Dev) (n : Fin 4) (v : Bool) : (d.setAligned n v).ts = d.ts := by
  unfold Dev.setAligned
  split
  · rfl
  · exact Dev.int_ts _ _ _

theorem Dev.alignEnd_ts (d : Dev) (n : Fin 4) : (d.alignEnd n).ts = d.ts := by
  unfold Dev.alignEnd
  split
  · split
    · exact (Dev.each_ts _ _ _ fun m e => e.when_ts _ _ fun e => e.ckoEval_ts m).trans (Dev.setAligned_ts _ n _)
    · rfl
  · rfl

/-- What a tick brings to the synthesizers and their outputs leaves the timescales alone. -/
theorem Dev.gridTick_ts (d : Dev) : d.gridTick.ts = d.ts :=
  (Dev.each_ts _ _ _ fun m e => e.ckoTurn_ts m).trans (d.each_ts _ _ fun n e => e.alignEnd_ts n)

theorem Dev.tdcShow_ts (d : Dev) (n : Fin 16) : (d.tdcShow n).ts = d.ts := by
  unfold Dev.tdcShow
  dsimp only
  split <;> rfl

theorem Dev.intOnce_ts (d : Dev) (pg b : Nat) : (d.intOnce pg b).ts = d.ts := d.when_ts _ _ fun e => e.int_ts pg b

theorem Dev.toQueue_ts (d : Dev) (n : Fin 16) (s : Stamp) : (d.toQueue n s).ts = d.ts := by
  unfold Dev.toQueue
  dsimp only
  split
  · exact (Dev.intOnce_ts _ _ _).trans (d.count_ts _ _ _)
  · exact (Dev.when_ts _ _ _ fun e => e.int_ts _ _).trans (Dev.tdcShow_ts _ n)

theorem Dev.toStream_ts (d : Dev) (n : Fin 16) (s : Stamp) : (d.toStream n s).ts = d.ts := by
  unfold Dev.toStream
  split
  · exact (Dev.intOnce_ts _ _ _).trans ((Dev.count_ts _ _ _ _).trans (d.count_ts _ _ _))
  · exact Dev.when_ts _ _ _ fun _ => rfl

theorem Dev.stampOut_ts (d : Dev) (n : Fin 16) : (d.stampOut n).ts = d.ts := by
  unfold Dev.stampOut
  split
  · exact (Dev.when_ts _ _ _ fun e => e.toStream_ts n _).trans (Dev.when_ts _ _ _ fun e => e.toQueue_ts n _)
  · rfl

/-- The stamps that go on at a tick leave the timescales alone. -/
theorem Dev.stampTick_ts (d : Dev) : d.stampTick.ts = d.ts := d.each_ts _ _ fun n e => e.when_ts _ _ fun e => e.stampOut_ts n

/-- The words that a snapshot reads are counted, and no more. -/
theorem Dev.readPairs_ts (d : Dev) (l : List Nat) (p : List Nat) (f : List Nat × Dev → Nat → List Nat) :
    (l.foldl (fun x y => (f x y, (x.2.read32 .snapshot y).2)) (p, d)).2.ts = d.ts := by
  induction l generalizing p d with
  | nil => rfl
  | cons y l ih => exact (ih _ _).trans (d.pmc_ts _ _ _)

/-- What a tick brings to the snapshot engine leaves the timescales alone. -/
theorem Dev.snapStep_ts (d : Dev) : d.snapStep.ts = d.ts := by
  unfold Dev.snapStep
  split
  · rfl
  · split
    · rfl
    · dsimp only
      split
      · rfl
      · split
        · rfl
        · split
          · rfl
          · exact (Dev.Quiet.when _ _ fun e => e.quiet_after _ _).ts_eq.trans (d.readPairs_ts _ _ fun x y => x.1 ++ oct 4 y ++ oct 4 (x.2.read32 .snapshot y).1)

/-! The slew of a tick (R68). -/

/-- The history of a timescale holds no slew. -/
theorem Dev.slewRem_lawTick (old : Dev) (n k : Ts) (d : Dev) : (old.lawTick n d).ts[k].slewRem = d.ts[k].slewRem :=
  Dev.when_proj (fun e => e.ts[k].slewRem) _ d _ fun e => e.ts_upTs_proj TsEng.slewRem n k _ fun _ => rfl

theorem Dev.slewRem_noteSec (d : Dev) (n k : Ts) : (d.noteSec n).ts[k].slewRem = d.ts[k].slewRem := by
  unfold Dev.noteSec
  split
  · split
    · exact d.ts_upTs_proj TsEng.slewRem n k (fun e => { e with stepSec := some (d.sec n) }) fun _ => rfl
    · rfl
  · rfl

/-- What the tick of a timescale brings beside its slew: what is due, and what waits for a second. -/
theorem Dev.slewRem_tickTs (old : Dev) (n k : Ts) (d : Dev) :
    (old.tickTs n d).ts[k].slewRem = (d.upTs n fun e => { e with
      slewRem := old.ts[n].slewRem - walkTick (slewAdj (old.get (Pg.ts n) TS.SLEW_MAX_RATE)) old.ts[n].slewRem }).ts[k].slewRem := by
  unfold Dev.tickTs
  extract_lets adj r w last _ d1 d2 due d3 d4 d5 d6
  have h1 : d1.ts[k].slewRem = (d.upTs n fun e => { e with slewRem := r - w }).ts[k].slewRem := by
    have hd : d1 = d.upTs n fun e => { e with slewRem := r - w, ending := last } := rfl
    rw [hd]
    by_cases hk : k = n
    · subst hk
      rw [Dev.ts_upTs_same, Dev.ts_upTs_same]
    · rw [d.ts_upTs_ne _ hk, d.ts_upTs_ne _ hk]
  have h3 : d1.Quiet d3 := Dev.Quiet.trans (Dev.Quiet.when _ _ fun e => e.quiet_after _ _) (Dev.Quiet.when _ _ fun e => e.quiet_after _ _)
  have h4 : d4.ts[k].slewRem = d1.ts[k].slewRem := by rw [← h3.ts_eq]; exact d3.slewRem_noteSec n k
  have h6 : d4.Quiet d6 := (d4.quiet_event _).trans (Dev.Quiet.when _ _ fun e => e.quiet_after _ _)
  rw [← h1, ← h4]
  split
  · rfl
  · refine congrArg (fun v : Vector TsEng 2 => v[k].slewRem) (Dev.Quiet.ts_eq (h6.trans ?_))
    exact Dev.Quiet.each _ _ fun c e => Dev.Quiet.when _ _ fun e => e.quiet_after _ _

/-- The ticks of both timescales, each with its history: the slew of each loses what the tick makes of it. -/
theorem Dev.slewRem_tickBoth (old : Dev) (n : Ts) (d : Dev) :
    (d.each [0, 1] fun k e => old.tickTs k (old.lawTick k e)).ts[n].slewRem =
      old.ts[n].slewRem - walkTick (slewAdj (old.get (Pg.ts n) TS.SLEW_MAX_RATE)) old.ts[n].slewRem := by
  have hself (e : Dev) (k : Ts) : (old.tickTs k (old.lawTick k e)).ts[k].slewRem =
      old.ts[k].slewRem - walkTick (slewAdj (old.get (Pg.ts k) TS.SLEW_MAX_RATE)) old.ts[k].slewRem := by
    rw [Dev.slewRem_tickTs, Dev.ts_upTs_same]
  have hother (e : Dev) {k j : Ts} (hj : j ≠ k) : (old.tickTs k (old.lawTick k e)).ts[j].slewRem = e.ts[j].slewRem := by
    rw [Dev.slewRem_tickTs, Dev.ts_upTs_ne _ _ hj, Dev.slewRem_lawTick]
  match n with
  | 0 => exact (hother _ (by decide)).trans (hself d 0)
  | 1 => exact hself _ 1

/-- A tick takes from what remains of a slew what it adds to the accumulator. -/
theorem tick_slewRem (s : State) (n : Ts) :
    (tick s).dev.ts[n].slewRem = s.dev.ts[n].slewRem - walkTick (slewAdj (s.dev.get (Pg.ts n) TS.SLEW_MAX_RATE)) s.dev.ts[n].slewRem := by
  unfold tick
  extract_lets c _ d1 d2 d3 d4 d5 bins sec d6 d7 adj d8 d9 d10 d11 d12 rung due
  have h6 : d5.Quiet d6 := by
    dsimp only [d6]
    split
    · exact ((Dev.Quiet.each _ _ fun c e => e.quiet_after 0 c).trans (Dev.quiet_after _ _ _)).trans (Dev.quiet_slotPoints _)
    · exact Dev.Quiet.each _ _ fun c e => e.quiet_after 0 c
  have h7 : d6.Quiet d7 := Dev.Quiet.when _ _ fun e => e.quiet_after _ _
  have h8 : d8.ts = d7.ts := by
    refine d7.each_ts _ _ fun k e => ?_
    split
    · dsimp only
      split <;> rfl
    · rfl
  have h11 : d8.Quiet d11 := ((Dev.Quiet.each _ _ fun k e => Dev.Quiet.when _ _ fun e => e.quiet_after _ _).trans
    (Dev.Quiet.each _ _ fun k e => Dev.Quiet.when _ _ fun e => e.quiet_after _ _)).trans (Dev.Quiet.each _ _ fun c e => e.quiet_after 0 c)
  have h12 : d12.ts = d11.ts := (Dev.snapStep_ts _).trans ((Dev.stampTick_ts _).trans (Dev.gridTick_ts _))
  have h5 : d12.ts = d5.ts := by rw [h12, h11.ts_eq, h8, h7.ts_eq, h6.ts_eq]
  clear_value d12
  dsimp only
  rw [h5]
  exact s.dev.slewRem_tickBoth n d4

/-! The last tick of a slew (R68). -/

/-- What SLEW_COMPLETE leaves: what remained is on the accumulator, and the slew shows as ended. -/
def Dev.slewEnd (d : Dev) (n : Ts) : Dev :=
  (({ d with clk := { d.clk with acc := d.clk.acc.set n ((d.acc n : Int) + d.ts[n].slewRem).toNat } }.upTs n fun e => { e with slewRem := 0, ending := false }).showSlew n).put
    (Pg.ts n) TS.STS_SLEW_RES 0

theorem Dev.acc_slewEnd_same (d : Dev) (n : Ts) : (d.slewEnd n).clk.acc[n] = ((d.acc n : Int) + d.ts[n].slewRem).toNat := Vector.getElem_set_self _

theorem Dev.acc_slewEnd_ne (d : Dev) {n k : Ts} (h : k ≠ n) : (d.slewEnd n).clk.acc[k] = d.clk.acc[k] := Vector.getElem_set_ne n.isLt k.isLt fun e => h (Fin.ext e.symm)

theorem Dev.ts_slewEnd (d : Dev) (n : Ts) : (d.slewEnd n).ts[n] = { d.ts[n] with slewRem := 0, ending := false } :=
  Dev.ts_upTs_same _ n fun e => { e with slewRem := 0, ending := false }

/-- At the last tick of a slew the command adds what remains. -/
theorem execSlewComplete_ending {s : State} {n : Ts} (h : s.dev.ts[n].ending = true) : exec (.slewComplete n) s = .next (s.withTime (s.dev.slewEnd n)) := by
  show execSlewComplete n s = _
  rw [execSlewComplete, State.runTime_eq, if_pos h]
  rfl

/-- At any other the command has no effect. -/
theorem execSlewComplete_idle {s : State} {n : Ts} (h : s.dev.ts[n].ending = false) : exec (.slewComplete n) s = .next s := by
  show execSlewComplete n s = _
  rw [execSlewComplete, State.runTime_eq, if_neg (by rw [h]; decide)]
  rfl

/-- Settles O9: a tick adds to the accumulator what it takes from the remainder, and the last one adds the rest. -/
theorem slewRemovesItsAmount : Obligations.SlewRemovesItsAmount := by
  unfold Obligations.SlewRemovesItsAmount
  refine fun s n => ⟨fun h => ⟨tick s, step_idle h, fun hpos => ?_⟩, fun t ht hpos => ?_⟩
  · rw [tick_acc, tick_slewRem, Int.toNat_of_nonneg hpos]
    unfold Dev.tickAdd
    omega
  · cases he : s.dev.ts[n].ending with
    | false =>
      rw [execSlewComplete_idle he] at ht
      cases ht
      rfl
    | true =>
      rw [execSlewComplete_ending he] at ht
      cases ht
      have hacc : (s.withTime (s.dev.slewEnd n)).dev.acc n = _ := s.dev.acc_slewEnd_same n
      have hrem : (s.withTime (s.dev.slewEnd n)).dev.ts[n].slewRem = 0 := congrArg TsEng.slewRem (s.dev.ts_slewEnd n)
      rw [hacc, hrem, Int.toNat_of_nonneg hpos, Int.add_zero]

end Sys2Proof.Machine
end

section
/-! PROOF. What ARM and EXEC leave (O13). -/

namespace Sys2Proof.Machine

/-! ARM (R70). -/

/-- Ticks in a second, as the statement writes them. -/
theorem second_eq : second = 10 ^ 9 := rfl

/-- An ARM with a wrong key has its refusal alone. -/
theorem stepArm_refused {s : State} {m : Master} {n : Ts} {key : Nat} (hg : s.dev.gate m (Pg.ts n) 0x188 = .served) (hm : s.dev.mayStep n m = true) (hk : key % 256 ≠ 0x5A) :
    exec (.stepArm m n key) s = .next (s.withDev ((s.took m (Pg.ts n) 0x188 (stepWord key 1)).put (Pg.ts n) TS.STEP_STS_RESULT 1)) := by
  show execStepArm m n key s = _
  rw [execStepArm, State.run_eq, Dev.writeIf_served hg, if_pos hm, if_neg hk]

/-- The device once a master holds the arm for 10 s. -/
def Dev.armed (d : Dev) (n : Ts) (m : Master) : Dev :=
  (((d.upTs n fun e => { e with arm := some (m, d.now + 10 * second) }).put (Pg.ts n) TS.STEP_STS_ARMED 1).put (Pg.ts n) TS.STEP_STS_ARM_MASTER (masterId m)).put
    (Pg.ts n) TS.STEP_STS_RESULT 6

theorem Dev.ts_armed (d : Dev) (n : Ts) (m : Master) : (d.armed n m).ts[n] = { d.ts[n] with arm := some (m, d.now + 10 * second) } :=
  d.ts_upTs_same n fun e => { e with arm := some (m, d.now + 10 * second) }

theorem Dev.get_armed_result (d : Dev) (n : Ts) (m : Master) : (d.armed n m).get (Pg.ts n) TS.STEP_STS_RESULT = 6 := Dev.get_put_same _ _ _ _ (by decide)

theorem Dev.get_armed_armed (d : Dev) (n : Ts) (m : Master) : (d.armed n m).get (Pg.ts n) TS.STEP_STS_ARMED = 1 := by
  unfold Dev.armed
  rw [Dev.get_put_disj _ _ TS.STEP_STS_RESULT TS.STEP_STS_ARMED _ rfl (by decide) (by decide),
    Dev.get_put_disj _ _ TS.STEP_STS_ARM_MASTER TS.STEP_STS_ARMED _ rfl (by decide) (by decide)]
  exact Dev.get_put_same _ _ _ _ (by decide)

theorem Dev.get_armed_master (d : Dev) (n : Ts) (m : Master) : (d.armed n m).get (Pg.ts n) TS.STEP_STS_ARM_MASTER = masterId m := by
  unfold Dev.armed
  rw [Dev.get_put_disj _ _ TS.STEP_STS_RESULT TS.STEP_STS_ARM_MASTER _ rfl (by decide) (by decide), Dev.get_put_same _ _ _ _ (by decide)]
  exact Nat.mod_eq_of_lt (masterId_lt m)

/-- An ARM with its key gives this master the arm, and sets its timer. -/
theorem stepArm_accepted {s : State} {m : Master} {n : Ts} {key : Nat} (hg : s.dev.gate m (Pg.ts n) 0x188 = .served) (hm : s.dev.mayStep n m = true) (hk : key % 256 = 0x5A) :
    exec (.stepArm m n key) s = .next (s.withDev (((s.took m (Pg.ts n) 0x188 (stepWord key 1)).armed n m).timer (10 * second) (.stepArmExpiry n))) :=
  stepArm_completes s m n key hg hm hk

/-! EXEC (R70 to R72). -/

/-- A disarm gives up the arm and keeps the rest of the engine. -/
theorem Dev.ts_disarm (d : Dev) (n : Ts) : (d.disarm n).ts[n] = { d.ts[n] with arm := none } := d.ts_upTs_same n fun e => { e with arm := none }

/-- A disarm writes TSA_STEP_STS alone. -/
theorem Dev.get_disarm (d : Dev) (n : Ts) (f : Fld) (h : f.off ≠ 0x18C) : (d.disarm n).get (Pg.ts n) f = d.get (Pg.ts n) f := by
  unfold Dev.disarm
  dsimp only
  rw [Dev.get_put_ne _ _ _ _ (by dsimp only; omega), Dev.get_put_ne _ _ _ _ (by dsimp only; omega), Dev.get_put_ne _ _ _ _ (by dsimp only; omega)]
  rfl

/-- A step that is accepted is pending, with its registration and its choice of a second. -/
theorem Dev.ts_acceptStep (d : Dev) (n : Ts) (op : StepOp) (atSec : Bool) :
    (d.acceptStep n op atSec).ts[n] = { d.ts[n] with step := some (op, d.now, atSec), stepSec := none } := by
  have h := d.ts_upTs_same n fun e => { e with step := some (op, d.now, atSec), stepSec := none }
  cases atSec
  · exact h
  · exact h

theorem Dev.get_acceptStep_pending (d : Dev) (n : Ts) (op : StepOp) (atSec : Bool) : (d.acceptStep n op atSec).get (Pg.ts n) TS.STEP_STS_PENDING = 1 := by
  have h : ((d.upTs n fun e => { e with step := some (op, d.now, atSec), stepSec := none }).put (Pg.ts n) TS.STEP_STS_PENDING 1).get (Pg.ts n) TS.STEP_STS_PENDING = 1 :=
    Dev.get_put_same _ _ _ _ (by decide)
  cases atSec
  · exact h
  · exact h

/-- An EXEC while a step is pending is refused with 0x3. -/
theorem Dev.execStep_busy {d : Dev} {n : Ts} (hs : d.ts[n].step.isSome = true) (m : Master) (op : StepOp) :
    d.execStep n m op = (d.disarm n).put (Pg.ts n) TS.STEP_STS_RESULT 3 := by
  unfold Dev.execStep
  dsimp only
  rw [if_pos hs]

/-- One without this master's own arm in its 10 s is refused with 0x2. -/
theorem Dev.execStep_unarmed {d : Dev} {n : Ts} {m : Master} (hs : d.ts[n].step = none) (ha : ∀ x, d.ts[n].arm = some (m, x) → x < d.now) (hm : ∀ k, m ≠ .svc k) (op : StepOp) :
    d.execStep n m op = (d.disarm n).put (Pg.ts n) TS.STEP_STS_RESULT 2 := by
  unfold Dev.execStep
  dsimp only
  rw [hs, Option.isSome_none, if_neg Bool.false_ne_true, if_pos]
  rw [Bool.not_eq_true', Bool.or_eq_false_iff]
  constructor
  · split
    · next a t h =>
      by_cases ham : a = m
      · subst ham
        rw [decide_eq_false (Nat.not_le.mpr (ha t h)), Bool.and_false]
      · rw [beq_eq_false_iff_ne.mpr ham, Bool.false_and]
    · rfl
  · split
    · next k => exact absurd rfl (hm k)
    · rfl

/-- One of a servo core, whose automatic step needs no arm, is accepted. -/
theorem Dev.execStep_core {d : Dev} {n : Ts} (hs : d.ts[n].step = none) (k : Ts) (op : StepOp) :
    d.execStep n (.svc k) op = (d.disarm n).acceptStep n op ((d.disarm n).on (Pg.ts n) TS.STEP_CTL_AT_SEC) := by
  unfold Dev.execStep
  dsimp only
  rw [hs]
  simp

/-- What an accepted EXEC leaves: its step with the choice of a second that stands now, and no arm. -/
theorem Dev.execStep_accepted {d : Dev} {n : Ts} {m : Master} (hs : d.ts[n].step = none) (ha : (∃ x, d.ts[n].arm = some (m, x) ∧ d.now ≤ x) ∨ ∃ k, m = .svc k) (op : StepOp) :
    (d.execStep n m op).ts[n].step = some (op, d.now, d.on (Pg.ts n) TS.STEP_CTL_AT_SEC) ∧ (d.execStep n m op).ts[n].arm = none ∧
      (d.execStep n m op).get (Pg.ts n) TS.STEP_STS_PENDING = 1 := by
  have hx : d.execStep n m op = (d.disarm n).acceptStep n op ((d.disarm n).on (Pg.ts n) TS.STEP_CTL_AT_SEC) := by
    obtain ⟨x, h, hn⟩ | ⟨k, rfl⟩ := ha
    · exact Dev.execStep_armed hs h hn op
    · exact Dev.execStep_core hs k op
  have hon : (d.disarm n).on (Pg.ts n) TS.STEP_CTL_AT_SEC = d.on (Pg.ts n) TS.STEP_CTL_AT_SEC := by
    unfold Dev.on
    rw [d.get_disarm n TS.STEP_CTL_AT_SEC (by decide)]
  rw [hx, hon, Dev.ts_acceptStep, Dev.ts_disarm]
  exact ⟨rfl, rfl, Dev.get_acceptStep_pending _ n op _⟩

/-- What a refused EXEC leaves: its result, the step as it was, and no arm. -/
theorem Dev.execRefused_leaves (d : Dev) (n : Ts) {r : Nat} (hr : r < 16) :
    ((d.disarm n).put (Pg.ts n) TS.STEP_STS_RESULT r).get (Pg.ts n) TS.STEP_STS_RESULT = r ∧
    ((d.disarm n).put (Pg.ts n) TS.STEP_STS_RESULT r).ts[n].step = d.ts[n].step ∧ ((d.disarm n).put (Pg.ts n) TS.STEP_STS_RESULT r).ts[n].arm = none := by
  rw [Dev.put_ts, Dev.ts_disarm]
  exact ⟨(Dev.get_put_same _ _ _ _ (by decide)).trans (Nat.mod_eq_of_lt hr), rfl, rfl⟩

/-- A served EXEC takes the operand that stands in its register. -/
theorem execSteps_run {s : State} {m : Master} {n : Ts} (key : Nat) (hg : s.dev.gate m (Pg.ts n) 0x188 = .served) (hm : s.dev.mayStep n m = true) :
    exec (.execRel m n key) s = .next (s.withDev ((s.took m (Pg.ts n) 0x188 (stepWord key 2)).execStep n m (.rel (s.dev.geti (Pg.ts n) TS.STEP_AMT_AMT)))) ∧
    exec (.execAbs m n key) s = .next (s.withDev ((s.took m (Pg.ts n) 0x188 (stepWord key 3)).execStep n m (.abs (untime96 (s.dev.get (Pg.ts n) TS.SET_TIME_TIME))))) := by
  constructor
  · show execExecRel m n key s = _
    rw [execExecRel, State.run_eq, Dev.writeIf_served hg, if_pos hm]
    unfold Dev.geti
    rw [Dev.get_served _ _ _ _ _ _ TS.STEP_AMT_AMT (by decide) (by decide)]
  · show execExecAbs m n key s = _
    rw [execExecAbs, State.run_eq, Dev.writeIf_served hg, if_pos hm, Dev.get_served _ _ _ _ _ _ TS.SET_TIME_TIME (by decide) (by decide)]

/-- Settles O13: by the key of an ARM, and by what an EXEC finds: a step, no arm of its master, or one. -/
theorem stepArming : Obligations.StepArming := by
  unfold Obligations.StepArming
  intro s m n key hg hm
  obtain ⟨hrel, habs⟩ := execSteps_run key hg hm
  have hts (v : Nat) := s.dev.ts_served m (Pg.ts n) 0x188 v
  have hnow (v : Nat) := s.dev.now_served m (Pg.ts n) 0x188 v
  refine ⟨fun hk => ⟨_, stepArm_refused hg hm hk, ?_, ?_, rfl⟩, fun hk => ⟨_, stepArm_accepted hg hm hk, ?_⟩, fun hs => ⟨_, _, hrel, habs, ?_⟩,
    fun hs ha hc => ⟨_, _, hrel, habs, ?_⟩, fun hs ha => ⟨_, _, hrel, habs, ?_⟩⟩
  · rw [State.withDev_get]
    exact Dev.get_put_same _ _ _ _ (by decide)
  · rw [State.withDev_ts, Dev.put_ts, hts]
  · rw [State.withDev_get, State.withDev_get, State.withDev_get, State.withDev_ts, Dev.get_timer, Dev.get_timer, Dev.get_timer, Dev.timer_ts, Dev.ts_armed, hts, hnow, second_eq]
    exact ⟨Dev.get_armed_result _ n m, Dev.get_armed_armed _ n m, Dev.get_armed_master _ n m, rfl, rfl, s.withDev_clk _⟩
  · have hexec (v : Nat) (op : StepOp) := Dev.execStep_busy (d := s.took m (Pg.ts n) 0x188 v) (n := n) (by rw [hts]; exact hs) m op
    obtain ⟨tres, tstep, tarm⟩ := (s.took m (Pg.ts n) 0x188 (stepWord key 2)).execRefused_leaves n (r := 3) (by decide)
    obtain ⟨ures, ustep, uarm⟩ := (s.took m (Pg.ts n) 0x188 (stepWord key 3)).execRefused_leaves n (r := 3) (by decide)
    rw [hexec, hexec]
    rw [State.withDev_get, State.withDev_get, State.withDev_ts, State.withDev_ts]
    rw [hts] at tstep ustep
    exact ⟨tres, ures, tstep, ustep, tarm, uarm⟩
  · have hexec (v : Nat) (op : StepOp) := Dev.execStep_unarmed (d := s.took m (Pg.ts n) 0x188 v) (n := n) (m := m) (by rw [hts]; exact hs)
      (by rw [hts, hnow]; exact ha) hc op
    obtain ⟨tres, tstep, tarm⟩ := (s.took m (Pg.ts n) 0x188 (stepWord key 2)).execRefused_leaves n (r := 2) (by decide)
    obtain ⟨ures, ustep, uarm⟩ := (s.took m (Pg.ts n) 0x188 (stepWord key 3)).execRefused_leaves n (r := 2) (by decide)
    rw [hexec, hexec]
    rw [State.withDev_get, State.withDev_get, State.withDev_ts, State.withDev_ts]
    rw [hts, hs] at tstep ustep
    exact ⟨tres, ures, tstep, ustep, tarm, uarm, s.withDev_clk _, s.withDev_clk _⟩
  · have hexec (v : Nat) (op : StepOp) := Dev.execStep_accepted (d := s.took m (Pg.ts n) 0x188 v) (n := n) (m := m) (by rw [hts]; exact hs)
      (by rw [hts, hnow]; exact ha) op
    have hsec (v : Nat) : (s.took m (Pg.ts n) 0x188 v).on (Pg.ts n) TS.STEP_CTL_AT_SEC = s.dev.on (Pg.ts n) TS.STEP_CTL_AT_SEC := by
      unfold Dev.on
      rw [Dev.get_served _ _ _ _ _ _ TS.STEP_CTL_AT_SEC (by decide) (by decide)]
    obtain ⟨tstep, tarm, tpend⟩ := hexec (stepWord key 2) (.rel (s.dev.geti (Pg.ts n) TS.STEP_AMT_AMT))
    obtain ⟨ustep, uarm, upend⟩ := hexec (stepWord key 3) (.abs (untime96 (s.dev.get (Pg.ts n) TS.SET_TIME_TIME)))
    rw [hnow, hsec] at tstep ustep
    rw [State.withDev_get, State.withDev_get, State.withDev_ts, State.withDev_ts]
    exact ⟨tstep, ustep, tarm, uarm, tpend, upend, s.withDev_clk _, s.withDev_clk _⟩

end Sys2Proof.Machine
end

section
/-! PROOF. Writes of the increment and of the mode (O35). -/

namespace Sys2Proof.Machine

/-! A fault of class 0 to 2 reported by a block (R352, R356): its reaction forces no bound and holds no output. -/

theorem Dev.quiet_snapBegin (d : Dev) (r : SnapReq) : d.Quiet (d.snapBegin r) := (d.quiet_rcd _).trans (Dev.quiet_put _ _ _ _)

theorem Dev.quiet_askSnap (d : Dev) (r : SnapReq) : d.Quiet (d.askSnap r) := by
  unfold Dev.askSnap
  split
  · exact d.quiet_snapBegin r
  · split
    · exact (d.quiet_rcd _).trans (Dev.quiet_put _ _ _ _)
    · exact (d.quiet_count _ _ _).trans (Dev.quiet_int _ _ _)

/-- A request for a snapshot leaves every calm register alone. -/
theorem Dev.reg_askSnap (d : Dev) (r : SnapReq) {pg off : Nat} (h : Calm pg off) : (d.askSnap r).reg pg off = d.reg pg off := by
  obtain ⟨ho', ho, -, hrec, -⟩ := id h
  have hput (e : Dev) (f : Fld) (v : Nat) (hf : f.off < 4096) : (e.put Pg.rec f v).reg pg off = e.reg pg off :=
    e.reg_put_ne f v (by dsimp only [Pg.rec] at *; omega)
  unfold Dev.askSnap
  split
  · exact (hput _ REC.SNAP_STS_BUSY 1 (by decide)).trans (Dev.reg_congr rfl _ _)
  · split
    · exact (hput _ REC.SNAP_STS_QLVL _ (by decide)).trans (Dev.reg_congr rfl _ _)
    · exact (Dev.reg_int _ _ _ h).trans (d.reg_count _ _ _ (by omega) ho (by decide) (.inl hrec))

/-- The reaction to a class below 3: its interrupt, a flush, its event and its snapshot. -/
theorem Dev.react_minor (d : Dev) (pg : Nat) {c : Nat} (hc : c < 3) :
    d.react pg c = (((d.int Pg.flt c).when (decide (c ≥ 2)) Dev.flush).event c).when ((((d.int Pg.flt c).when (decide (c ≥ 2)) Dev.flush).event c).on Pg.rec (REC.TRIG_EN c))
      fun e => e.askSnap ⟨e.get Pg.rec (REC.TRIG_LIST c), 1, srcPage pg⟩ := by
  have h3 : (c == 3) = false := beq_eq_false_iff_ne.mpr (by omega)
  have h4 : (c == 4) = false := beq_eq_false_iff_ne.mpr (by omega)
  have hge : decide (c ≥ 3) = false := decide_eq_false (by omega)
  unfold Dev.react
  dsimp only
  rw [h3, h4, hge]
  rfl

theorem Dev.quiet_react_minor (d : Dev) (pg : Nat) {c : Nat} (hc : c < 3) : d.Quiet (d.react pg c) := by
  rw [d.react_minor pg hc]
  exact (((d.quiet_int _ _).trans (Dev.Quiet.when _ _ fun e => e.quiet_flush)).trans (Dev.quiet_event _ _)).trans (Dev.Quiet.when _ _ fun e => e.quiet_askSnap _)

theorem Dev.reg_react_minor (d : Dev) (pg : Nat) {c : Nat} (hc : c < 3) {pg' off : Nat} (h : Calm pg' off) : (d.react pg c).reg pg' off = d.reg pg' off := by
  rw [d.react_minor pg hc, Dev.reg_when _ _ _ fun e => e.reg_askSnap _ h, Dev.reg_event _ _ (by omega) h, Dev.reg_when _ _ _ fun e => e.reg_flush h, Dev.reg_int _ _ _ h]

/-- A register that no fault of class 0 to 2 writes: a calm one, of a page other than the collector's. -/
structure FaultCalm (pg off : Nat) : Prop where
  calm : Calm pg off
  page : pg ≠ Pg.flt

theorem faultCalm_ts (n : Ts) {off : Nat} (h : 0x100 ≤ off) (h' : off < 4096) : FaultCalm (Pg.ts n) off :=
  ⟨calm_ts n h h', by dsimp only [Pg.ts, Pg.flt]; omega⟩

theorem FaultCalm.reg_put_header {pg off : Nat} (h : FaultCalm pg off) (d : Dev) (pg' : Nat) (f : Fld) (v : Nat) (hf : f.off < 0x100) : (d.put pg' f v).reg pg off = d.reg pg off := by
  obtain ⟨⟨h1, h2, -⟩, -⟩ := h
  exact d.reg_put_ne f v (by omega)

theorem FaultCalm.reg_put_flt {pg off : Nat} (h : FaultCalm pg off) (d : Dev) (f : Fld) (v : Nat) (hf : f.off < 4096) : (d.put Pg.flt f v).reg pg off = d.reg pg off := by
  obtain ⟨⟨-, h2, -⟩, h3⟩ := h
  exact d.reg_put_ne f v (by omega)

theorem FaultCalm.reg_fltView {pg off : Nat} (h : FaultCalm pg off) (d : Dev) (pg' : Nat) : (d.fltView pg').reg pg off = d.reg pg off := by
  have hs := slotOf_lt pg'
  unfold Dev.fltView
  dsimp only
  rw [h.reg_put_flt _ _ _ (by decide), h.reg_put_flt _ _ _ (by decide), h.reg_put_flt _ _ _ (by dsimp only; omega)]

theorem Dev.quiet_fltView (d : Dev) (pg : Nat) : d.Quiet (d.fltView pg) := ((d.quiet_put _ _ _).trans (Dev.quiet_put _ _ _ _)).trans (Dev.quiet_put _ _ _ _)

/-- What the collector notes of a class that it latches for the first time. -/
def Dev.latchClass (d : Dev) (pg c : Nat) (forced : Bool) : Dev :=
  ((((((d.raiseBits pg HDR.FLT_STS_LAT (1 <<< c)).put pg HDR.FLT_STS_RAIL 0).put Pg.flt FLT.LAST_CLASS c).putb Pg.flt FLT.LAST_FORCED forced).put Pg.flt FLT.LAST_PAGE pg).put
    Pg.flt FLT.LAST_MEC_MEC d.now).stampAs pg 2 d.now

theorem FaultCalm.reg_latchClass {pg off : Nat} (h : FaultCalm pg off) (d : Dev) (pg' c : Nat) (forced : Bool) : (d.latchClass pg' c forced).reg pg off = d.reg pg off := by
  unfold Dev.latchClass Dev.putb
  rw [Dev.reg_stampAs, h.reg_put_flt _ _ _ (by decide), h.reg_put_flt _ _ _ (by decide), h.reg_put_flt _ _ _ (by decide), h.reg_put_flt _ _ _ (by decide),
    h.reg_put_header _ _ _ _ (by decide)]
  obtain ⟨⟨h1, h2, -⟩, -⟩ := h
  exact d.reg_raiseBits _ _ (by dsimp only; omega)

theorem Dev.quiet_latchClass (d : Dev) (pg c : Nat) (forced : Bool) : d.Quiet (d.latchClass pg c forced) :=
  ((((((d.quiet_raiseBits _ _ _).trans (Dev.quiet_put _ _ _ _)).trans (Dev.quiet_put _ _ _ _)).trans (Dev.quiet_putb _ _ _ _)).trans (Dev.quiet_put _ _ _ _)).trans
    (Dev.quiet_put _ _ _ _)).trans (Dev.quiet_stampAs _ _ _ _)

/-- What the collector notes of a source that becomes live: its count, its class, its record. -/
def Dev.noteClass (d : Dev) (pg c : Nat) (forced rail : Bool) : Dev :=
  let e := (((((d.put pg HDR.FLT_STS_CNT (min (d.get pg HDR.FLT_STS_CNT + 1) 255)).when (!d.latched pg c) fun e => e.latchClass pg c forced).pmc pg 6).fltView pg).when rail
    fun e => e.put pg HDR.FLT_STS_RAIL 1)
  e.record 0x90 (srcPage pg) (oct 2 pg ++ [c, b2n forced + 2 * b2n rail] ++ oct 4 (e.get pg HDR.FLT_STS)) (!!d.latched pg c) 3

/-- The collector notes a source that becomes live, and reacts where it latches it. -/
theorem Dev.takeUp_eq (d : Dev) (pg c : Nat) (forced rail : Bool) :
    d.takeUp pg c forced rail = (d.noteClass pg c forced rail).when (!d.latched pg c) fun e => e.react pg c := rfl

theorem FaultCalm.reg_noteClass {pg off : Nat} (h : FaultCalm pg off) (d : Dev) (pg' c : Nat) (forced rail : Bool) : (d.noteClass pg' c forced rail).reg pg off = d.reg pg off := by
  obtain ⟨⟨h1, h2, -⟩, -⟩ := id h
  unfold Dev.noteClass
  dsimp only
  rw [Dev.reg_record _ _ _ _ _ _ h.calm, Dev.reg_when _ _ _ fun e => h.reg_put_header e _ _ _ (by decide), h.reg_fltView, Dev.reg_pmc _ _ _ _ (by omega) h2,
    Dev.reg_when _ _ _ fun e => h.reg_latchClass e pg' c forced, h.reg_put_header _ _ _ _ (by decide)]

theorem Dev.quiet_noteClass (d : Dev) (pg c : Nat) (forced rail : Bool) : d.Quiet (d.noteClass pg c forced rail) :=
  (((((d.quiet_put _ _ _).trans (Dev.Quiet.when _ _ fun e => e.quiet_latchClass _ _ _)).trans (Dev.quiet_pmc _ _ _ _)).trans (Dev.quiet_fltView _ _)).trans
    (Dev.Quiet.when _ _ fun e => e.quiet_put _ _ _)).trans (Dev.quiet_record _ _ _ _ _ _)

theorem FaultCalm.reg_takeUp {pg off : Nat} (h : FaultCalm pg off) (d : Dev) (pg' : Nat) {c : Nat} (hc : c < 3) (forced rail : Bool) :
    (d.takeUp pg' c forced rail).reg pg off = d.reg pg off := by
  rw [d.takeUp_eq, Dev.reg_when _ _ _ fun e => e.reg_react_minor pg' hc h.calm, h.reg_noteClass]

theorem Dev.quiet_takeUp_minor (d : Dev) (pg : Nat) {c : Nat} (hc : c < 3) (forced rail : Bool) : d.Quiet (d.takeUp pg c forced rail) := by
  rw [d.takeUp_eq]
  exact (d.quiet_noteClass pg c forced rail).trans (Dev.Quiet.when _ _ fun e => e.quiet_react_minor pg hc)

theorem FaultCalm.reg_becameLive {pg off : Nat} (h : FaultCalm pg off) (d : Dev) (pg' : Nat) {c : Nat} (hc : c < 3) (forced rail : Bool) :
    (d.becameLive pg' c forced rail).reg pg off = d.reg pg off := by
  unfold Dev.becameLive
  extract_lets a d1
  split
  · exact Dev.reg_congr rfl _ _
  · exact (h.reg_takeUp d1 pg' hc forced rail).trans (Dev.reg_congr rfl _ _)

/-- A fault of class 0 to 2 leaves the calm registers of every page but the collector's alone. -/
theorem FaultCalm.reg_raise {pg off : Nat} (h : FaultCalm pg off) (d : Dev) (pg' : Nat) {c : Nat} (hc : c < 3) (cause : Nat) (rail : Bool) :
    (d.raise pg' c cause rail).reg pg off = d.reg pg off := by
  unfold Dev.raise
  extract_lets was _ d1 d2
  have h2 : d2.reg pg off = d.reg pg off := (h.reg_put_header d1 pg' HDR.FLT_STS_LIVE _ (by decide)).trans (Dev.reg_congr rfl _ _)
  rw [← h2]
  split
  · rw [Dev.reg_when _ _ _ fun e => h.reg_put_header e _ _ _ (by decide), h.reg_fltView]
  · exact h.reg_becameLive d2 pg' hc _ rail

theorem FaultCalm.reg_lower {pg off : Nat} (h : FaultCalm pg off) (d : Dev) (pg' c cause : Nat) : (d.lower pg' c cause).reg pg off = d.reg pg off := by
  unfold Dev.lower
  rw [h.reg_fltView]
  exact (h.reg_put_header _ _ HDR.FLT_STS_LIVE _ (by decide)).trans (Dev.reg_congr rfl _ _)

/-- As `Quiet`, but that the fault sources may differ too. -/
def Dev.FaultQuiet (d e : Dev) : Prop :=
  e = { d with regs := e.regs, out := e.out, hif := e.hif, agenda := e.agenda, alarms := e.alarms, events := e.events, hwSet := e.hwSet, seq := e.seq, rcd := e.rcd, flt := e.flt }

theorem Dev.Quiet.fault {d e : Dev} (h : d.Quiet e) : d.FaultQuiet e := by
  unfold Dev.Quiet at h
  unfold Dev.FaultQuiet
  rw [h]

theorem Dev.FaultQuiet.trans {a b c : Dev} (h : a.FaultQuiet b) (k : b.FaultQuiet c) : a.FaultQuiet c := by
  unfold Dev.FaultQuiet at h k ⊢
  rw [k, h]

theorem Dev.FaultQuiet.ts_eq {d e : Dev} (h : d.FaultQuiet e) : e.ts = d.ts := by unfold Dev.FaultQuiet at h; rw [h]

theorem Dev.FaultQuiet.clk_eq {d e : Dev} (h : d.FaultQuiet e) : e.clk = d.clk := by unfold Dev.FaultQuiet at h; rw [h]

theorem Dev.faultQuiet_flt (d : Dev) (f : FltEng) : d.FaultQuiet { d with flt := f } := rfl

theorem Dev.faultQuiet_hwSet (d : Dev) (l : List (Nat × Nat × Nat)) : d.FaultQuiet { d with hwSet := l } := rfl

theorem Dev.faultQuiet_becameLive (d : Dev) (pg : Nat) {c : Nat} (hc : c < 3) (forced rail : Bool) : d.FaultQuiet (d.becameLive pg c forced rail) := by
  unfold Dev.becameLive
  extract_lets a d1
  have h1 : d.FaultQuiet d1 := d.faultQuiet_hwSet _
  split
  · exact h1.trans (d1.faultQuiet_flt _)
  · exact h1.trans (d1.quiet_takeUp_minor pg hc forced rail).fault

/-- A fault of class 0 to 2 is a notice that changes the fault sources. -/
theorem Dev.faultQuiet_raise (d : Dev) (pg : Nat) {c : Nat} (hc : c < 3) (cause : Nat) (rail : Bool) : d.FaultQuiet (d.raise pg c cause rail) := by
  unfold Dev.raise
  extract_lets was _ d1 d2
  have h2 : d.FaultQuiet d2 := (d.faultQuiet_flt _).trans (d1.quiet_put pg HDR.FLT_STS_LIVE _).fault
  split
  · exact h2.trans ((d2.quiet_fltView pg).trans (Dev.Quiet.when _ _ fun e => e.quiet_put _ _ _)).fault
  · exact h2.trans (d2.faultQuiet_becameLive pg hc _ rail)

theorem Dev.faultQuiet_lower (d : Dev) (pg c cause : Nat) : d.FaultQuiet (d.lower pg c cause) :=
  (d.faultQuiet_flt _).trans ((Dev.quiet_put _ pg HDR.FLT_STS_LIVE _).trans (Dev.quiet_fltView _ pg)).fault

/-! The effect of an accepted write of TSA_INCR (R63, R64). -/

/-- A change of a timescale is registered for 32 ticks later. -/
theorem Dev.ts_register (d : Dev) (n : Ts) (c : TsChange) : (d.register n c).ts[n] = { d.ts[n] with changes := d.ts[n].changes ++ [(d.now + 32, c)] } :=
  d.ts_upTs_same n fun e => { e with changes := e.changes ++ [(d.now + 32, c)] }

theorem Dev.get_register (d : Dev) (n : Ts) (c : TsChange) (pg : Nat) (f : Fld) : (d.register n c).get pg f = d.get pg f := rfl

/-- The C1 of the clamp: raised by a value outside the limits, ended by one within them. -/
def Dev.clampFault (d : Dev) (n : Ts) (out : Prop) [Decidable out] : Dev := if out then d.raise (Pg.ts n) 1 causeClamp else d.lower (Pg.ts n) 1 causeClamp

theorem Dev.get_clampFault (d : Dev) (n : Ts) (out : Prop) [Decidable out] (f : Fld) (h : 0x100 ≤ f.off) (h' : f.off < 4096) :
    (d.clampFault n out).get (Pg.ts n) f = d.get (Pg.ts n) f := by
  have hf := faultCalm_ts n h h'
  refine congrArg f.get ?_
  unfold Dev.clampFault
  split
  · exact hf.reg_raise d (Pg.ts n) (by decide) causeClamp false
  · exact hf.reg_lower d (Pg.ts n) 1 causeClamp

theorem Dev.faultQuiet_clampFault (d : Dev) (n : Ts) (out : Prop) [Decidable out] : d.FaultQuiet (d.clampFault n out) := by
  unfold Dev.clampFault
  split
  · exact d.faultQuiet_raise (Pg.ts n) (by decide) causeClamp false
  · exact d.faultQuiet_lower (Pg.ts n) 1 causeClamp

/-- The registers that an accepted increment sets: INCR and CLAMPED. -/
def Dev.incrRegs (d : Dev) (n : Ts) (v : Nat) : Dev := (d.put (Pg.ts n) TS.INCR_INCR v).putb (Pg.ts n) TS.STS_CLAMPED (decide (v < incrMin ∨ incrMax < v))

theorem Dev.putIncr_eq (d : Dev) (n : Ts) (v : Nat) : d.putIncr n v = ((d.incrRegs n v).clampFault n (v < incrMin ∨ incrMax < v)).register n (.incr v) := rfl

theorem Dev.get_incrRegs_incr (d : Dev) (n : Ts) (v : Nat) : (d.incrRegs n v).get (Pg.ts n) TS.INCR_INCR = v % 2 ^ 64 := by
  unfold Dev.incrRegs Dev.putb
  rw [Dev.get_put_ne _ _ _ _ (by dsimp only; omega)]
  exact Dev.get_put_same _ _ _ _ (by decide)

theorem Dev.get_incrRegs_clamped (d : Dev) (n : Ts) (v : Nat) : (d.incrRegs n v).get (Pg.ts n) TS.STS_CLAMPED = if v < incrMin ∨ incrMax < v then 1 else 0 := by
  unfold Dev.incrRegs Dev.putb
  rw [Dev.get_put_same _ _ _ _ (by decide)]
  split
  · next h => rw [decide_eq_true h]; rfl
  · next h => rw [decide_eq_false h]; rfl

theorem Dev.get_incrRegs_eff (d : Dev) (n : Ts) (v : Nat) : (d.incrRegs n v).get (Pg.ts n) TS.INCR_EFF_EFF = d.get (Pg.ts n) TS.INCR_EFF_EFF := by
  unfold Dev.incrRegs Dev.putb
  rw [Dev.get_put_ne _ _ _ _ (by dsimp only; omega), Dev.get_put_ne _ _ _ _ (by dsimp only; omega)]

/-- What an accepted increment leaves: it reads back, CLAMPED says whether it lies outside the limits, and it waits for its tick. -/
theorem Dev.putIncr_leaves (d : Dev) (n : Ts) (v : Nat) :
    (d.putIncr n v).get (Pg.ts n) TS.INCR_INCR = v % 2 ^ 64 ∧ (d.putIncr n v).get (Pg.ts n) TS.STS_CLAMPED = (if v < incrMin ∨ incrMax < v then 1 else 0) ∧
    (d.putIncr n v).get (Pg.ts n) TS.INCR_EFF_EFF = d.get (Pg.ts n) TS.INCR_EFF_EFF ∧ (d.putIncr n v).ts[n].changes = d.ts[n].changes ++ [(d.now + 32, .incr v)] := by
  have hq := (d.incrRegs n v).faultQuiet_clampFault n (v < incrMin ∨ incrMax < v)
  have hnow : ((d.incrRegs n v).clampFault n (v < incrMin ∨ incrMax < v)).now = d.now := congrArg Clock.mec hq.clk_eq
  rw [d.putIncr_eq, Dev.get_register, Dev.get_register, Dev.get_register, Dev.ts_register, Dev.get_clampFault _ _ _ _ (by decide) (by decide),
    Dev.get_clampFault _ _ _ _ (by decide) (by decide), Dev.get_clampFault _ _ _ _ (by decide) (by decide), hq.ts_eq, hnow]
  exact ⟨d.get_incrRegs_incr n v, d.get_incrRegs_clamped n v, d.get_incrRegs_eff n v, rfl⟩

/-! The commands (R63 to R66, R119). -/

/-- A write of TSA_INCR that unaided holdover does not block goes through the fabric. -/
theorem Dev.writeIncr_free {d : Dev} {n : Ts} {unit : Bool} (h : unit = true ∨ d.hldBlocks n = false) (m : Master) (v : Nat) :
    d.writeIncr n m v unit = d.writeIf m (Pg.ts n) 0x120 v (d.mayIncr n m) TS.WR_DISC_COUNT fun e => e.putIncr n v := by
  unfold Dev.writeIncr
  split
  · rw [if_neg]
    obtain h | h := h
    · simp [h]
    · simp [h]
  · rfl

/-- The write is the holdover unit's own: I_avg at an entry. -/
def Dev.unitsWrite (d : Dev) (m : Master) (n : Ts) (v : Nat) : Prop := m = .svc n ∧ d.hld[n].entryWrite = some v

theorem execIncrWrite_master {s : State} {m : Master} {n : Ts} {v : Nat} (hg : s.dev.gate m (Pg.ts n) 0x120 = .served) (hm : s.dev.mayIncr n m = true)
    (hu : ¬ s.dev.unitsWrite m n v) (hb : s.dev.hldBlocks n = false) :
    exec (.incrWrite m n v) s = .next (s.withDev ((s.took m (Pg.ts n) 0x120 (v % 2 ^ 64)).putIncr n (v % 2 ^ 64))) := by
  show execIncrWrite m n v s = _
  unfold Dev.unitsWrite at hu
  rw [execIncrWrite, State.run_eq, if_neg hu, Dev.writeIncr_free (.inr hb), Dev.writeIf_served hg, if_pos hm]

/-- The holdover unit's write is spent. -/
def Dev.entrySpent (d : Dev) (n : Ts) : Dev := d.upHld n fun e => { e with entryWrite := none }

theorem execIncrWrite_unit {s : State} {m : Master} {n : Ts} {v : Nat} (hg : s.dev.gate m (Pg.ts n) 0x120 = .served) (hm : s.dev.mayIncr n m = true)
    (hu : s.dev.unitsWrite m n v) :
    exec (.incrWrite m n v) s = .next (s.withDev (((s.dev.entrySpent n).served m (Pg.ts n) 0x120 (v % 2 ^ 64)).putIncr n (v % 2 ^ 64))) := by
  show execIncrWrite m n v s = _
  have hg' : (s.dev.entrySpent n).gate m (Pg.ts n) 0x120 = .served := hg
  have hm' : (s.dev.entrySpent n).mayIncr n m = true := hm
  have hw : execIncrWrite m n v s = .next (s.withDev ((s.dev.entrySpent n).writeIncr n m (v % 2 ^ 64) true)) := by
    unfold Dev.unitsWrite at hu
    rw [execIncrWrite, State.run_eq, if_pos hu]
    rfl
  rw [hw, Dev.writeIncr_free (.inl rfl), Dev.writeIf_served (s := { s with dev := s.dev.entrySpent n }) hg', if_pos hm']

/-- What an accepted increment leaves, as the state shows it. -/
theorem incrWrite_leaves (s : State) (d : Dev) (m : Master) (n : Ts) {w : Nat} (hw : w < 2 ^ 64) (hr : d.regs = s.dev.regs) (ht : d.ts = s.dev.ts) (hc : d.clk = s.dev.clk) :
    let t := s.withDev ((d.served m (Pg.ts n) 0x120 w).putIncr n w)
    t.dev.get (Pg.ts n) TS.INCR_INCR = w ∧ t.dev.get (Pg.ts n) TS.STS_CLAMPED = (if w < incrMin ∨ incrMax < w then 1 else 0) ∧
    t.dev.get (Pg.ts n) TS.INCR_EFF_EFF = s.dev.get (Pg.ts n) TS.INCR_EFF_EFF ∧ t.dev.clk = s.dev.clk ∧
    t.dev.ts[n].changes = s.dev.ts[n].changes ++ [(s.dev.now + 32, .incr w)] := by
  intro t
  obtain ⟨hincr, hclamped, heff, hchanges⟩ := (d.served m (Pg.ts n) 0x120 w).putIncr_leaves n w
  have hnow : d.now = s.dev.now := congrArg Clock.mec hc
  rw [Nat.mod_eq_of_lt hw] at hincr
  rw [Dev.get_served _ _ _ _ _ _ TS.INCR_EFF_EFF (by decide) (by decide), Dev.get_congr hr] at heff
  rw [Dev.ts_served, Dev.now_served, ht, hnow] at hchanges
  exact ⟨hincr, hclamped, heff, rfl, hchanges⟩

/-- The row of TSA_CTL in the register map. -/
def tsCtlRow : RegDesc := ⟨0x130, 0, 1, 0, 1, 32, false, .val, 0x0, 0x1, 0x0, 0x0, 0x0, 0x0⟩

theorem regAt_tsCtl (n : Ts) : regAt (Pg.ts n) 0x130 = some tsCtlRow := by
  revert n
  decide

theorem Dev.storeReg_mode (d : Dev) (n : Ts) (v : Nat) :
    d.storeReg (Pg.ts n) 0x130 v = d.setReg (Pg.ts n) 0x130 (tsCtlRow.store 0x130 (d.locked (Pg.ts n)) (d.justSet (4096 * Pg.ts n + 0x130)) v (d.reg (Pg.ts n) 0x130)) :=
  d.storeReg_eq (regAt_tsCtl n) v

/-- A stored mode reads back. -/
theorem Dev.get_storeReg_mode (d : Dev) (n : Ts) (v : Nat) : (d.storeReg (Pg.ts n) 0x130 v).get (Pg.ts n) TS.CTL_MODE = v % 2 := by
  rw [d.storeReg_mode n v]
  unfold Dev.get
  rw [Dev.reg_setReg_same]
  exact (RegDesc.get_store _ _ _ _ _ _ TS.CTL_MODE (by decide) (by decide)).trans (congrArg (· % 2 ^ 1) (Nat.div_one v))

/-- It is not the mode in force, which stands in TSA_STS. -/
theorem Dev.hostMode_storeReg_mode (d : Dev) (n : Ts) (v : Nat) : (d.storeReg (Pg.ts n) 0x130 v).hostMode n = d.hostMode n := by
  unfold Dev.hostMode Dev.on Dev.get
  rw [d.storeReg_mode n v, Dev.reg_setReg_ne _ _ (by dsimp only; omega)]

theorem Dev.hostMode_served (d : Dev) (m : Master) (pg off v : Nat) (n : Ts) : (d.served m pg off v).hostMode n = d.hostMode n := by
  unfold Dev.hostMode Dev.on
  rw [d.get_served m pg off v (Pg.ts n) TS.STS_MODE (by decide) (by decide)]

theorem Dev.OnlyRegs.ts_eq {d e : Dev} (h : d.OnlyRegs e) : e.ts = d.ts := by unfold Dev.OnlyRegs at h; rw [h]

theorem execModeWrite_served {s : State} {m : Master} {n : Ts} (v : Nat) (hm : m = .pf0 ∨ m = .loader) (hg : s.dev.gate m (Pg.ts n) 0x130 = .served) :
    exec (.modeWrite m n v) s = .next (s.withDev (((s.took m (Pg.ts n) 0x130 v).storeReg (Pg.ts n) 0x130 v).register n (.mode (v % 2)))) := by
  show execModeWrite m n v s = _
  rw [execModeWrite, State.run_eq, Dev.writeIf_served hg, if_pos]
  obtain rfl | rfl := hm
  · rfl
  · rfl

/-- Settles O35: by whose write of TSA_INCR it is, and by the parts of a write of TSA_CTL. -/
theorem incrementAndModeWritesComplete : Obligations.IncrementAndModeWritesComplete := by
  unfold Obligations.IncrementAndModeWritesComplete
  refine fun s => ⟨fun m n v hg hm => ?_, fun m n v hm hg => ⟨execModeWrite_served v hm hg, _, execModeWrite_served v hm hg, ?_, ?_, rfl, ?_⟩⟩
  · have hw : v % 2 ^ 64 < 2 ^ 64 := Nat.mod_lt _ (Nat.two_pow_pos 64)
    refine ⟨fun hu hb => execIncrWrite_master hg hm hu hb, fun hu => execIncrWrite_unit hg hm hu, fun h => ?_⟩
    by_cases hu : s.dev.unitsWrite m n v
    · exact ⟨_, execIncrWrite_unit hg hm hu, incrWrite_leaves s (s.dev.entrySpent n) m n hw rfl rfl rfl⟩
    · exact ⟨_, execIncrWrite_master hg hm hu (h.resolve_left hu), incrWrite_leaves s s.dev m n hw rfl rfl rfl⟩
  · exact Dev.get_storeReg_mode _ n v
  · exact (Dev.hostMode_storeReg_mode _ n v).trans (s.dev.hostMode_served m _ _ v n)
  · have hq := (s.took m (Pg.ts n) 0x130 v).onlyRegs_storeReg (Pg.ts n) 0x130 v
    have hnow : ((s.took m (Pg.ts n) 0x130 v).storeReg (Pg.ts n) 0x130 v).now = s.dev.now := (congrArg Clock.mec hq.clk_eq).trans (s.dev.now_served m _ _ v)
    rw [State.withDev_ts, Dev.ts_register, hnow, hq.ts_eq, Dev.ts_served]

end Sys2Proof.Machine
end

section
/-! PROOF. Writes of a slew, and its end (O36). -/

namespace Sys2Proof.Machine

/-- A write of TSA_SLEW_AMT that unaided holdover does not block goes through the fabric. -/
theorem Dev.writeSlew_free {d : Dev} {n : Ts} (h : d.hldBlocks n = false) (m : Master) (a : Int) :
    d.writeSlew n m a = d.writeIf m (Pg.ts n) 0x140 (unsgn 64 a) (d.mayIncr n m) TS.WR_DISC_COUNT fun e => e.putSlew n a := by
  unfold Dev.writeSlew
  dsimp only
  split
  · rw [h, Bool.and_false, Bool.false_and, if_neg Bool.false_ne_true]
  · rfl

/-- A servo core's write that it blocks is counted alone. -/
theorem Dev.writeSlew_blocked {d : Dev} {n : Ts} (hm : d.mayIncr n (.svc n) = true) (hb : d.hldBlocks n = true) (a : Int) :
    d.writeSlew n (.svc n) a = d.count Pg.hld (HLD.BLOCK_BLOCK n) := by
  unfold Dev.writeSlew
  dsimp only
  rw [hm, hb]
  rfl

theorem execSlewStart_served {s : State} {m : Master} {n : Ts} (v : Nat) (hg : s.dev.gate m (Pg.ts n) 0x140 = .served) (hm : s.dev.mayIncr n m = true)
    (hb : s.dev.hldBlocks n = false) :
    exec (.slewStart m n v) s = .next (s.withDev ((s.took m (Pg.ts n) 0x140 (unsgn 64 (sgn 64 v))).putSlew n (sgn 64 v))) := by
  show execSlewStart m n v s = _
  rw [execSlewStart, State.run_eq, Dev.writeSlew_free hb, Dev.writeIf_served hg, if_pos hm]

theorem execSlewStart_blocked {s : State} {n : Ts} (v : Nat) (hm : s.dev.mayIncr n (.svc n) = true) (hb : s.dev.hldBlocks n = true) :
    exec (.slewStart (.svc n) n v) s = .next (s.withDev (s.dev.count Pg.hld (HLD.BLOCK_BLOCK n))) := by
  show execSlewStart (.svc n) n v s = _
  rw [execSlewStart, State.run_eq, Dev.writeSlew_blocked hm hb]

/-! What the end of a slew shows (R68, R74). -/

theorem Dev.get_slewEnd_res (d : Dev) (n : Ts) : (d.slewEnd n).get (Pg.ts n) TS.STS_SLEW_RES = 0 := Dev.get_put_same _ _ _ _ (by decide)

/-- A slew with nothing left shows neither SLEWING nor a remainder. -/
theorem Dev.get_showSlew_ended {d : Dev} {n : Ts} (h : d.ts[n].slewRem = 0) :
    (d.showSlew n).get (Pg.ts n) TS.STS_SLEWING = 0 ∧ (d.showSlew n).get (Pg.ts n) TS.SLEW_REM_REM = 0 := by
  unfold Dev.showSlew Dev.puti Dev.putb
  rw [h]
  constructor
  · exact Dev.get_put_same _ _ _ _ (by decide)
  · rw [Dev.get_put_ne _ _ _ _ (by dsimp only; omega)]
    exact Dev.get_put_same _ _ _ _ (by decide)

theorem Dev.get_slewEnd_slewing (d : Dev) (n : Ts) : (d.slewEnd n).get (Pg.ts n) TS.STS_SLEWING = 0 ∧ (d.slewEnd n).get (Pg.ts n) TS.SLEW_REM_REM = 0 := by
  unfold Dev.slewEnd
  rw [Dev.get_put_disj _ _ TS.STS_SLEW_RES TS.STS_SLEWING _ rfl (by decide) (by decide), Dev.get_put_ne _ TS.STS_SLEW_RES TS.SLEW_REM_REM _ (by dsimp only; omega)]
  exact Dev.get_showSlew_ended (congrArg TsEng.slewRem (Dev.ts_upTs_same _ n fun e => { e with slewRem := 0, ending := false }))

/-- Settles O36: by the amount of a slew that is written, and by whether one is at its last tick. -/
theorem slewCommandsComplete : Obligations.SlewCommandsComplete := by
  unfold Obligations.SlewCommandsComplete
  refine fun s => ⟨fun m n v hg hm hb => ?_, fun n v hm hb => execSlewStart_blocked v hm hb, fun n h => ⟨_, execSlewComplete_ending h, ?_⟩, fun n h => execSlewComplete_idle h⟩
  · refine ⟨fun h => ?_, fun h => ?_⟩
    · rw [execSlewStart_served v hg hm hb, Dev.putSlew, if_pos h]
    · rw [execSlewStart_served v hg hm hb, Dev.putSlew, if_neg (Nat.not_lt.mpr h)]
  · obtain ⟨hslewing, hrem⟩ := s.dev.get_slewEnd_slewing n
    have hts : (s.withTime (s.dev.slewEnd n)).dev.ts[n] = _ := s.dev.ts_slewEnd n
    refine ⟨s.dev.acc_slewEnd_same n, fun k hk => s.dev.acc_slewEnd_ne hk, rfl, ?_, ?_, hslewing, s.dev.get_slewEnd_res n, hrem⟩
    · rw [hts]
    · rw [hts]

end Sys2Proof.Machine
end

section
/-! PROOF. The monitors' commands and events (O38). -/

namespace Sys2Proof.Machine

/-! MON_CTL (R83 to R85). -/

/-- MON_ENABLE and MON_DISABLE write the word with EN set and clear. -/
theorem bit_enWord (v : Nat) : bit (v % 2 ^ 31 + 2 ^ 31) 31 = true := by
  rw [Nat.add_comm, bit, Nat.testBit_two_pow_add_eq, Nat.testBit_lt_two_pow (Nat.mod_lt v (by decide))]
  rfl

theorem bit_disWord (v : Nat) : bit (v % 2 ^ 31) 31 = false := Nat.testBit_lt_two_pow (Nat.mod_lt v (by decide))

theorem monEnable_completes (s : State) (m : Master) (k : Fin 19) {v v' : Nat} (hv : v' = v % 2 ^ 31 + 2 ^ 31) (h : Served s m (monPg k) (monBase k)) :
    let d := (s.took m (monPg k) (monBase k) v').storeReg (monPg k) (monBase k) v'
    d.mstate k = monDisabled → exec (.monEnable m k v) s = .next (s.withDev
      ((((d.upMon k fun e => { e with seen := false, edge := none }).monSession k true).monEnter k monLost 0).monTry k)) := by
  intro d hst
  have hen : bit v' 31 = true := hv ▸ bit_enWord v
  show execMonEnable m k v s = _
  rw [execMonEnable, State.run_eq, ← hv, Dev.writeMonCtl, Dev.writeStore, Dev.write_served h]
  dsimp only
  rw [hen, if_neg (by decide), if_pos hst]

theorem monDisable_completes (s : State) (m : Master) (k : Fin 19) {v v' : Nat} (hv : v' = v % 2 ^ 31) (h : Served s m (monPg k) (monBase k)) :
    let d := (s.took m (monPg k) (monBase k) v').storeReg (monPg k) (monBase k) v'
    d.mstate k ≠ monDisabled → exec (.monDisable m k v) s = .next (s.withDev
      ((((d.dropPresence k).monSession k false).monEnter k monDisabled (d.mcause k)).clearFlags k)) := by
  intro d hst
  have hen : bit v' 31 = false := hv ▸ bit_disWord v
  show execMonDisable m k v s = _
  rw [execMonDisable, State.run_eq, ← hv, Dev.writeMonCtl, Dev.writeStore, Dev.write_served h]
  dsimp only
  rw [hen, if_pos (by decide), if_neg hst]

/-- A write that leaves EN set, in a monitor that is on: FORCE_DQ cleared ends its own disqualification, and any other value is checked. -/
theorem forceDqWrite_enabled (s : State) (m : Master) (k : Fin 19) (v : Nat) (h : Served s m (monPg k) (monBase k)) (hen : bit v 31 = true) :
    let d := (s.took m (monPg k) (monBase k) v).storeReg (monPg k) (monBase k) v
    d.mstate k ≠ monDisabled → exec (.forceDqWrite m k v) s = .next (s.withDev
      (if d.mstate k = monDisqualified ∧ d.mcause k = 7 ∧ !bit v 29 then d.monEnter k monWtr 7 else d.qualCheck k)) := by
  intro d hst
  show execForceDqWrite m k v s = _
  rw [execForceDqWrite, State.run_eq, Dev.writeMonCtl, Dev.writeStore, Dev.write_served h]
  dsimp only
  rw [hen, if_neg (by decide), if_neg hst]

theorem forceDqWrite_completes (s : State) (m : Master) (k : Fin 19) (v : Nat) (h : Served s m (monPg k) (monBase k)) (hen : bit v 31 = true) :
    let d := (s.took m (monPg k) (monBase k) v).storeReg (monPg k) (monBase k) v
    (d.mstate k = monQualified → exec (.forceDqWrite m k v) s = .next (s.withDev (d.qualCheck k))) ∧
    (d.mstate k = monDisqualified → d.mcause k = 7 → bit v 29 = false → exec (.forceDqWrite m k v) s = .next (s.withDev (d.monEnter k monWtr 7))) := by
  intro d
  refine ⟨fun hst => ?_, fun hst hc hdq => ?_⟩
  · rw [forceDqWrite_enabled s m k v h hen (by rw [hst]; decide), if_neg fun hd => absurd (hst.symm.trans hd.1) (by decide)]
  · rw [forceDqWrite_enabled s m k v h hen (by rw [hst]; decide), if_pos ⟨hst, hc, by rw [hdq]; rfl⟩]

/-! MON_CMD and MON_WTR (R84, R85). -/

theorem accept_completes (s : State) (m : Master) (k : Fin 19) (h : Served s m (monPg k) (monBase k + 0x0C)) :
    let d := s.took m (monPg k) (monBase k + 0x0C) 1
    d.mstate k = monDisqualified →
      ((d.mcause k = 3 ∨ d.mcause k = 9) → exec (.accept m k) s = .next (s.withDev (d.qualify k))) ∧
      (d.mcause k = 2 → exec (.accept m k) s = .next (s.withDev (d.monEnter k monWtr 2))) := by
  intro d hst
  have hx : exec (.accept m k) s = .next (s.withDev (if d.mcause k = 3 ∨ d.mcause k = 9 then d.qualify k else if d.mcause k = 2 then d.monEnter k monWtr 2 else d)) := by
    show execAccept m k s = _
    rw [execAccept, State.run_eq, Dev.write_served h, if_neg (not_not_intro hst)]
  rw [hx]
  exact ⟨fun hc => by rw [if_pos hc], fun hc => by rw [if_neg (by omega), if_pos hc]⟩

theorem skipWtr_completes (s : State) (m : Master) (k : Fin 19) (h : Served s m (monPg k) (monBase k + 0x0C)) :
    exec (.skipWtr m k) s = .next (s.withDev ((s.took m (monPg k) (monBase k + 0x0C) 2).endWtr k)) := by
  show execSkipWtr m k s = _
  rw [execSkipWtr, State.run_eq, Dev.write_served h]

theorem restart_completes (s : State) (m : Master) (k : Fin 19) (h : Served s m (monPg k) (monBase k + 0x0C)) :
    let d := s.took m (monPg k) (monBase k + 0x0C) 3
    exec (.restart m k) s = .next (s.withDev (d.monReturn k (d.mcause k))) := by
  show execRestart m k s = _
  rw [execRestart, State.run_eq, Dev.write_served h]

theorem monWtrWrite_completes (s : State) (m : Master) (k : Fin 19) (v : Nat) (h : Served s m (monPg k) (monBase k + 4)) :
    let d := (s.took m (monPg k) (monBase k + 4) v).storeReg (monPg k) (monBase k + 4) v
    d.mstate k = monWtr →
      let d1 := d.upMon k fun e => { e with span := min 86400 (d.mget k MON.WTR_WTR) }
      exec (.monWtrWrite m k v) s = .next (s.withDev (d1.mput k MON.STS_TIMER (d1.timerLeft k))) := by
  intro d hst d1
  show execMonWtrWrite m k v s = _
  rw [execMonWtrWrite, State.run_writeStore h, if_pos hst]

/-! Edges and timers (R84 to R86). -/

theorem ppsEdge_completes (s : State) (k : Fin 19) (t : Nat) (hp : k.val = 1 ∨ k.val = 2 ∨ (3 ≤ k.val ∧ k.val ≤ 10 ∧ s.dev.get (monPg k) REF.IN_CTL_FORMAT = 0))
    (hst : s.dev.mstate k ≠ monDisabled) :
    exec (.ppsEdge k t) s = .next (s.withDev (s.dev.ppsEdge k ((t : Int) - tdiv (s.dev.pinDelay k * 2 ^ 16) 1000))) := by
  have hpps : (3 ≤ k.val ∧ k.val ≤ 10 ∧ s.dev.get (monPg k) REF.IN_CTL_FORMAT = 0) ∨ k.val = 1 ∨ k.val = 2 := (or_assoc.mpr hp).symm
  show execPpsEdge k t s = _
  rw [execPpsEdge, State.run_eq]
  dsimp only
  rw [if_pos ⟨hpps, hst⟩]

theorem pulseMissed_completes (s : State) (k : Fin 19) (hp : s.dev.mon[k].pps = true) (hl : s.dev.mon[k].last.isSome = true) :
    let d := (s.dev.count (monPg k) (MON.MISS_CNT_COUNT (monBase k))).upMon k fun e => { e with missed := e.missed + 1 }
    (2 ≤ d.mon[k].missed → exec (.pulseMissed k) s = .next (s.withDev (d.monLose k))) ∧
    (d.mon[k].missed < 2 → exec (.pulseMissed k) s = .next (s.withDev (d.armWindow k))) := by
  intro d
  have hx : exec (.pulseMissed k) s = .next (s.withDev (if 2 ≤ d.mon[k].missed then d.monLose k else d.armWindow k)) := by
    show execPulseMissed k s = _
    rw [execPulseMissed, State.run_eq, hp, hl, if_pos (by decide)]
  rw [hx]
  exact ⟨fun h => by rw [if_pos h], fun h => by rw [if_neg (Nat.not_le.mpr h)]⟩

theorem refFreqTimeout_completes (s : State) (k : Fin 19) (hw : s.dev.waiting (.refFreqTimeout k) = false) :
    (s.dev.mon[k].freq = true → exec (.refFreqTimeout k) s = .next (s.withDev (s.dev.monLose k))) ∧
    (s.dev.mon[k].freq = false → exec (.refFreqTimeout k) s = .next (s.withDev (s.dev.upMon k fun e => { e with runFrom := none, runTo := 0 }))) := by
  have hx : exec (.refFreqTimeout k) s =
      .next (s.withDev (if s.dev.mon[k].freq then s.dev.monLose k else s.dev.upMon k fun e => { e with runFrom := none, runTo := 0 })) := by
    show execRefFreqTimeout k s = _
    rw [execRefFreqTimeout, State.run_eq, hw, if_neg Bool.false_ne_true]
  rw [hx]
  exact ⟨fun h => by rw [if_pos h], fun h => by rw [h, if_neg Bool.false_ne_true]⟩

theorem acquireExpiry_completes (s : State) (k : Fin 19) (hst : s.dev.mstate k = monAcquire) :
    (s.dev.mon[k].seen = true → exec (.acquireExpiry k) s = .next (s.withDev (s.dev.monEnter k monWtr (s.dev.mcause k)))) ∧
    (s.dev.mon[k].seen = false → exec (.acquireExpiry k) s = .next (s.withDev (s.dev.qualify k))) := by
  have hx : exec (.acquireExpiry k) s = .next (s.withDev (if s.dev.mon[k].seen then s.dev.monEnter k monWtr (s.dev.mcause k) else s.dev.qualify k)) := by
    show execAcquireExpiry k s = _
    rw [execAcquireExpiry, State.run_eq, if_neg (not_not_intro hst)]
  rw [hx]
  exact ⟨fun h => by rw [if_pos h], fun h => by rw [h, if_neg Bool.false_ne_true]⟩

/-- In WTR, a check that passes qualifies (R84, R111). -/
theorem Dev.endWtr_passed {d : Dev} {k : Fin 19} (hst : d.mstate k = monWtr) (h : d.returnCheck k = some true) : d.endWtr k = d.qualify k := by
  unfold Dev.endWtr
  rw [if_neg (not_not_intro hst), h]

/-- In WTR, a check that fails disqualifies for a phase jump. -/
theorem Dev.endWtr_failed {d : Dev} {k : Fin 19} (hst : d.mstate k = monWtr) (h : d.returnCheck k = some false) : d.endWtr k = d.monEnter k monDisqualified 3 := by
  unfold Dev.endWtr
  rw [if_neg (not_not_intro hst), h]

theorem wtrExpiry_completes (s : State) (k : Fin 19) (hst : s.dev.mstate k = monWtr) :
    (s.dev.returnCheck k = some true → exec (.wtrExpiry k) s = .next (s.withDev (s.dev.qualify k))) ∧
    (s.dev.returnCheck k = some false → exec (.wtrExpiry k) s = .next (s.withDev (s.dev.monEnter k monDisqualified 3))) := by
  have hx : exec (.wtrExpiry k) s = .next (s.withDev (s.dev.endWtr k)) := rfl
  rw [hx]
  exact ⟨fun h => by rw [Dev.endWtr_passed hst h], fun h => by rw [Dev.endWtr_failed hst h]⟩

theorem dqHoldExpiry_completes (s : State) (k : Fin 19) (hst : s.dev.mstate k = monDisqualified) (hc : heldCause (s.dev.mcause k) = true)
    (hd : s.dev.dqCond k (s.dev.mcause k) = false) : exec (.dqHoldExpiry k) s = .next (s.withDev (s.dev.monEnter k monWtr (s.dev.mcause k))) := by
  show execDqHoldExpiry k s = _
  rw [execDqHoldExpiry, State.run_eq, if_pos ⟨hst, hc, by rw [hd]; rfl⟩]

theorem monitorSecond_completes (s : State) (k : Fin 19) (hst : s.dev.mstate k ≠ monDisabled) :
    exec (.monitorSecond k none) s = .next (s.withDev (s.dev.monSecond k)) ∧
    ∀ y : Int, exec (.monitorSecond k (some y)) s = .next (s.withDev (s.dev.atmCount k y)) := by
  refine ⟨?_, fun y => ?_⟩
  · show execMonitorSecond k none s = _
    rw [execMonitorSecond, State.run_eq, if_neg hst]
  · show execMonitorSecond k (some y) s = _
    rw [execMonitorSecond, State.run_eq, if_neg hst]

/-! The input registers of a REF pin (R89, R90). -/

/-- PHASE of a monitor whose reference carries no phase reads 0. -/
theorem Dev.when_carries (d : Dev) (k : Fin 19) : (d.when (!d.carries k) fun d => d.mputi k MON.PHASE_X 0) = if d.carries k then d else d.mputi k MON.PHASE_X 0 := by
  cases d.carries k <;> rfl

theorem refConfigWrite_completes (s : State) (m : Master) (k : Fin 19) (off v : Nat) (h : Served s m (monPg k) off) (hk : 3 ≤ k.val) (hk' : k.val ≤ 10)
    (ho : 0x200 ≤ off) (ho' : off < 0x20C) :
    let d0 := (s.took m (monPg k) off v).storeReg (monPg k) off v
    let d := if d0.carries k then d0 else d0.mputi k MON.PHASE_X 0
    (monLost < d.mstate k → exec (.refConfigWrite m k off v) s = .next (s.withDev (d.monReturn k 0xA))) ∧
    (d.mstate k ≤ monLost → exec (.refConfigWrite m k off v) s = .next (s.withDev (d.monTry k))) := by
  intro d0 d
  have hx : exec (.refConfigWrite m k off v) s =
      .next (s.withDev (if (3 ≤ k.val ∧ k.val ≤ 10 ∧ 0x200 ≤ off ∧ off < 0x20C) ∧ monLost < d.mstate k then d.monReturn k 0xA else d.monTry k)) := by
    show execRefConfigWrite m k off v s = _
    rw [execRefConfigWrite, State.run_writeStore h]
    dsimp only
    rw [Dev.when_carries]
  rw [hx]
  exact ⟨fun hst => by rw [if_pos ⟨⟨hk, hk', ho, ho'⟩, hst⟩], fun hst => by rw [if_neg fun hc => Nat.not_lt.mpr hst hc.2]⟩

/-- Settles O38: command by command. -/
theorem monitorCommandsComplete : Obligations.MonitorCommandsComplete := by
  unfold Obligations.MonitorCommandsComplete
  exact fun s k => ⟨fun m _ _ hv h hst => monEnable_completes s m k hv h hst, fun m _ _ hv h hst => monDisable_completes s m k hv h hst,
    fun m v h hen => forceDqWrite_completes s m k v h hen, fun m h => accept_completes s m k h, fun m h => skipWtr_completes s m k h, fun m h => restart_completes s m k h,
    fun m v h => monWtrWrite_completes s m k v h, fun t hp hst => ppsEdge_completes s k t hp hst, pulseMissed_completes s k, refFreqTimeout_completes s k,
    acquireExpiry_completes s k, wtrExpiry_completes s k, dqHoldExpiry_completes s k, monitorSecond_completes s k,
    fun m off v h hk hk' ho ho' => refConfigWrite_completes s m k off v h hk hk' ho ho', rfl⟩

end Sys2Proof.Machine
end

section
/-! PROOF. The inputs of the atomic ports, the upstream sessions, the SyncE slots and the GNSS monitor (O39). -/

namespace Sys2Proof.Machine

/-! The telemetry UART and the steering interface (R91 to R93). -/

theorem uartRxByte_completes (s : State) (n : Fin 2) (b : Fin 256) (hen : s.dev.on (Pg.atm n) ATM.UART_CTL_EN = true) :
    let d := s.dev.tlmRestart n
    let e := (d.upAtm n fun e => { e with rx := e.rx ++ [b.val] }).uartShow n
    d.atm[n].rx.length < 256 → e.on (Pg.atm n) ATM.TLM_CTL_MATCH_EN = false → exec (.uartRxByte n b) s = .next (s.withDev e) := by
  intro d e hroom hmatch
  show execUartRxByte n b s = _
  rw [execUartRxByte, State.run_eq]
  dsimp only
  rw [hen, if_neg (by decide), if_pos hroom, hmatch, if_pos (by decide)]

theorem uartPop_completes (s : State) (m : Master) (n : Fin 2) (v : Nat) (h : Served s m (Pg.atm n) 0x228) (hv : bit v 0 = true) :
    exec (.uartPop m n v) s = .next (s.withDev (((s.took m (Pg.atm n) 0x228 v).upAtm n fun e => { e with rx := e.rx.tail }).uartShow n)) := by
  show execUartPop m n v s = _
  rw [execUartPop, State.run_eq, Dev.write_served h, if_pos hv]

/-- When the line is free for another byte: a byte's time after the last one queued began, and at once where none is queued (R91). -/
def Dev.uartFree (d : Dev) (n : Fin 2) (byte : Nat) : Nat :=
  match d.atm[n].tx.getLast? with
  | some t => max d.now (t + byte)
  | none => d.now

theorem uartTxWrite_completes (s : State) (m : Master) (n : Fin 2) (v : Nat) (hg : s.dev.gate m (Pg.atm n) 0x22C = .served) (hq : s.dev.atm[n].tx = []) :
    let d := s.took m (Pg.atm n) 0x22C v
    exec (.uartTxWrite m n v) s = .next (s.withDev ((d.upAtm n fun e => { e with
      tx := [d.uartFree n (s.dev.uartBits n * max 0x32 (s.dev.get (Pg.atm n) ATM.UART_CTL_DIV) * 2)] }).emit (.uart n (v % 256)))) := by
  intro d
  show execUartTxWrite m n v s = _
  rw [execUartTxWrite, State.run_eq]
  dsimp only
  rw [hq, List.filter_nil, Dev.writeIf_served hg, if_pos (by decide)]
  rfl

theorem uartEnWrite_completes (s : State) (m : Master) (n : Fin 2) (v : Nat) (h : Served s m (Pg.atm n) 0x220) :
    let d := (s.took m (Pg.atm n) 0x220 v).storeReg (Pg.atm n) 0x220 v
    d.get (Pg.atm n) ATM.UART_CTL_EN ≠ s.dev.get (Pg.atm n) ATM.UART_CTL_EN →
      exec (.uartEnWrite m n v) s = .next (s.withDev ((d.upAtm n fun e => { e with group := none }).tlmRestart n)) := by
  intro d hen
  show execUartEnWrite m n v s = _
  rw [execUartEnWrite, State.run_eq, Dev.writeStore, Dev.write_served h]
  exact congrArg (fun e => Host.Outcome.next (s.withDev e)) (if_neg hen)

theorem tlmTimeout_completes (s : State) (n : Fin 2) (hen : s.dev.on (Pg.atm n) ATM.UART_CTL_EN = true) (ht : s.dev.get (Pg.atm n) ATM.TLM_CTL_TMO ≠ 0) :
    exec (.tlmTimeout n) s = .next (s.withDev ((s.dev.put (Pg.atm n) ATM.UART_STS_TLM_LOST 1).raise (Pg.atm n) 1 causeTlm)) := by
  show execTlmTimeout n s = _
  rw [execTlmTimeout, State.run_eq, hen, bne_iff_ne.mpr ht, if_pos (by decide)]

theorem steerValWrite_completes (s : State) (n c : Fin 2) (v : Nat) (hg : s.dev.gate (.svc c) (Pg.atm n) 0x254 = .served) :
    let d := (s.took (.svc c) (Pg.atm n) 0x254 v).storeReg (Pg.atm n) 0x254 v
    (d.steering n = true → exec (.steerValWrite (.svc c) n v) s = .next (s.withDev (d.steerSend n))) ∧
    (d.steering n = false → exec (.steerValWrite (.svc c) n v) s = .next (s.withDev (d.upAtm n fun e => { e with held := true }))) := by
  intro d
  have hx : exec (.steerValWrite (.svc c) n v) s = .next (s.withDev (if d.steering n then d.steerSend n else d.upAtm n fun e => { e with held := true })) := by
    show execSteerValWrite (.svc c) n v s = _
    rw [execSteerValWrite, State.run_eq, Dev.writeIf_served hg, if_pos rfl]
  rw [hx]
  exact ⟨fun h => by rw [if_pos h], fun h => by rw [h, if_neg Bool.false_ne_true]⟩

/-! Messages of an upstream session that runs (R94, R96). -/

theorem usConfigWrite_completes (s : State) (m : Master) (n : Fin 4) (v : Nat) (h : Served s m (Pg.us n) 0x200) :
    let d := (s.took m (Pg.us n) 0x200 v).storeReg (Pg.us n) 0x200 v
    d.mstate (usK n) ≠ monDisabled → exec (.usConfigWrite m n 0x200 v) s = .next (s.withDev ((d.usStart n).monReturn (usK n) 0xA)) := by
  intro d hst
  show execUsConfigWrite m n 0x200 v s = _
  rw [execUsConfigWrite, State.run_eq, Dev.writeStore, Dev.write_served h]
  dsimp only
  rw [if_pos ⟨by decide, .inl (by decide), hst⟩]

/-- A Sync of the followed time transmitter counts at once; a one-step Sync carries its own time and TLV, and a two-step one waits for its Follow_Up (R96). -/
theorem usSyncRx_followed (s : State) (n : Fin 4) (x : PtpSync) (hr : s.dev.usRuns n = true) (hf : s.dev.us[n].followed = some x.tt) :
    let d0 := s.dev.putb (Pg.us n) US.STS_TWO_STEP x.twoStep
    let d := (d0.timerTime 0 (logTicks (d0.get (Pg.us n) US.INTV_LOG_SYNC)) (.usSyncTimeout n)).usFirstReq n
    exec (.usSyncRx n x) s = .next (s.withDev (((d.upUs n fun e => { e with
      gotSync := true, missed := 0, two := if x.twoStep then some (x.seq, x.t2, x.corr) else none,
      sync := if x.twoStep then e.sync else some (x.t1 + x.corr, x.t2) }).when (!x.twoStep) fun d => d.usTlv n 0 x.tlv).usPresence n)) := by
  intro d0 d
  have hint : d0.get (Pg.us n) US.INTV_LOG_SYNC = s.dev.get (Pg.us n) US.INTV_LOG_SYNC := Dev.get_put_ne _ _ _ _ (by dsimp only; omega)
  show execUsSyncRx n x s = _
  rw [execUsSyncRx, State.run_eq]
  dsimp only [d]
  rw [hr, hf, bne_self_eq_false, if_neg (by decide), hint]

theorem usSyncRx_completes (s : State) (n : Fin 4) (x : PtpSync) (hr : s.dev.usRuns n = true) (hf : s.dev.us[n].followed = some x.tt) :
    let d0 := s.dev.putb (Pg.us n) US.STS_TWO_STEP x.twoStep
    let d := (d0.timerTime 0 (logTicks (d0.get (Pg.us n) US.INTV_LOG_SYNC)) (.usSyncTimeout n)).usFirstReq n
    (x.twoStep = false → exec (.usSyncRx n x) s = .next (s.withDev (((d.upUs n fun e => { e with
      gotSync := true, missed := 0, two := none, sync := some (x.t1 + x.corr, x.t2) }).usTlv n 0 x.tlv).usPresence n))) ∧
    (x.twoStep = true → exec (.usSyncRx n x) s = .next (s.withDev ((d.upUs n fun e => { e with
      gotSync := true, missed := 0, two := some (x.seq, x.t2, x.corr), sync := e.sync }).usPresence n))) := by
  intro d0 d
  refine ⟨fun h => ?_, fun h => ?_⟩
  all_goals
    rw [usSyncRx_followed s n x hr hf]
    simp only [d, d0, h, Bool.not_false, Bool.not_true, Dev.when_true, Dev.when_false, if_true, Bool.false_eq_true, if_false]

theorem usFollowUpRx_completes (s : State) (n : Fin 4) (x : PtpFollowUp) (t2 c : Int) (hr : s.dev.usRuns n = true) (hf : s.dev.us[n].followed = some x.tt)
    (ht : s.dev.us[n].two = some (x.seq, t2, c)) :
    exec (.usFollowUpRx n x) s = .next (s.withDev ((s.dev.upUs n fun e => { e with two := none, sync := some (x.t1 + c + x.corr, t2) }).usTlv n 0 x.tlv)) := by
  show execUsFollowUpRx n x s = _
  rw [execUsFollowUpRx, State.run_eq, ht]
  dsimp only
  rw [hr, hf, beq_self_eq_true, beq_self_eq_true, if_pos (by decide)]

/-- A session whose TT_ID names a time transmitter follows that one (R95). -/
theorem Dev.usChoice_named {d : Dev} {n : Fin 4} (h : d.get (Pg.us n) US.TT_ID_CLOCK_ID ≠ 0) : d.usChoice n = some (d.get (Pg.us n) US.TT_ID_CLOCK_ID) := if_pos h

/-- To go on with the time transmitter already followed changes nothing. -/
theorem Dev.usFollowed_same {d : Dev} {n : Fin 4} {f : Option Nat} (h : d.us[n].followed = f) : d.usFollowed n f = d := if_pos h.symm

/-- An update of a session's engine reads back. -/
theorem Dev.us_upUs_same (d : Dev) (n : Fin 4) (f : UsEng → UsEng) : (d.upUs n f).us[n] = f d.us[n] := Vector.getElem_set_self _

theorem usAnnounceRx_completes (s : State) (n : Fin 4) (x : PtpAnnounce) (hr : s.dev.usRuns n = true) (hid : s.dev.get (Pg.us n) US.TT_ID_CLOCK_ID ≠ 0)
    (hx : s.dev.get (Pg.us n) US.TT_ID_CLOCK_ID = x.tt) (hf : s.dev.us[n].followed = some x.tt) :
    let d0 := s.dev.upUs n fun e => { e with heard := (x.tt, [x.priority1, x.cls, x.acc] ++ x.rest ++ [x.tt], s.dev.stepFree 0) :: (s.dev.usHears n).filter fun h => h.1 ≠ x.tt }
    let d1 := (d0.put (Pg.us n) US.STS_UP_CLASS x.cls).put (Pg.us n) US.STS_UP_ACC x.acc
    let d2 := (d1.usTlv n 2 x.tlv).timerTime 0 (3 * d1.annNs n) (.usAnnounceTimeout n)
    exec (.usAnnounceRx n x) s = .next (s.withDev ((((d2.upMon (usK n) fun e => { e with
      upstream := decide (d2.get (Pg.us n) US.UP_CTL_CLASS_MAX < x.cls) }).noteCond (usK n)).upUs n fun e => { e with gotAnn := true }).usPresence n)) := by
  intro d0 d1 d2
  have hc : d0.usChoice n = some x.tt := (Dev.usChoice_named (d := d0) hid).trans (congrArg some hx)
  have hkeep : d0.usFollowed n (some x.tt) = d0 := Dev.usFollowed_same ((congrArg UsEng.followed (s.dev.us_upUs_same n _)).trans hf)
  show execUsAnnounceRx n x s = _
  rw [execUsAnnounceRx, State.run_eq]
  dsimp only
  rw [hr, if_neg (by decide), hc, if_neg (not_not_intro rfl), hkeep]

theorem usDelayReqTx_completes (s : State) (n : Fin 4) (hr : s.dev.usRuns n = true) (hf : s.dev.us[n].followed.isSome = true)
    (hm : s.dev.get (Pg.us n) US.CFG_MODE ≠ 1 ∨ s.dev.us[n].grants[2] ≠ 0) :
    exec (.usDelayReqTx n) s = .next (s.withDev ((s.dev.timerTime 0 (logTicks (s.dev.get (Pg.us n) US.INTV_LOG_DREQ)) (.usDelayReqTx n)).usSend n .delayReq 44 [])) := by
  let d := s.dev.timerTime 0 (logTicks (s.dev.get (Pg.us n) US.INTV_LOG_DREQ)) (.usDelayReqTx n)
  have hgo : (d.us[n].followed.isNone || (d.get (Pg.us n) US.CFG_MODE == 1 && d.us[n].grants[2] == 0)) = false := by
    have hn : d.us[n].followed.isNone = false := Option.isNone_eq_false_iff.mpr hf
    rw [hn, Bool.false_or, Bool.and_eq_false_iff, beq_eq_false_iff_ne, beq_eq_false_iff_ne]
    exact hm
  show execUsDelayReqTx n s = _
  rw [execUsDelayReqTx, State.run_eq, hr, if_neg (by decide)]
  exact congrArg (fun e => Host.Outcome.next (s.withDev e)) (if_neg (by rw [hgo]; decide))

theorem usDelayRespRx_completes (s : State) (n : Fin 4) (x : PtpDelayResp) (t1 t2 t3 : Int) (hr : s.dev.usRuns n = true) (hf : s.dev.us[n].followed = some x.tt)
    (hs : s.dev.us[n].sync = some (t1, t2)) (hq : s.dev.us[n].req = some (x.seq, t3)) :
    let o := tdiv ((t2 - t1) - (x.t4 - t3 - x.corr)) 2
    exec (.usDelayRespRx n x) s = .next (s.withDev (((((s.dev.upUs n fun e => { e with
      req := none, gotResp := true, offs := (o :: e.offs).take 16, sumMpd := e.sumMpd + tdiv ((t2 - t1) + (x.t4 - t3 - x.corr)) 2 }).usTlv n 1 x.tlv)).sampleX (usK n) (-o)).usPresence n)) := by
  intro o
  show execUsDelayRespRx n x s = _
  rw [execUsDelayRespRx, State.run_eq, hs, hq]
  dsimp only
  rw [hr, hf, beq_self_eq_true, beq_self_eq_true, if_pos (by decide)]

/-! Grants and timeouts of a session (R86, R95). -/

theorem usGrants_complete (s : State) (n : Fin 4) (typ : Fin 3) (hr : s.dev.usRuns n = true) (hm : s.dev.get (Pg.us n) US.CFG_MODE = 1) :
    exec (.usGrantRx n typ 0) s = .next (s.withDev ((s.dev.usNeg n 3).timerTime 0 (8 * second) (.usGrantRetry n typ))) ∧
    exec (.usGrantRetry n typ) s = .next (s.withDev ((s.dev.usNeg n 1).usAsk n typ)) ∧
    (s.dev.us[n].grants[typ] ≠ 0 → exec (.usGrantRenew n typ) s = .next (s.withDev (s.dev.usAsk n typ))) := by
  refine ⟨?_, ?_, fun hg => ?_⟩
  · show execUsGrantRx n typ 0 s = _
    rw [execUsGrantRx, State.run_eq, hr, hm, if_neg (by decide), if_pos rfl]
  · show execUsGrantRetry n typ s = _
    rw [execUsGrantRetry, State.run_eq, hr, hm, if_pos (by decide)]
  · show execUsGrantRenew n typ s = _
    rw [execUsGrantRenew, State.run_eq, hr, bne_iff_ne.mpr hg, if_pos (by decide)]

theorem usGrantLapse_completes (s : State) (n : Fin 4) (typ : Fin 3) (hr : s.dev.usRuns n = true) (hg : s.dev.us[n].grants[typ] ≠ 0) (ht : typ ≠ 2) :
    exec (.usGrantLapse n typ) s = .next (s.withDev
      ((((s.dev.upUs n fun e => { e with grants := e.grants.set typ 0 }).usNeg n 4).timerTime 0 (8 * second) (.usGrantRetry n typ)).monLose (usK n))) := by
  show execUsGrantLapse n typ s = _
  rw [execUsGrantLapse, State.run_eq, hr, bne_iff_ne.mpr hg, if_pos (by decide), bne_iff_ne.mpr ht, Dev.when_true]

theorem usSyncTimeout_completes (s : State) (n : Fin 4) (hr : s.dev.usRuns n = true) (hg : s.dev.us[n].gotSync = true) :
    let d := (s.dev.count (Pg.us n) (MON.MISS_CNT_COUNT 0x100)).upUs n fun e => { e with missed := e.missed + 1 }
    3 ≤ d.us[n].missed → exec (.usSyncTimeout n) s = .next (s.withDev (d.monLose (usK n))) := by
  intro d hd
  show execUsSyncTimeout n s = _
  rw [execUsSyncTimeout, State.run_eq, hr, hg, if_pos (by decide), if_pos hd]

theorem usAnnounceTimeout_completes (s : State) (n : Fin 4) (hr : s.dev.usRuns n = true) (hg : s.dev.us[n].gotAnn = true) :
    exec (.usAnnounceTimeout n) s = .next (s.withDev
      ((s.dev.upUs n fun e => { e with heard := e.heard.filter fun h => some h.1 ≠ s.dev.us[n].followed }).usFollowed n none)) := by
  show execUsAnnounceTimeout n s = _
  rw [execUsAnnounceTimeout, State.run_eq, hr, hg, if_pos (by decide)]

/-! SyncE slots and the GNSS monitor (R86, R97, R98). -/

theorem esmcTimeout_completes (s : State) (n : Fin 4) (hw : s.dev.waiting (.esmcTimeout n) = false) :
    exec (.esmcTimeout n) s = .next (s.withDev ((s.dev.put (Pg.us n) US.SYNCE_STS_ESMC_TMO 1).monLose (synceK n))) := by
  show execEsmcTimeout n s = _
  rw [execEsmcTimeout, State.run_eq, hw, if_neg Bool.false_ne_true]

theorem gnssMeasurement_completes (s : State) (x : Int) (gt : Bound) (at_ : Int) (hm : s.dev.gnss.meas = some (x, gt, at_)) (hc : s.dev.inCave = false) :
    let d := { s.dev with gnss := { s.dev.gnss with meas := none, hist := ((x, at_) :: s.dev.gnss.hist).take 3600 } }
    d.mstate 0 ≠ monDisabled → exec .gnssMeasurement s = .next (s.withDev (((d.upMon 0 fun e => { e with pps := true, missed := 0, gt := gt }).sampleX 0
      (x - tdiv d.ts[0].stepSum (2 ^ 32))).monTry 0)) := by
  intro d hst
  have hcave : d.inCave = false := hc
  show execGnssMeasurement s = _
  rw [execGnssMeasurement, State.run_eq, hm]
  dsimp only
  rw [hcave, Bool.false_and, Dev.when_false, if_neg hst]

/-- Settles O39: command by command. -/
theorem sourceInputCommandsComplete : Obligations.SourceInputCommandsComplete := by
  unfold Obligations.SourceInputCommandsComplete
  exact fun s => ⟨fun n b hen => uartRxByte_completes s n b hen, fun m n v h hv => uartPop_completes s m n v h hv, fun m n v hg hq => uartTxWrite_completes s m n v hg hq,
    fun m n v h => uartEnWrite_completes s m n v h, fun n hen ht => tlmTimeout_completes s n hen ht, fun n c v hg => steerValWrite_completes s n c v hg,
    fun m n v h => usConfigWrite_completes s m n v h, fun n x hr hf => usSyncRx_completes s n x hr hf, usFollowUpRx_completes s, usAnnounceRx_completes s,
    usDelayReqTx_completes s, usDelayRespRx_completes s, usGrants_complete s, usGrantLapse_completes s, usSyncTimeout_completes s, usAnnounceTimeout_completes s,
    fun _ _ => rfl, esmcTimeout_completes s, fun _ _ => rfl, gnssMeasurement_completes s⟩

end Sys2Proof.Machine
end

section
/-! PROOF. The selectors, the servo cores and the holdover units (O40). -/

namespace Sys2Proof.Machine

/-! Selectors (R108, R109, R123). -/

/-- The slew of a switch being over, what is left of it is SETTLE: where that is 0 or has passed the switch ends, and else it runs from here (R109). -/
theorem switchEnd_completes (s : State) (n : Ts) (hst : s.dev.selState n = selSwitching) (hslew : s.dev.ts[n].slewRem = 0) :
    (s.dev.sel[n].settle = none ∨ s.dev.sel[n].settle = some 0 → exec (.switchEnd n) s = .next (s.withDev (s.dev.endSwitch n))) ∧
    (∀ t, s.dev.sel[n].settle = some (t + 1) → exec (.switchEnd n) s = .next (s.withDev (s.dev.switchSettle n (t + 1)))) := by
  change (_ → execSwitchEnd n s = _) ∧ ∀ t, _ → execSwitchEnd n s = _
  rw [execSwitchEnd, State.run_eq]
  dsimp only
  rw [if_neg (not_not_intro hst), if_neg (not_not_intro hslew)]
  refine ⟨fun h => ?_, fun t h => by rw [h]⟩
  obtain h | h := h
  all_goals rw [h]

/-- The selector enters LOCKED from ACQUIRE, and from RELOCK once no slew is left (R108). -/
theorem lockAchieved_completes (s : State) (n : Ts) (hlock : max 1 (s.dev.get Pg.sel (SEL.LOCK_TIME n)) ≤ s.dev.sel[n].lock)
    (hst : s.dev.selState n = selAcquire ∨ (s.dev.selState n = selRelock ∧ s.dev.slewLeft n = 0)) :
    exec (.lockAchieved n) s = .next (s.withDev (s.dev.selEnter n selLocked)) := by
  show execLockAchieved n s = _
  rw [execLockAchieved, State.run_eq, if_pos ⟨hlock, hst⟩]

/-! Servo cores (R113 to R117). -/

/-- An update uses the partner's latest offset up where the pair link follows the timescale that is updated (R403). -/
theorem servoUpdate_completes (s : State) (n : Ts) :
    let d := s.dev.servoUpdate n
    exec (.servoUpdate n) s = .next (s.withDev (if d.get Pg.plk PLK.FOLLOW_TS = n.val then { d with plk := { d.plk with freshX := false } } else d)) := by
  intro d
  show execServoUpdate n s = _
  rw [execServoUpdate, State.run_eq]
  dsimp only [d, Dev.when]
  simp only [beq_iff_eq]

theorem svcRunWrite_completes (s : State) (m : Master) (n : Ts) (v : Nat) (h : Served s m (Pg.svc n) 0x100) :
    exec (.svcRunWrite m n v) s = .next (s.withDev (((s.took m (Pg.svc n) 0x100 v).storeReg (Pg.svc n) 0x100 v).coreRun n (bit v 31))) :=
  State.run_writeStore h v _

theorem svcHeartbeat_completes (s : State) (m : Master) (n : Ts) (v : Nat) (h : Served s m (Pg.svc n) 0x104) :
    let d := (s.took m (Pg.svc n) 0x104 v).storeReg (Pg.svc n) 0x104 v
    d.coreRuns n = true → exec (.svcHeartbeat m n v) s = .next (s.withDev (d.timerTime 0 (d.wdogTime n) (.svcWatchdogExpiry n))) := by
  intro d hruns
  show execSvcHeartbeat m n v s = _
  rw [execSvcHeartbeat, State.run_writeStore h, hruns, Bool.true_or, Dev.when_true, Dev.wdogRestart]

theorem svcWatchdogExpiry_completes (s : State) (n : Ts) (hruns : s.dev.coreRuns n = true) :
    exec (.svcWatchdogExpiry n) s = .next (s.withDev (s.dev.coreHalt n true)) := by
  show execSvcWatchdogExpiry n s = _
  rw [execSvcWatchdogExpiry, State.run_eq, if_pos hruns]

/-- Settles O40: command by command; a selector evaluation and the end of a holdover bin have one effect in every state. -/
theorem selectionCommandsComplete : Obligations.SelectionCommandsComplete := by
  unfold Obligations.SelectionCommandsComplete
  exact fun s n => ⟨rfl, fun hst hslew => switchEnd_completes s n hst hslew, fun hst hlock => lockAchieved_completes s n hlock (.inl hst),
    fun hst hslew hlock => lockAchieved_completes s n hlock (.inr ⟨hst, hslew⟩), servoUpdate_completes s n, fun m v h => svcRunWrite_completes s m n v h,
    fun m v h => svcHeartbeat_completes s m n v h, svcWatchdogExpiry_completes s n, rfl⟩

end Sys2Proof.Machine
end

section
/-! PROOF. What the loss of a reference leaves alone: the selectors, the servo cores and the holdover units write the registers of their own pages and of the timescales (R86, R107, R119). -/

namespace Sys2Proof.Machine

/-! Parts of the device that hold no register. -/

theorem Dev.reg_upTs (d : Dev) (n : Ts) (f : TsEng → TsEng) (pg off : Nat) : (d.upTs n f).reg pg off = d.reg pg off := rfl
theorem Dev.reg_upMon (d : Dev) (k : Fin 19) (f : MonEng → MonEng) (pg off : Nat) : (d.upMon k f).reg pg off = d.reg pg off := rfl
theorem Dev.reg_upSel (d : Dev) (n : Ts) (f : SelEng → SelEng) (pg off : Nat) : (d.upSel n f).reg pg off = d.reg pg off := rfl
theorem Dev.reg_upSvc (d : Dev) (n : Ts) (f : SvcEng → SvcEng) (pg off : Nat) : (d.upSvc n f).reg pg off = d.reg pg off := rfl
theorem Dev.reg_upHld (d : Dev) (n : Ts) (f : HldEng → HldEng) (pg off : Nat) : (d.upHld n f).reg pg off = d.reg pg off := rfl
theorem Dev.reg_after (d : Dev) (dt : Nat) (i : Instr) (pg off : Nat) : (d.after dt i).reg pg off = d.reg pg off := rfl
theorem Dev.reg_cancel (d : Dev) (i : Instr) (pg off : Nat) : (d.cancel i).reg pg off = d.reg pg off := rfl
theorem Dev.reg_timer (d : Dev) (dt : Nat) (i : Instr) (pg off : Nat) : (d.timer dt i).reg pg off = d.reg pg off := rfl

theorem Dev.reg_unitWrite (d : Dev) (n : Ts) (v pg off : Nat) : (d.unitWrite n v).reg pg off = d.reg pg off := rfl

theorem Dev.reg_dropPresence (d : Dev) (k : Fin 19) (pg off : Nat) : (d.dropPresence k).reg pg off = d.reg pg off := by
  unfold Dev.dropPresence
  dsimp only
  split
  · rfl
  · rfl

/-- What both branches keep, a choice keeps. -/
theorem Dev.reg_ite {c : Prop} [Decidable c] {a b d : Dev} {pg off : Nat} (ha : a.reg pg off = d.reg pg off) (hb : b.reg pg off = d.reg pg off) :
    (if c then a else b).reg pg off = d.reg pg off := by
  split
  · exact ha
  · exact hb

theorem monBase_le (k : Nat) : monBase k ≤ 0x800 := by
  unfold monBase
  split
  · decide
  · decide

/-- A page of the timescales, the selectors, the servo cores or the holdover units. -/
abbrev SelPage (q : Nat) : Prop := Pg.ts 0 ≤ q ∧ q ≤ Pg.hld

theorem selPage_ts (n : Ts) : SelPage (Pg.ts n) := by dsimp only [SelPage, Pg.ts, Pg.hld]; omega
theorem selPage_svc (n : Ts) : SelPage (Pg.svc n) := by dsimp only [SelPage, Pg.ts, Pg.svc, Pg.hld]; omega

/-- A calm register of a page that no selector, servo core or holdover unit writes. -/
structure SelCalm (pg off : Nat) : Prop where
  calm : Calm pg off
  page : ¬ SelPage pg

section
variable {pg off : Nat} (h : SelCalm pg off)
include h

theorem SelCalm.reg_put (d : Dev) (q : Nat) (f : Fld) (v : Nat) (hq : SelPage q) (hf : f.off < 4096) : (d.put q f v).reg pg off = d.reg pg off := by
  obtain ⟨⟨-, ho, -⟩, hpg⟩ := h
  exact d.reg_put_ne f v (by omega)

theorem SelCalm.reg_puti (d : Dev) (q : Nat) (f : Fld) (v : Int) (hq : SelPage q) (hf : f.off < 4096) : (d.puti q f v).reg pg off = d.reg pg off :=
  h.reg_put d q f _ hq hf

theorem SelCalm.reg_putb (d : Dev) (q : Nat) (f : Fld) (b : Bool) (hq : SelPage q) (hf : f.off < 4096) : (d.putb q f b).reg pg off = d.reg pg off :=
  h.reg_put d q f _ hq hf

theorem SelCalm.reg_count (d : Dev) (q : Nat) (f : Fld) (hq : SelPage q) (hf : f.off < 4096) : (d.count q f).reg pg off = d.reg pg off := by
  obtain ⟨⟨h1, h2, -⟩, hpg⟩ := h
  exact d.reg_count _ _ _ (by omega) h2 hf (.inl fun he => hpg (he ▸ hq))

theorem SelCalm.reg_record (d : Dev) (typ source : Nat) (p : List Nat) : (d.record typ source p).reg pg off = d.reg pg off := d.reg_record _ _ _ _ _ h.calm

theorem SelCalm.reg_int (d : Dev) (q b : Nat) : (d.int q b).reg pg off = d.reg pg off := d.reg_int q b h.calm

/-! The servo's writes of a timescale (R65, R69). -/

theorem SelCalm.reg_putSlew (d : Dev) (n : Ts) (a : Int) : (d.putSlew n a).reg pg off = d.reg pg off := by
  have hres (v : Nat) : (d.put (Pg.ts n) TS.STS_SLEW_RES v).reg pg off = d.reg pg off :=
    h.reg_put d (Pg.ts n) TS.STS_SLEW_RES v (selPage_ts n) (by decide)
  unfold Dev.putSlew
  split
  · exact hres 1
  · exact hres 0

theorem SelCalm.reg_writeSlew (d : Dev) (n : Ts) (m : Master) (a : Int) (unit : Bool) : (d.writeSlew n m a unit).reg pg off = d.reg pg off := by
  obtain ⟨h1, h2, hglb, -⟩ := h.calm
  have hgo : (d.writeIf m (Pg.ts n) 0x140 (unsgn 64 a) (d.mayIncr n m) TS.WR_DISC_COUNT fun d => d.putSlew n a).reg pg off = d.reg pg off := by
    unfold Dev.writeIf
    split
    · split
      · rw [h.reg_putSlew, Dev.reg_served _ _ _ _ _ h1 h2]
      · rw [Dev.discardIn, Dev.reg_pmc _ _ _ _ (by omega) h2, h.reg_count _ _ _ (selPage_ts n) (by decide)]
    · exact d.reg_discard _ _ (by omega) h2 fun hc => hglb hc.1
  unfold Dev.writeSlew
  dsimp only
  split
  · split
    · exact h.reg_count d _ _ (by decide) (by dsimp only; omega)
    · exact hgo
  · exact hgo

theorem SelCalm.reg_autoStep (d : Dev) (n : Ts) (x : Int) : (d.autoStep n x).reg pg off = d.reg pg off := by
  unfold Dev.autoStep Dev.acceptStep
  split
  · rfl
  · exact (Dev.reg_after _ _ _ _ _).trans (h.reg_put _ (Pg.ts n) TS.STEP_STS_PENDING 1 (selPage_ts n) (by decide))

/-! The selector (R107, R108, R109). -/

theorem SelCalm.reg_showLoop (d : Dev) (n : Ts) : (d.showLoop n).reg pg off = d.reg pg off :=
  h.reg_put d (Pg.svc n) SVC.STS_LOOP _ (selPage_svc n) (by decide)

theorem SelCalm.reg_showCorroboration (d : Dev) (n : Ts) : (d.showCorroboration n).reg pg off = d.reg pg off :=
  h.reg_putb d Pg.sel (SEL.STS_CORR n) _ (by decide) (by dsimp only; omega)

theorem SelCalm.reg_selEnter (d : Dev) (n : Ts) (s : Nat) : (d.selEnter n s).reg pg off = d.reg pg off := by
  unfold Dev.selEnter
  extract_lets old d1 d2 d3 d4
  have h4 : d4.reg pg off = d.reg pg off := by
    rw [h.reg_showLoop, h.reg_putb _ _ _ _ (by decide) (by dsimp only; omega), h.reg_putb _ _ _ _ (by decide) (by dsimp only; omega),
      Dev.reg_when _ _ _ fun e => e.reg_upHld _ _ _ _, Dev.reg_upSel, h.reg_put _ _ _ _ (by decide) (by dsimp only; omega)]
  split
  · exact h4
  · rw [Dev.reg_event _ _ (by omega) h.calm, h.reg_int, h.reg_record, h4]

theorem SelCalm.reg_select (d : Dev) (n : Ts) (k : Nat) : (d.select n k).reg pg off = d.reg pg off := by
  unfold Dev.select
  dsimp only
  rw [Dev.reg_upHld, Dev.reg_upTs, h.reg_puti _ _ _ _ (selPage_svc n) (by decide), h.reg_put _ _ _ _ (selPage_svc n) (by decide), h.reg_put _ _ _ _ (selPage_svc n) (by decide), h.reg_showCorroboration,
    h.reg_put _ _ _ _ (by decide) (by dsimp only; omega)]

theorem SelCalm.reg_unselect (d : Dev) (n : Ts) : (d.unselect n).reg pg off = d.reg pg off := by
  unfold Dev.unselect
  rw [h.reg_putb _ _ _ _ (by decide) (by dsimp only; omega), h.reg_put _ _ _ _ (selPage_svc n) (by decide),
    h.reg_put _ _ _ _ (by decide) (by dsimp only; omega), h.reg_put _ _ _ _ (by decide) (by dsimp only; omega)]

theorem SelCalm.reg_beginSwitch (d : Dev) (n : Ts) (k state : Nat) : (d.beginSwitch n k state).reg pg off = d.reg pg off := by
  unfold Dev.beginSwitch
  extract_lets old fromLocked d1 a step slew settle d2 d3 d4
  have h4 : d4.reg pg off = d.reg pg off := by
    have h3 : d3.reg pg off = d.reg pg off := by rw [Dev.reg_upSel, h.reg_selEnter, h.reg_select]
    unfold d4
    split
    · rw [h.reg_autoStep, h3]
    · rw [h.reg_writeSlew, h3]
  split
  · rw [Dev.reg_timer, h.reg_record, h4]
  · exact h4

theorem SelCalm.reg_beginRelock (d : Dev) (n : Ts) (k : Nat) : (d.beginRelock n k).reg pg off = d.reg pg off := h.reg_beginSwitch _ n k selRelock

/-! The holdover unit (R119, R120, R123). -/

theorem SelCalm.reg_showHld (d : Dev) (n : Ts) (v : HldValues) : (d.showHld n v).reg pg off = d.reg pg off := by
  unfold Dev.showHld
  rw [h.reg_put _ _ _ _ (by decide) (by dsimp only; omega), h.reg_put _ _ _ _ (by decide) (by dsimp only; omega), h.reg_put _ _ _ _ (by decide) (by dsimp only; omega)]

theorem SelCalm.reg_recordHld (d : Dev) (n : Ts) (v : HldValues) (aid : Option (Fin 2)) : (d.recordHld n v aid).reg pg off = d.reg pg off := h.reg_record _ _ _ _

theorem SelCalm.reg_beginHld (d : Dev) (n : Ts) (v : HldValues) (aid : Option (Fin 2)) (b : Bound) : (d.beginHld n v aid b).reg pg off = d.reg pg off := by
  unfold Dev.beginHld
  dsimp only
  rw [h.reg_showLoop, Dev.reg_unitWrite, h.reg_recordHld, Dev.reg_upSvc, h.reg_putb _ _ _ _ (by decide) (by dsimp only; omega), h.reg_put _ _ _ _ (by decide) (by dsimp only; omega),
    h.reg_showHld, Dev.reg_upHld]

theorem SelCalm.reg_enterHld (d : Dev) (n : Ts) (hw : Bool) : (d.enterHld n hw).reg pg off = d.reg pg off := by
  unfold Dev.enterHld
  dsimp only
  rw [h.reg_beginHld, h.reg_selEnter, h.reg_putb _ _ _ _ (by decide) (by dsimp only; omega), h.reg_unselect, Dev.reg_upHld]

theorem SelCalm.reg_loseAid (d : Dev) (n : Ts) : (d.loseAid n).reg pg off = d.reg pg off := h.reg_beginHld _ n _ none _

theorem SelCalm.reg_resumeHld (d : Dev) (n : Ts) (hw : Bool) : (d.resumeHld n hw).reg pg off = d.reg pg off := by
  unfold Dev.resumeHld
  extract_lets slewed d1 d2 d3 v
  have h3 : d3.reg pg off = d.reg pg off := by
    rw [Dev.reg_upHld, h.reg_selEnter, h.reg_putb _ _ _ _ (by decide) (by dsimp only; omega), h.reg_unselect, h.reg_writeSlew]
  have hnone : ((d3.recordHld n v none).unitWrite n v.avg).reg pg off = d.reg pg off := by rw [Dev.reg_unitWrite, h.reg_recordHld, h3]
  split
  · split
    · rw [Dev.reg_unitWrite, h.reg_recordHld, Dev.reg_upSvc, h.reg_putb _ _ _ _ (by decide) (by dsimp only; omega), Dev.reg_upHld, h3]
    · split
      · rw [h.reg_loseAid, h3]
      · exact hnone
  · exact hnone

/-! The evaluation of a selector, by its state (R107, R108). -/

theorem SelCalm.reg_selEval (d : Dev) (n : Ts) : (d.selEval n).reg pg off = d.reg pg off := by
  unfold Dev.selEval
  extract_lets d1 s k b halted forcedHo
  rw [← h.reg_showCorroboration d n]
  change _ = d1.reg pg off
  clear_value d1 s k b halted forcedHo
  have hhld (hw : Bool) : (d1.enterHld n hw).reg pg off = d1.reg pg off := h.reg_enterHld d1 n hw
  have hresume (hw : Bool) : (d1.resumeHld n hw).reg pg off = d1.reg pg off := h.reg_resumeHld d1 n hw
  refine Dev.reg_ite rfl (Dev.reg_ite ?freerun (Dev.reg_ite ?acquire (Dev.reg_ite ?locked (Dev.reg_ite ?switching (Dev.reg_ite ?holdover (Dev.reg_ite ?relock rfl))))))
  case freerun =>
    refine Dev.reg_ite (hhld true) ?_
    cases b with
    | none => rfl
    | some j => exact Dev.reg_ite (by rw [h.reg_selEnter, h.reg_select]) rfl
  case acquire =>
    refine Dev.reg_ite (hhld true) (Dev.reg_ite (hhld false) (Dev.reg_ite rfl ?_))
    cases b with
    | none => exact hhld false
    | some j => rw [h.reg_showLoop, Dev.reg_upSel, h.reg_select]
  case locked =>
    refine Dev.reg_ite (hhld true) (Dev.reg_ite (hhld false) ?_)
    cases b with
    | none => exact hhld false
    | some j => exact Dev.reg_ite rfl (Dev.reg_ite (h.reg_beginSwitch d1 n j selSwitching) rfl)
  case switching =>
    rw [h.reg_put _ _ _ _ (by decide) (by dsimp only; omega), Dev.reg_when _ _ _ fun e => e.reg_upSel _ _ _ _]
  case holdover =>
    cases b with
    | none => rfl
    | some j => exact Dev.reg_ite (h.reg_beginRelock d1 n j) rfl
  case relock => exact Dev.reg_ite (hresume true) (Dev.reg_ite (hresume false) rfl)

theorem SelCalm.reg_loseSelected (d : Dev) (n : Ts) : (d.loseSelected n).reg pg off = d.reg pg off := by
  unfold Dev.loseSelected
  split
  · exact h.reg_selEval d n
  · rfl

/-! The monitor that loses its reference (R84, R86). -/

theorem SelCalm.reg_leaveQualified (d : Dev) (k : Fin 19) : (d.leaveQualified k).reg pg off = d.reg pg off := by
  unfold Dev.leaveQualified
  extract_lets d1
  have h1 : d1.reg pg off = d.reg pg off := by
    unfold d1
    split
    · rw [Dev.reg_upMon, h.reg_puti _ _ _ _ (by decide) (by dsimp only; omega)]
    · rfl
  rw [Dev.reg_each _ _ _ fun n e => (Dev.reg_when _ _ _ fun e => h.reg_loseAid e n).trans (Dev.reg_when _ _ _ fun e => h.reg_loseSelected e n), h1]

theorem SelCalm.reg_mput (d : Dev) (k : Fin 19) (f : Nat → Fld) (v : Nat) (hk : pg ≠ monPg k) (hf : (f (monBase k)).off < 4096) : (d.mput k f v).reg pg off = d.reg pg off := by
  obtain ⟨⟨-, ho, -⟩, -⟩ := h
  exact d.reg_put_ne _ v (by omega)

theorem SelCalm.reg_monEnter (d : Dev) (k : Fin 19) (s cause : Nat) (hk : pg ≠ monPg k) : (d.monEnter k s cause).reg pg off = d.reg pg off := by
  have hb := monBase_le k
  unfold Dev.monEnter
  extract_lets old wasCmp span d1 isCmp d2 d3
  have h3 : d3.reg pg off = d.reg pg off := by
    rw [Dev.reg_when _ _ _ fun e => h.reg_leaveQualified e k, Dev.reg_upMon, h.reg_mput _ _ _ _ hk (by dsimp only; omega), h.reg_mput _ _ _ _ hk (by dsimp only; omega),
      h.reg_mput _ _ _ _ hk (by dsimp only; omega)]
  split
  · exact h3
  · rw [h.reg_int, h.reg_record, h3]

/-- A loss writes the monitor's own page, and what the selectors and holdover units write. -/
theorem SelCalm.reg_monLose (d : Dev) (k : Fin 19) (hk : pg ≠ monPg k) : (d.monLose k).reg pg off = d.reg pg off := by
  have hb := monBase_le k
  obtain ⟨h1, h2, -⟩ := h.calm
  unfold Dev.monLose
  dsimp only
  split
  · exact d.reg_dropPresence k _ _
  · rw [h.reg_monEnter _ _ _ _ hk, Dev.reg_count _ _ _ _ (by omega) h2 (by dsimp only; omega) (.inl hk), Dev.reg_dropPresence]

end

end Sys2Proof.Machine
end

section
/-! PROOF. The GNSS receiver's commands and events (O41). -/

namespace Sys2Proof.Machine

/-! GNSS_CAVE_CTL, from which the times of the duty cycle come, stands while the receiver sleeps and wakes (R142, R147). -/

theorem Dev.reg_upGnss (d : Dev) (f : GnssEng → GnssEng) (pg off : Nat) : (d.upGnss f).reg pg off = d.reg pg off := rfl

theorem selCalm_caveCtl : SelCalm (Pg.gnss 6) 0x100 := by
  refine ⟨?_, by decide⟩
  unfold Calm
  decide

/-- A field of another page, or of another register of page 6, is written. -/
theorem Dev.caveCtl_put (d : Dev) (pg : Nat) (f : Fld) (v : Nat) (hf : 4096 * pg + f.off ≠ 4096 * Pg.gnss 6 + 0x100) : (d.put pg f v).reg (Pg.gnss 6) 0x100 = d.reg (Pg.gnss 6) 0x100 :=
  d.reg_put_ne f v hf.symm

theorem Dev.caveCtl_int (d : Dev) (pg b : Nat) : (d.int pg b).reg (Pg.gnss 6) 0x100 = d.reg (Pg.gnss 6) 0x100 := selCalm_caveCtl.reg_int d pg b

theorem Dev.caveCtl_clkLock (d : Dev) (i : Nat) (v : Bool) : (d.clkLock i v).reg (Pg.gnss 6) 0x100 = d.reg (Pg.gnss 6) 0x100 := by
  unfold Dev.clkLock
  dsimp only
  split
  · rfl
  · rw [Dev.caveCtl_int, Dev.caveCtl_put _ _ _ _ (by decide)]

theorem Dev.caveCtl_monLose (d : Dev) : (d.monLose 0).reg (Pg.gnss 6) 0x100 = d.reg (Pg.gnss 6) 0x100 := selCalm_caveCtl.reg_monLose d 0 (by decide)

theorem Dev.caveCtl_setSol (d : Dev) (v : Bool) : (d.setSol v).reg (Pg.gnss 6) 0x100 = d.reg (Pg.gnss 6) 0x100 := by
  have hshown : ((d.putb (Pg.gnss 0) GNSS0.STS_SOL v).int (Pg.gnss 0) 0).reg (Pg.gnss 6) 0x100 = d.reg (Pg.gnss 6) 0x100 := by
    rw [Dev.caveCtl_int, Dev.putb, Dev.caveCtl_put _ _ _ _ (by decide)]
  unfold Dev.setSol
  exact Dev.reg_ite rfl (Dev.reg_ite hshown ((Dev.caveCtl_monLose _).trans hshown))

/-- The HT4 window lies in page 7 and the fallback bit in page 0. -/
theorem Dev.caveCtl_ht4Show (d : Dev) : d.ht4Show.reg (Pg.gnss 6) 0x100 = d.reg (Pg.gnss 6) 0x100 := by
  have hput (e : Dev) (f : Fld) (v : Nat) (hf : f.off < 4096) : (e.put (Pg.gnss 7) f v).reg (Pg.gnss 6) 0x100 = e.reg (Pg.gnss 6) 0x100 :=
    e.caveCtl_put _ f v (by dsimp only [Pg.gnss]; omega)
  unfold Dev.ht4Show Dev.putb
  dsimp only
  rw [hput _ _ _ (by decide), hput _ _ _ (by decide), hput _ _ _ (by decide), hput _ _ _ (by decide), hput _ _ _ (by decide), hput _ _ _ (by decide), hput _ _ _ (by decide),
    hput _ _ _ (by decide), Dev.caveCtl_put _ _ _ _ (by decide)]

theorem Dev.caveCtl_gnssStop (d : Dev) (st : Nat) : (d.gnssStop st).reg (Pg.gnss 6) 0x100 = d.reg (Pg.gnss 6) 0x100 := by
  unfold Dev.gnssStop
  dsimp only
  rw [if_neg Bool.false_ne_true, Dev.caveCtl_ht4Show, Dev.caveCtl_setSol, Dev.reg_when _ _ _ fun e => e.caveCtl_clkLock 2 false, Dev.caveCtl_put _ _ _ _ (by decide),
    Dev.caveCtl_put _ _ _ _ (by decide), Dev.caveCtl_put _ _ _ _ (by decide), Dev.caveCtl_put _ _ _ _ (by decide), Dev.reg_upGnss, Dev.reg_upGnss]

theorem Dev.caveCtl_gnssWakeNow (d : Dev) : d.gnssWakeNow.reg (Pg.gnss 6) 0x100 = d.reg (Pg.gnss 6) 0x100 := by
  unfold Dev.gnssWakeNow
  refine Dev.reg_ite ?_ rfl
  rw [Dev.reg_upGnss, Dev.reg_cancel, Dev.caveCtl_int, Dev.caveCtl_clkLock]

/-- What the time awake and the time asleep depend on. -/
theorem Dev.gnssAwake_congr {d e : Dev} (h : e.reg (Pg.gnss 6) 0x100 = d.reg (Pg.gnss 6) 0x100) : e.gnssAwake = d.gnssAwake :=
  congrArg (fun w => max 10 (GNSS6.CAVE_CTL_AWAKE.get w) * second) h

theorem Dev.gnssAsleep_congr {d e : Dev} (h : e.reg (Pg.gnss 6) 0x100 = d.reg (Pg.gnss 6) 0x100) : e.gnssAsleep = d.gnssAsleep :=
  congrArg (fun w => clampN 60 14400 (GNSS6.CAVE_CTL_SLEEP.get w) * second) h

/-! Configuration (R127, R135, R147, R148). -/

/-- GNSS_CTL is written: the monitor returns to LOST, EN = 0 turns a receiver off that is not off, and band B follows MODE. -/
theorem gnssCtlWrite_completes (s : State) (m : Master) (v : Nat) (h : Served s m (Pg.gnss 0) 0x200) :
    let d := ((s.took m (Pg.gnss 0) 0x200 v).storeReg (Pg.gnss 0) 0x200 v).gnssConfigured
    ((bit v 31 = true ∨ d.gstate = gnssOff) → exec (.gnssConfigWrite m 0 0x200 v) s = .next (s.withDev d.modeFollow.ht4Show)) ∧
    (bit v 31 = false → d.gstate ≠ gnssOff → exec (.gnssConfigWrite m 0 0x200 v) s = .next (s.withDev (d.gnssStop gnssOff).modeFollow.ht4Show)) := by
  intro d
  have hx : exec (.gnssConfigWrite m 0 0x200 v) s =
      .next (s.withDev (d.when (!bit v 31 && d.gstate != gnssOff) fun d => d.gnssStop gnssOff).modeFollow.ht4Show) := by
    have hctl : ((0 : Fin 8) == 0 && 0x200 == 0x200) = true := rfl
    have hidx : ((0 : Fin 8) == 3 && 0x200 == 0x100) = false := rfl
    have hcave : ((0 : Fin 8) == 6 && 0x200 == 0x100) = false := rfl
    refine (State.run_writeStore h v _).trans ?_
    dsimp only
    rw [hctl, hidx, hcave, Dev.when_false, Dev.when_false, Dev.when_true, Bool.true_or, if_pos rfl, Bool.true_and]
  rw [hx]
  constructor
  · rintro (hen | hoff)
    · rw [hen, Bool.not_true, Bool.false_and, Dev.when_false]
    · rw [hoff, bne_self_eq_false, Bool.and_false, Dev.when_false]
  · intro hen hon
    rw [hen, bne_iff_ne.mpr hon, Bool.not_false, Bool.and_self, Dev.when_true]

/-- Position registers are written in fixed mode (R135). -/
theorem gnssPosWrite_completes (s : State) (m : Master) (off v : Nat) (hg : s.dev.gate m (Pg.gnss 4) off = .served) (hfix : s.dev.fixedPos = true) (ho : off < 0x114) :
    exec (.gnssPosWrite m off v) s = .next (s.withDev (((s.took m (Pg.gnss 4) off v).storeReg (Pg.gnss 4) off v).posWritten)) := by
  have hok : decide (¬ ((0x104 ≤ off ∧ off < 0x114) ∧ ¬ s.dev.fixedPos = true)) = true := decide_eq_true fun hno => hno.2 hfix
  show execGnssPosWrite m off v s = _
  rw [execGnssPosWrite, State.run_eq]
  dsimp only
  rw [Dev.writeIf_served hg, hok, if_pos rfl, if_pos ho]

/-- HT4_CN0_IDX moves the channel window (R148). -/
theorem ht4IndexWrite_completes (s : State) (m : Master) (v : Nat) (hg : s.dev.gate m (Pg.gnss 7) 0x128 = .served) (hmode : s.dev.ht4Mode = true) :
    exec (.ht4Write m 0x128 v) s = .next (s.withDev (((s.took m (Pg.gnss 7) 0x128 v).put (Pg.gnss 3) GNSS3.CH_IDX_IDX v).chWindow.ht4Show)) := by
  show execHt4Write m 0x128 v s = _
  rw [execHt4Write, State.run_eq]
  dsimp only
  rw [hg, hmode]
  rfl

/-! Acquisition (R129, R130). -/

theorem gnssStart_completes (s : State) (visible : List GnssSig) (hmay : s.dev.mayStart = true) :
    let cls := s.dev.startClass visible
    exec (.gnssStart visible) s = .next (s.withDev (s.dev.searchBegin cls (s.dev.startList cls visible) (s.dev.laterList cls visible))) := by
  show execGnssStart visible s = _
  rw [execGnssStart, State.run_eq, if_pos hmay]

/-- A dwell of a powered engine has ended: a signal found takes the first idle channel, and without one the engine steps on or puts its signal last. -/
theorem searchDwell_completes (s : State) (e : Fin 8) (g : GnssSig) (n : Nat) (t : Int) (he : s.dev.gnss.eng[e] = some (g, n, t)) (hp : s.dev.granted kindSearch 0 = true)
    (ht : t ≤ s.dev.stepFree 0) :
    (∀ cn c, (List.range 96).find? (fun c => s.dev.chan c = chIdle) = some c →
      exec (.searchDwell e (some cn)) s = .next (s.withDev (s.dev.sigFound e g cn c))) ∧
    (1 < n → exec (.searchDwell e none) s = .next (s.withDev (s.dev.upGnss fun x => { x with eng := x.eng.set e (some (g, n - 1, s.dev.dwellEnd g)) }))) ∧
    (n ≤ 1 → exec (.searchDwell e none) s = .next (s.withDev (((s.dev.upGnss fun x => { x with queue := x.queue ++ [g] }).engTake e).showBusy))) := by
  have hgo : ¬ (!s.dev.granted kindSearch 0 || decide (s.dev.stepFree 0 < t)) = true := by
    rw [hp, decide_eq_false (Int.not_lt.mpr ht)]
    exact Bool.false_ne_true
  refine ⟨fun cn c hc => ?_, fun hn => ?_, fun hn => ?_⟩
  · show execSearchDwell e (some cn) s = _
    rw [execSearchDwell, State.run_eq, he]
    dsimp only
    rw [if_neg hgo, hc]
  · show execSearchDwell e none s = _
    rw [execSearchDwell, State.run_eq, he]
    dsimp only
    rw [if_neg hgo, if_neg (Nat.not_le.mpr hn)]
  · show execSearchDwell e none s = _
    rw [execSearchDwell, State.run_eq, he]
    dsimp only
    rw [if_neg hgo, if_pos hn]

theorem bandBHandover_completes (s : State) (c : Fin 96) (cn0 : Nat) (hmode : s.dev.ht4Mode = false) (htrk : chF GNSS3.CH_STS_TRK_A (s.dev.chan c) = 1)
    (hbusy : s.dev.chan c ≠ chIdle) : exec (.bandBHandover c cn0) s =
      .next (s.withDev ((s.dev.setChan c (chPut GNSS3.CH_STS_TRK_B 1 (chPut GNSS3.CH_STS_CN0_B cn0 (s.dev.chan c)))).showTracked)) := by
  show execBandBHandover c cn0 s = _
  rw [execBandBHandover, State.run_eq]
  dsimp only
  rw [hmode, htrk, decide_eq_false hbusy, if_neg (by decide)]

/-! Alarms (R137, R139). -/

theorem alarmWithdraw_completes (s : State) (a : Fin 4) (hpass : max 1 (s.dev.get (Pg.gnss 0) GNSS0.ALM_CTL_CLR) ≤ s.dev.gnss.pass[a]) :
    exec (.alarmWithdraw a) s = .next (s.withDev (s.dev.setAlarm a false)) := by
  show execAlarmWithdraw a s = _
  rw [execAlarmWithdraw, State.run_eq, if_pos hpass]

/-- With the gain test off a second's gain of band A passes it: the enable bit stands beside the gain that is shown. -/
theorem jamAlarm_disabled_completes (s : State) (gain : Fin 256) (hoff : bit (s.dev.get (Pg.gnss 5) GNSS5.SPF_CTL_EN) 0 = false) :
    exec (.jamAlarm 0 gain) s = .next (s.withDev (((s.dev.put (Pg.gnss 1) GNSS1.AGC_STS_GAIN_A gain).upGnss fun g => { g with low := g.low.set 0 0 }).alarmTest 0 false)) := by
  have hen : (s.dev.put (Pg.gnss 1) GNSS1.AGC_STS_GAIN_A gain).get (Pg.gnss 5) GNSS5.SPF_CTL_EN = s.dev.get (Pg.gnss 5) GNSS5.SPF_CTL_EN := Dev.get_put_ne _ _ _ _ (by decide)
  show execJamAlarm 0 gain s = _
  rw [execJamAlarm, State.run_eq]
  dsimp only
  rw [if_pos rfl, if_pos rfl, hen, hoff, Bool.false_and, if_neg Bool.false_ne_true, if_neg fun h => Bool.false_ne_true h.1]
  rfl

/-! The pulse, the solution and the survey (R133, R135, R136). -/

/-- The receiver tracks in one of three states. -/
theorem Dev.tracks_of_gstate {d : Dev} (h : d.gstate = gnssTrack ∨ d.gstate = gnssTiming ∨ d.gstate = gnssSurvey) :
    (d.gstate == gnssTrack || d.gstate == gnssTiming || d.gstate == gnssSurvey) = true := by
  obtain h | h | h := h
  all_goals rw [h]; rfl

theorem gnssPulse_completes (s : State) (sec : Nat) (ht : s.dev.gstate = gnssTrack ∨ s.dev.gstate = gnssTiming ∨ s.dev.gstate = gnssSurvey) :
    exec (.gnssPulse sec) s = .next (s.withDev ((((s.dev.upGnss fun g => { g with sec := some sec, stamp := none }).put (Pg.gnss 7) GNSS7.HT4_TOW_V ((sec - 315964800) % 604800)).put
      (Pg.gnss 7) GNSS7.HT4_WEEK_V ((sec - 315964800) / 604800 % 65536)).emit (.message "GNSS pulse" [sec]))) := by
  show execGnssPulse sec s = _
  rw [execGnssPulse, State.run_eq, Dev.tracks_of_gstate ht, if_neg (by decide)]

theorem gnssSolution_completes (s : State) (x : GnssSol) (ht : s.dev.gstate = gnssTrack ∨ s.dev.gstate = gnssTiming ∨ s.dev.gstate = gnssSurvey) :
    let d := s.dev.each x.lost fun c d => d.chanLost c
    (d.fixedPos = true → exec (.gnssSolution x) s = .next (s.withDev (d.fixedSolution x))) ∧
    (d.fixedPos = false → exec (.gnssSolution x) s = .next (s.withDev (d.surveySolution x))) := by
  intro d
  have hx : exec (.gnssSolution x) s = .next (s.withDev (if d.fixedPos then d.fixedSolution x else d.surveySolution x)) := by
    show execGnssSolution x s = _
    rw [execGnssSolution, State.run_eq, Dev.tracks_of_gstate ht, if_neg (by decide)]
  rw [hx]
  exact ⟨fun hfix => by rw [if_pos hfix], fun hfix => by rw [hfix, if_neg Bool.false_ne_true]⟩

theorem surveyComplete_completes (s : State) (hfix : s.dev.fixedPos = false) (hn : clampN 60 86400 (s.dev.get (Pg.gnss 4) GNSS4.POS_CTL_SURVEY) ≤ s.dev.gnss.surN) :
    exec .surveyComplete s = .next (s.withDev s.dev.surveyEnd) := by
  show execSurveyComplete s = _
  rw [execSurveyComplete, State.run_eq, hfix, decide_eq_false (Nat.not_lt.mpr hn), if_neg (by decide)]

theorem surveyRestart_completes (s : State) (hfix : s.dev.fixedPos = false) (hgap : s.dev.gnss.surAt + 10 * accSecond < s.dev.stepFree 0) :
    exec .surveyRestart s = .next (s.withDev s.dev.surveyClear) := by
  show execSurveyRestart s = _
  rw [execSurveyRestart, State.run_eq, hfix, decide_eq_true hgap, if_pos (by decide)]

/-! Kept data, sleep and wake (R141, R142). -/

theorem keptClear_completes (s : State) (m : Master) (h : Served s m (Pg.gnss 6) 0x108) :
    exec (.keptClear m) s = .next (s.withDev (s.took m (Pg.gnss 6) 0x108 1).keptDrop) := by
  show execKeptClear m s = _
  rw [execKeptClear, State.run_eq, Dev.write_served h]

/-- The receiver wakes for AWAKE seconds, which a wake leaves as they are. -/
theorem gnssWake_completes (s : State) (hc : s.dev.inCave = true) (hen : s.dev.on (Pg.gnss 6) GNSS6.CAVE_CTL_EN = true) (hst : s.dev.gstate = gnssSleep) :
    exec .gnssWake s = .next (s.withDev (s.dev.gnssWakeNow.timerTime 0 s.dev.gnssWakeNow.gnssAwake .gnssSleep)) := by
  show execGnssWake s = _
  rw [execGnssWake, State.run_eq, hc, hen, hst, if_pos (by decide), Dev.gnssAwake_congr s.dev.caveCtl_gnssWakeNow]

/-- The receiver sleeps for SLEEP seconds, which a sleep leaves as they are. -/
theorem gnssSleep_completes (s : State) (hc : s.dev.inCave = true) (hen : s.dev.on (Pg.gnss 6) GNSS6.CAVE_CTL_EN = true) (hon : s.dev.on (Pg.gnss 0) GNSS0.CTL_EN = true) :
    let d := ((s.dev.gnssStop gnssSleep).monLose 0).int (Pg.gnss 6) 1
    exec .gnssSleep s = .next (s.withDev (d.timerTime 0 d.gnssAsleep .gnssWake)) := by
  intro d
  have hd : d.reg (Pg.gnss 6) 0x100 = s.dev.reg (Pg.gnss 6) 0x100 := by rw [Dev.caveCtl_int, Dev.caveCtl_monLose, Dev.caveCtl_gnssStop]
  show execGnssSleep s = _
  rw [execGnssSleep, State.run_eq, hc, hen, hon, if_pos (by decide), Dev.gnssAsleep_congr hd]

/-- Settles O41: command by command; a bias sample, the end of an exclusion and the UTC parameters have one effect in every state. -/
theorem gnssCommandsComplete : Obligations.GnssCommandsComplete := by
  unfold Obligations.GnssCommandsComplete
  exact fun s => ⟨fun m v h => State.run_writeStore h v _, fun m v h => State.run_writeStore h v _, fun m v h => gnssCtlWrite_completes s m v h,
    fun m off v hg hfix ho => gnssPosWrite_completes s m off v hg hfix ho, fun m v hg hmode => ht4IndexWrite_completes s m v hg hmode, gnssStart_completes s,
    searchDwell_completes s, bandBHandover_completes s, alarmWithdraw_completes s, jamAlarm_disabled_completes s, fun _ _ => rfl, gnssPulse_completes s,
    gnssSolution_completes s, fun _ => rfl, surveyComplete_completes s, surveyRestart_completes s, fun _ _ _ => rfl, keptClear_completes s,
    fun hc hen => ⟨gnssWake_completes s hc hen, gnssSleep_completes s hc hen⟩⟩

end Sys2Proof.Machine
end

section
/-! PROOF. The synthesizers' and clock outputs' commands and events (O42). -/

namespace Sys2Proof.Machine

/-- The state that a command leaves whose write is served. -/
theorem State.run_write {s : State} {m : Master} {pg off : Nat} (h : Served s m pg off) (v : Nat) (eff : Dev → Dev) :
    (s.run fun d => d.write m pg off v eff) = .next (s.withDev (eff (s.took m pg off v))) := by
  rw [State.run_eq, Dev.write_served h]

/-! Configuration (R151, R155, R158). -/

theorem synEnable_completes (s : State) (n : Fin 4) (m : Master) (v w : Nat) (hw : w = v ||| 2 ^ 31) (h : Served s m (Pg.syn n) 0x100) :
    exec (.synEnable m n v) s = .next (s.withDev ((s.took m (Pg.syn n) 0x100 w).synCtl n w)) := by
  subst hw
  exact State.run_write h _ _

theorem synDisable_completes (s : State) (n : Fin 4) (m : Master) (v w : Nat) (hw : w = v % 2 ^ 31) (h : Served s m (Pg.syn n) 0x100) :
    exec (.synDisable m n v) s = .next (s.withDev ((s.took m (Pg.syn n) 0x100 w).synCtl n w)) := by
  subst hw
  exact State.run_write h _ _

/-- FREQ_INT is stored, and the state decides what the new N asks for (R155, R157). -/
theorem synFreqIntWrite_completes (s : State) (n : Fin 4) (m : Master) (v : Nat) (h : Served s m (Pg.syn n) 0x108) :
    exec (.synConfigWrite m n 0x108 v) s = .next (s.withDev (((s.took m (Pg.syn n) 0x108 v).storeReg (Pg.syn n) 0x108 v).synReconfig n)) := by
  show execSynConfigWrite m n 0x108 v s = _
  rw [execSynConfigWrite, State.run_eq]
  dsimp only
  rw [if_neg (by decide), Dev.writeStore, Dev.write_served h, if_pos (.inl rfl)]

/-- A write of SS_EN = 0 is refused in neither class (R158). -/
theorem ssCtlWrite_off_completes (s : State) (n : Fin 4) (m : Master) (v : Nat) (h : Served s m (Pg.syn n) 0x124) (hoff : bit v 31 = false) :
    exec (.ssCtlWrite m n 0x124 v) s =
      .next (s.withDev ((((s.took m (Pg.syn n) 0x124 v).storeReg (Pg.syn n) 0x124 v).putb (Pg.syn n) SYN.STS_SS_REFUSED false).spreadWait n)) := by
  show execSsCtlWrite m n 0x124 v s = _
  rw [execSsCtlWrite, State.run_eq]
  dsimp only
  rw [if_neg (by decide), Dev.write_served h, hoff, Bool.false_and, if_neg Bool.false_ne_true]

/-- With SS_EN = 0 the zero crossing ends the spread and leaves ALIGNED as it is (R158). -/
theorem ssApply_off_completes (s : State) (n : Fin 4) (hoff : s.dev.on (Pg.syn n) SYN.SS_CTL_SS_EN = false) :
    exec (.ssApply n) s = .next (s.withDev (s.dev.upSyn n fun e => { e with spread := none, spreadAt := s.dev.now, eSum := 0, eNum := 0, ePer := 0 })) := by
  show execSsApply n s = _
  rw [execSsApply, State.run_eq]
  dsimp only
  rw [hoff, Bool.false_and, if_neg Bool.false_ne_true, Option.isSome_none, Dev.when_false]

/-! The state machine (R153 to R157). -/

theorem vcoCalDone_completes (s : State) (n : Fin 4) (hst : s.dev.synState n = synStart) :
    (∀ b, s.dev.synBand n = some b →
      let d := s.dev.upSyn n fun e => { e with gateAt := s.dev.now + 200000, neffGate := e.neff, lockWord := s.dev.get (Pg.syn n) SYN.LOCK_CTL }
      exec (.vcoCalDone n) s = .next (s.withDev ((((d.put (Pg.syn n) SYN.STS_BAND_SEL b).lower (Pg.syn n) 1 synBandCause).lower (Pg.syn n) 1 synConfig).synEnter n synLocking))) ∧
    (s.dev.synBand n = none → exec (.vcoCalDone n) s = .next (s.withDev (s.dev.synFail n synBandCause))) := by
  change (∀ b, _ → execVcoCalDone n s = _) ∧ (_ → execVcoCalDone n s = _)
  rw [execVcoCalDone, State.run_eq]
  dsimp only
  rw [if_neg (not_not_intro hst)]
  exact ⟨fun b hb => by rw [hb], fun hb => by rw [hb]⟩

/-- Outside OFF, START and TEST a gate is judged, and the next one begins with the settings of now (R153, R155). -/
theorem lockGate_completes (s : State) (n : Fin 4) (count : Nat) (y : Int) (tune : Nat) (hoff : s.dev.synState n ≠ synOff) (hstart : s.dev.synState n ≠ synStart)
    (htest : s.dev.synState n ≠ synTest) :
    let d := (s.dev.puti (Pg.syn n) SYN.CNTERR_DIFF (s.dev.gateDiff n count)).lockJudge n (s.dev.gateDiff n count) y tune
    exec (.lockGate n count y tune) s = .next (s.withDev (d.upSyn n fun e => { e with gateAt := d.now, neffGate := e.neff, lockWord := d.get (Pg.syn n) SYN.LOCK_CTL })) := by
  intro d
  show execLockGate n count y tune s = _
  rw [execLockGate, State.run_eq]
  dsimp only
  rw [if_neg (not_or.mpr ⟨hoff, hstart⟩), if_neg htest]

theorem lockingTimeout_completes (s : State) (n : Fin 4) (hst : s.dev.synState n = synLocking) (htried : 256 ≤ s.dev.syn[n].tried) :
    exec (.lockingTimeout n) s = .next (s.withDev ((s.dev.synFail n synUnlock).synBegin n)) := by
  show execLockingTimeout n s = _
  rw [execLockingTimeout, State.run_eq, if_pos ⟨hst, htried⟩]

theorem synRefLoss_completes (s : State) (n : Fin 4) (hosc : s.dev.synOsc n = false) : exec (.synRefLoss n) s = .next (s.withDev (s.dev.synLose n)) := by
  show execSynRefLoss n s = _
  rw [execSynRefLoss, State.run_eq, hosc, if_neg Bool.false_ne_true]

theorem freezeTimeout_completes (s : State) (n : Fin 4) (hst : s.dev.synState n = synFreeze) (hp : s.dev.synPresent n = true)
    (ht : s.dev.syn[n].frozeAt + 100 * milli ≤ s.dev.freeNs) : exec (.freezeTimeout n) s = .next (s.withDev ((s.dev.synScale n).synLock n)) := by
  show execFreezeTimeout n s = _
  rw [execFreezeTimeout, State.run_eq, if_pos ⟨hst, hp, ht⟩]

/-! The commands of SYNn_CMD (R155). -/

/-- A served command that the state accepts has its effect on the device that took it. -/
theorem Dev.synCmd_accepted {s : State} {m : Master} {n : Fin 4} {ok : Bool} (h : Served s m (Pg.syn n) 0x128) (hok : ok = true) (op : Nat) (eff : Dev → Dev) :
    s.dev.synCmd m n op ok eff = eff (s.took m (Pg.syn n) 0x128 op) := by
  rw [Dev.synCmd, Dev.write_served h, if_pos hok]

/-- ALIGN in LOCKED holds the outputs for a period of the slowest one. -/
theorem align_completes (s : State) (n : Fin 4) (m : Master) (h : Served s m (Pg.syn n) 0x128) (hst : s.dev.synState n = synLocked) :
    let d := s.took m (Pg.syn n) 0x128 1
    exec (.align m n) s = .next (s.withDev ((d.upSyn n fun e => { e with alignAt := some (d.now + d.slowest n) }).ckoFollow n)) := by
  show execAlign m n s = _
  rw [execAlign, State.run_eq, Dev.synCmd_accepted h (beq_iff_eq.mpr hst)]

theorem testEnter_completes (s : State) (n : Fin 4) (m : Master) (h : Served s m (Pg.syn n) 0x128) (hst : s.dev.synState n = synOff ∨ s.dev.synState n = synLocked) :
    let d := s.took m (Pg.syn n) 0x128 2
    let d1 := d.put (Pg.syn n) SYN.STS_BAND_SEL (d.get (Pg.syn n) SYN.TEST_BAND)
    exec (.testEnter m n) s = .next (s.withDev (((d1.synScale n).upSyn n fun e => { e with tune := d1.get (Pg.syn n) SYN.TEST_TUNE }).synEnter n synTest)) := by
  have hok : (s.dev.synState n == synOff || s.dev.synState n == synLocked) = true := (Bool.or_eq_true ..).mpr (hst.imp beq_iff_eq.mpr beq_iff_eq.mpr)
  show execTestEnter m n s = _
  rw [execTestEnter, State.run_eq, Dev.synCmd_accepted h hok]

theorem testExit_completes (s : State) (n : Fin 4) (m : Master) (h : Served s m (Pg.syn n) 0x128) (hst : s.dev.synState n = synTest) :
    exec (.testExit m n) s = .next (s.withDev ((s.took m (Pg.syn n) 0x128 3).synBegin n)) := by
  show execTestExit m n s = _
  rw [execTestExit, State.run_eq, Dev.synCmd_accepted h (beq_iff_eq.mpr hst)]

theorem relock_completes (s : State) (n : Fin 4) (m : Master) (h : Served s m (Pg.syn n) 0x128) (hst : s.dev.synState n = synFreeze) :
    exec (.relock m n) s = .next (s.withDev (((s.took m (Pg.syn n) 0x128 4).synScale n).synLock n)) := by
  show execRelock m n s = _
  rw [execRelock, State.run_eq, Dev.synCmd_accepted h (beq_iff_eq.mpr hst)]

/-! The 1 µs update (R149, R151). -/

/-- In LOCKING, LOCKED and FREEZE the loop sets N_eff from N_nom alone in free mode, and from the phase in the others. -/
theorem dpllUpdate_completes (s : State) (n : Fin 4) (e : Int)
    (hst : s.dev.synState n = synLocking ∨ s.dev.synState n = synLocked ∨ s.dev.synState n = synFreeze) :
    (s.dev.get (Pg.syn n) SYN.CTL_MODE ≠ 1 → exec (.dpllUpdate n e) s = .next (s.withDev (s.dev.dpllPhase n (s.dev.spreadNow n) e))) ∧
    (s.dev.get (Pg.syn n) SYN.CTL_MODE = 1 → exec (.dpllUpdate n e) s =
      .next (s.withDev ((s.dev.setNeff n ((s.dev.synNom n : Int) + s.dev.spreadNow n).toNat).setAligned n false))) := by
  have hrun : ¬ (s.dev.synState n = synOff ∨ s.dev.synState n = synStart ∨ s.dev.synState n = synCoast ∨ s.dev.synState n = synTest) := by
    obtain h | h | h := hst
    all_goals rw [h]; decide
  change (_ → execDpllUpdate n e s = _) ∧ (_ → execDpllUpdate n e s = _)
  rw [execDpllUpdate, State.run_eq]
  dsimp only
  rw [if_neg hrun]
  exact ⟨fun hmode => by rw [if_neg hmode], fun hmode => by rw [if_pos hmode]⟩

/-! Clock outputs (R161, R163). -/

/-- A change of SRC restarts the output at the end of the cycle it had before the write; any other write of CTL only brings it up to date. -/
theorem ckoCtlWrite_completes (s : State) (m : Master) (k : Fin 16) (v : Nat) (h : Served s m Pg.cko (0x80 + 0x100 * k.val)) :
    let d := (s.took m Pg.cko (0x80 + 0x100 * k.val) v).storeReg Pg.cko (0x80 + 0x100 * k.val) v
    (d.get Pg.cko (CKO.CTL_SRC k) = s.dev.get Pg.cko (CKO.CTL_SRC k) → exec (.ckoCtlWrite m k v) s = .next (s.withDev (d.ckoEval k))) ∧
    (d.get Pg.cko (CKO.CTL_SRC k) ≠ s.dev.get Pg.cko (CKO.CTL_SRC k) → exec (.ckoCtlWrite m k v) s = .next (s.withDev (d.ckoRestart k (s.dev.ckoEdge k (s.dev.ckoPhase k))))) := by
  intro d
  change (_ → execCkoCtlWrite m k v s = _) ∧ (_ → execCkoCtlWrite m k v s = _)
  rw [execCkoCtlWrite, State.run_eq]
  dsimp only
  rw [Dev.writeStore, Dev.write_served h]
  exact ⟨fun hsrc => by rw [if_neg (not_not_intro hsrc)], fun hsrc => by rw [if_pos hsrc]⟩

theorem ckoDivWrite_completes (s : State) (m : Master) (k : Fin 16) (v : Nat) (h : Served s m Pg.cko (0x84 + 0x100 * k.val)) :
    exec (.ckoDivWrite m k v) s = .next (s.withDev
      (((s.took m Pg.cko (0x84 + 0x100 * k.val) v).storeReg Pg.cko (0x84 + 0x100 * k.val) v).ckoRestart k (s.dev.ckoEdge k (s.dev.ckoPhase k)))) := by
  show execCkoDivWrite m k v s = _
  rw [execCkoDivWrite, State.run_eq, Dev.writeStore, Dev.write_served h]

/-- An output that runs moves to the new phase from the offset in force before the write. -/
theorem ckoPhaseWrite_completes (s : State) (m : Master) (k : Fin 16) (v : Nat) (h : Served s m Pg.cko (0x8C + 0x100 * k.val)) :
    let d := (s.took m Pg.cko (0x8C + 0x100 * k.val) v).storeReg Pg.cko (0x8C + 0x100 * k.val) v
    d.on Pg.cko (CKO.STS_RUNNING k) = true → exec (.ckoPhaseWrite m k v) s = .next (s.withDev (d.upCko k fun e => { e with phBase := s.dev.ckoPhase k, phAt := d.now })) := by
  intro d hruns
  show execCkoPhaseWrite m k v s = _
  rw [execCkoPhaseWrite, State.run_eq, Dev.writeStore, Dev.write_served h, if_pos hruns]

/-- Settles O42: command by command; a served write of SCALE is the write itself. -/
theorem synthesisCommandsComplete : Obligations.SynthesisCommandsComplete := by
  unfold Obligations.SynthesisCommandsComplete
  exact fun s n => ⟨synEnable_completes s n, synDisable_completes s n, synFreqIntWrite_completes s n, fun _ v h => State.run_write h v _, ssCtlWrite_off_completes s n,
    ssApply_off_completes s n, vcoCalDone_completes s n, lockGate_completes s n, lockingTimeout_completes s n, synRefLoss_completes s n, freezeTimeout_completes s n,
    fun m h => ⟨align_completes s n m h, testEnter_completes s n m h, testExit_completes s n m h, relock_completes s n m h⟩, dpllUpdate_completes s n,
    ckoCtlWrite_completes s, ckoDivWrite_completes s, ckoPhaseWrite_completes s⟩

end Sys2Proof.Machine
end

section
/-! PROOF. The stamp queue of a measurement channel (O28). -/

namespace Sys2Proof.Machine

/-! The engine of a channel: what reads as set, and what leaves it alone. -/

/-- An update of a channel's engine reads back. -/
@[simp] theorem Dev.tdc_upTdc_same (d : Dev) (n : Fin 16) (f : TdcEng → TdcEng) : (d.upTdc n f).tdc[n] = f d.tdc[n] := Vector.getElem_set_self _

/-- An update of one channel's engine leaves the others alone. -/
theorem Dev.tdc_upTdc_ne (d : Dev) {n k : Fin 16} (f : TdcEng → TdcEng) (h : k ≠ n) : (d.upTdc n f).tdc[k] = d.tdc[k] :=
  Vector.getElem_set_ne n.isLt k.isLt fun e => h (Fin.ext e.symm)

/-- Notices leave the engines of the channels alone. -/
theorem Dev.Quiet.tdc_eq {d e : Dev} (h : d.Quiet e) : e.tdc = d.tdc := by unfold Dev.Quiet at h; rw [h]

@[simp] theorem State.withDev_tdc (s : State) (d : Dev) : (s.withDev d).dev.tdc = d.tdc := rfl

@[simp] theorem Dev.tdc_served (d : Dev) (m : Master) (pg off v : Nat) : (d.served m pg off v).tdc = d.tdc := (d.quiet_served m pg off v).tdc_eq

/-- To show a queue, registers alone change. -/
theorem Dev.quiet_tdcShow (d : Dev) (n : Fin 16) : d.Quiet (d.tdcShow n) := by
  unfold Dev.tdcShow
  dsimp only
  split <;> rfl

@[simp] theorem Dev.tdc_tdcShow (d : Dev) (n : Fin 16) : (d.tdcShow n).tdc = d.tdc := (d.quiet_tdcShow n).tdc_eq

/-- The level shown is that of the queue, in the 9 bits of Q_LVL (R174). -/
theorem Dev.qLvl_tdcShow (d : Dev) (n : Fin 16) : (d.tdcShow n).get (Pg.tdc n) TDC.STS_Q_LVL = d.tdc[n].queue.length % 512 := by
  have hhead (e : Dev) (time tag : Nat) : ((e.put (Pg.tdc n) TDC.Q_TIME_TIME time).put (Pg.tdc n) TDC.Q_TAG tag).get (Pg.tdc n) TDC.STS_Q_LVL = e.get (Pg.tdc n) TDC.STS_Q_LVL := by
    rw [Dev.get_put_ne _ _ _ _ (by dsimp only; omega), Dev.get_put_ne _ _ _ _ (by dsimp only; omega)]
  have hlvl : (d.put (Pg.tdc n) TDC.STS_Q_LVL d.tdc[n].queue.length).get (Pg.tdc n) TDC.STS_Q_LVL = d.tdc[n].queue.length % 512 := d.get_put_same _ _ _ (by decide)
  unfold Dev.tdcShow
  dsimp only
  split
  · exact (hhead _ _ _).trans hlvl
  · exact (hhead _ _ _).trans hlvl

/-! The commands of the queue and of the armed shot (R173, R174). -/

/-- A served POP with its bit set takes the head off and shows the new head. -/
theorem tdcPop_completes (s : State) (m : Master) (n : Fin 16) (v : Nat) (h : Served s m (Pg.tdc n) 0x120) (hv : bit v 0 = true) :
    exec (.tdcPop m n v) s = .next (s.withDev (((s.took m (Pg.tdc n) 0x120 v).upTdc n fun e => { e with queue := e.queue.drop 1 }).tdcShow n)) := by
  refine (State.run_write h v _).trans ?_
  rw [if_pos hv]

/-- A served POP with its bit clear is the served write alone. -/
theorem tdcPop_idle (s : State) (m : Master) (n : Fin 16) (v : Nat) (h : Served s m (Pg.tdc n) 0x120) (hv : bit v 0 = false) :
    exec (.tdcPop m n v) s = .next (s.withDev (s.took m (Pg.tdc n) 0x120 v)) := by
  refine (State.run_write h v _).trans ?_
  rw [if_neg (by rw [hv]; decide)]

theorem tdcArm_completes (s : State) (m : Master) (n : Fin 16) (h : Served s m (Pg.tdc n) 0x108) :
    exec (.tdcArm m n) s = .next (s.withDev ((s.took m (Pg.tdc n) 0x108 1).put (Pg.tdc n) TDC.STS_ARMED 1)) := State.run_write h 1 _

theorem tdcDisarm_completes (s : State) (m : Master) (n : Fin 16) (h : Served s m (Pg.tdc n) 0x108) :
    exec (.tdcDisarm m n) s = .next (s.withDev ((s.took m (Pg.tdc n) 0x108 3).put (Pg.tdc n) TDC.STS_ARMED 0)) := State.run_write h 3 _

theorem tdcFlush_completes (s : State) (m : Master) (n : Fin 16) (h : Served s m (Pg.tdc n) 0x108) :
    exec (.tdcFlush m n) s = .next (s.withDev (((s.took m (Pg.tdc n) 0x108 2).upTdc n fun e => { e with queue := [] }).tdcShow n)) := State.run_write h 2 _

/-- Whatever its value, a served POP drops the head exactly where the bit is set, shows the level that is left, and touches no other channel. -/
theorem tdcPop_queue (s : State) (m : Master) (n : Fin 16) (v : Nat) (h : Served s m (Pg.tdc n) 0x120) :
    ∃ t, exec (.tdcPop m n v) s = .next t ∧ t.dev.tdc[n].queue = (if bit v 0 then s.dev.tdc[n].queue.drop 1 else s.dev.tdc[n].queue) ∧
      (bit v 0 = true → s.dev.tdc[n].queue.length ≤ 256 → t.dev.get (Pg.tdc n) TDC.STS_Q_LVL = s.dev.tdc[n].queue.length - 1) ∧
      (∀ k : Fin 16, k ≠ n → t.dev.tdc[k] = s.dev.tdc[k]) ∧ t.dev.clk = s.dev.clk ∧ t.store = s.store := by
  cases hv : bit v 0
  case false =>
    refine ⟨_, tdcPop_idle s m n v h hv, ?_, fun hb => absurd hb Bool.false_ne_true, fun k _ => ?_, rfl, rfl⟩
    · rw [State.withDev_tdc, Dev.tdc_served, if_neg Bool.false_ne_true]
    · rw [State.withDev_tdc, Dev.tdc_served]
  case true =>
    refine ⟨_, tdcPop_completes s m n v h hv, ?_, fun _ hlen => ?_, fun k hk => ?_, rfl, rfl⟩
    · rw [State.withDev_tdc, Dev.tdc_tdcShow, Dev.tdc_upTdc_same, Dev.tdc_served, if_pos rfl]
    · rw [State.withDev_get, Dev.qLvl_tdcShow, Dev.tdc_upTdc_same, Dev.tdc_served, List.length_drop]
      exact Nat.mod_eq_of_lt (by omega)
    · rw [State.withDev_tdc, Dev.tdc_tdcShow, Dev.tdc_upTdc_ne _ _ hk, Dev.tdc_served]

/-- A served FLUSH leaves an empty queue, shown so, and touches no other channel. -/
theorem tdcFlush_queue (s : State) (m : Master) (n : Fin 16) (h : Served s m (Pg.tdc n) 0x108) :
    ∃ t, exec (.tdcFlush m n) s = .next t ∧ t.dev.tdc[n].queue = [] ∧ t.dev.get (Pg.tdc n) TDC.STS_Q_LVL = 0 ∧ (∀ k : Fin 16, k ≠ n → t.dev.tdc[k] = s.dev.tdc[k]) := by
  refine ⟨_, tdcFlush_completes s m n h, ?_, ?_, fun k hk => ?_⟩
  · rw [State.withDev_tdc, Dev.tdc_tdcShow, Dev.tdc_upTdc_same]
  · rw [State.withDev_get, Dev.qLvl_tdcShow, Dev.tdc_upTdc_same]
    rfl
  · rw [State.withDev_tdc, Dev.tdc_tdcShow, Dev.tdc_upTdc_ne _ _ hk, Dev.tdc_served]

/-- A served ARM or DISARM puts ARMED and leaves every channel's engine alone. -/
theorem putArmed_served (s : State) (m : Master) (n : Fin 16) (op : Nat) {v : Nat} (hv : v < 2) :
    (s.withDev ((s.took m (Pg.tdc n) 0x108 op).put (Pg.tdc n) TDC.STS_ARMED v)).dev.tdc = s.dev.tdc ∧
      (s.withDev ((s.took m (Pg.tdc n) 0x108 op).put (Pg.tdc n) TDC.STS_ARMED v)).dev.get (Pg.tdc n) TDC.STS_ARMED = v := by
  constructor
  · rw [State.withDev_tdc, Dev.put_tdc, Dev.tdc_served]
  · rw [State.withDev_get, Dev.get_put_same _ _ _ _ (by decide)]
    exact Nat.mod_eq_of_lt hv

/-! A stamp that enters (R175). -/

/-- A stamp that finds 256 is lost, and the gap is noted. -/
theorem Dev.tdc_toQueue_full (d : Dev) (n : Fin 16) (x : Stamp) (h : 256 ≤ d.tdc[n].queue.length) :
    (d.toQueue n x).tdc = (d.upTdc n fun e => { e with gapQ := true }).tdc := by
  have hcount : (d.count (Pg.tdc n) TDC.OVF_COUNT).tdc = d.tdc := (d.quiet_count _ _ _).tdc_eq
  have hint (e : Dev) : (e.intOnce (Pg.tdc n) 1).tdc = e.tdc := (Dev.Quiet.when _ _ fun e => e.quiet_int _ _).tdc_eq
  rw [Dev.toQueue, if_pos h, hint, Dev.upTdc, hcount, Dev.upTdc]

/-- Any other stamp enters behind those held, with the gap that was due. -/
theorem Dev.tdc_toQueue_room (d : Dev) (n : Fin 16) (x : Stamp) (h : d.tdc[n].queue.length < 256) :
    (d.toQueue n x).tdc = (d.upTdc n fun e => { e with queue := e.queue ++ [{ x with gap := e.gapQ }], gapQ := false }).tdc := by
  have hint (c : Bool) (e : Dev) : (e.when c fun e => e.int (Pg.tdc n) 0).tdc = e.tdc := (Dev.Quiet.when _ _ fun e => e.quiet_int _ _).tdc_eq
  rw [Dev.toQueue, if_neg (Nat.not_le_of_lt h)]
  dsimp only
  rw [hint, Dev.tdc_tdcShow]

/-- A stamp of one channel touches no other channel. -/
theorem Dev.tdc_toQueue_ne (d : Dev) {n k : Fin 16} (x : Stamp) (hk : k ≠ n) : (d.toQueue n x).tdc[k] = d.tdc[k] := by
  rcases Nat.lt_or_ge d.tdc[n].queue.length 256 with h | h
  · rw [d.tdc_toQueue_room n x h, Dev.tdc_upTdc_ne _ _ hk]
  · rw [d.tdc_toQueue_full n x h, Dev.tdc_upTdc_ne _ _ hk]

/-- Settles O28: command by command, and by whether a stamp finds room. -/
theorem stampQueueOfAChannel : Obligations.StampQueueOfAChannel := by
  unfold Obligations.StampQueueOfAChannel
  refine ⟨fun s m n v => ⟨tdcPop_queue s m n v, fun h => ⟨tdcFlush_queue s m n h, ⟨_, tdcArm_completes s m n h, putArmed_served s m n 1 (by decide)⟩,
    ⟨_, tdcDisarm_completes s m n h, putArmed_served s m n 3 (by decide)⟩⟩⟩, fun d n x => ⟨fun h => ?room, fun h => ?full, fun k hk => d.tdc_toQueue_ne x hk⟩⟩
  case room => rw [d.tdc_toQueue_room n x h, Dev.tdc_upTdc_same]; exact ⟨rfl, rfl⟩
  case full => rw [d.tdc_toQueue_full n x h, Dev.tdc_upTdc_same]; exact ⟨rfl, rfl⟩

end Sys2Proof.Machine
end

section
/-! PROOF. The measurement channels, the rotation and MCLK: commands and events (O47). -/

namespace Sys2Proof.Machine

/-! A channel's edges, gate, stream and configuration (R168 to R177). -/

/-- An edge that the multiplexer shows to the channel is stamped if the channel takes it, and otherwise leaves what the multiplexer has counted. -/
theorem tdcStamp_completes (s : State) (n : Fin 16) (phi : Fin 65536) (bin bin2 : Fin 1024) (falling : Bool) (lane : Fin 4) (ps : Nat) :
    let q := s.dev.muxEdge n lane falling ps
    (q.1 = none → exec (.tdcStamp n phi bin bin2 falling lane ps) s = .next (s.withDev q.2)) ∧
    (∀ f, q.1 = some f → q.2.tdcTakes n f = false → exec (.tdcStamp n phi bin bin2 falling lane ps) s = .next (s.withDev q.2)) ∧
    (∀ f, q.1 = some f → q.2.tdcTakes n f = true → exec (.tdcStamp n phi bin bin2 falling lane ps) s = .next (s.withDev (q.2.tdcEdge n phi bin bin2 f lane))) := by
  dsimp only
  change (_ → execTdcStamp n phi bin bin2 falling lane ps s = _) ∧ (∀ f, _ → _ → execTdcStamp n phi bin bin2 falling lane ps s = _) ∧
    (∀ f, _ → _ → execTdcStamp n phi bin bin2 falling lane ps s = _)
  rw [execTdcStamp, State.run_eq]
  obtain ⟨seen, d⟩ := s.dev.muxEdge n lane falling ps
  refine ⟨?none, ?ignored, ?taken⟩
  case none => rintro rfl; rfl
  case ignored => rintro f rfl ht; dsimp only at ht ⊢; rw [ht]; rfl
  case taken => rintro f rfl ht; dsimp only at ht ⊢; rw [ht]; rfl

theorem streamWrite_completes (s : State) (n : Fin 16) (w : Stamp) (rest : List Stamp) (hup : s.dev.on Pg.hif HIF.STS_LINK_UP = true) (hn : s.dev.streamTurn = some n)
    (hw : s.dev.tdc[n].fifo = w :: rest) : exec .streamWrite s = .next (s.withDev (s.dev.streamServe n w rest)) := by
  show execStreamWrite s = _
  rw [execStreamWrite, State.run_eq, hup, hn]
  dsimp only
  rw [hw]
  rfl

/-- While DEST leaves the stream out, the ring's registers take what is written. -/
theorem strConfigWrite_completes (s : State) (m : Master) (n : Fin 16) (off v : Nat) (hg : s.dev.gate m (Pg.tdc n) off = .served)
    (h1 : s.dev.get (Pg.tdc n) TDC.CTL_DEST ≠ 1) (h2 : s.dev.get (Pg.tdc n) TDC.CTL_DEST ≠ 2) :
    exec (.strConfigWrite m n off v) s = .next (s.withDev ((s.took m (Pg.tdc n) off v).storeReg (Pg.tdc n) off v)) := by
  have hkeeps : ¬ ((off = 0x180 ∨ off = 0x188) ∧ (s.dev.get (Pg.tdc n) TDC.CTL_DEST = 1 ∨ s.dev.get (Pg.tdc n) TDC.CTL_DEST = 2)) := fun h => h.2.elim h1 h2
  show execStrConfigWrite m n off v s = _
  rw [execStrConfigWrite, State.run_eq]
  dsimp only
  rw [Dev.writeIf_served hg, if_pos (decide_eq_true hkeeps)]

/-- A write of CTL, or of the MUX of a channel that is not the probe's with a source other than the hardware's own. -/
theorem tdcMuxWrite_completes (s : State) (m : Master) (n : Fin 16) (off v : Nat) (hg : s.dev.gate m (Pg.tdc n) off = .served)
    (h : off ≠ 0x104 ∨ (v % 128 ≠ 0x7F ∧ s.dev.get Pg.tdcCal TDCCAL.PROBE_CTL_CH ≠ n.val)) :
    exec (.tdcMuxWrite m n off v) s = .next (s.withDev ((s.took m (Pg.tdc n) off v).muxSet n off v)) := by
  have hfree : ¬ (off = 0x104 ∧ (v % 128 = 0x7F ∨ s.dev.get Pg.tdcCal TDCCAL.PROBE_CTL_CH = n.val)) := by omega
  show execTdcMuxWrite m n off v s = _
  rw [execTdcMuxWrite, State.run_eq]
  dsimp only
  rw [Dev.writeOr_served hg, if_pos (decide_eq_true hfree)]

/-! The phases of a rotation (R178 to R182). -/

theorem rotationStart_completes (s : State) (h : s.dev.tdcs.linkUntil ≤ s.dev.now) :
    let d := s.dev.timerTime 0 s.dev.rotPeriod .rotationStart
    (d.rotMay = true → exec .rotationStart s = .next (s.withDev d.rotBegin)) ∧ (d.rotMay = false → exec .rotationStart s = .next (s.withDev d)) := by
  intro d
  change (_ → execRotationStart s = _) ∧ (_ → execRotationStart s = _)
  rw [execRotationStart, State.run_eq, if_neg (Nat.not_lt_of_le h)]
  exact ⟨fun hmay => by rw [if_pos hmay], fun hmay => by rw [if_neg (by rw [hmay]; decide)]⟩

theorem rotationSwitch_completes (s : State) (n : Fin 16) (u : Fin 17) (hp : s.dev.rotPhase = rotIn) (hc : s.dev.rotCur = u) (hu : u.val = n.val)
    (ho : s.dev.overlapOver n (2100 * milli) = true) : exec .rotationSwitch s = .next (s.withDev (s.dev.rotSwitch n)) := by
  obtain ⟨c, hlt⟩ := n
  obtain rfl : u.val = c := hu
  subst hc
  show execRotationSwitch s = _
  rw [execRotationSwitch, State.run_eq, if_neg (not_not_intro hp)]
  dsimp only
  rw [dif_pos hlt, if_pos ho]

theorem rotationSwitchBack_completes (s : State) (n : Fin 16) (u : Fin 17) (hp : s.dev.rotPhase = rotOut) (hc : s.dev.rotCur = u) (hu : u.val = n.val)
    (ho : s.dev.overlapOver n 2099980000 = true) : exec .rotationSwitchBack s = .next (s.withDev (s.dev.rotBack n)) := by
  obtain ⟨c, hlt⟩ := n
  obtain rfl : u.val = c := hu
  subst hc
  show execRotationSwitchBack s = _
  rw [execRotationSwitchBack, State.run_eq, if_neg (not_not_intro hp)]
  dsimp only
  rw [dif_pos hlt, if_pos ho]

theorem calTableCheck_completes (s : State) (hp : s.dev.rotPhase = rotCal ∨ s.dev.rotPhase = rotSelf) (counts : List Nat) (hc : s.dev.tdcs.checked = false)
    (ht : s.dev.calPast 135220000 = true) : exec (.calTableCheck counts) s = .next (s.withDev (s.dev.tableDone counts)) := by
  show execCalTableCheck counts s = _
  rw [execCalTableCheck, State.run_eq, hc, ht, if_neg]
  rintro (⟨hcal, hself⟩ | h | h)
  · exact hp.elim hcal hself
  · cases h
  · cases h

theorem precisionTest_completes (s : State) (hp : s.dev.rotPhase = rotCal ∨ s.dev.rotPhase = rotSelf) (bins : List (Fin 1024)) (hc : s.dev.tdcs.checked = true)
    (hl : bins.length = (if s.dev.tdcs.passed then 4096 else 0)) (ht : s.dev.calPast 139320000 = true) :
    exec (.precisionTest bins) s = .next (s.withDev (s.dev.precisionDone bins)) := by
  show execPrecisionTest bins s = _
  rw [execPrecisionTest, State.run_eq, hc, ht, if_neg]
  rintro (⟨hcal, hself⟩ | h | h | h)
  · exact hp.elim hcal hself
  · cases h
  · exact h hl
  · cases h

/-! Calibration commands and the indexed table (R180, R181, R185). -/

theorem tdcCalNow_completes (s : State) (m : Master) (u : Fin 32) (h : Served s m Pg.tdcCal 0x108) (hu : u.val ≤ 16) :
    exec (.tdcCalNow m u) s = .next (s.withDev ((s.took m Pg.tdcCal 0x108 (calWord u 1)).upTdcs fun e => { e with front := u.val :: e.front.filter (· != u.val) })) := by
  refine (State.run_write h (calWord u 1) _).trans ?_
  rw [decide_eq_true hu, Dev.when_true]

/-- A RESTORE of the channel that TDCS holds for good begins its calibration. -/
theorem tdcRestore_completes (s : State) (m : Master) (u : Fin 32) (h : Served s m Pg.tdcCal 0x108) :
    let d := s.took m Pg.tdcCal 0x108 (calWord u 2)
    u.val < 16 → d.rotPerm = u.val → d.rotPhase = rotIdle → exec (.tdcRestore m u) s = .next (s.withDev
      ((((d.put Pg.tdcCal TDCCAL.ROT_STS_CUR u.val).put Pg.tdcCal TDCCAL.ROT_STS_PHASE rotCal).upTdcs fun e => { e with restoring := true, passed := false }).calTake (Fin.ofNat 16 u.val))) := by
  intro d hu hperm hidle
  refine (State.run_write h (calWord u 2) _).trans ?_
  rw [if_pos ⟨hu, hperm, hidle⟩]

/-- The indexed entry of the indexed unit takes the written value. -/
theorem calEntWrite_completes (s : State) (m : Master) (v : Nat) (u : Fin 17) (h : Served s m Pg.tdcCal 0x114) :
    let d := (s.took m Pg.tdcCal 0x114 v).storeReg Pg.tdcCal 0x114 v
    let b := d.get Pg.tdcCal TDCCAL.CAL_IDX_BIN
    u.val = min 16 (d.get Pg.tdcCal TDCCAL.CAL_IDX_UNIT) → exec (.calEntWrite m v) s =
      .next (s.withDev (d.upUnit u fun e => { e with ents := (b, v % 2 ^ 32) :: e.ents.filter fun x => x.1 ≠ b }).tdcWindow) := by
  intro d b hu
  obtain ⟨c, hlt⟩ := u
  obtain rfl : c = min 16 (d.get Pg.tdcCal TDCCAL.CAL_IDX_UNIT) := hu
  exact State.run_writeStore h v _

/-! MCLK (R172, R185). -/

theorem mclkUnlock_completes (s : State) (h : s.dev.on Pg.tdcCal TDCCAL.MCLK_STS_LOCK = true) : exec .mclkUnlock s = .next (s.withDev
    ((((s.dev.setMclk false).count Pg.tdcCal TDCCAL.MCLK_STS_UNLOCKS).raise (Pg.ts 0) 3 causeMclk).raise (Pg.ts 1) 3 causeMclk)) := by
  show execMclkUnlock s = _
  rw [execMclkUnlock, State.run_eq, h]
  rfl

theorem mclkRelock_completes (s : State) (h : s.dev.on Pg.tdcCal TDCCAL.MCLK_STS_LOCK = false) : exec .mclkRelock s = .next (s.withDev
    (((s.dev.setMclk true).lower (Pg.ts 0) 3 causeMclk).lower (Pg.ts 1) 3 causeMclk)) := by
  show execMclkRelock s = _
  rw [execMclkRelock, State.run_eq, h]
  rfl

/-- Settles O47: command by command; the end of a gate has one effect in every state. -/
theorem measurementCommandsComplete : Obligations.MeasurementCommandsComplete := by
  unfold Obligations.MeasurementCommandsComplete
  exact fun s => ⟨tdcStamp_completes s, fun m n h => ⟨tdcArm_completes s m n h, tdcDisarm_completes s m n h, tdcFlush_completes s m n h⟩, tdcPop_completes s, fun n => s.run_eq fun d => d.freqGate n,
    streamWrite_completes s, strConfigWrite_completes s, tdcMuxWrite_completes s, rotationStart_completes s, rotationSwitch_completes s,
    fun hp => ⟨calTableCheck_completes s hp, precisionTest_completes s hp⟩, rotationSwitchBack_completes s,
    fun m u h => ⟨tdcCalNow_completes s m u h, tdcRestore_completes s m u h⟩, calEntWrite_completes s, mclkUnlock_completes s, mclkRelock_completes s⟩

end Sys2Proof.Machine
end

section
/-! PROOF. The pulse generators and capture inputs: commands and events (O48). -/

namespace Sys2Proof.Machine

/-! Pulse generators (R186 to R192). -/

/-- An enabled generator whose configuration is not refused latches the sequence. -/
theorem evoArm_completes (s : State) (n : Fin 16) (m : Master) (h : Served s m Pg.evo (0x104 + 0x40 * n.val)) :
    let d := s.took m Pg.evo (0x104 + 0x40 * n.val) 1
    d.on Pg.evo (EVO.CTL_EN n) = true → d.evoRefuses n = false → exec (.evoArm m n) s = .next (s.withDev (d.evoLatch n)) := by
  intro d hen hvalid
  refine (State.run_write h 1 _).trans ?_
  rw [if_neg (by rw [hen]; decide), if_neg (by rw [hvalid]; decide)]

/-- A STOP, which is given at any offset but that of EVOm_CTL. -/
theorem evoStop_command_completes (s : State) (n : Fin 16) (m : Master) (off v : Nat) (hoff : off ≠ 0x100 + 0x40 * n.val) (h : Served s m Pg.evo (0x104 + 0x40 * n.val)) :
    exec (.evoStop m n off v) s = .next (s.withDev ((s.took m Pg.evo (0x104 + 0x40 * n.val) 2).evoStop n)) := by
  show execEvoStop m n off v s = _
  simp only [execEvoStop, if_neg hoff]
  exact State.run_write h 2 _

/-- A write of EVOm_CTL acts as STOP with EN = 0, and otherwise only brings what is shown and the driver up to date. -/
theorem evoStop_ctl_completes (s : State) (n : Fin 16) (m : Master) (off v : Nat) (hoff : off = 0x100 + 0x40 * n.val) (h : Served s m Pg.evo off) :
    let d := (s.took m Pg.evo off v).storeReg Pg.evo off v
    (bit v 31 = false → exec (.evoStop m n off v) s = .next (s.withDev (((d.evoStop n).evoShow n).evoDriver n))) ∧
    (bit v 31 = true → exec (.evoStop m n off v) s = .next (s.withDev ((d.evoShow n).evoDriver n))) := by
  intro d
  have hctl : exec (.evoStop m n off v) s = .next (s.withDev (((if bit v 31 then d else d.evoStop n).evoShow n).evoDriver n)) := by
    show execEvoStop m n off v s = _
    simp only [execEvoStop, if_pos hoff]
    exact State.run_writeStore h v _
  exact ⟨fun hen => by rw [hctl, if_neg (by rw [hen]; decide)], fun hen => by rw [hctl, if_pos hen]⟩

theorem evoEdge_completes (s : State) (n : Fin 16) (hdue : s.dev.evoDue n = true) : exec (.evoEdge n) s = .next (s.withDev (s.dev.evoAdvance n)) := by
  show execEvoEdge n s = _
  rw [execEvoEdge, State.run_eq, if_neg (by rw [hdue]; decide)]

theorem evoDriverEnable_completes (s : State) (n : Fin 16) (hmay : s.dev.evoMay n = true) (hidle : s.dev.evo[n].pulse = none) :
    exec (.evoDriverEnable n) s = .next (s.withDev (s.dev.put Pg.evo (EVO.STS_DRIVEN n) 1)) := by
  show execEvoDriverEnable n s = _
  rw [execEvoDriverEnable, State.run_eq, if_pos (by rw [hmay, hidle]; rfl)]

/-! Capture inputs (R193 to R195). -/

theorem eviEdge_completes (s : State) (n : Fin 16) (falling : Bool) (ps : Nat) (hen : s.dev.eviCtl n (EVI.CTL_EN n) ≠ 0) (hon : s.dev.domainOn Pg.evi = true) :
    exec (.eviEdge n falling ps) s = .next (s.withDev (s.dev.eviSee n falling ps)) := by
  show execEviEdge n falling ps s = _
  rw [execEviEdge, State.run_eq, if_neg (by rw [bne_iff_ne.mpr hen, hon]; decide)]

/-- EVIi_CTL takes the written value, and an edge that is still in the filter counts as rejected. -/
theorem eviCtlWrite_completes (s : State) (n : Fin 16) (m : Master) (v : Nat) (h : Served s m Pg.evi (0x100 + 0x10 * n.val)) :
    let d := (s.took m Pg.evi (0x100 + 0x10 * n.val) v).eviSet n v
    exec (.eviCtlWrite m n v false) s = .next (s.withDev d) ∧
    exec (.eviCtlWrite m n v true) s = .next (s.withDev (d.count Pg.evi (EVI.REJ_COUNT n))) :=
  ⟨State.run_write h v _, State.run_write h v _⟩

/-- Settles O48: command by command; a write of EVOm_CTL by its EN bit. -/
theorem pulseAndCaptureCommandsComplete : Obligations.PulseAndCaptureCommandsComplete := by
  unfold Obligations.PulseAndCaptureCommandsComplete
  exact fun s n => ⟨evoArm_completes s n, evoStop_command_completes s n, evoStop_ctl_completes s n, evoEdge_completes s n, evoDriverEnable_completes s n,
    eviEdge_completes s n, eviCtlWrite_completes s n⟩

end Sys2Proof.Machine
end

section
/-! PROOF. The Ethernet ports' configuration and link events (O49). -/

namespace Sys2Proof.Machine

/-- The state that a command leaves, by the value of its effect on the device. -/
theorem State.run_of_eq {s : State} {f : Dev → Dev} {d : Dev} (h : f s.dev = d) : s.run f = .next (s.withDev d) := by
  rw [State.run_eq, h]

/-! Configuration (R199, R216). -/

theorem portEnable_completes (s : State) (p : Fin 24) (m : Master) (v : Nat) (h : Served s m (ppg p) 0x100) :
    exec (.portEnable m p v) s = .next (s.withDev (((s.took m (ppg p) 0x100 v).storeReg (ppg p) 0x100 v).portCtlSet p (s.dev.reg (ppg p) 0x100))) :=
  State.run_writeStore h v fun d => d.portCtlSet p (s.dev.reg (ppg p) 0x100)

/-- A write of CTL that leaves EN = 0 stops the port. -/
theorem portDisable_completes (s : State) (p : Fin 24) (m : Master) (v : Nat) (h : Served s m (ppg p) 0x100) :
    let d := (s.took m (ppg p) 0x100 v).storeReg (ppg p) 0x100 v
    d.on (ppg p) PORT.CTL_EN = false → exec (.portDisable m p v) s = .next (s.withDev (d.portStop p)) := by
  intro d hoff
  refine (State.run_writeStore h v _).trans ?_
  rw [if_neg (by rw [hoff]; decide)]

theorem portConfigWrite_completes (s : State) (p : Fin 24) (m : Master) (off v : Nat) (h : Served s m (ppg p) off) :
    exec (.portConfigWrite m p off v) s = .next (s.withDev (((s.took m (ppg p) off v).storeReg (ppg p) off v).portCfgSet p off (s.dev.reg (ppg p) 0x100))) :=
  State.run_writeStore h v fun d => d.portCfgSet p off (s.dev.reg (ppg p) 0x100)

/-! Events of the link, each in the state that takes it (R198, R199). -/

theorem lanePllLocked_completes (s : State) (p : Fin 24) (hst : s.dev.portState p = portWait) :
    exec (.lanePllLocked p) s = .next (s.withDev ((s.dev.upPort p fun e => { e with pll := true }).portTry p)) := State.run_of_eq (if_pos hst)

theorem anComplete_completes (s : State) (p : Fin 24) (abil : Nat) (rs br : Bool) (hst : s.dev.portState p = portAn) :
    exec (.anComplete p abil rs br) s = .next (s.withDev (s.dev.anResolve p abil rs br)) := by
  show execAnComplete p abil rs br s = _
  rw [execAnComplete, State.run_eq, if_neg (not_not_intro hst)]

theorem trainComplete_completes (s : State) (p : Fin 24) (hst : s.dev.portState p = portTrain) :
    exec (.trainComplete p) s = .next (s.withDev (s.dev.portEnter p portAlign)) := State.run_of_eq (if_pos hst)

theorem trainTimeout_completes (s : State) (p : Fin 24) (hst : s.dev.portState p = portTrain) :
    exec (.trainTimeout p) s = .next (s.withDev ((s.dev.portCause p pcTrain).portRestart p)) := State.run_of_eq (if_pos hst)

theorem alignTimeout_completes (s : State) (p : Fin 24) (hst : s.dev.portState p = portAlign) :
    exec (.alignTimeout p) s = .next (s.withDev ((s.dev.portCause p pcBlock).portRestart p)) := State.run_of_eq (if_pos hst)

/-- An aligned port comes up once no calibration slot runs or is due. -/
theorem alignUp_completes (s : State) (p : Fin 24) (hst : s.dev.portState p = portAlign) (hslot : s.dev.pts[p].slot = none) (hdue : s.dev.pts[p].due = false) :
    exec (.alignUp p) s = .next (s.withDev ((s.dev.portEnter p portUp).portRecord p portAlign)) :=
  State.run_of_eq (if_pos ⟨hst, by rw [hslot]; rfl, by rw [hdue]; rfl⟩)

theorem linkLoss_completes (s : State) (p : Fin 24) (hslot : s.dev.pts[p].slot = none) (hst : s.dev.portState p = portUp ∨ s.dev.portState p = portRfault) (c : Fin 3) :
    exec (.linkLoss p c) s = .next (s.withDev (s.dev.linkDown p (s.dev.portState p) c)) := by
  have htakes : ¬ ((s.dev.portState p ≠ portUp ∧ s.dev.portState p ≠ portRfault) ∨ s.dev.pts[p].slot.isSome) := by
    rintro (⟨hup, hrf⟩ | hs)
    · exact hst.elim hup hrf
    · rw [hslot] at hs; cases hs
  show execLinkLoss p c s = _
  rw [execLinkLoss, State.run_eq]
  dsimp only
  rw [if_neg htakes]

theorem remoteFault_completes (s : State) (p : Fin 24) (hup : s.dev.portUpQ p = true) (hslot : s.dev.pts[p].slot = none) :
    exec (.remoteFault p) s = .next (s.withDev (s.dev.portEnter p portRfault)) := by
  show execRemoteFault p s = _
  rw [execRemoteFault, State.run_eq, if_pos (by rw [hup, hslot]; rfl)]

theorem remoteFaultClear_completes (s : State) (p : Fin 24) (hst : s.dev.portState p = portRfault) :
    exec (.remoteFaultClear p) s = .next (s.withDev ((s.dev.portEnter p portUp).portRecord p portRfault)) := State.run_of_eq (if_pos hst)

/-! The commands of PORT_CMD and of a cluster (R199, R206, R214, R217). -/

theorem restartAn_completes (s : State) (p : Fin 24) (m : Master) (h : Served s m (ppg p) 0x10C) :
    let d := s.took m (ppg p) 0x10C 1
    d.portRuns p = true → d.on (ppg p) PORT.CTL_AN_EN = true → exec (.restartAn m p) s = .next (s.withDev (d.portAgain p pcOperator)) := by
  intro d hruns han
  refine (State.run_write h 1 _).trans ?_
  rw [if_pos (by rw [hruns, han]; rfl)]

theorem restartLink_completes (s : State) (p : Fin 24) (m : Master) (h : Served s m (ppg p) 0x10C) :
    let d := s.took m (ppg p) 0x10C 2
    d.portRuns p = true → exec (.restartLink m p) s = .next (s.withDev (d.portAgain p pcOperator)) := by
  intro d hruns
  refine (State.run_write h 2 _).trans ?_
  rw [if_pos hruns]

theorem statClr_completes (s : State) (p : Fin 24) (m : Master) (h : Served s m (ppg p) 0x10C) :
    exec (.statClr m p) s = .next (s.withDev ((s.took m (ppg p) 0x10C 3).statZero p)) := State.run_write h 3 _

theorem preVerify_completes (s : State) (p : Fin 24) (m : Master) (h : Served s m (ppg p) 0x10C) :
    exec (.preVerify m p) s = .next (s.withDev ((s.took m (ppg p) 0x10C 4).startVerify p)) := State.run_write h 4 _

/-- RESET of a cluster runs, or is absorbed by a reset of its region that already does. -/
theorem clusterReset_completes (s : State) (m : Master) (c : Fin 6) (h : Served s m (Pg.pc c) 0x100) :
    let d := s.took m (Pg.pc c) 0x100 1
    (d.within (Pg.pc c) = none → exec (.clusterReset m c) s = .next (s.withDev (d.clusterAgain c))) ∧
    (∀ r, d.within (Pg.pc c) = some r → exec (.clusterReset m c) s = .next (s.withDev (d.absorb r))) := by
  refine ⟨fun hw => ?alone, fun r hw => ?absorbed⟩
  all_goals
    refine (State.run_write h 1 _).trans ?_
    rw [hw]

/-! The verify handshake of preemption (R206). -/

/-- After three attempts the verification has failed. -/
theorem verifySend_fails (s : State) (p : Fin 24) (hv : s.dev.verifying p = true) (ht : 3 ≤ s.dev.port[p].tries) :
    exec (.verifySend p) s = .next (s.withDev (s.dev.setVerify p 4)) := by
  show execVerifySend p s = _
  rw [execVerifySend, State.run_eq, if_neg (by rw [hv]; decide), if_pos ht]

/-- Before that it is sent once more, and VERIFY_TIME runs again. -/
theorem verifySend_sends (s : State) (p : Fin 24) (hv : s.dev.verifying p = true) (ht : s.dev.port[p].tries < 3) :
    let d := ((s.dev.setVerify p 2).emit (.message "verify mPacket" [p])).upPort p fun e => { e with tries := e.tries + 1 }
    exec (.verifySend p) s = .next (s.withDev (d.timerTime 0 (clampN 1 128 (d.get (ppg p) PORT.PRE_CTL_VERIFY_TIME) * milli) (.verifySend p))) := by
  show execVerifySend p s = _
  rw [execVerifySend, State.run_eq, if_neg (by rw [hv]; decide), if_neg (Nat.not_le_of_lt ht)]

/-! Low-power idle (R211). -/

theorem lpiEntry_completes (s : State) (p : Fin 24) (hmay : s.dev.lpiMay p = true) :
    exec (.lpiEntry p) s = .next (s.withDev ((s.dev.put (ppg p) PORT.LPI_STS_TX_LPI 1).stat p 60)) := State.run_of_eq (if_pos hmay)

/-- The transmitter leaves low-power idle, and sends again once the longer of Tw_sys and the PHY's own time is over. -/
theorem lpiWake_completes (s : State) (p : Fin 24) (htx : s.dev.on (ppg p) PORT.LPI_STS_TX_LPI = true) :
    let t := s.dev.now + max s.dev.port[p].lpiTw (phyWake (s.dev.portRate p) (s.dev.portFec p))
    exec (.lpiWake p) s = .next (s.withDev (((s.dev.lpiExit p).upPort p fun e => { e with wake := some t }).txAt p t)) := by
  show execLpiWake p s = _
  rw [execLpiWake, State.run_eq, if_neg (by rw [htx]; decide)]

/-- A write of LPI_CTL while the transmitter is in low-power idle takes effect at the next exit. -/
theorem lpiCtlWrite_idle (s : State) (p : Fin 24) (m : Master) (v : Nat) (h : Served s m (ppg p) 0x120) :
    let d := (s.took m (ppg p) 0x120 v).storeReg (ppg p) 0x120 v
    d.on (ppg p) PORT.LPI_STS_TX_LPI = true → exec (.lpiCtlWrite m p v) s = .next (s.withDev d) := by
  intro d htx
  refine (State.run_writeStore h v _).trans ?_
  rw [if_pos (by rw [htx]; rfl)]

/-- The receiver's exit takes up the settings that waited, unless the transmitter is still idle. -/
theorem lpiRxEntry_exit (s : State) (p : Fin 24) (hrx : s.dev.on (ppg p) PORT.LPI_STS_RX_LPI = true) :
    let d := s.dev.put (ppg p) PORT.LPI_STS_RX_LPI 0
    exec (.lpiRxEntry p false) s = .next (s.withDev (if d.on (ppg p) PORT.LPI_STS_TX_LPI then d else (d.lpiLoad p).lpiArm p)) := by
  intro d
  have htx : d.on (ppg p) PORT.LPI_STS_TX_LPI = s.dev.on (ppg p) PORT.LPI_STS_TX_LPI :=
    congrArg (· != 0) (s.dev.get_put_disj (ppg p) _ _ _ rfl (by decide) (by decide))
  show execLpiRxEntry p false s = _
  rw [execLpiRxEntry, State.run_eq, htx, hrx]
  cases s.dev.on (ppg p) PORT.LPI_STS_TX_LPI
  · rfl
  · rfl

theorem lpiRxEntry_enter (s : State) (p : Fin 24) (hup : s.dev.portUpQ p = true) (hen : s.dev.port[p].lpiEn = true) (hrate : s.dev.portRate p < 3)
    (hrx : s.dev.on (ppg p) PORT.LPI_STS_RX_LPI = false) : exec (.lpiRxEntry p true) s = .next (s.withDev ((s.dev.put (ppg p) PORT.LPI_STS_RX_LPI 1).stat p 61)) := by
  show execLpiRxEntry p true s = _
  rw [execLpiRxEntry, State.run_eq, if_pos (by rw [hup, hen, decide_eq_true hrate, hrx]; rfl)]

/-- Settles O49: command by command; the verify handshake by the attempts made. -/
theorem portLinkCommandsComplete : Obligations.PortLinkCommandsComplete := by
  unfold Obligations.PortLinkCommandsComplete
  exact fun s p => ⟨fun m v h => ⟨portEnable_completes s p m v h, portDisable_completes s p m v h⟩, portConfigWrite_completes s p, lanePllLocked_completes s p,
    anComplete_completes s p, fun hst => ⟨trainComplete_completes s p hst, trainTimeout_completes s p hst⟩, fun hst => ⟨alignTimeout_completes s p hst, alignUp_completes s p hst⟩,
    linkLoss_completes s p, remoteFault_completes s p, remoteFaultClear_completes s p,
    fun m h => ⟨restartAn_completes s p m h, restartLink_completes s p m h, statClr_completes s p m h, preVerify_completes s p m h⟩,
    clusterReset_completes s, fun hv => ⟨verifySend_fails s p hv, verifySend_sends s p hv⟩, lpiEntry_completes s p, lpiWake_completes s p,
    fun m v h htx _ => lpiCtlWrite_idle s p m v h htx, lpiRxEntry_exit s p, lpiRxEntry_enter s p⟩

end Sys2Proof.Machine
end

section
/-! SUPPORT. What the loss of a reference leaves alone: the engine of the link between the dies, whose calibration slots the probe serves too (R86, R107, R119, R226). -/

namespace Sys2Proof.Machine

/-- What both branches keep, a choice keeps. -/
theorem Dev.ite_proj {β : Type} (π : Dev → β) {c : Prop} [Decidable c] {a b d : Dev} (ha : π a = π d) (hb : π b = π d) : π (if c then a else b) = π d := by
  split
  · exact ha
  · exact hb

theorem Dev.Quiet.plk_eq {d e : Dev} (h : d.Quiet e) : e.plk = d.plk := by unfold Dev.Quiet at h; rw [h]
theorem Dev.FaultQuiet.plk_eq {d e : Dev} (h : d.FaultQuiet e) : e.plk = d.plk := by unfold Dev.FaultQuiet at h; rw [h]
theorem Dev.OnlyRegs.plk_eq {d e : Dev} (h : d.OnlyRegs e) : e.plk = d.plk := by unfold Dev.OnlyRegs at h; rw [h]

@[simp] theorem Dev.plk_record (d : Dev) (typ source : Nat) (p : List Nat) : (d.record typ source p).plk = d.plk := (d.quiet_record typ source p false 0).plk_eq
@[simp] theorem Dev.plk_int (d : Dev) (pg b : Nat) : (d.int pg b).plk = d.plk := (d.quiet_int pg b).plk_eq
@[simp] theorem Dev.plk_count (d : Dev) (pg : Nat) (f : Fld) : (d.count pg f).plk = d.plk := (d.quiet_count pg f {}).plk_eq

@[simp] theorem Dev.plk_put (d : Dev) (pg : Nat) (f : Fld) (v : Nat) : (d.put pg f v).plk = d.plk := rfl
@[simp] theorem Dev.plk_puti (d : Dev) (pg : Nat) (f : Fld) (v : Int) : (d.puti pg f v).plk = d.plk := rfl
@[simp] theorem Dev.plk_putb (d : Dev) (pg : Nat) (f : Fld) (b : Bool) : (d.putb pg f b).plk = d.plk := rfl
@[simp] theorem Dev.plk_upTs (d : Dev) (n : Ts) (f : TsEng → TsEng) : (d.upTs n f).plk = d.plk := rfl
@[simp] theorem Dev.plk_upSel (d : Dev) (n : Ts) (f : SelEng → SelEng) : (d.upSel n f).plk = d.plk := rfl
@[simp] theorem Dev.plk_upSvc (d : Dev) (n : Ts) (f : SvcEng → SvcEng) : (d.upSvc n f).plk = d.plk := rfl
@[simp] theorem Dev.plk_upHld (d : Dev) (n : Ts) (f : HldEng → HldEng) : (d.upHld n f).plk = d.plk := rfl
@[simp] theorem Dev.plk_after (d : Dev) (dt : Nat) (i : Instr) : (d.after dt i).plk = d.plk := rfl
@[simp] theorem Dev.plk_timer (d : Dev) (dt : Nat) (i : Instr) : (d.timer dt i).plk = d.plk := rfl

/-! The servo's writes of a timescale (R65, R69). -/

@[simp] theorem Dev.plk_putSlew (d : Dev) (n : Ts) (a : Int) : (d.putSlew n a).plk = d.plk := Dev.ite_proj Dev.plk rfl rfl

theorem Dev.plk_writeIf (d : Dev) (m : Master) (pg off v : Nat) (ok : Bool) (cnt : Fld) (eff : Dev → Dev) (h : ∀ e : Dev, (eff e).plk = e.plk) :
    (d.writeIf m pg off v ok cnt eff).plk = d.plk := by
  unfold Dev.writeIf
  split
  · exact Dev.ite_proj Dev.plk ((h _).trans (d.quiet_served m pg off v).plk_eq) ((d.quiet_count pg cnt {}).trans (Dev.quiet_pmc _ pg 4 {})).plk_eq
  · exact (d.onlyRegs_discard _ pg).plk_eq

@[simp] theorem Dev.plk_writeSlew (d : Dev) (n : Ts) (m : Master) (a : Int) (unit : Bool) : (d.writeSlew n m a unit).plk = d.plk := by
  have hgo := d.plk_writeIf m (Pg.ts n) 0x140 (unsgn 64 a) (d.mayIncr n m) TS.WR_DISC_COUNT (fun d => d.putSlew n a) fun e => e.plk_putSlew n a
  unfold Dev.writeSlew
  dsimp only
  split
  · exact Dev.ite_proj Dev.plk (d.plk_count _ _) hgo
  · exact hgo

@[simp] theorem Dev.plk_autoStep (d : Dev) (n : Ts) (x : Int) : (d.autoStep n x).plk = d.plk := Dev.ite_proj Dev.plk rfl rfl

/-! The selector (R107, R108, R109). -/

@[simp] theorem Dev.plk_select (d : Dev) (n : Ts) (k : Nat) : (d.select n k).plk = d.plk := by
  simp [Dev.select, Dev.showCorroboration]

@[simp] theorem Dev.plk_showLoop (d : Dev) (n : Ts) : (d.showLoop n).plk = d.plk := d.plk_put _ _ _

@[simp] theorem Dev.plk_selEnter (d : Dev) (n : Ts) (s : Nat) : (d.selEnter n s).plk = d.plk := by
  unfold Dev.selEnter
  extract_lets old d1 d2 d3 d4
  have h2 : d2.plk = d1.plk := Dev.when_proj Dev.plk _ d1 _ fun e => e.plk_upHld n _
  have h4 : d4.plk = d.plk := by simp [d4, d3, h2, d1]
  exact Dev.ite_proj Dev.plk h4 ((((d4.quiet_record _ _ _ _ _).trans (Dev.quiet_int _ _ _)).trans (Dev.quiet_event _ _)).plk_eq.trans h4)

@[simp] theorem Dev.plk_beginSwitch (d : Dev) (n : Ts) (k state : Nat) : (d.beginSwitch n k state).plk = d.plk := by
  unfold Dev.beginSwitch
  extract_lets old fromLocked d1 a step slew settle d2 d3 d4
  have h3 : d3.plk = d.plk := by simp [d3, d2, d1]
  have h4 : d4.plk = d.plk := (Dev.ite_proj Dev.plk (d3.plk_autoStep n a) (d3.plk_writeSlew n _ a true)).trans h3
  exact Dev.ite_proj Dev.plk (by simp [h4]) h4

theorem Dev.plk_beginRelock (d : Dev) (n : Ts) (k : Nat) : (d.beginRelock n k).plk = d.plk := by simp [Dev.beginRelock]

/-! The holdover unit (R119, R120, R123). -/

@[simp] theorem Dev.plk_recordHld (d : Dev) (n : Ts) (v : HldValues) (aid : Option (Fin 2)) : (d.recordHld n v aid).plk = d.plk := d.plk_record _ _ _

@[simp] theorem Dev.plk_beginHld (d : Dev) (n : Ts) (v : HldValues) (aid : Option (Fin 2)) (b : Bound) : (d.beginHld n v aid b).plk = d.plk := by
  simp [Dev.beginHld, Dev.showHld, Dev.unitWrite]

@[simp] theorem Dev.plk_enterHld (d : Dev) (n : Ts) (hw : Bool) : (d.enterHld n hw).plk = d.plk := by
  simp [Dev.enterHld, Dev.unselect]

@[simp] theorem Dev.plk_loseAid (d : Dev) (n : Ts) : (d.loseAid n).plk = d.plk := by
  simp [Dev.loseAid]

theorem Dev.plk_resumeHld (d : Dev) (n : Ts) (hw : Bool) : (d.resumeHld n hw).plk = d.plk := by
  unfold Dev.resumeHld
  extract_lets slewed d1 d2 d3 v
  have h3 : d3.plk = d.plk := by simp [d3, d2, d1, Dev.unselect]
  have hnone : ((d3.recordHld n v none).unitWrite n v.avg).plk = d.plk := by simp [Dev.unitWrite, h3]
  split
  · exact Dev.ite_proj Dev.plk (by simp [Dev.unitWrite, h3]) (Dev.ite_proj Dev.plk (by rw [Dev.plk_loseAid, h3]) hnone)
  · exact hnone

/-! The evaluation of a selector, by its state (R107, R108). -/

theorem Dev.plk_selEval (d : Dev) (n : Ts) : (d.selEval n).plk = d.plk := by
  unfold Dev.selEval
  extract_lets d1 s k b halted forcedHo
  change _ = d1.plk
  clear_value d1 s k b halted forcedHo
  have hhld (hw : Bool) : (d1.enterHld n hw).plk = d1.plk := d1.plk_enterHld n hw
  have hresume (hw : Bool) : (d1.resumeHld n hw).plk = d1.plk := d1.plk_resumeHld n hw
  have keeps {c : Prop} [Decidable c] {x y : Dev} (hx : x.plk = d1.plk) (hy : y.plk = d1.plk) : (if c then x else y).plk = d1.plk := Dev.ite_proj Dev.plk hx hy
  refine keeps rfl (keeps ?freerun (keeps ?acquire (keeps ?locked (keeps ?switching (keeps ?holdover (keeps ?relock rfl))))))
  case freerun =>
    refine keeps (hhld true) ?_
    cases b with
    | none => rfl
    | some j => exact keeps (Dev.plk_selEnter _ n selAcquire) rfl
  case acquire =>
    refine keeps (hhld true) (keeps (hhld false) (keeps rfl ?_))
    cases b with
    | none => exact hhld false
    | some j => rfl
  case locked =>
    refine keeps (hhld true) (keeps (hhld false) ?_)
    cases b with
    | none => exact hhld false
    | some j => exact keeps rfl (keeps (d1.plk_beginSwitch n j selSwitching) rfl)
  case switching => exact Dev.when_proj Dev.plk (fun e => e.upSel n fun e => { e with lost := true }) d1 _ fun _ => rfl
  case holdover =>
    cases b with
    | none => rfl
    | some j => exact keeps (d1.plk_beginRelock n j) rfl
  case relock => exact keeps (hresume true) (keeps (hresume false) rfl)

theorem Dev.plk_loseSelected (d : Dev) (n : Ts) : (d.loseSelected n).plk = d.plk := Dev.ite_proj Dev.plk (d.plk_selEval n) rfl

/-! The monitor that loses its reference and asks for it again (R84, R86). -/

theorem Dev.plk_leaveQualified (d : Dev) (k : Fin 19) : (d.leaveQualified k).plk = d.plk := by
  unfold Dev.leaveQualified
  extract_lets d1
  have h1 : d1.plk = d.plk := Dev.ite_proj Dev.plk rfl rfl
  exact (Dev.each_proj Dev.plk _ (fun n e => (Dev.when_proj Dev.plk _ _ _ fun e => e.plk_loseAid n).trans (Dev.when_proj Dev.plk _ e _ fun e => e.plk_loseSelected n)) _ d1).trans h1

theorem Dev.plk_monEnter (d : Dev) (k : Fin 19) (s cause : Nat) : (d.monEnter k s cause).plk = d.plk := by
  unfold Dev.monEnter
  extract_lets old wasCmp span d1 isCmp d2 d3
  have h3 : d3.plk = d.plk := Dev.when_proj Dev.plk _ d2 _ fun e => e.plk_leaveQualified k
  exact Dev.ite_proj Dev.plk h3 (((d3.quiet_record _ _ _ _ _).trans (Dev.quiet_int _ _ _)).plk_eq.trans h3)

theorem Dev.plk_dropPresence (d : Dev) (k : Fin 19) : (d.dropPresence k).plk = d.plk := by
  unfold Dev.dropPresence
  dsimp only
  split
  · rfl
  · rfl

/-- The only fault of a monitor that tries is its C1 of a bad configuration. -/
theorem Dev.plk_monTry (d : Dev) (k : Fin 19) : (d.monTry k).plk = d.plk := by
  unfold Dev.monTry
  extract_lets d1
  have h1 : d1.plk = d.plk := (d.faultQuiet_lower _ _ _).plk_eq
  have hbad : ((d.mput k MON.STS_CAUSE 0xA).raise (monPg k) 1 (causeConfig + monBase k)).plk = d.plk := (Dev.faultQuiet_raise _ _ (by decide) _ false).plk_eq
  exact Dev.ite_proj Dev.plk rfl (Dev.ite_proj Dev.plk hbad (Dev.ite_proj Dev.plk ((d1.plk_monEnter k _ _).trans h1) h1))

theorem Dev.plk_monReturn (d : Dev) (k : Fin 19) (cause : Nat) : (d.monReturn k cause).plk = d.plk := by
  unfold Dev.monReturn
  refine Dev.ite_proj Dev.plk rfl ?_
  rw [Dev.plk_monTry, Dev.plk_monEnter, Dev.plk_dropPresence]

/-! A channel's multiplexer that turns to another source (R169, R173). -/

theorem Dev.plk_muxTurn (d : Dev) (n : Fin 16) (f : Dev → Dev) (h : ∀ e : Dev, (f e).plk = e.plk) : (d.muxTurn n f).plk = d.plk := by
  unfold Dev.muxTurn
  extract_lets pg old before d1 d2 d3 after
  have h3 : d3.plk = d.plk := (Dev.when_proj Dev.plk (fun e => e.put pg TDC.STS_ARMED 0) d1 _ fun _ => rfl).trans (h d)
  exact (Dev.each_proj Dev.plk _ (fun k e => Dev.ite_proj Dev.plk (e.plk_monReturn k _) rfl) _ d3).trans h3

/-- To connect the probe to a tap, a multiplexer turns; the monitors that lose their edges follow. -/
theorem Dev.plk_probeTo (d : Dev) (code : Nat) : (d.probeTo code).plk = d.plk :=
  Dev.ite_proj Dev.plk rfl (d.plk_muxTurn _ _ fun _ => Dev.ite_proj Dev.plk rfl rfl)

end Sys2Proof.Machine
end

section
/-! PROOF. The Ethernet ports' traffic, the host rings and the port timestamp units (O50). -/

namespace Sys2Proof.Machine

/-! Frames and pauses (R200, R201, R205). -/

theorem frameRx_completes (s : State) (p : Fin 24) (hup : s.dev.portUpQ p = true) (f : RxFrame) :
    exec (.frameRx p f) s = .next (s.withDev (s.dev.rxFrame p f)) := by
  show execFrameRx p f s = _
  rw [execFrameRx, State.run_eq, if_neg (by rw [hup]; decide)]

/-- The transmitter's turn begins a frame on a port that is UP, and ends its work on one that is not. -/
theorem frameTx_completes (s : State) (p : Fin 24) :
    let d := s.dev.launched p
    (d.portUpQ p = true → exec (.frameTx p) s = .next (s.withDev (d.txTurn p))) ∧ (d.portUpQ p = false → exec (.frameTx p) s = .next (s.withDev (d.txEnd p))) := by
  intro d
  change (_ → execFrameTx p s = _) ∧ (_ → execFrameTx p s = _)
  rw [execFrameTx, State.run_eq]
  exact ⟨fun hup => by rw [if_neg (by rw [hup]; decide)], fun hdown => by rw [if_pos (by rw [hdown]; rfl)]⟩

theorem pauseExpiry_completes (s : State) (p : Fin 24) (t : Nat) (hpaused : s.dev.port[p].paused = some t) (ht : t ≤ s.dev.now) :
    exec (.pauseExpiry p) s = .next (s.withDev ((s.dev.upPort p fun e => { e with paused := none }).timer 0 (.frameTx p))) := by
  show execPauseExpiry p s = _
  rw [execPauseExpiry, State.run_eq, if_pos (by rw [hpaused]; exact decide_eq_true ht)]

/-! The host rings (R209, R212, R213). -/

theorem hostRxWrite_completes (s : State) (p : Fin 24) (sTci cTci : Option Nat) (data : List Nat) (mec : Nat) (hup : s.dev.on Pg.hif HIF.STS_LINK_UP = true) :
    exec (.hostRxWrite p sTci cTci data mec) s = .next (s.withDev (s.dev.hostRxPut p sTci cTci data mec)) := by
  show execHostRxWrite p sTci cTci data mec s = _
  rw [execHostRxWrite, State.run_eq, if_neg (by rw [hup]; decide)]

theorem htxWpWrite_completes (s : State) (p : Fin 24) (m : Master) (v : Nat) (h : Served s m (ppg p) 0x1A4) :
    exec (.htxWpWrite m p v) s = .next (s.withDev ((s.took m (ppg p) 0x1A4 v).storeReg (ppg p) 0x1A4 v)) := State.run_writeStore h v id

/-- A ring with frames whose rate is not 0 gives its next frame. -/
theorem Dev.htx_serves {d : Dev} {p : Fin 24} (hne : d.htxEmpty p = false) (hrate : d.get (ppg p) PORT.HOST_RATE_RATE ≠ 0) :
    ¬ (d.htxEmpty p || d.get (ppg p) PORT.HOST_RATE_RATE == 0) = true := by
  rw [hne, beq_false_of_ne hrate]
  decide

/-- A frame too short for its addresses and type is discarded. -/
theorem hostTxFrame_short (s : State) (p : Fin 24) (data : List Nat) (hne : s.dev.htxEmpty p = false) (hrate : s.dev.get (ppg p) PORT.HOST_RATE_RATE ≠ 0)
    (hlen : data.length < 14) (tag : Bool) : exec (.hostTxFrame p tag data) s = .next (s.withDev ((s.dev.stat p 59).htxDone p)) := by
  show execHostTxFrame p tag data s = _
  rw [execHostTxFrame, State.run_eq, if_neg (Dev.htx_serves hne hrate), if_pos (.inl hlen)]

/-- Any other is queued at level 3 on a port that is UP; without the tag operation it carries no tag of its own. -/
theorem hostTxFrame_queued (s : State) (p : Fin 24) (data : List Nat) (hne : s.dev.htxEmpty p = false) (hrate : s.dev.get (ppg p) PORT.HOST_RATE_RATE ≠ 0)
    (hlen : 14 ≤ data.length) (hup : s.dev.portUpQ p = true) : exec (.hostTxFrame p false data) s = .next (s.withDev (s.dev.txPush p
      { kind := .host, level := 3, cls := 9, len := data.length + 4, released := s.dev.now, dst := unoct (data.take 6).reverse,
        mcast := (data.headD 0 % 2 == 1), sTci := none, cTci := none, fields := data })) := by
  have hfit : ¬ (data.length < 14 ∨ (!s.dev.portUpQ p) = true) := by
    rw [hup]
    exact not_or.mpr ⟨Nat.not_lt_of_le hlen, by decide⟩
  show execHostTxFrame p false data s = _
  rw [execHostTxFrame, State.run_eq, if_neg (Dev.htx_serves hne hrate), if_neg hfit]
  rfl

/-- The rings' registers take what is written while the rate is 0. -/
theorem ringConfigWrite_completes (s : State) (p : Fin 24) (m : Master) (off v : Nat) (hg : s.dev.gate m (ppg p) off = .served)
    (hrate : s.dev.get (ppg p) PORT.HOST_RATE_RATE = 0) :
    exec (.ringConfigWrite m p off v) s = .next (s.withDev ((s.took m (ppg p) off v).storeReg (ppg p) off v)) := by
  show execRingConfigWrite m p off v s = _
  rw [execRingConfigWrite, State.run_eq, Dev.writeOr_served hg, if_pos (beq_iff_eq.mpr hrate)]

/-! The probe (R225, R229). -/

/-- The probe's measure is taken once its tap has been connected for a dwell, and not before. -/
theorem probeDwell_completes (s : State) (t : Fin 25) (eps : Int) :
    (s.dev.dwelt t.val = true → exec (.probeDwell t eps) s = .next (s.withDev (s.dev.probeDone t eps))) ∧
    (s.dev.dwelt t.val = false → exec (.probeDwell t eps) s = .next s) := by
  change (_ → execProbeDwell t eps s = _) ∧ (_ → execProbeDwell t eps s = _)
  rw [execProbeDwell, State.run_eq]
  refine ⟨fun hd => by rw [if_pos hd], fun hd => ?_⟩
  rw [if_neg (by rw [hd]; decide)]
  rfl

theorem probeStale_completes (s : State) (p : Fin 24) (hold : s.dev.probeOld p = true) (hseen : s.dev.pts[p].probeAt.isSome = true) :
    exec (.probeStale p) s = .next (s.withDev ((s.dev.ptsBound p).int (tpg p) 3)) := by
  show execProbeStale p s = _
  rw [execProbeStale, State.run_eq, if_pos (by rw [hold, hseen]; rfl)]

/-! Calibration slots of the ports (R226). -/

theorem calSlotStart_port (s : State) (p : Fin 24) : exec (.calSlotStart p.castSucc) s = .next (s.withDev (s.dev.slotAsk p)) := by
  show execCalSlotStart p.castSucc s = _
  rw [execCalSlotStart, State.run_eq]
  simp only [Fin.val_castSucc, p.isLt, dif_pos]

/-- A slot that is asked for begins where the probe is free and has been long enough, and is remembered while another runs. -/
theorem calSlotStart_completes (s : State) (p : Fin 24) (hslot : s.dev.pts[p].slot = none)
    (hask : s.dev.pts[p].due = true ∨ (s.dev.portUpQ p = true ∧ s.dev.slotDue p = true)) :
    (s.dev.slotRuns = false → s.dev.tdcs.slotFree ≤ s.dev.stepFree 0 → exec (.calSlotStart p.castSucc) s = .next (s.withDev (s.dev.slotBegin p))) ∧
    (s.dev.slotRuns = true → exec (.calSlotStart p.castSucc) s = .next (s.withDev (s.dev.upPts p fun e => { e with due := true }))) := by
  have hasked : ¬ (s.dev.pts[p].slot.isSome || !(s.dev.pts[p].due || (s.dev.portUpQ p && s.dev.slotDue p))) = true := by
    obtain hdue | ⟨hup, hper⟩ := hask
    · rw [hslot, hdue, Bool.true_or]; decide
    · rw [hslot, hup, hper, Bool.and_self, Bool.or_true]; decide
  rw [calSlotStart_port, Dev.slotAsk, if_neg hasked]
  refine ⟨fun hidle hfree => ?_, fun hruns => ?_⟩
  · rw [hidle, if_neg (by rw [Bool.false_or, decide_eq_true_eq]; exact Int.not_lt.mpr hfree)]
  · rw [hruns, if_pos (Bool.true_or _)]
    rfl

/-- The measure of a slot is kept from its tail on, and its end takes it up. -/
theorem calSlotEnd_completes (s : State) (p : Fin 24) (align : Bool) (a b : Nat) (hslot : s.dev.pts[p].slot = some (align, a, b)) :
    (∀ x : LoopMeas, b ≤ s.dev.now + slotTail (s.dev.portRate p) →
      exec (.calSlotEnd p.castSucc (some x)) s = .next (s.withDev (s.dev.upPts p fun e => { e with meas := some x }))) ∧
    (b ≤ s.dev.now → exec (.calSlotEnd p.castSucc none) s = .next (s.withDev (s.dev.slotFinish p align))) := by
  have hend (x : Option LoopMeas) : exec (.calSlotEnd p.castSucc x) s = .next (s.withDev
      (s.dev.slotTold (s.dev.portRate p) b x (fun m => s.dev.upPts p fun e => { e with meas := some m }) (s.dev.slotFinish p align))) := by
    show execCalSlotEnd p.castSucc x s = _
    rw [execCalSlotEnd, State.run_eq]
    simp only [Fin.val_castSucc, p.isLt, dif_pos, Fin.eta, hslot]
  exact ⟨fun x hb => by rw [hend, Dev.slotTold, if_pos hb], fun hb => by rw [hend, Dev.slotTold, if_pos hb]⟩

/-! Calibration slots of the link between the dies (R410). -/

/-- The slot begins: it stands from now to its end, and is no longer due. -/
theorem calSlotStart_lane (s : State) (hslot : s.dev.plk.slot = none) (hdue : s.dev.plk.due = true) (hidle : s.dev.slotRuns = false)
    (hfree : s.dev.tdcs.slotFree ≤ s.dev.stepFree 0) :
    ∃ t, exec (.calSlotStart 24) s = .next t ∧ t.dev.plk.slot = some (s.dev.now, s.dev.now + slotTicks 2) ∧ t.dev.plk.due = false := by
  have hbegins : s.dev.laneSlotAsk = ({ s.dev with plk := { s.dev.plk with due := false, meas := none, slot := some (s.dev.now, s.dev.now + slotTicks 2) } }.probeTo (tapCode 24)).timer
      (slotTicks 2) (.calSlotEnd 24 none) := by
    rw [Dev.laneSlotAsk, if_neg (by rw [hslot, hdue]; decide), hidle, if_neg (by rw [Bool.false_or, decide_eq_true_eq]; exact Int.not_lt.mpr hfree)]
  have hplk : s.dev.laneSlotAsk.plk = { s.dev.plk with due := false, meas := none, slot := some (s.dev.now, s.dev.now + slotTicks 2) } := by
    rw [hbegins, Dev.plk_timer, Dev.plk_probeTo]
  refine ⟨s.withDev s.dev.laneSlotAsk, rfl, ?_, ?_⟩
  · exact congrArg PlkEng.slot hplk
  · exact congrArg PlkEng.due hplk

theorem calSlotEnd_lane (s : State) (a b : Nat) (hslot : s.dev.plk.slot = some (a, b)) (hb : b ≤ s.dev.now) :
    exec (.calSlotEnd 24 none) s = .next (s.withDev s.dev.laneSlotFinish) := by
  show execCalSlotEnd 24 none s = _
  rw [execCalSlotEnd, State.run_eq, dif_neg (by decide), hslot]
  dsimp only
  rw [Dev.slotTold, if_pos hb]

/-! The commands and registers of a port's timestamp unit (R224, R226, R233). -/

/-- CAL_NOW asks for a slot where none runs or is due. -/
theorem ptsCalNow_completes (s : State) (p : Fin 24) (m : Master) (h : Served s m (tpg p) 0x108) :
    let d := s.took m (tpg p) 0x108 1
    d.pts[p].slot = none → d.pts[p].due = false → exec (.ptsCalNow m p) s = .next (s.withDev (d.upPts p fun e => { e with called := true })) := by
  intro d hslot hdue
  refine (State.run_write h 1 _).trans ?_
  rw [if_neg (by rw [hslot, hdue]; decide)]

theorem qFlush_completes (s : State) (p : Fin 24) (m : Master) (h : Served s m (tpg p) 0x108) :
    exec (.qFlush m p) s = .next (s.withDev (((s.took m (tpg p) 0x108 2).upPts p fun e => { e with queue := [] }).ptsShow p)) := State.run_write h 2 _

/-- A served POP with its bit set takes the head off and shows the new head. -/
theorem ptsPop_completes (s : State) (p : Fin 24) (m : Master) (v : Nat) (h : Served s m (tpg p) 0x324) (hv : bit v 0 = true) :
    exec (.ptsPop m p v) s = .next (s.withDev (((s.took m (tpg p) 0x324 v).upPts p fun e => { e with queue := e.queue.drop 1 }).ptsShow p)) := by
  refine (State.run_write h v _).trans ?_
  rw [if_pos hv]

theorem ptsDelayWrite_completes (s : State) (p : Fin 24) (m : Master) (off v : Nat) (h : Served s m (tpg p) off) :
    exec (.ptsDelayWrite m p off v) s = .next (s.withDev ((s.took m (tpg p) off v).storeReg (tpg p) off v)) := State.run_writeStore h v id

/-- Settles O50: command by command; a host frame by its length. -/
theorem portTrafficCommandsComplete : Obligations.PortTrafficCommandsComplete := by
  unfold Obligations.PortTrafficCommandsComplete
  exact fun s p => ⟨frameRx_completes s p, frameTx_completes s p, pauseExpiry_completes s p, hostRxWrite_completes s p, htxWpWrite_completes s p,
    fun data hne hrate => ⟨hostTxFrame_short s p data hne hrate, hostTxFrame_queued s p data hne hrate⟩, ringConfigWrite_completes s p, probeDwell_completes s,
    probeStale_completes s p, calSlotStart_completes s p, calSlotEnd_completes s p, calSlotStart_lane s, calSlotEnd_lane s,
    fun m h => ⟨ptsCalNow_completes s p m h, qFlush_completes s p m h⟩, ptsPop_completes s p, ptsDelayWrite_completes s p⟩

end Sys2Proof.Machine
end

section
/-! PROOF. Every command keeps the canonical form of the client store (O4, O5). -/

namespace Sys2Proof.Machine

/-! Operations on the store. -/

/-- What keeps the form at each element of a list keeps it along the list. -/
theorem Memory.wf_foldl {α : Type} (f : Words × Dev → α → Words × Dev) (hf : ∀ r x, Memory.wf r.1 = true → Memory.wf (f r x).1 = true) (l : List α) (r : Words × Dev)
    (h : Memory.wf r.1 = true) : Memory.wf (l.foldl f r).1 = true := by
  induction l generalizing r with
  | nil => exact h
  | cons x l ih => exact ih _ (hf r x h)

/-- The same, for a fold over the words alone. -/
theorem Memory.wf_foldlWords {α : Type} (f : Words → α → Words) (hf : ∀ st x, Memory.wf st = true → Memory.wf (f st x) = true) (l : List α) (st : Words)
    (h : Memory.wf st = true) : Memory.wf (l.foldl f st) = true := by
  induction l generalizing st with
  | nil => exact h
  | cons x l ih => exact ih _ (hf st x h)

theorem Memory.wf_ite {c : Prop} [Decidable c] {a b : Words × Dev} (ha : Memory.wf a.1 = true) (hb : Memory.wf b.1 = true) : Memory.wf (if c then a else b).1 = true := by
  split
  · exact ha
  · exact hb

/-! The responder (R245 to R258). -/

theorem Memory.wf_dropIt (r : Words × Dev) (p : Fin 24) (cls cnt : Nat) (entry : Option Nat) (h : Memory.wf r.1 = true) : Memory.wf (dropIt r p cls cnt entry).1 = true := by
  unfold dropIt
  dsimp only
  split
  · exact Memory.wf_countDrop _ _ h
  · exact h

theorem Memory.wf_noteReserved (r : Words × Dev) (p : Fin 24) (x : DreqIn) (entry : Option Nat) (h : Memory.wf r.1 = true) : Memory.wf (noteReserved r p x entry).1 = true := by
  unfold noteReserved
  split
  · exact h
  · split
    · exact Memory.wf_setFld _ _ _ _ h
    · exact h

/-- A Delay_Req drops, is noted, or leaves the store alone. -/
theorem Memory.wf_delayReq (r : Words × Dev) (p : Fin 24) (x : DreqIn) (h : Memory.wf r.1 = true) : Memory.wf (delayReq r p x).1 = true := by
  have hdrop (d : Dev) (cnt : Nat) (entry : Option Nat) : Memory.wf (dropIt (r.1, d) p 0 cnt entry).1 = true := Memory.wf_dropIt _ _ _ _ _ h
  have hnote (c : Bool) (d : Dev) (entry : Option Nat) : Memory.wf (if c then noteReserved (r.1, d) p x entry else (r.1, d)).1 = true :=
    Memory.wf_ite (Memory.wf_noteReserved _ _ _ _ h) h
  unfold delayReq
  dsimp only
  refine Memory.wf_ite h (Memory.wf_ite (hdrop _ _ _) (Memory.wf_ite h (Memory.wf_ite (hdrop _ _ _) ?_)))
  split
  · exact hdrop _ _ _
  · refine Memory.wf_ite (hdrop _ _ _) (Memory.wf_ite (hdrop _ _ _) (Memory.wf_ite (hdrop _ _ _) (Memory.wf_ite (hdrop _ _ _) ?_)))
    split
    · exact hdrop _ _ _
    · split
      · exact hnote _ _ _
      · exact hnote _ _ _

theorem Memory.wf_negoGrant (g : Nego) (dom : Fin 8) (i : Nat) (msg : Fin 3) (log : Int) (dur : Nat) (new : Bool) (h : Memory.wf g.s = true) :
    Memory.wf (g.grant dom i msg log dur new).s = true := by
  have hs (sec dd : Nat) : Memory.wf ((((g.s.setFld i eState entActive).setFld i eGranted (g.s.fld i eGranted ||| 1 <<< msg.val)).setFld i (eLog msg) (unsgn 4 log)).setFld i (eExp msg)
      ((sec + dd) % 2 ^ 21)) = true := Memory.wf_setFld _ _ _ _ (Memory.wf_setFld _ _ _ _ (Memory.wf_setFld _ _ _ _ (Memory.wf_setFld _ _ _ _ h)))
  unfold Nego.grant
  dsimp only
  split
  · exact hs _ _
  · split
    · exact Memory.wf_setFld _ _ _ _ (hs _ _)
    · split
      · exact Memory.wf_setFld _ _ _ _ (hs _ _)
      · exact hs _ _

theorem Memory.wf_zeroEntry (s : Words) (i : Nat) (h : Memory.wf s = true) : Memory.wf ((List.range 8).foldl (fun (s : Words) w => s.setWord (8 * i + w) 0) s) = true :=
  Memory.wf_foldlWords _ (fun _ _ hs => Memory.wf_setWord _ _ _ hs) _ _ h

/-- One TLV of a Signaling message removes a grant, takes one up, or is denied. -/
theorem Memory.wf_negoTlv (p : Fin 24) (x : SigIn) (g : Nego) (t : SigTlv) (h : Memory.wf g.s = true) : Memory.wf (Nego.tlv p x g t).s = true := by
  cases t with
  | cancel msg =>
    rw [Nego.tlv]
    dsimp only
    split
    · exact Memory.wf_dropGrant _ _ _ h
    · exact h
  | request msg log dur =>
    rw [Nego.tlv]
    extract_lets old same g1 d1 ann k g2
    have h1 : Memory.wf g1.s = true := by
      dsimp only [g1, old]
      split
      · split
        · exact h
        · exact Memory.wf_setFld _ _ _ _ h
      · exact h
    have h2 : Memory.wf g2.s = true := by
      dsimp only [g2]
      split
      · exact h1
      · split
        · repeat' refine Memory.wf_setFld _ _ _ _ ?_
          exact Memory.wf_zeroEntry _ _ h1
        · exact h1
    split
    · exact h
    · split
      · exact h1
      · split
        · split
          · split
            · exact Memory.wf_negoGrant _ _ _ _ _ _ _ h1
            · exact h1
          · exact h1
        · split
          · exact h2
          · split
            · exact Memory.wf_negoGrant _ _ _ _ _ _ _ h2
            · exact h2

theorem Memory.wf_negoTlvs (p : Fin 24) (x : SigIn) (l : List SigTlv) (g : Nego) (h : Memory.wf g.s = true) : Memory.wf (l.foldl (Nego.tlv p x) g).s = true := by
  induction l generalizing g with
  | nil => exact h
  | cons t l ih => exact ih _ (Memory.wf_negoTlv p x g t h)

theorem Memory.wf_sigAnswer (r : Words × Dev) (p : Fin 24) (x : SigIn) (auth : Option (Nat × List Nat)) (h : Memory.wf r.1 = true) : Memory.wf (sigAnswer r p x auth).1 = true := by
  unfold sigAnswer
  extract_lets d entry g tags q num len f
  have hg : Memory.wf g.s = true := Memory.wf_negoTlvs p x x.tlvs _ h
  have hq : Memory.wf q.1 = true := by
    dsimp only [q]
    split
    · exact Memory.wf_ite (Memory.wf_freeEntry _ _ hg) hg
    · exact hg
  exact Memory.wf_ite (Memory.wf_dropIt _ _ _ _ _ h) (Memory.wf_ite h (Memory.wf_ite h hq))

/-- A Signaling message drops, waits, goes to a lane, or is answered. -/
theorem Memory.wf_signaling (r : Words × Dev) (p : Fin 24) (x : SigIn) (h : Memory.wf r.1 = true) : Memory.wf (signaling r p x).1 = true := by
  have hdrop (d : Dev) (cnt : Nat) (entry : Option Nat) : Memory.wf (dropIt (r.1, d) p 1 cnt entry).1 = true := Memory.wf_dropIt _ _ _ _ _ h
  unfold signaling
  dsimp only
  refine Memory.wf_ite h (Memory.wf_ite (hdrop _ _ _) (Memory.wf_ite (Memory.wf_ite h h) ?_))
  split
  · exact hdrop _ _ _
  · refine Memory.wf_ite (hdrop _ _ _) (Memory.wf_ite (hdrop _ _ _) ?_)
    split
    · exact hdrop _ _ _
    · split
      · exact h
      · exact Memory.wf_sigAnswer _ _ _ _ h

/-- The expiries that the wheel finds in an entry. -/
theorem Memory.wf_expire (slot i : Nat) (r : Words × Dev) (t : Nat) (h : Memory.wf r.1 = true) :
    Memory.wf (if r.1.granted i t && decide (0 < (slot / 65536 % 2 ^ 21 + 2 ^ 21 - r.1.fld i (eExp t)) % 2 ^ 21 ∧ (slot / 65536 % 2 ^ 21 + 2 ^ 21 - r.1.fld i (eExp t)) % 2 ^ 21 < 2 ^ 20)
      then dropGrant (r.1, r.2.rspCount cntExpired) i t else r).1 = true :=
  Memory.wf_ite (Memory.wf_dropGrant _ _ _ h) h

/-- The wheel's visit frees an entry, or removes what has expired and moves what is due. -/
theorem Memory.wf_visit (slot : Nat) (r : Words × Dev) (i : Nat) (h : Memory.wf r.1 = true) : Memory.wf (visit slot r i).1 = true := by
  unfold visit
  extract_lets d d' r' s k p x lock r''
  have h' : Memory.wf r'.1 = true := Memory.wf_ite (Memory.wf_foldl _ (fun r t => Memory.wf_expire slot i r t) _ _ h) h
  have h'' : Memory.wf r''.1 = true := by
    dsimp only [r'']
    split
    · exact Memory.wf_setFld _ _ _ _ (Memory.wf_setFld _ _ _ _ h')
    · exact h'
  refine Memory.wf_ite (Memory.wf_freeEntry _ _ (Memory.wf_setFld _ _ _ _ h)) (Memory.wf_ite h' ?_)
  split
  · exact Memory.wf_setFld _ _ _ _ (Memory.wf_setFld _ _ _ _ h'')
  · exact h''

theorem Memory.wf_wheel (slot : Nat) (r : Words × Dev) (h : Memory.wf r.1 = true) : Memory.wf (wheel slot r).1 = true :=
  Memory.wf_ite (Memory.wf_foldl _ (Memory.wf_visit slot) _ _ h) h

theorem Memory.wf_domDrop (q : Words × Dev) (k : Nat) (h : Memory.wf q.1 = true) : Memory.wf (domDrop q k).1 = true := by
  unfold domDrop
  dsimp only
  exact Memory.wf_releaseAll q _ h

theorem Memory.wf_domRecount (changed : Bool) (q : Words × Dev) (h : Memory.wf q.1 = true) : Memory.wf (domRecount changed q).1 = true := Memory.wf_ite h h

/-! Lanes and the mirror (R302, R411, R412). -/

theorem Memory.wf_laneAnswer (r : Words × Dev) (n : Fin 16) (o : LaneOp) (h : Memory.wf r.1 = true) : Memory.wf (laneAnswer r n o).1 = true := by
  unfold laneAnswer
  split
  · exact Memory.wf_ite h (Memory.wf_dropIt _ _ _ _ _ h)
  · exact Memory.wf_ite (Memory.wf_sigAnswer _ _ _ _ h) (Memory.wf_dropIt _ _ _ _ _ h)
  · exact h
  · exact h

theorem Memory.wf_laneDone (r : Words × Dev) (n : Fin 16) (o : LaneOp) (q : List LaneOp) (h : Memory.wf r.1 = true) : Memory.wf (laneDone r n o q).1 = true :=
  Memory.wf_laneAnswer _ _ _ h

theorem Memory.wf_unlockMirrored (st : Words) (l : List Nat) (h : Memory.wf st = true) : Memory.wf (unlockMirrored st l) = true :=
  Memory.wf_foldlWords _ (fun _ _ hs => Memory.wf_setFld _ _ _ _ hs) _ _ h

theorem Memory.wf_claimDone (q : Words × Dev) (h : Memory.wf q.1 = true) : Memory.wf (claimDone q).1 = true := Memory.wf_unlockMirrored _ _ h

theorem Memory.wf_mirrorFields (st : Words) (i port : Nat) (x : MirrorEntry) (sf : Int) (h : Memory.wf st = true) : Memory.wf (mirrorFields st i port x sf) = true :=
  Memory.wf_foldlWords _ (fun _ _ hs => Memory.wf_setFld _ _ _ _ (Memory.wf_setFld _ _ _ _ hs)) _ _
    (Memory.wf_foldlWords _ (fun _ _ hs => Memory.wf_setFld _ _ _ _ hs) _ _ h)

theorem Memory.wf_mirrorTake (r : Words × Dev) (m : KwgHead) (x : MirrorEntry) (h : Memory.wf r.1 = true) : Memory.wf (mirrorTake r m x).1 = true := by
  unfold mirrorTake
  extract_lets d port key here elapsed sf old
  clear_value here
  refine Memory.wf_ite h (Memory.wf_ite ?_ ?_)
  · cases here with
    | some i =>
      dsimp only
      exact Memory.wf_freeEntry _ _ (Memory.wf_setFld _ _ _ _ h)
    | none => exact h
  · cases here with
    | some i =>
      dsimp only
      exact Memory.wf_mirrorFields _ _ _ _ _ h
    | none =>
      cases d.freeWay r.1 key with
      | some i =>
        dsimp only
        exact Memory.wf_mirrorFields _ _ _ _ _ h
      | none => exact h

/-! The store's own states, units and the scheduler (R286 to R288, R380 to R388). -/

theorem Memory.wf_brineOut (r : Words × Dev) (h : Memory.wf r.1 = true) : Memory.wf (brineOut r).1 = true :=
  Memory.wf_ite Memory.wf_nil (Memory.wf_ite h (Memory.wf_ite (Memory.wf_releaseAll _ _ h) h))

theorem Memory.wf_storeOff (r : Words × Dev) : Memory.wf (storeOff r).1 = true := Memory.wf_nil

theorem Memory.wf_unitOff (r : Words × Dev) (kind inst : Nat) (h : Memory.wf r.1 = true) : Memory.wf (unitOff r kind inst).1 = true :=
  Memory.wf_ite (Memory.wf_ite h (Memory.wf_storeOff r)) h

theorem Memory.wf_revoke (r : Words × Dev) (u : PwrUnit) (h : Memory.wf r.1 = true) : Memory.wf (revoke r u).1 = true := Memory.wf_unitOff _ _ _ h

theorem Memory.wf_revokes (l : List PwrUnit) (r : Words × Dev) (h : Memory.wf r.1 = true) : Memory.wf (l.foldl revoke r).1 = true := Memory.wf_foldl _ Memory.wf_revoke _ _ h

theorem Memory.wf_setCap (r : Words × Dev) (v : Nat) (h : Memory.wf r.1 = true) : Memory.wf (setCap r v).1 = true :=
  Memory.wf_ite (Memory.wf_revokes _ _ h) (Memory.wf_revokes _ _ h)

theorem Memory.wf_capDown (r : Words × Dev) (h : Memory.wf r.1 = true) : Memory.wf (capDown r).1 = true := Memory.wf_ite (Memory.wf_setCap _ _ h) h

theorem Memory.wf_capUp (r : Words × Dev) (h : Memory.wf r.1 = true) : Memory.wf (capUp r).1 = true := Memory.wf_ite (Memory.wf_setCap _ _ h) h

theorem Memory.wf_takeCap (r : Words × Dev) (h : Memory.wf r.1 = true) : Memory.wf (takeCap r).1 = true := Memory.wf_ite h (Memory.wf_setCap _ _ h)

theorem Memory.wf_followWants (r : Words × Dev) (h : Memory.wf r.1 = true) : Memory.wf (followWants r).1 = true :=
  Memory.wf_foldl _ (fun _ _ hr => Memory.wf_ite (Memory.wf_unitOff _ _ _ hr) hr) _ _ h

theorem Memory.wf_admitOne (r : Words × Dev) (u : PwrUnit) (h : Memory.wf r.1 = true) : Memory.wf (admitOne r u).1 = true := by
  unfold admitOne
  refine Memory.wf_ite h (Memory.wf_ite h ?_)
  split
  · exact Memory.wf_revokes _ _ h
  · exact h

theorem Memory.wf_admitAll (r : Words × Dev) (h : Memory.wf r.1 = true) : Memory.wf (admitAll r).1 = true := Memory.wf_foldl _ Memory.wf_admitOne _ _ h

theorem Memory.wf_thermalJudge (r : Words × Dev) (core analog portA portB : Int) (mw : Nat) (h : Memory.wf r.1 = true) :
    Memory.wf (thermalJudge r core analog portA portB mw).1 = true := by
  unfold thermalJudge
  extract_lets st d0 pg t d1 d2 throt hot cool was d3 d4 d5 d6
  clear_value d6 hot was
  exact Memory.wf_ite (Memory.wf_capDown (st, _) h) h

theorem Memory.wf_caveStoreDown (q : Words × Dev) (h : Memory.wf q.1 = true) : Memory.wf (caveStoreDown q).1 = true := by
  unfold caveStoreDown
  dsimp only
  refine Memory.wf_revokes _ _ ?_
  split
  · exact h
  · split
    · exact h
    · exact Memory.wf_storeOff _

theorem Memory.wf_caveDark (q : Words × Dev) (h : Memory.wf q.1 = true) : Memory.wf (caveDark q).1 = true := by
  unfold caveDark
  dsimp only
  exact Memory.wf_revokes _ _ h

/-! Resets and the boot (R17 to R20, R416, R443). -/

theorem Memory.wf_softPage (r : Words × Dev) (pg : Nat) (region : Bool) (h : Memory.wf r.1 = true) : Memory.wf (softPage r pg region).1 = true := by
  have hunit (q : Words × Dev) (u : PwrUnit) (hq : Memory.wf q.1 = true) : Memory.wf (unitOff (q.1, q.2.setUnit u.kind u.inst none) u.kind u.inst).1 = true :=
    Memory.wf_unitOff _ _ _ hq
  unfold softPage
  dsimp only
  split
  · exact Memory.wf_foldl _ hunit _ r h
  · split
    · exact Memory.wf_storeOff r
    · exact h

theorem Memory.wf_regionBegin (q : Words × Dev) (r : Region) (h : Memory.wf q.1 = true) : Memory.wf (regionBegin q r).1 = true := by
  have hpage (q : Words × Dev) (pg : Nat) (hq : Memory.wf q.1 = true) : Memory.wf (softPage q pg true).1 = true := Memory.wf_softPage q pg true hq
  unfold regionBegin
  dsimp only
  exact Memory.wf_foldl _ hpage _ _ h

theorem Memory.wf_regionAsk (q : Words × Dev) (r : Region) (h : Memory.wf q.1 = true) : Memory.wf (regionAsk q r).1 = true := Memory.wf_ite h (Memory.wf_regionBegin _ _ h)

theorem Memory.wf_dieAsk (q : Words × Dev) (n : Fin 2) (h : Memory.wf q.1 = true) : Memory.wf (dieAsk q n).1 = true := Memory.wf_ite h (Memory.wf_regionBegin _ _ h)

theorem Memory.wf_packageBegin (q : Words × Dev) (held : Bool) : Memory.wf (packageBegin q held).1 = true := Memory.wf_nil

theorem Memory.wf_pageCtl (r : Words × Dev) (m : Master) (pg v : Nat) (h : Memory.wf r.1 = true) : Memory.wf (pageCtl r m pg v).1 = true := by
  unfold pageCtl
  split
  · refine Memory.wf_ite ?_ h
    split
    · exact h
    · exact Memory.wf_softPage _ _ _ h
  · exact h

theorem Memory.wf_rstCmd (r : Words × Dev) (m : Master) (key target op : Nat) (eff : Words × Dev → Words × Dev) (he : ∀ q, Memory.wf q.1 = true → Memory.wf (eff q).1 = true)
    (h : Memory.wf r.1 = true) : Memory.wf (rstCmd r m key target op eff).1 = true := by
  unfold rstCmd
  split
  · exact Memory.wf_ite (he _ h) h
  · exact h

/-! Commands. -/

/-- The outcome of a command on a state is a next state whose store has its form where the store of that state has. -/
def KeepsForm (s : State) (o : Host.Outcome State Fault Refusal) : Prop :=
  ∃ t, o = .next t ∧ (Memory.wf s.store = true → Memory.wf t.store = true)

theorem KeepsForm.of_same {s t : State} {o : Host.Outcome State Fault Refusal} (ho : o = .next t) (h : t.store = s.store) : KeepsForm s o :=
  ⟨t, ho, fun hs => h ▸ hs⟩

theorem State.keepsForm_run (s : State) (f : Dev → Dev) : KeepsForm s (s.run f) := .of_same rfl rfl

theorem State.keepsForm_runStore (s : State) (f : Words → Dev → Words × Dev) (h : Memory.wf s.store = true → Memory.wf (f s.store s.dev).1 = true) : KeepsForm s (s.runStore f) :=
  ⟨_, rfl, h⟩

theorem State.keepsForm_runReset (s : State) (f : Words → Dev → Words × Dev) (h : Memory.wf s.store = true → Memory.wf (f s.store s.dev).1 = true) : KeepsForm s (s.runReset f) :=
  ⟨_, rfl, h⟩

theorem KeepsForm.of_withStore {s : State} {o : Host.Outcome State Fault Refusal} {r : Words × Dev} (ho : o = .next (s.withStore r))
    (h : Memory.wf s.store = true → Memory.wf r.1 = true) : KeepsForm s o := ⟨_, ho, h⟩

theorem KeepsForm.of_withReset {s : State} {o : Host.Outcome State Fault Refusal} {r : Words × Dev} (ho : o = .next (s.withReset r))
    (h : Memory.wf s.store = true → Memory.wf r.1 = true) : KeepsForm s o := ⟨_, ho, h⟩

theorem KeepsForm.ite {s : State} {a b : Host.Outcome State Fault Refusal} (c : Prop) [Decidable c] (ha : KeepsForm s a) (hb : KeepsForm s b) : KeepsForm s (if c then a else b) := by
  split
  · exact ha
  · exact hb

/-- An answer on a state with the same store. -/
theorem KeepsForm.congr {s s' : State} {o : Host.Outcome State Fault Refusal} (h : KeepsForm s' o) (hs : s'.store = s.store) : KeepsForm s o := by
  unfold KeepsForm at h ⊢
  rwa [← hs]

theorem KeepsForm.next {s t : State} {o : Host.Outcome State Fault Refusal} (h : KeepsForm s o) (ho : o = .next t) (hs : Memory.wf s.store = true) : Memory.wf t.store = true := by
  obtain ⟨t', ho', ht⟩ := h
  rw [ho] at ho'
  cases ho'
  exact ht hs

/-- A second half that keeps the form leaves both halves keeping it. -/
theorem KeepsForm.andThen {s : State} {o : Host.Outcome State Fault Refusal} {f : State → Host.Outcome State Fault Refusal} (h : KeepsForm s o) (k : ∀ t, KeepsForm t (f t)) :
    KeepsForm s (andThen o f) := by
  obtain ⟨t, rfl, ht⟩ := h
  obtain ⟨u, hu, hk⟩ := k t
  exact ⟨u, hu, fun hs => hk (ht hs)⟩

/-! The commands that reach the store. -/

theorem execBrineExit_keepsForm (m : Master) (v : Nat) (s : State) : KeepsForm s (execBrineExit m v s) := s.keepsForm_runStore _ fun h => by
  split
  · exact Memory.wf_ite h (Memory.wf_brineOut _ h)
  · exact h

theorem execDomCtlWrite_keepsForm (m : Master) (k : Fin 8) (v : Nat) (s : State) : KeepsForm s (execDomCtlWrite m k v s) := s.keepsForm_runStore _ fun h => by
  refine Memory.wf_domRecount _ _ ?_
  split
  · exact h
  · exact Memory.wf_domDrop _ _ h

theorem execPageCtl_keepsForm (m : Master) (pg v : Nat) (s : State) : KeepsForm s (s.runStore fun st d => pageCtl (st, d) m pg v) :=
  s.keepsForm_runStore _ fun h => Memory.wf_pageCtl (s.store, s.dev) m pg v h

theorem execRegionCmd_keepsForm (m : Master) (key target : Nat) (s : State) : KeepsForm s (execRegionCmd m key target s) :=
  s.keepsForm_runStore _ fun h => Memory.wf_rstCmd _ _ _ _ _ _ (fun q hq => by
    split
    · exact Memory.wf_regionAsk _ _ hq
    · exact hq) h

theorem execDieCmd_keepsForm (m : Master) (key target : Nat) (s : State) : KeepsForm s (execDieCmd m key target s) :=
  s.keepsForm_runStore _ fun h => Memory.wf_rstCmd _ _ _ _ _ _ (fun _ hq => Memory.wf_ite (Memory.wf_dieAsk _ _ hq) (Memory.wf_ite (Memory.wf_dieAsk _ _ hq) hq)) h

theorem execPackageReset_keepsForm (m : Master) (key : Nat) (s : State) : KeepsForm s (execPackageReset m key s) :=
  s.keepsForm_runReset _ fun h => Memory.wf_rstCmd _ _ _ _ _ _ (fun q _ => Memory.wf_packageBegin q false) h

theorem execC4RegionReset_keepsForm (r : Region) (s : State) : KeepsForm s (execC4RegionReset r s) := s.keepsForm_runStore _ fun h => by
  dsimp only
  split
  · exact h
  · split
    · exact h
    · exact Memory.wf_regionAsk _ _ h

theorem execCryptoOp_keepsForm (n : Fin 16) (ok : Bool) (s : State) : KeepsForm s (execCryptoOp n ok s) := s.keepsForm_runStore _ fun h => by
  dsimp only
  split
  · exact h
  · exact Memory.wf_ite (Memory.wf_laneDone _ _ _ _ h) h

theorem execClaimWaitEnd_keepsForm (s : State) : KeepsForm s (execClaimWaitEnd s) := s.keepsForm_runStore _ fun h => Memory.wf_ite (Memory.wf_claimDone (s.store, s.dev) h) h

theorem execMirrorEntryRx_keepsForm (m : KwgHead) (x : MirrorEntry) (s : State) : KeepsForm s (execMirrorEntryRx m x s) := s.keepsForm_runStore _ fun h => by
  dsimp only
  split
  · exact Memory.wf_mirrorTake _ _ _ h
  · exact h

theorem execAdmissionCycle_keepsForm (s : State) : KeepsForm s (execAdmissionCycle s) := s.keepsForm_runStore _ fun h => by
  dsimp only
  exact Memory.wf_admitAll _ (Memory.wf_followWants _ (Memory.wf_takeCap _ h))

theorem execCapStep_keepsForm (s : State) : KeepsForm s (execCapStep s) := s.keepsForm_runStore _ fun h => by
  dsimp only
  split
  · exact Memory.wf_capDown _ h
  · split
    · exact Memory.wf_capUp _ h
    · exact h

theorem execCaveRevoke_keepsForm (s : State) : KeepsForm s (execCaveRevoke s) := s.keepsForm_runStore _ fun h => by
  dsimp only
  split
  · exact h
  · exact Memory.wf_revokes s.dev.caveGoes (s.store, s.dev.upPwr fun e => { e with left := none }) h

theorem execCaveStore_keepsForm (s : State) : KeepsForm s (execCaveStore s) := s.keepsForm_runStore _ fun h => by
  split
  · exact h
  · exact Memory.wf_caveStoreDown _ h

theorem execCaveEntered_keepsForm (s : State) : KeepsForm s (execCaveEntered s) := s.keepsForm_runStore _ fun h => by
  split
  · exact h
  · exact Memory.wf_caveDark _ h

theorem execWheelSlot_keepsForm (s : State) : KeepsForm s (execWheelSlot s) := s.keepsForm_runStore _ fun h => by
  dsimp only
  split
  · exact h
  · exact Memory.wf_wheel _ _ h

theorem execPkgRstN_keepsForm (s : State) : KeepsForm s (execPkgRstN s) := s.keepsForm_runReset _ fun h => by
  split
  · exact h
  · split
    · exact h
    · exact Memory.wf_packageBegin _ _

theorem execCopyDone_keepsForm (s : State) : KeepsForm s (execCopyDone s) := s.keepsForm_runReset _ fun h => by
  dsimp only
  repeat' split
  · exact h
  · exact h
  · exact h
  · exact Memory.wf_packageBegin _ _
  · exact Memory.wf_packageBegin _ _
  · exact h

/-! Register accesses: PAGE_CTL, GLB_RST_CMD, CST_CTL and RSP_DOMd_CTL alone reach the store. -/

theorem routeHeader_keepsForm (m : Master) (pg off v : Nat) (s : State) : KeepsForm s (routeHeader m pg off v s) := by
  unfold routeHeader
  dsimp only
  refine .ite _ (.ite _ (execPageCtl_keepsForm ..) (execPageCtl_keepsForm ..)) ?_
  repeat' with_reducible apply KeepsForm.ite
  all_goals exact .of_same rfl rfl

theorem routeGlobal_keepsForm (m : Master) (pg off v : Nat) (s : State) : KeepsForm s (routeGlobal m pg off v s) := by
  unfold routeGlobal
  dsimp only
  refine .ite _ (.ite _ (.ite _ (execRegionCmd_keepsForm ..) (.ite _ (execDieCmd_keepsForm ..) (.ite _ (execPackageReset_keepsForm ..) ?_))) ?_) ?_
  all_goals
    repeat' with_reducible apply KeepsForm.ite
    all_goals exact .of_same rfl rfl

theorem routeService_keepsForm (m : Master) (pg off v : Nat) (s : State) : KeepsForm s (routeService m pg off v s) := by
  unfold routeService
  refine .ite _ (.ite _ (.ite _ (.of_same rfl rfl) (execBrineExit_keepsForm ..)) ?_) (.ite _ (.of_same rfl rfl) (.ite _ ?_ (.ite _ (execDomCtlWrite_keepsForm ..) ?_)))
  all_goals
    repeat' with_reducible apply KeepsForm.ite
    all_goals exact .of_same rfl rfl

theorem routeTime_keepsForm (m : Master) (n : Ts) (off v : Nat) (s : State) : KeepsForm s (routeTime m n off v s) := by
  unfold routeTime
  dsimp only
  repeat' with_reducible apply KeepsForm.ite
  all_goals exact .of_same rfl rfl

theorem routeMonitor_keepsForm (m : Master) (k : Fin 19) (off v : Nat) (s : State) : KeepsForm s (routeMonitor m k off v s) := by
  unfold routeMonitor
  dsimp only
  repeat' with_reducible apply KeepsForm.ite
  all_goals exact .of_same rfl rfl

theorem routeReference_keepsForm (m : Master) (pg off v : Nat) (s : State) : KeepsForm s (routeReference m pg off v s) := by
  unfold routeReference
  dsimp only
  repeat' with_reducible apply KeepsForm.ite
  all_goals exact .of_same rfl rfl

theorem routeGnss_keepsForm (m : Master) (p : Fin 8) (off v : Nat) (s : State) : KeepsForm s (routeGnss m p off v s) := by
  unfold routeGnss
  repeat' with_reducible apply KeepsForm.ite
  all_goals exact .of_same rfl rfl

theorem routeSynthesis_keepsForm (m : Master) (pg off v : Nat) (s : State) : KeepsForm s (routeSynthesis m pg off v s) := by
  unfold routeSynthesis
  dsimp only
  repeat' with_reducible apply KeepsForm.ite
  all_goals exact .of_same rfl rfl

theorem routeTdc_keepsForm (m : Master) (pg off v : Nat) (s : State) : KeepsForm s (routeTdc m pg off v s) := by
  unfold routeTdc
  dsimp only
  repeat' with_reducible apply KeepsForm.ite
  all_goals exact .of_same rfl rfl

theorem routePulse_keepsForm (m : Master) (pg off v : Nat) (s : State) : KeepsForm s (routePulse m pg off v s) := by
  unfold routePulse
  dsimp only
  repeat' with_reducible apply KeepsForm.ite
  all_goals exact .of_same rfl rfl

theorem routePort_keepsForm (m : Master) (pg off v : Nat) (s : State) : KeepsForm s (routePort m pg off v s) := by
  unfold routePort
  dsimp only
  repeat' with_reducible apply KeepsForm.ite
  all_goals exact .of_same rfl rfl

theorem routeLane_keepsForm (m : Master) (n : Fin 16) (off v : Nat) (s : State) : KeepsForm s (routeLane m n off v s) := by
  unfold routeLane
  repeat' with_reducible apply KeepsForm.ite
  all_goals exact .of_same rfl rfl

theorem routeKey_keepsForm (m : Master) (pg off v : Nat) (s : State) : KeepsForm s (routeKey m pg off v s) := by
  unfold routeKey
  dsimp only
  repeat' with_reducible apply KeepsForm.ite
  all_goals exact .of_same rfl rfl

theorem routeAudio_keepsForm (m : Master) (p : Fin 4) (off v : Nat) (s : State) : KeepsForm s (routeAudio m p off v s) := by
  unfold routeAudio
  dsimp only
  repeat' with_reducible apply KeepsForm.ite
  all_goals exact .of_same rfl rfl

theorem routeSequencer_keepsForm (m : Master) (n : Fin 8) (off v : Nat) (s : State) : KeepsForm s (routeSequencer m n off v s) := by
  unfold routeSequencer
  dsimp only
  repeat' with_reducible apply KeepsForm.ite
  all_goals exact .of_same rfl rfl

theorem routeControl_keepsForm (m : Master) (pg off v : Nat) (s : State) : KeepsForm s (routeControl m pg off v s) := by
  unfold routeControl
  repeat' with_reducible apply KeepsForm.ite
  all_goals exact .of_same rfl rfl

theorem routePair_keepsForm (m : Master) (off v : Nat) (s : State) : KeepsForm s (routePair m off v s) := by
  unfold routePair
  repeat' with_reducible apply KeepsForm.ite
  all_goals exact .of_same rfl rfl

theorem routeLoader_keepsForm (m : Master) (off v : Nat) (s : State) : KeepsForm s (routeLoader m off v s) := by
  unfold routeLoader
  dsimp only
  repeat' with_reducible apply KeepsForm.ite
  all_goals exact .of_same rfl rfl

/-- The command that a write of a whole register spells. -/
theorem routeReg_keepsForm (m : Master) (pg off v : Nat) (s : State) : KeepsForm s (routeReg m pg off v s) := by
  unfold routeReg
  refine .ite _ (routeHeader_keepsForm ..) ?_
  split
  · exact routeMonitor_keepsForm ..
  · dsimp only
    repeat' with_reducible apply KeepsForm.ite
    · exact routeGlobal_keepsForm ..
    · exact routeTime_keepsForm ..
    · exact .of_same rfl rfl
    · exact .of_same rfl rfl
    · exact .of_same rfl rfl
    · exact s.keepsForm_run _
    · exact routeReference_keepsForm ..
    · exact routeGnss_keepsForm ..
    · exact routeSynthesis_keepsForm ..
    · exact routeTdc_keepsForm ..
    · exact routePulse_keepsForm ..
    · exact routePort_keepsForm ..
    · exact routeService_keepsForm ..
    · exact routeLane_keepsForm ..
    · exact routeKey_keepsForm ..
    · exact routeAudio_keepsForm ..
    · exact routeSequencer_keepsForm ..
    · exact routeControl_keepsForm ..
    · exact routePair_keepsForm ..
    · exact routeLoader_keepsForm ..
    · exact s.keepsForm_run _

theorem writeWord_keepsForm (m : Master) (a v : Nat) (s : State) : KeepsForm s (writeWord m a v s) := by
  unfold writeWord
  dsimp only
  refine .ite _ (s.keepsForm_run _) ?_
  split
  · exact s.keepsForm_run _
  · refine .ite _ (routeReg_keepsForm ..) ?_
    split
    · split
      · exact (routeReg_keepsForm ..).congr rfl
      · exact .of_same rfl rfl
    · exact s.keepsForm_run _

theorem routeWrite_keepsForm (m : Master) (a : Nat) (wide : Bool) (v : Nat) (s : State) : KeepsForm s (routeWrite m a wide v s) := by
  unfold routeWrite
  dsimp only
  refine .ite _ (.of_same rfl rfl) (.ite _ (s.keepsForm_run _) (.ite _ (writeWord_keepsForm ..) (.ite _ (s.keepsForm_run _) ?_)))
  exact (writeWord_keepsForm ..).andThen fun t => writeWord_keepsForm ..

theorem execMgmtWriteTransfer_keepsForm (octets : List Nat) (s : State) : KeepsForm s (execMgmtWriteTransfer octets s) := by
  unfold execMgmtWriteTransfer
  split
  · exact .of_same rfl rfl
  · split
    · exact routeWrite_keepsForm ..
    · exact s.keepsForm_run _

/-! The boot, which writes registers from its configuration (R426). -/

theorem Memory.wf_cfgWrite (r : Words × Dev) (e : Nat × Nat) (h : Memory.wf r.1 = true) : Memory.wf (cfgWrite r e).1 = true := by
  unfold cfgWrite
  split
  · exact h
  · split
    · exact h
    · split
      · next t ht => exact (routeWrite_keepsForm ..).next ht h
      · exact h

theorem Memory.wf_bootConfig (r : Words × Dev) (h : Memory.wf r.1 = true) : Memory.wf (bootConfig r).1 = true := by
  unfold bootConfig
  dsimp only
  split
  · split
    · exact Memory.wf_foldl _ Memory.wf_cfgWrite _ _ h
    · exact h
  · exact h

theorem Memory.wf_bootStage (k : Nat) (x : BootIn) (r : Words × Dev) (h : Memory.wf r.1 = true) : Memory.wf (bootStage k x r).1 = true := by
  unfold bootStage
  dsimp only
  split
  case h_10 => exact Memory.wf_bootConfig r h
  all_goals exact h

theorem Memory.wf_bootRun (r : Words × Dev) (b : BootRun) (h : Memory.wf r.1 = true) : Memory.wf (bootRun r b).1 = true := Memory.wf_bootStage _ _ _ h

theorem execBoot_keepsForm (x : BootIn) (s : State) : KeepsForm s (execBoot x s) := s.keepsForm_runReset _ fun h => by
  split
  · exact h
  · split
    · exact Memory.wf_bootRun _ _ h
    · split
      · exact Memory.wf_bootRun _ _ h
      · exact h

/-- Every command keeps the form: those that reach the store by the operation they make, all others by leaving it alone. -/
theorem exec_keepsForm (c : Instr) (s : State) : KeepsForm s (exec c s) := by
  cases c
  case registerWrite m addr wide v => exact routeWrite_keepsForm m addr wide v s
  case mgmtWriteTransfer octets => exact execMgmtWriteTransfer_keepsForm octets s
  case cstWrite m addr wide v => exact .of_withStore rfl fun h => Memory.wf_cstWrite (s.store, s.dev) m .base addr wide v h
  case cstSetWrite m addr wide v => exact .of_withStore rfl fun h => Memory.wf_cstWrite (s.store, s.dev) m .set addr wide v h
  case cstClearWrite m addr wide v => exact .of_withStore rfl fun h => Memory.wf_cstWrite (s.store, s.dev) m .clear addr wide v h
  case brineExit m v => exact execBrineExit_keepsForm m v s
  case domCtlWrite m k v => exact execDomCtlWrite_keepsForm m k v s
  case delayReqRx p x => exact .of_withStore rfl fun h => Memory.wf_delayReq (s.store, s.dev) p x h
  case signalingRx p x => exact .of_withStore rfl fun h => Memory.wf_signaling (s.store, s.dev) p x h
  case wheelSlot => exact execWheelSlot_keepsForm s
  case cryptoOp n ok => exact execCryptoOp_keepsForm n ok s
  case claimWaitEnd => exact execClaimWaitEnd_keepsForm s
  case mirrorEntryRx m x => exact execMirrorEntryRx_keepsForm m x s
  case admissionCycle => exact execAdmissionCycle_keepsForm s
  case thermalSample core analog portA portB mw => exact .of_withStore rfl fun h => Memory.wf_thermalJudge (s.store, s.dev) core analog portA portB mw h
  case capStep => exact execCapStep_keepsForm s
  case caveRevoke => exact execCaveRevoke_keepsForm s
  case caveStore => exact execCaveStore_keepsForm s
  case caveEntered => exact execCaveEntered_keepsForm s
  case softRst m pg v => exact execPageCtl_keepsForm m pg (v ||| 1) s
  case freezeWrite m pg v => exact execPageCtl_keepsForm m pg v s
  case regionCmd m key target => exact execRegionCmd_keepsForm m key target s
  case dieCmd m key target => exact execDieCmd_keepsForm m key target s
  case c4RegionReset r => exact execC4RegionReset_keepsForm r s
  case packageReset m key => exact execPackageReset_keepsForm m key s
  case powerOn => exact .of_withReset rfl fun _ => Memory.wf_packageBegin (s.store, s.dev) true
  case pkgRstN => exact execPkgRstN_keepsForm s
  case caveBrownout => exact .of_withReset rfl fun h => Memory.wf_ite (Memory.wf_packageBegin _ _) h
  case boot x => exact execBoot_keepsForm x s
  case bootWatchdogExpiry => exact .of_withReset rfl fun h => Memory.wf_ite h (Memory.wf_packageBegin _ _)
  case copyDone => exact execCopyDone_keepsForm s
  case ldrWatchdogExpiry => exact .of_withReset rfl fun h => Memory.wf_ite (Memory.wf_packageBegin _ _) h
  all_goals exact .of_same rfl rfl

/-! The obligations. -/

/-- Settles O4: nothing is stored after reset. -/
theorem resetMeetsForm : Obligations.ResetMeetsForm := Memory.wf_reset

/-- Settles O5: a tick leaves the store alone, and every command keeps the form. -/
theorem storeKeepsForm : Obligations.StoreKeepsForm := by
  unfold Obligations.StoreKeepsForm
  intro s t hs ht
  unfold step at ht
  split at ht
  · cases ht
    exact hs
  · next c rest _ => exact (exec_keepsForm c { s with pending := rest }).next ht hs

end Sys2Proof.Machine
end

section
/-! PROOF. The commands of the responder (O51) and of the client store (O52). -/

namespace Sys2Proof.Machine

/-! The responder. -/

/-- The wheel serves the next slot where the service is granted and the slot has come (R254). -/
theorem wheelSlot_completes (s : State) (hg : s.dev.granted kindSignal 0 = true) (hs : s.dev.nextSlot ≤ s.dev.wheelNow) :
    exec .wheelSlot s = .next (s.withStore (wheelServe s.dev.nextSlot (s.store, s.dev))) := by
  show execWheelSlot s = _
  rw [execWheelSlot, State.runStore_eq]
  dsimp only
  rw [hg, decide_eq_false (Nat.not_lt.mpr hs), if_neg (by decide)]

theorem esmcInfoPdu_completes (s : State) (p : Fin 24) (hon : s.dev.esmcOn p = true) : exec (.esmcInfoPdu p) s = .next (s.withDev (s.dev.esmcSend p)) := by
  show execEsmcInfoPdu p s = _
  rw [execEsmcInfoPdu, State.run_eq, hon, if_neg (by decide)]

theorem capacityCount_completes (s : State) (kind inst : Nat) (hheld : s.dev.heldLong kind inst = true) (hnew : s.dev.unitCounted kind inst = false) :
    exec (.capacityCount kind inst) s = .next (s.withDev ((s.dev.upRsp fun e => { e with counted := e.counted ++ [(kind, inst)] }).capShow).reservedShow) :=
  State.run_of_eq (if_pos (by rw [hheld, hnew]; rfl))

/-- EN = 1 is refused without an identity, and stored with one (R265). -/
theorem rspEnWrite_completes (s : State) (m : Master) (v : Nat) (h : Served s m (Pg.rsp 0) 0x100) :
    let d := s.took m (Pg.rsp 0) 0x100 v
    (bit v 31 = true → d.get (Pg.rsp 0) RSP0.CLOCK_ID_ID = 0 → exec (.rspEnWrite m v) s = .next (s.withDev (d.fault (Pg.rsp 0) 1 causeClockId))) ∧
    (bit v 31 = false ∨ d.get (Pg.rsp 0) RSP0.CLOCK_ID_ID ≠ 0 → exec (.rspEnWrite m v) s = .next (s.withDev (d.storeReg (Pg.rsp 0) 0x100 v).readyShow)) := by
  intro d
  refine ⟨fun hen hid => (State.run_write h v _).trans ?_, fun hok => (State.run_write h v _).trans ?_⟩
  · rw [if_pos (by rw [hen, hid]; rfl)]
  · rw [if_neg]
    rw [Bool.and_eq_true, beq_iff_eq]
    rintro ⟨hen, hid⟩
    obtain h0 | h1 := hok
    · exact absurd (hen.symm.trans h0) (by decide)
    · exact h1 hid

/-- A write of RSP_DOMd_CTL keeps the grants of the domain where its service stays, and drops them where it changes (R254). -/
theorem domCtlWrite_completes (s : State) (m : Master) (k : Fin 8) (v off : Nat) (hoff : off = 0x100 + 0x40 * k.val) (h : Served s m (Pg.rsp 2) off) :
    let d := ((s.took m (Pg.rsp 2) off v).storeReg (Pg.rsp 2) off v).domCheck
    (d.domFields k.val = s.dev.domFields k.val → exec (.domCtlWrite m k v) s = .next (s.withStore (domRecount (d.domFlags k.val != s.dev.domFlags k.val) (s.store, d)))) ∧
    (d.domFields k.val ≠ s.dev.domFields k.val → exec (.domCtlWrite m k v) s =
      .next (s.withStore (domRecount (d.domFlags k.val != s.dev.domFlags k.val) (domDrop (s.store, d) k.val)))) := by
  intro d
  subst hoff
  have hexec : exec (.domCtlWrite m k v) s = .next (s.withStore (domRecount (d.domFlags k.val != s.dev.domFlags k.val)
      (if d.domFields k.val = s.dev.domFields k.val then (s.store, d) else domDrop (s.store, d) k.val))) := by
    show execDomCtlWrite m k v s = _
    rw [execDomCtlWrite, State.runStore_eq, Dev.writeStore, Dev.write_served h]
  exact ⟨fun hsame => by rw [hexec, if_pos hsame], fun hother => by rw [hexec, if_neg hother]⟩

/-- Settles O51: command by command. -/
theorem responderCommandsComplete : Obligations.ResponderCommandsComplete := by
  unfold Obligations.ResponderCommandsComplete
  exact fun s => ⟨fun _ _ => rfl, fun _ _ => rfl, fun _ _ => rfl, fun _ _ => rfl, rfl, wheelSlot_completes s, esmcInfoPdu_completes s, rfl, capacityCount_completes s,
    rspEnWrite_completes s, fun _ h => State.run_write h 1 _, domCtlWrite_completes s⟩

/-! The client store. -/

/-- A host write that R281 lets through goes to the word (R278). -/
theorem cstWrite_eq {r : Words × Dev} {m : Master} {addr : Nat} (form : CstForm) (wide : Bool) (v : Nat) (hm : mayStore m = true) (ha : addr < 2 ^ 26) (hon : r.2.cstOn = true) :
    cstWrite r m form addr wide v = cstPut r m form addr wide v := by
  rw [cstWrite, hm, hon, decide_eq_false (Nat.not_le.mpr ha)]
  rfl

theorem cstWrites_complete (s : State) (m : Master) (addr : Nat) (wide : Bool) (v : Nat) (hm : mayStore m = true) (ha : addr < 2 ^ 26) (hon : s.dev.cstOn = true) :
    exec (.cstWrite m addr wide v) s = .next (s.withStore (cstPut (s.store, s.dev) m .base addr wide v)) ∧
    exec (.cstSetWrite m addr wide v) s = .next (s.withStore (cstPut (s.store, s.dev) m .set addr wide v)) ∧
    exec (.cstClearWrite m addr wide v) s = .next (s.withStore (cstPut (s.store, s.dev) m .clear addr wide v)) := by
  have hform (form : CstForm) : (s.runStore fun st d => cstWrite (st, d) m form addr wide v) = .next (s.withStore (cstPut (s.store, s.dev) m form addr wide v)) := by
    rw [State.runStore_eq, cstWrite_eq (r := (s.store, s.dev)) form wide v hm ha hon]
  exact ⟨hform .base, hform .set, hform .clear⟩

theorem storeLookups_complete (s : State) (m : Master) (h : Served s m Pg.cst 0x108) :
    exec (.lookup m) s = .next (s.withDev ((s.took m Pg.cst 0x108 1).lookupShow s.store)) ∧
    (let d := s.took m Pg.cst 0x108 2
     d.cstOn = true → exec (.scrubNow m) s = .next (s.withDev (d.timerTime 0 104858 (.scrubPass [])))) := by
  refine ⟨State.run_write h 1 _, fun hon => (State.run_write h 2 _).trans ?_⟩
  rw [if_pos hon]

theorem scrubPass_completes (s : State) (errs : List (Nat × Bool)) (hon : s.dev.cstOn = true) :
    exec (.scrubPass errs) s = .next (s.withDev (s.dev.scrubEnd s.store errs)) := by
  show execScrubPass errs s = _
  rw [execScrubPass, State.run_eq, hon, if_neg (by decide)]

/-- BRINE written 1 takes the store into retention, and written 0 asks for its wake (R285, R286). -/
theorem brineWrites_complete (s : State) (m : Master) (v : Nat) (h : Served s m Pg.cst 0x100) :
    let d := (s.took m Pg.cst 0x100 v).storeReg Pg.cst 0x100 v
    (d.on Pg.cst CST.CTL_BRINE = true → d.cstOn = true → d.brineRefused = false →
      exec (.brineEnter m v) s = .next (s.withDev (d.put Pg.cst CST.STS_BRINE_REFUSED 0).brineIn)) ∧
    (m ≠ .collector → d.on Pg.cst CST.CTL_BRINE = false → d.get Pg.cst CST.STS_PWR = 3 → d.granted kindStore 0 = true →
      exec (.brineExit m v) s = .next (s.withStore (s.store, d.timerTime 0 (20 * micro) (.brineExit .collector 0)))) := by
  intro d
  refine ⟨fun hb hon hr => (State.run_writeStore h v _).trans ?_, fun hm hb hp hg => ?_⟩
  · rw [if_neg (by rw [hb, hon]; decide), if_neg (by rw [hr]; decide)]
  · show execBrineExit m v s = _
    rw [execBrineExit, State.runStore_eq, if_neg hm, Dev.writeStore, Dev.write_served h, if_neg (by rw [hb, hp, hg]; decide)]

/-- The end of a Brine, 20 µs after it was asked for (R286). -/
theorem brineExit_ends (s : State) (hc : s.dev.inCave = false) (hb : s.dev.on Pg.cst CST.CTL_BRINE = false ∨ s.dev.get Pg.cst CST.STS_PWR ≠ 3) (v : Nat) :
    exec (.brineExit .collector v) s = .next (s.withStore (brineOut (s.store, s.dev))) := by
  have hstay : (s.dev.on Pg.cst CST.CTL_BRINE && s.dev.get Pg.cst CST.STS_PWR == 3) = false := by
    obtain h | h := hb
    · rw [h]; rfl
    · rw [beq_eq_false_iff_ne.mpr h, Bool.and_false]
  show execBrineExit .collector v s = _
  rw [execBrineExit, State.runStore_eq, if_pos rfl, hstay, hc, if_neg (by decide)]

theorem hashSeedWrite_completes (s : State) (m : Master) (v : Nat) (h : s.dev.gate m Pg.cst 0x140 = .served) (hu : s.dev.get Pg.cst CST.STS_USED = 0) :
    exec (.hashSeedWrite m v) s = .next (s.withDev ((s.took m Pg.cst 0x140 v).storeReg Pg.cst 0x140 v)) := by
  show execHashSeedWrite m v s = _
  rw [execHashSeedWrite, State.run_eq, Dev.writeIf_served h, hu, if_pos (by decide)]

/-- Settles O52: command by command. -/
theorem clientStoreCommandsComplete : Obligations.ClientStoreCommandsComplete := by
  unfold Obligations.ClientStoreCommandsComplete
  exact fun s => ⟨cstWrites_complete s, storeLookups_complete s, scrubPass_completes s, brineWrites_complete s, brineExit_ends s, hashSeedWrite_completes s⟩

end Sys2Proof.Machine
end

section
/-! PROOF. A host write to the client store changes permitted bits of one word (O32). -/

namespace Sys2Proof.Machine

/-! The parts of a host write (R273, R278 to R281). -/

/-- The bits of the word that an access reaches. -/
def hostSpan (wide : Bool) (addr : Nat) : Nat := if wide then 2 ^ 64 - 1 else if !wide && addr % 8 / 4 == 1 then (2 ^ 32 - 1) <<< 32 else 2 ^ 32 - 1

/-- The value of an access, at its place in the word. -/
def hostVal (wide : Bool) (addr v : Nat) : Nat := if wide then v % 2 ^ 64 else if !wide && addr % 8 / 4 == 1 then (v % 2 ^ 32) <<< 32 else v % 2 ^ 32

/-- The word that an access asks for. -/
def CstForm.want (form : CstForm) (old span val : Nat) : Nat :=
  match form with
  | .base => (old - (old &&& span)) ||| val
  | .set => old ||| val
  | .clear => old - (old &&& val)

/-- The word that a host write asks for. -/
def hostWant (s : Words) (form : CstForm) (addr : Nat) (wide : Bool) (v : Nat) : Nat := form.want (s.word (addr / 8)) (hostSpan wide addr) (hostVal wide addr v)

/-- The write would change STATE, or TS. -/
def hostHits (s : Words) (form : CstForm) (addr : Nat) (wide : Bool) (v : Nat) (f : EFld) : Bool :=
  decide (addr / 8 % 8 = 0 ∧ (s.word (addr / 8) ^^^ hostWant s form addr wide v) &&& f.mask ≠ 0)

/-- A change of TS leaves the entry's view as it is, or the entry is free (R280). -/
def hostTsOk (r : Words × Dev) (form : CstForm) (addr : Nat) (wide : Bool) (v : Nat) : Bool :=
  !r.1.live (addr / 8 / 8) || r.2.tsView (r.1.fld (addr / 8 / 8) ePort) (r.1.fld (addr / 8 / 8) eTs) ==
    r.2.tsView (r.1.fld (addr / 8 / 8) ePort) (hostWant r.1 form addr wide v / 256 % 4)

/-- The bits that the write replaces. -/
def hostTake (r : Words × Dev) (form : CstForm) (addr : Nat) (wide : Bool) (v : Nat) : Nat :=
  if hostHits r.1 form addr wide v eTs && !hostTsOk r form addr wide v then hostMask (addr / 8 % 8) - eTs.mask else hostMask (addr / 8 % 8)

/-- The word that the write leaves. -/
def hostNew (r : Words × Dev) (form : CstForm) (addr : Nat) (wide : Bool) (v : Nat) : Nat :=
  (r.1.word (addr / 8) - (r.1.word (addr / 8) &&& hostTake r form addr wide v)) ||| (hostWant r.1 form addr wide v &&& hostTake r form addr wide v)

/-- The words that the write leaves. -/
def hostWords (r : Words × Dev) (form : CstForm) (addr : Nat) (wide : Bool) (v : Nat) : Words :=
  if hostNew r form addr wide v = r.1.word (addr / 8) then r.1 else r.1.setWord (addr / 8) (hostNew r form addr wide v)

/-- The write frees a locked ACTIVE entry (R279). -/
def hostFrees (s : Words) (form : CstForm) (addr : Nat) (wide : Bool) (v : Nat) : Bool :=
  hostHits s form addr wide v eState && hostWant s form addr wide v % 8 == 0 && s.fld (addr / 8 / 8) eState == entActive && s.fld (addr / 8 / 8) eLock == 1

/-- A host write replaces bits of one word; where it frees the entry, the entry is released on top. -/
theorem cstPut_eq (r : Words × Dev) (m : Master) (form : CstForm) (addr : Nat) (wide : Bool) (v : Nat) : ∃ d : Dev, d.clk = r.2.clk ∧
    cstPut r m form addr wide v = if hostFrees r.1 form addr wide v then
      ((releaseEntry (hostWords r form addr wide v, d) (addr / 8 / 8)).1,
        (releaseEntry (hostWords r form addr wide v, d) (addr / 8 / 8)).2.cstShow (releaseEntry (hostWords r form addr wide v, d) (addr / 8 / 8)).1)
      else (hostWords r form addr wide v, d) := by
  refine ⟨_, ?_, rfl⟩
  have hcount (e : Dev) : e.Quiet (e.discardIn Pg.cst CST.HOST_DISC_COUNT) := (e.quiet_count _ _ _).trans (Dev.quiet_pmc _ _ _ _)
  exact ((r.2.quiet_pmc _ _ _).trans (Dev.Quiet.when _ _ hcount)).clk_eq

/-! What the write leaves of the word, bit by bit. -/

theorem testBit_hostVal {wide : Bool} {addr v i : Nat} (h : (hostSpan wide addr).testBit i = false) : (hostVal wide addr v).testBit i = false := by
  unfold hostSpan at h
  unfold hostVal
  split
  · next hw =>
    rw [if_pos hw, Nat.testBit_two_pow_sub_one] at h
    rw [Nat.testBit_mod_two_pow, h, Bool.false_and]
  · next hw =>
    rw [if_neg hw] at h
    split
    · next hh =>
      rw [if_pos hh, Nat.testBit_shiftLeft, Nat.testBit_two_pow_sub_one] at h
      rw [Nat.testBit_shiftLeft, Nat.testBit_mod_two_pow, ← Bool.and_assoc, h, Bool.false_and]
    · next hh =>
      rw [if_neg hh, Nat.testBit_two_pow_sub_one] at h
      rw [Nat.testBit_mod_two_pow, h, Bool.false_and]

/-- An access asks for no change outside its span. -/
theorem testBit_hostWant (s : Words) (form : CstForm) {addr : Nat} {wide : Bool} (v : Nat) {i : Nat} (h : (hostSpan wide addr).testBit i = false) :
    (hostWant s form addr wide v).testBit i = (s.word (addr / 8)).testBit i := by
  have hv := testBit_hostVal (v := v) h
  cases form with
  | base => simp only [hostWant, CstForm.want, Nat.testBit_or, testBit_sub_and, h, hv, Bool.not_false, Bool.and_true, Bool.or_false]
  | set => simp only [hostWant, CstForm.want, Nat.testBit_or, hv, Bool.or_false]
  | clear => simp only [hostWant, CstForm.want, testBit_sub_and, hv, Bool.not_false, Bool.and_true]

theorem testBit_hostNew (r : Words × Dev) (form : CstForm) (addr : Nat) (wide : Bool) (v i : Nat) : (hostNew r form addr wide v).testBit i =
    (if (hostTake r form addr wide v).testBit i then (hostWant r.1 form addr wide v).testBit i else (r.1.word (addr / 8)).testBit i) := by
  unfold hostNew
  rw [Nat.testBit_or, testBit_sub_and, Nat.testBit_and]
  cases (hostTake r form addr wide v).testBit i
  · simp
  · simp

/-- The write replaces bits that the host may write alone. -/
theorem testBit_hostTake (r : Words × Dev) (form : CstForm) {addr : Nat} (wide : Bool) (v : Nat) {i : Nat} (h : (hostMask (addr / 8 % 8)).testBit i = false) :
    (hostTake r form addr wide v).testBit i = false := by
  unfold hostTake
  split
  · next hts =>
    have hw : addr / 8 % 8 = 0 := by
      simp only [hostHits, Bool.and_eq_true, decide_eq_true_eq] at hts
      exact hts.1.1
    have hmask : hostMask 0 - eTs.mask = hostMask 0 - (hostMask 0 &&& eTs.mask) := by decide
    rw [hw] at h ⊢
    rw [hmask, testBit_sub_and, h, Bool.false_and]
  · exact h

/-- The word that holds the address, after the write. -/
theorem testBit_hostWords (r : Words × Dev) (form : CstForm) (addr : Nat) (wide : Bool) (v i : Nat) (h : (hostNew r form addr wide v).testBit i = (r.1.word (addr / 8)).testBit i) :
    ((hostWords r form addr wide v).word (addr / 8)).testBit i = (r.1.word (addr / 8)).testBit i := by
  unfold hostWords
  split
  · rfl
  · rw [Words.word_setWord_same, Nat.testBit_mod_two_pow, h]
    by_cases hi : i < 64
    · rw [decide_eq_true hi, Bool.true_and]
    · rw [decide_eq_false hi, Bool.false_and, Nat.testBit_eq_false_of_lt]
      exact Nat.lt_of_lt_of_le (Words.word_lt _ _) (Nat.pow_le_pow_right (by decide) (Nat.not_lt.mp hi))

theorem word_hostWords_ne (r : Words × Dev) (form : CstForm) (addr : Nat) (wide : Bool) (v : Nat) {j : Nat} (h : j ≠ addr / 8) : (hostWords r form addr wide v).word j = r.1.word j := by
  unfold hostWords
  split
  · rfl
  · exact Words.word_setWord_ne _ _ h

/-- A release changes the words of its entry alone. -/
theorem word_releaseEntry_ne (r : Words × Dev) {i j : Nat} (h : j / 8 ≠ i) : (releaseEntry r i).1.word j = r.1.word j := by
  have hne : j ≠ 8 * i + 0 := by omega
  unfold releaseEntry freeEntry
  dsimp only
  rw [Words.word_setFld_ne _ _ _ hne, Words.word_setFld_ne _ _ _ hne, Words.word_setFld_ne _ _ _ hne]

theorem hostFrees_false {s : Words} {form : CstForm} {addr : Nat} {wide : Bool} {v : Nat}
    (h : addr / 8 % 8 ≠ 0 ∨ s.fld (addr / 8 / 8) eState ≠ entActive ∨ s.fld (addr / 8 / 8) eLock = 0) : hostFrees s form addr wide v = false := by
  unfold hostFrees
  obtain h | h | h := h
  · simp [hostHits, h]
  · rw [beq_eq_false_iff_ne.mpr h, Bool.and_false, Bool.false_and]
  · rw [h]
    exact Bool.and_false _

/-- A 32-bit access keeps the bits of the other half. -/
theorem testBit_hostNew_otherHalf (r : Words × Dev) (form : CstForm) {addr : Nat} (v : Nat) {i : Nat} (h : (hostSpan false addr).testBit i = false) :
    (hostNew r form addr false v).testBit i = (r.1.word (addr / 8)).testBit i := by
  rw [testBit_hostNew, testBit_hostWant _ _ _ h, ite_self]

theorem testBit_span_low {addr i : Nat} (h : addr % 8 < 4) (hi : 32 ≤ i) : (hostSpan false addr).testBit i = false := by
  have hlow : (!false && addr % 8 / 4 == 1) = false := by
    rw [Nat.div_eq_of_lt h]; rfl
  rw [hostSpan, if_neg Bool.false_ne_true, hlow, if_neg Bool.false_ne_true, Nat.testBit_two_pow_sub_one, decide_eq_false (Nat.not_lt.mpr hi)]

theorem testBit_span_high {addr i : Nat} (h : 4 ≤ addr % 8) (hi : i < 32) : (hostSpan false addr).testBit i = false := by
  have hhigh : (!false && addr % 8 / 4 == 1) = true := by
    have : addr % 8 / 4 = 1 := by omega
    rw [this]; rfl
  rw [hostSpan, if_neg Bool.false_ne_true, hhigh, if_pos rfl, Nat.testBit_shiftLeft, decide_eq_false (Nat.not_le.mpr hi), Bool.false_and]

/-- A host write that is let through leaves every other entry alone. -/
theorem word_cstPut_otherEntry (r : Words × Dev) (m : Master) (form : CstForm) (addr : Nat) (wide : Bool) (v : Nat) {j : Nat} (h : j / 8 ≠ addr / 8 / 8) :
    (cstPut r m form addr wide v).1.word j = r.1.word j := by
  obtain ⟨d, -, heq⟩ := cstPut_eq r m form addr wide v
  have hj : j ≠ addr / 8 := fun e => h (congrArg (· / 8) e)
  rw [heq]
  split
  · exact (word_releaseEntry_ne (hostWords r form addr wide v, d) h).trans (word_hostWords_ne _ _ _ _ _ hj)
  · exact word_hostWords_ne _ _ _ _ _ hj

theorem cstWrite_cases (r : Words × Dev) (m : Master) (form : CstForm) (addr : Nat) (wide : Bool) (v : Nat) :
    cstWrite r m form addr wide v = cstDiscard r ∨ (mayStore m = true ∧ addr < 2 ^ 26 ∧ r.2.cstOn = true ∧ cstWrite r m form addr wide v = cstPut r m form addr wide v) := by
  unfold cstWrite
  split
  · exact .inl rfl
  · next h =>
    simp only [Bool.or_eq_true, Bool.not_eq_true', decide_eq_true_eq, not_or, Bool.not_eq_false, Nat.not_le] at h
    obtain ⟨⟨hm, ha⟩, hon⟩ := h
    exact .inr ⟨hm, ha, hon, rfl⟩

/-- Settles O32: a discarded write leaves the store alone, and any other replaces permitted bits of one word. -/
theorem storeWriteTouchesOneWord : Obligations.StoreWriteTouchesOneWord := by
  unfold Obligations.StoreWriteTouchesOneWord
  intro r m form addr v wide q k
  obtain hq | ⟨hm, ha, hon, hq⟩ := cstWrite_cases r m form addr wide v
  · have hclk : (cstDiscard r).2.clk = r.2.clk := ((r.2.quiet_count _ _ _).trans (Dev.quiet_pmc _ _ _ _)).clk_eq
    rw [show q = cstDiscard r from hq]
    exact ⟨fun _ _ => rfl, fun _ => rfl, fun _ => ⟨fun _ _ => rfl, fun _ _ => rfl, fun _ => ⟨fun _ => rfl, fun _ => rfl⟩, hclk⟩⟩
  · rw [show q = cstPut r m form addr wide v from hq]
    refine ⟨fun j hj => word_cstPut_otherEntry _ _ _ _ _ _ hj, fun hno => ?_, fun hkeep => ?_⟩
    · obtain h | h | h := hno
      · exact absurd (hm.symm.trans h) (by decide)
      · exact absurd h (Nat.not_le.mpr ha)
      · exact absurd (hon.symm.trans h) (by decide)
    · obtain ⟨d, hclk, heq⟩ := cstPut_eq r m form addr wide v
      rw [heq, hostFrees_false hkeep, if_neg Bool.false_ne_true]
      refine ⟨fun j hj => word_hostWords_ne _ _ _ _ _ hj, fun i hi => testBit_hostWords _ _ _ _ _ _ ?_, ?_, hclk⟩
      · rw [testBit_hostNew, testBit_hostTake r form wide v hi, if_neg Bool.false_ne_true]
      · rintro rfl
        refine ⟨fun hlow => ?_, fun hhigh => ?_⟩
        · refine Nat.eq_of_testBit_eq fun i => ?_
          rw [Nat.testBit_div_two_pow, Nat.testBit_div_two_pow]
          exact testBit_hostWords _ _ _ _ _ _ (testBit_hostNew_otherHalf _ _ _ (testBit_span_low hlow (Nat.le_add_left _ _)))
        · refine Nat.eq_of_testBit_eq fun i => ?_
          rw [Nat.testBit_mod_two_pow, Nat.testBit_mod_two_pow]
          by_cases hi : i < 32
          · rw [testBit_hostWords _ _ _ _ _ _ (testBit_hostNew_otherHalf _ _ _ (testBit_span_high hhigh hi))]
          · rw [decide_eq_false hi, Bool.false_and, Bool.false_and]

end Sys2Proof.Machine
end

section
/-! PROOF. The commands of the crypto lanes and the key store (O25, O26, O27, O53). -/

namespace Sys2Proof.Machine

/-! A key command, in its parts (R297, R298). -/

theorem State.run_keyWrite {s : State} {m : Master} {pg off : Nat} (h : s.dev.gate m pg off = .served) (v : Nat) {ok : Bool} (hok : ok = true) (eff : Dev → Dev) :
    (s.run fun d => d.keyWrite m pg off v ok eff) = .next (s.withDev (eff (s.took m pg off v))) :=
  State.run_of_eq (f := fun d => d.keyWrite m pg off v ok eff) ((Dev.keyWrite_served h v ok eff).trans (if_pos hok))

/-- A command that nothing refuses begins. -/
theorem State.run_keyCommand_begins {s : State} {m : Master} (h : s.dev.gate m (Pg.key 0) 0x100 = .served) (op slot : Nat) {ok : Bool} (hok : ok = true) (chk : Dev → Nat × KeyImage)
    (eff : Dev → Dev) : let d := s.took m (Pg.key 0) 0x100 (slot * 65536 + op)
    d.keyRefusal (chk d).1 = 0 → (s.run fun d => d.keyCommand m op slot ok chk eff) = .next (s.withDev (eff (d.keyBegin op slot (chk d).2))) := by
  intro d hr
  refine (State.run_keyWrite h _ hok _).trans ?_
  dsimp only
  rw [if_neg (not_not_intro hr)]

/-- The device after a command that is refused with a RESULT. -/
def Dev.keyShown (d : Dev) (op slot r : Nat) : Dev := (d.keyNamed op slot).put (Pg.key 0) KEY0.RES_RESULT r

/-- A command that is refused shows why; a refused UNWRAP of the link is a missed mirror besides (R411). -/
theorem State.run_keyCommand_refused {s : State} {m : Master} (h : s.dev.gate m (Pg.key 0) 0x100 = .served) (op slot : Nat) {ok : Bool} (hok : ok = true) (chk : Dev → Nat × KeyImage)
    (eff : Dev → Dev) {r : Nat} (hr : let d := s.took m (Pg.key 0) 0x100 (slot * 65536 + op); d.keyRefusal (chk d).1 = r) (h0 : r ≠ 0) :
    (s.run fun d => d.keyCommand m op slot ok chk eff) =
      .next (s.withDev (((s.took m (Pg.key 0) 0x100 (slot * 65536 + op)).keyShown op slot r).when (m == .kwager && op == 5) fun d => d.count Pg.plk (PLK.CNT_COUNT 3))) := by
  refine (State.run_keyWrite h _ hok _).trans ?_
  subst hr
  dsimp only
  rw [if_pos h0]
  rfl

theorem State.run_keyCommand_refused_pf0 {s : State} (h : s.dev.gate .pf0 (Pg.key 0) 0x100 = .served) (op slot : Nat) (chk : Dev → Nat × KeyImage)
    (eff : Dev → Dev) {r : Nat} (hr : let d := s.took .pf0 (Pg.key 0) 0x100 (slot * 65536 + op); d.keyRefusal (chk d).1 = r) (h0 : r ≠ 0) :
    (s.run fun d => d.keyCommand .pf0 op slot true chk eff) = .next (s.withDev ((s.took .pf0 (Pg.key 0) 0x100 (slot * 65536 + op)).keyShown op slot r)) := by
  rw [State.run_keyCommand_refused h op slot rfl chk eff hr h0, show (Master.pf0 == Master.kwager) = false from rfl, Bool.false_and]
  rfl

/-! KEY_RES (R298, R314): its fields lie in one register. -/

/-- A field of KEY_RES keeps its value where another is put. -/
theorem Dev.get_put_keyRes (d : Dev) (f g : Fld) (v : Nat) (hf : f.off = 0x1A0) (hg : g.off = 0x1A0) (h : g.hi < f.lo ∨ f.hi < g.lo) (hi : g.hi < 96) :
    (d.put (Pg.key 0) f v).get (Pg.key 0) g = d.get (Pg.key 0) g := d.get_put_disj _ _ _ _ (hg.trans hf.symm) h hi

/-- The naming of a command writes KEY_RES alone. -/
theorem Dev.reg_keyNamed (d : Dev) (op slot : Nat) {pg off : Nat} (ho : off < 4096) (h : ¬ (pg = Pg.key 0 ∧ off = 0x1A0)) : (d.keyNamed op slot).reg pg off = d.reg pg off := by
  unfold Dev.keyNamed
  rw [Dev.reg_put_ne _ _ _ (by dsimp only [Pg.key] at *; omega), Dev.reg_put_ne _ _ _ (by dsimp only [Pg.key] at *; omega)]
  rfl

theorem Dev.busy_keyNamed (d : Dev) (op slot : Nat) : (d.keyNamed op slot).get (Pg.key 0) KEY0.RES_BUSY = d.get (Pg.key 0) KEY0.RES_BUSY := by
  unfold Dev.keyNamed
  rw [Dev.get_put_keyRes _ _ _ _ rfl rfl (.inr (by decide)) (by decide), Dev.get_put_keyRes _ _ _ _ rfl rfl (.inr (by decide)) (by decide)]
  rfl

theorem Dev.slot_keyNamed (d : Dev) (op : Nat) {slot : Nat} (h : slot < 256) : (d.keyNamed op slot).get (Pg.key 0) KEY0.RES_SLOT = slot := by
  unfold Dev.keyNamed
  rw [Dev.get_put_keyRes _ _ _ _ rfl rfl (.inr (by decide)) (by decide), Dev.get_put_same _ _ _ _ (by decide)]
  exact Nat.mod_eq_of_lt h

theorem Dev.op_keyNamed (d : Dev) {op : Nat} (slot : Nat) (h : op < 16) : (d.keyNamed op slot).get (Pg.key 0) KEY0.RES_OP = op := by
  unfold Dev.keyNamed
  rw [Dev.get_put_same _ _ _ _ (by decide)]
  exact Nat.mod_eq_of_lt h

/-- KEY_RES of a command that is refused. -/
theorem Dev.keyRes_refused (d : Dev) {op slot r : Nat} (hop : op < 16) (hs : slot < 256) (hr : r < 16) :
    let e := (d.keyNamed op slot).put (Pg.key 0) KEY0.RES_RESULT r
    e.get (Pg.key 0) KEY0.RES_RESULT = r ∧ e.get (Pg.key 0) KEY0.RES_SLOT = slot ∧ e.get (Pg.key 0) KEY0.RES_OP = op ∧
      e.get (Pg.key 0) KEY0.RES_BUSY = d.get (Pg.key 0) KEY0.RES_BUSY := by
  intro e
  refine ⟨?_, ?_, ?_, ?_⟩
  · exact (Dev.get_put_same _ _ _ _ (by decide)).trans (Nat.mod_eq_of_lt hr)
  · exact (Dev.get_put_keyRes _ _ _ _ rfl rfl (.inr (by decide)) (by decide)).trans (d.slot_keyNamed op hs)
  · exact (Dev.get_put_keyRes _ _ _ _ rfl rfl (.inr (by decide)) (by decide)).trans (d.op_keyNamed slot hop)
  · exact (Dev.get_put_keyRes _ _ _ _ rfl rfl (.inr (by decide)) (by decide)).trans (d.busy_keyNamed op slot)

/-- KEY_RES of a command that begins: busy, with no result yet. -/
theorem Dev.keyRes_begun (d : Dev) {op slot : Nat} (hop : op < 16) (hs : slot < 256) (i : KeyImage) :
    let e := d.keyBegin op slot i
    e.get (Pg.key 0) KEY0.RES_RESULT = 0 ∧ e.get (Pg.key 0) KEY0.RES_SLOT = slot ∧ e.get (Pg.key 0) KEY0.RES_OP = op ∧ e.get (Pg.key 0) KEY0.RES_BUSY = 1 := by
  intro e
  obtain ⟨hresult, hslot, hop', -⟩ := d.keyRes_refused hop hs (r := 0) (by decide)
  have hput (f : Fld) : e.get (Pg.key 0) f = (((d.keyNamed op slot).put (Pg.key 0) KEY0.RES_RESULT 0).put (Pg.key 0) KEY0.RES_BUSY 1).get (Pg.key 0) f := rfl
  refine ⟨?_, ?_, ?_, ?_⟩
  · exact (hput _).trans ((Dev.get_put_keyRes _ _ _ _ rfl rfl (.inl (by decide)) (by decide)).trans hresult)
  · exact (hput _).trans ((Dev.get_put_keyRes _ _ _ _ rfl rfl (.inl (by decide)) (by decide)).trans hslot)
  · exact (hput _).trans ((Dev.get_put_keyRes _ _ _ _ rfl rfl (.inl (by decide)) (by decide)).trans hop')
  · exact (hput _).trans (Dev.get_put_same _ _ _ _ (by decide))

/-- A served write leaves the key store and the timers alone. -/
theorem Dev.key_served (d : Dev) (m : Master) (pg off v : Nat) : (d.served m pg off v).key = d.key := by
  have h := d.onlyMarks_served m pg off v
  unfold Dev.OnlyMarks at h
  rw [h]

theorem Dev.agenda_served (d : Dev) (m : Master) (pg off v : Nat) : (d.served m pg off v).agenda = d.agenda := by
  have h := d.onlyMarks_served m pg off v
  unfold Dev.OnlyMarks at h
  rw [h]

theorem Dev.pwr_served (d : Dev) (m : Master) (pg off v : Nat) : (d.served m pg off v).pwr = d.pwr := by
  have h := d.onlyMarks_served m pg off v
  unfold Dev.OnlyMarks at h
  rw [h]

theorem Dev.freeNs_served (d : Dev) (m : Master) (pg off v : Nat) : (d.served m pg off v).freeNs = d.freeNs := by
  unfold Dev.freeNs Dev.stepFree Dev.acc
  rw [d.clk_served, d.ts_served]

/-- A flag keeps its value through a served write. -/
theorem Dev.on_served (d : Dev) (m : Master) (pg off v pg' : Nat) (f : Fld) (h : 0x100 ≤ f.off) (h' : f.off < 4096) : (d.served m pg off v).on pg' f = d.on pg' f := by
  unfold Dev.on
  rw [d.get_served _ _ _ _ _ _ h h']

@[simp] theorem State.withDev_key (s : State) (d : Dev) : (s.withDev d).dev.key = d.key := rfl
@[simp] theorem State.withDev_agenda (s : State) (d : Dev) : (s.withDev d).dev.agenda = d.agenda := rfl
theorem State.withDev_on (s : State) (d : Dev) (pg : Nat) (f : Fld) : (s.withDev d).dev.on pg f = d.on pg f := rfl

/-- A command that begins is busy, and waits for its commit with its image (R300). -/
theorem Dev.key_keyBegin (d : Dev) (op slot : Nat) (i : KeyImage) : (d.keyBegin op slot i).key = { d.key with staged := [], run := some ⟨op, slot, d.freeNs, i⟩ } := rfl

theorem Dev.keyBegin_leaves {d e : Dev} {m : Master} {pg off v op slot : Nat} {i : KeyImage} (hop : op < 16) (hs : slot < 256) (he : e = (d.served m pg off v).keyBegin op slot i) :
    e.get (Pg.key 0) KEY0.RES_RESULT = 0 ∧ e.get (Pg.key 0) KEY0.RES_SLOT = slot ∧ e.get (Pg.key 0) KEY0.RES_OP = op ∧ e.on (Pg.key 0) KEY0.RES_BUSY = true ∧
      e.key = { d.key with staged := [], run := some ⟨op, slot, d.freeNs, i⟩ } := by
  obtain ⟨hresult, hslot, hop', hbusy⟩ := (d.served m pg off v).keyRes_begun hop hs i
  subst he
  refine ⟨hresult, hslot, hop', ?_, ?_⟩
  · unfold Dev.on
    rw [hbusy]
    rfl
  · rw [Dev.key_keyBegin, d.key_served, d.freeNs_served]

/-! A command while one runs (R298). -/

theorem Dev.key_keyShown (d : Dev) (op slot r : Nat) : (d.keyShown op slot r).key = { d.key with staged := [] } := rfl

theorem Dev.agenda_keyShown (d : Dev) (op slot r : Nat) : (d.keyShown op slot r).agenda = d.agenda := rfl

theorem Dev.reg_keyShown (d : Dev) (op slot r : Nat) {pg off : Nat} (ho : off < 4096) (h : ¬ (pg = Pg.key 0 ∧ off = 0x1A0)) : (d.keyShown op slot r).reg pg off = d.reg pg off := by
  unfold Dev.keyShown
  rw [Dev.reg_put_ne _ _ _ (by dsimp only [Pg.key] at *; omega), Dev.reg_keyNamed _ _ _ ho h]

/-- A refused command of PF0 leaves everything but KEY_RES and the staging as it was. -/
theorem Dev.keyShown_leaves {d e : Dev} {m : Master} {pg off v op slot r : Nat} (hop : op < 16) (hs : slot < 256) (hr : r < 16) (he : e = (d.served m pg off v).keyShown op slot r) :
    e.get (Pg.key 0) KEY0.RES_RESULT = r ∧ e.get (Pg.key 0) KEY0.RES_SLOT = slot ∧ e.get (Pg.key 0) KEY0.RES_OP = op ∧
      e.on (Pg.key 0) KEY0.RES_BUSY = d.on (Pg.key 0) KEY0.RES_BUSY ∧ e.key = { d.key with staged := [] } ∧ e.agenda = d.agenda ∧
      ∀ pg off, 0x100 ≤ off → off < 4096 → ¬ (pg = Pg.key 0 ∧ off = 0x1A0) → e.reg pg off = d.reg pg off := by
  obtain ⟨hresult, hslot, hop', hbusy⟩ := (d.served m pg off v).keyRes_refused hop hs hr
  subst he
  refine ⟨hresult, hslot, hop', ?_, ?_, ?_, fun pg' off' h1 h2 hne => ?_⟩
  · unfold Dev.on
    rw [← d.get_served m pg off v _ KEY0.RES_BUSY (by decide) (by decide), ← hbusy]
    rfl
  · rw [Dev.key_keyShown, d.key_served]
  · rw [Dev.agenda_keyShown, d.agenda_served]
  · rw [Dev.reg_keyShown _ _ _ _ h2 hne, d.reg_served _ _ _ _ h1 h2]

/-- A command that finds one running is refused with BUSY. -/
theorem Dev.keyRefusal_busy {d : Dev} (h : d.on (Pg.key 0) KEY0.RES_BUSY = true) (own : Nat) : d.keyRefusal own = resBusy := by
  unfold Dev.keyRefusal
  rw [if_pos h]

/-- A key command of PF0 while one runs shows BUSY, clears the staging, and does nothing else. -/
theorem keyCommand_busy {s : State} (h : s.dev.gate .pf0 (Pg.key 0) 0x100 = .served) (hb : s.dev.on (Pg.key 0) KEY0.RES_BUSY = true) {op slot : Nat} (hop : op < 16) (hs : slot < 256)
    (chk : Dev → Nat × KeyImage) (eff : Dev → Dev) :
    ∃ t, (s.run fun d => d.keyCommand .pf0 op slot true chk eff) = .next t ∧ t.dev.get (Pg.key 0) KEY0.RES_RESULT = 2 ∧ t.dev.on (Pg.key 0) KEY0.RES_BUSY = true ∧
      t.dev.key = { s.dev.key with staged := [] } ∧ t.dev.agenda = s.dev.agenda ∧ t.store = s.store ∧ t.dev.clk = s.dev.clk ∧
      ∀ pg off, 0x100 ≤ off → off < 4096 → ¬ (pg = Pg.key 0 ∧ off = 0x1A0) → t.dev.reg pg off = s.dev.reg pg off := by
  have hbusy : (s.took .pf0 (Pg.key 0) 0x100 (slot * 65536 + op)).on (Pg.key 0) KEY0.RES_BUSY = true :=
    (s.dev.on_served _ _ _ _ _ KEY0.RES_BUSY (by decide) (by decide)).trans hb
  have hnext := State.run_keyCommand_refused_pf0 h op slot chk eff (Dev.keyRefusal_busy hbusy _) (by decide)
  generalize he : (s.took .pf0 (Pg.key 0) 0x100 (slot * 65536 + op)).keyShown op slot resBusy = e at hnext
  obtain ⟨hresult, -, -, hbusy', hkey, hagenda, hreg⟩ := Dev.keyShown_leaves hop hs (r := resBusy) (by decide) he.symm
  refine ⟨s.withDev e, hnext, ?_, ?_, ?_, ?_, s.withDev_store e, s.withDev_clk e, fun pg off h1 h2 h3 => ?_⟩
  · rw [s.withDev_get, hresult]
  · rw [s.withDev_on, hbusy', hb]
  · rw [s.withDev_key, hkey]
  · rw [s.withDev_agenda, hagenda]
  · rw [s.withDev_reg, hreg pg off h1 h2 h3]

/-- Settles O26: command by command. -/
theorem busyKeyStoreRefuses : Obligations.BusyKeyStoreRefuses := by
  unfold Obligations.BusyKeyStoreRefuses
  intro s slot blob c h hb hc
  simp only [List.mem_cons, List.not_mem_nil, or_false] at hc
  obtain rfl | rfl | rfl | rfl | rfl | rfl := hc
  · exact keyCommand_busy h hb (op := 1) (by decide) slot.isLt _ _
  · exact keyCommand_busy h hb (op := 2) (by decide) slot.isLt _ _
  · exact keyCommand_busy h hb (op := 3) (by decide) slot.isLt _ _
  · exact keyCommand_busy h hb (op := 4) (by decide) slot.isLt _ _
  · exact keyCommand_busy h hb (op := 5) (by decide) slot.isLt _ _
  · exact keyCommand_busy h hb (op := 6) (slot := 0) (by decide) (by decide) _ _

/-! IMPORT (R298). -/

/-- What an IMPORT is judged by lies in registers and in the staging, which a served write leaves alone. -/
theorem Dev.importOf_served (d : Dev) (m : Master) (pg off v slot : Nat) : (d.served m pg off v).importOf slot = d.importOf slot := by
  have hget (pg' : Nat) (f : Fld) (h : 0x100 ≤ f.off) (h' : f.off < 4096) : (d.served m pg off v).get pg' f = d.get pg' f := d.get_served _ _ _ _ _ _ h h'
  unfold Dev.importOf Dev.installCheck Dev.newAttr Dev.newEpoch Dev.newId Dev.keyState Dev.keyEpoch
  rw [d.key_served, hget _ KEY0.NEW_ATTR (by decide) (by decide), hget _ KEY0.NEW_EPOCH_EPOCH (by decide) (by decide), hget _ KEY0.NEW_ID_ID (by decide) (by decide),
    hget _ (KEY1.ATTR0_STATE (slot % 128)) (by dsimp only; omega) (by dsimp only; omega), hget _ (KEY1.ATTR1_EPOCH (slot % 128)) (by dsimp only; omega) (by dsimp only; omega)]

/-- With no command running, no failing power and a life cycle before RETURNED a command's own check decides. -/
theorem keyRefusal_served {s : State} {m : Master} {v own : Nat} (hb : s.dev.on (Pg.key 0) KEY0.RES_BUSY = false) (hp : s.dev.powerFails = false) (hl : s.dev.lifeCycle < 3) :
    (s.took m (Pg.key 0) 0x100 v).keyRefusal own = own := by
  have hbusy : (s.took m (Pg.key 0) 0x100 v).on (Pg.key 0) KEY0.RES_BUSY = false :=
    (congrArg (· != 0) (s.dev.get_served _ _ _ _ _ KEY0.RES_BUSY (by decide) (by decide))).trans hb
  have hpower : (s.took m (Pg.key 0) 0x100 v).powerFails = false := (congrArg (fun e : PwrEng => e.pfw || e.trip) (s.dev.pwr_served _ _ _ _)).trans hp
  have hlife : (s.took m (Pg.key 0) 0x100 v).lifeCycle = s.dev.lifeCycle := s.dev.get_served _ _ _ _ _ KEY0.LC_STS_LC (by decide) (by decide)
  unfold Dev.keyRefusal
  rw [hbusy, hpower, hlife, if_neg Bool.false_ne_true, if_neg Bool.false_ne_true, if_neg (Nat.not_le.mpr hl)]

theorem importOf_result_lt (d : Dev) (slot : Nat) : (d.importOf slot).1 < 16 := by
  unfold Dev.importOf Dev.installCheck
  dsimp only
  repeat' split
  all_goals decide

/-- Settles O25: the check of an IMPORT decides between a refusal and a begin. -/
theorem keyImportIsChecked : Obligations.KeyImportIsChecked := by
  unfold Obligations.KeyImportIsChecked
  intro s slot hg hb hp hl attr ep words r
  have hchk : (s.took .pf0 (Pg.key 0) 0x100 (slot.val * 65536 + 1)).importOf slot = s.dev.importOf slot := s.dev.importOf_served _ _ _ _ _
  have hr : (s.dev.importOf slot).1 = r := rfl
  have hi : (s.dev.importOf slot).2 = keyImage attr 0x1FF 0 ep (s.dev.get (Pg.key 0) KEY0.NEW_ID_ID) 0 (words.flatMap fun w => oct 4 (w.getD 0)) := rfl
  have hr16 : r < 16 := hr ▸ importOf_result_lt s.dev slot
  have hown : (s.took .pf0 (Pg.key 0) 0x100 (slot.val * 65536 + 1)).keyRefusal ((s.took .pf0 (Pg.key 0) 0x100 (slot.val * 65536 + 1)).importOf slot).1 = r := by
    rw [keyRefusal_served hb hp hl, hchk, hr]
  clear_value r
  by_cases h0 : r = 0
  · have hnext := State.run_keyCommand_begins hg 1 slot rfl (fun d => d.importOf slot) id (hown.trans h0)
    dsimp only [id] at hnext
    rw [hchk, hi] at hnext
    generalize keyImage _ _ _ _ _ _ _ = i at hnext ⊢
    generalize he : (s.took .pf0 (Pg.key 0) 0x100 (slot.val * 65536 + 1)).keyBegin 1 slot i = e at hnext
    obtain ⟨hresult, hslot, hop, hbusy, hkey⟩ := Dev.keyBegin_leaves (op := 1) (by decide) slot.isLt he.symm
    refine ⟨s.withDev e, hnext, ?_, ?_, ?_, ?_, ?_, ?_, fun h => absurd h0 h, fun _ => ?_, s.withDev_clk e, s.withDev_store e⟩
    · rw [s.withDev_get, hresult, h0]
    · rw [s.withDev_get, hslot]
    · rw [s.withDev_get, hop]
    · rw [s.withDev_on, hbusy, decide_eq_true h0]
    · rw [s.withDev_key, hkey]
    · rw [s.withDev_key, hkey]
    · rw [s.withDev_key, hkey]
  · have hnext := State.run_keyCommand_refused_pf0 hg 1 slot (fun d => d.importOf slot) id hown h0
    generalize he : (s.took .pf0 (Pg.key 0) 0x100 (slot.val * 65536 + 1)).keyShown 1 slot r = e at hnext
    obtain ⟨hresult, hslot, hop, hbusy, hkey, -, -⟩ := Dev.keyShown_leaves (op := 1) (by decide) slot.isLt hr16 he.symm
    refine ⟨s.withDev e, hnext, ?_, ?_, ?_, ?_, ?_, ?_, fun _ => ?_, fun h => absurd h h0, s.withDev_clk e, s.withDev_store e⟩
    · rw [s.withDev_get, hresult]
    · rw [s.withDev_get, hslot]
    · rw [s.withDev_get, hop]
    · rw [s.withDev_on, hbusy, hb, decide_eq_false h0]
    · rw [s.withDev_key, hkey]
    · rw [s.withDev_key, hkey]
    · rw [s.withDev_key, hkey]

/-! The lanes (R292). -/

/-- The end of a lane's test in LOAD: it runs, waits for its fence, or faults. -/
theorem katDone_completes (s : State) (n : Fin 16) (hl : s.dev.laneState n = laneLoad) (hd : s.dev.lane[n].draining = false) :
    let d := s.dev.cancel (.katDone n true)
    (s.dev.on (Pg.cl n) CL.CTL_FENCE = false → exec (.katDone n true) s = .next (s.withDev (d.laneEnter n laneRun))) ∧
    (s.dev.on (Pg.cl n) CL.CTL_FENCE = true → exec (.katDone n true) s = .next (s.withDev (d.upLane n fun e => { e with passed := true }))) ∧
    exec (.katDone n false) s = .next (s.withDev ((d.laneEnter n laneFault).raise (Pg.cl n) 2 1)) := by
  intro d
  have hwaits : ¬ (d.laneState n ≠ laneLoad ∨ d.lane[n].draining = true) := by
    rintro (h | h)
    · exact h hl
    · exact Bool.false_ne_true (hd.symm.trans h)
  have hrun (pass : Bool) : exec (.katDone n pass) s = .next (s.withDev (if !pass then (d.laneEnter n laneFault).raise (Pg.cl n) 2 1
      else if d.on (Pg.cl n) CL.CTL_FENCE then d.upLane n fun e => { e with passed := true } else d.laneEnter n laneRun)) := by
    show execKatDone n pass s = _
    rw [execKatDone, State.run_eq]
    dsimp only
    rw [if_neg hwaits]
  have hfence : d.on (Pg.cl n) CL.CTL_FENCE = s.dev.on (Pg.cl n) CL.CTL_FENCE := rfl
  refine ⟨fun hf => ?_, fun hf => ?_, hrun false⟩
  · rw [hrun, hfence, hf]
    rfl
  · rw [hrun, hfence, hf]
    rfl

theorem fenceWrite_completes (s : State) (m : Master) (n : Fin 16) (v : Nat) (h : Served s m (Pg.cl n) 0x100) :
    let d := (s.took m (Pg.cl n) 0x100 v).storeReg (Pg.cl n) 0x100 v
    (d.on (Pg.cl n) CL.CTL_FENCE = true → d.laneState n = laneRun → exec (.fenceWrite m n v) s = .next (s.withDev ((d.laneEnter n laneFenced).redispatch n))) ∧
    (d.on (Pg.cl n) CL.CTL_FENCE = false → d.laneState n = laneLoad → d.lane[n].passed = true → exec (.fenceWrite m n v) s = .next (s.withDev (d.laneEnter n laneRun))) := by
  intro d
  refine ⟨fun hf hr => (State.run_writeStore h v _).trans ?_, fun hf hl hp => (State.run_writeStore h v _).trans ?_⟩
  · rw [if_pos hf, if_pos hr]
  · rw [if_neg (by rw [hf]; decide), if_pos ⟨hl, hp⟩]

theorem laneCommands_complete (s : State) (m : Master) (n : Fin 16) (h : Served s m (Pg.cl n) 0x104) :
    (let d := s.took m (Pg.cl n) 0x104 1
     d.laneState n = laneRun → exec (.katNow m n) s = .next (s.withDev (d.laneWake n))) ∧
    (let d := s.took m (Pg.cl n) 0x104 2
     d.on (Pg.cl n) CL.CTL_FENCE = false → (d.laneState n = laneFenced ∨ d.laneState n = laneFault) → exec (.unfence m n) s = .next (s.withDev (d.laneWake n))) := by
  refine ⟨fun hr => (State.run_write h 1 _).trans ?_, fun hf hs => (State.run_write h 2 _).trans ?_⟩
  · rw [if_pos hr]
  · rw [if_pos]
    rw [hf, Bool.not_false, Bool.true_and, Bool.or_eq_true, beq_iff_eq, beq_iff_eq]
    exact hs

theorem cryptoOp_completes (s : State) (n : Fin 16) (o : LaneOp) (q : List LaneOp) (h : s.dev.lane[n].queue = o :: q) :
    exec (.cryptoOp n true) s = .next (s.withStore (laneDone (s.store, s.dev.cancel (.cryptoOp n true)) n o q)) ∧
    exec (.cryptoOp n false) s = .next (s.withStore (s.store, (s.dev.cancel (.cryptoOp n true)).laneBad n o q)) := by
  have hq : (s.dev.cancel (.cryptoOp n true)).lane[n].queue = o :: q := h
  have hrun (ok : Bool) : exec (.cryptoOp n ok) s =
      .next (s.withStore (if ok then laneDone (s.store, s.dev.cancel (.cryptoOp n true)) n o q else (s.store, (s.dev.cancel (.cryptoOp n true)).laneBad n o q))) := by
    show execCryptoOp n ok s = _
    rw [execCryptoOp, State.runStore_eq]
    dsimp only
    rw [hq]
  exact ⟨hrun true, hrun false⟩

/-! The commands that nothing refuses (R298 to R301). -/

theorem keyInstalls_complete (s : State) (slot : Fin 256) (h : s.dev.gate .pf0 (Pg.key 0) 0x100 = .served) :
    (let d := s.took .pf0 (Pg.key 0) 0x100 (slot.val * 65536 + 1)
     d.keyRefusal (d.importOf slot).1 = 0 → exec (.importKey .pf0 slot) s = .next (s.withDev (d.keyBegin 1 slot (d.importOf slot).2))) ∧
    (let d := s.took .pf0 (Pg.key 0) 0x100 (slot.val * 65536 + 2)
     d.keyRefusal (d.deriveOf slot).1 = 0 → exec (.deriveKey .pf0 slot) s = .next (s.withDev (d.keyBegin 2 slot (d.deriveOf slot).2))) ∧
    (let d := s.took .pf0 (Pg.key 0) 0x100 6
     d.keyRefusal 0 = 0 → exec (.keyAbort .pf0) s = .next (s.withDev (d.keyBegin 6 0 {}).keyCleared)) :=
  ⟨State.run_keyCommand_begins h 1 slot rfl (fun d => d.importOf slot) id, State.run_keyCommand_begins h 2 slot rfl (fun d => d.deriveOf slot) id,
    State.run_keyCommand_begins h 6 0 rfl (fun _ => (0, {})) Dev.keyCleared⟩

theorem keyInvalidations_complete (s : State) (m : Master) (slot : Fin 256) (h : s.dev.gate m (Pg.key 0) 0x100 = .served) (hm : mayInvalidate m = true) :
    (let d := s.took m (Pg.key 0) 0x100 (slot.val * 65536 + 3)
     d.keyRefusal 0 = 0 → d.keyState slot = keyActive → exec (.retireKey m slot) s = .next (s.withDev ((d.keyBegin 3 slot (d.imageIn slot keyStale)).blockKeys slot))) ∧
    (let d := s.took m (Pg.key 0) 0x100 (slot.val * 65536 + 4)
     d.keyRefusal 0 = 0 → (d.keyState slot = keyActive ∨ d.keyState slot = keyStale) →
      exec (.destroyKey m slot) s = .next (s.withDev ((d.keyBegin 4 slot (d.imageIn slot keyDestroyed)).blockKeys slot))) := by
  refine ⟨fun hr hs => ?_, fun hr hs => ?_⟩
  · refine State.run_keyCommand_begins h 3 slot hm (fun d => (if d.keyState slot = keyActive then 0 else resState, d.imageIn slot keyStale)) (fun d => d.blockKeys slot) ?_
    dsimp only
    rw [if_pos hs]
    exact hr
  · refine State.run_keyCommand_begins h 4 slot hm (fun d => (if d.keyState slot = keyActive ∨ d.keyState slot = keyStale then 0 else resState, d.imageIn slot keyDestroyed)) (fun d => d.blockKeys slot) ?_
    dsimp only
    rw [if_pos hs]
    exact hr

/-- An UNWRAP of the link begins, or is counted as a missed mirror (R411). -/
theorem unwrapKey_completes (s : State) (slot : Fin 256) (blob : List Nat) (h : s.dev.gate .kwager (Pg.key 0) 0x100 = .served) :
    let d := s.took .kwager (Pg.key 0) 0x100 (slot.val * 65536 + 5)
    let r := d.keyRefusal (d.unwrapOf .kwager slot blob).1
    exec (.unwrapKey .kwager slot blob) s = .next (s.withDev (if r ≠ 0 then ((d.keyNamed 5 slot).put (Pg.key 0) KEY0.RES_RESULT r).count Pg.plk (PLK.CNT_COUNT 3) else d.keyBegin 5 slot (d.unwrapOf .kwager slot blob).2)) := by
  intro d r
  by_cases hr : r = 0
  · rw [if_neg (not_not_intro hr)]
    exact State.run_keyCommand_begins h 5 slot rfl (fun d => d.unwrapOf .kwager slot blob) id hr
  · rw [if_pos hr]
    exact State.run_keyCommand_refused h 5 slot rfl (fun d => d.unwrapOf .kwager slot blob) id rfl hr

theorem keyCommit_completes (s : State) (r : KeyRun) (h : s.dev.key.run = some r) : exec .keyCommit s = .next (s.withDev (s.dev.keyDone r)) := by
  show execKeyCommit s = _
  rw [execKeyCommit, State.run_eq, h]

/-- Settles O53: command by command. -/
theorem laneAndKeyCommandsComplete : Obligations.LaneAndKeyCommandsComplete := by
  unfold Obligations.LaneAndKeyCommandsComplete
  refine fun s => ⟨katDone_completes s, fenceWrite_completes s, laneCommands_complete s, cryptoOp_completes s, fun m slot h => ⟨?_, keyInvalidations_complete s m slot h, ?_⟩, keyCommit_completes s,
    fun v h => State.run_keyWrite h v rfl _, fun m hm h => State.run_keyWrite h 1 ?_ _, fun h => State.run_keyWrite h 1 rfl _⟩
  · rintro rfl
    exact keyInstalls_complete s slot h
  · rintro blob rfl
    exact unwrapKey_completes s slot blob h
  · obtain rfl | rfl := hm
    · rfl
    · rfl

end Sys2Proof.Machine
end

section
/-! PROOF. The life cycle moves forward (O27). -/

namespace Sys2Proof.Machine

/-! What leaves KEY_LC_STS.LC as it is (R311). -/

theorem calm_lifeCycle : Calm (Pg.key 0) 0x1B0 := by
  unfold Calm
  decide

theorem Dev.lifeCycle_of_reg {d e : Dev} (h : e.reg (Pg.key 0) 0x1B0 = d.reg (Pg.key 0) 0x1B0) : e.lifeCycle = d.lifeCycle := congrArg (Fld.get KEY0.LC_STS_LC) h

theorem Dev.lifeCycle_put (d : Dev) (pg : Nat) (f : Fld) (v : Nat) (h : 4096 * Pg.key 0 + 0x1B0 ≠ 4096 * pg + f.off) : (d.put pg f v).lifeCycle = d.lifeCycle :=
  Dev.lifeCycle_of_reg (d.reg_put_ne f v h)

theorem Dev.lifeCycle_upKey (d : Dev) (f : KeyEng → KeyEng) : (d.upKey f).lifeCycle = d.lifeCycle := rfl

theorem Dev.lifeCycle_int (d : Dev) (pg b : Nat) : (d.int pg b).lifeCycle = d.lifeCycle := Dev.lifeCycle_of_reg (d.reg_int _ _ calm_lifeCycle)

theorem Dev.lifeCycle_record (d : Dev) (typ source : Nat) (p : List Nat) : (d.record typ source p).lifeCycle = d.lifeCycle := Dev.lifeCycle_of_reg (d.reg_record _ _ _ _ _ calm_lifeCycle)

theorem Dev.lifeCycle_pmc (d : Dev) (pg ev : Nat) (a : Attr) : (d.pmc pg ev a).lifeCycle = d.lifeCycle := Dev.lifeCycle_of_reg (d.reg_pmc _ _ _ (by decide) (by decide))

theorem Dev.lifeCycle_discCount (d : Dev) : (d.count (Pg.key 0) KEY0.WR_DISC_COUNT).lifeCycle = d.lifeCycle :=
  Dev.lifeCycle_of_reg (d.reg_count _ _ _ (by decide) (by decide) (by decide) (.inr (by decide)))

theorem Dev.lifeCycle_discard (d : Dev) (g : Gate) (pg : Nat) : (d.discard g pg).lifeCycle = d.lifeCycle :=
  Dev.lifeCycle_of_reg (d.reg_discard _ _ (by decide) (by decide) (by decide))

theorem Dev.lifeCycle_served (d : Dev) (m : Master) (pg off v : Nat) : (d.served m pg off v).lifeCycle = d.lifeCycle := d.get_served _ _ _ _ _ KEY0.LC_STS_LC (by decide) (by decide)

theorem Dev.lifeCycle_keyChanged (d : Dev) (slot old new cause : Nat) : (d.keyChanged slot old new cause).lifeCycle = d.lifeCycle := by
  unfold Dev.keyChanged
  split
  · rfl
  · rw [Dev.lifeCycle_int, Dev.lifeCycle_record]

/-- A register of a slot's attributes is no register of page KEY 0. -/
theorem Dev.lifeCycle_putSlot (d : Dev) (slot : Nat) (f : Fld) (v : Nat) (h : f.off < 4096) : (d.put (keyPg slot) f v).lifeCycle = d.lifeCycle :=
  d.lifeCycle_put _ _ _ (by dsimp only [keyPg, Pg.key]; omega)

theorem Dev.lifeCycle_showSlot (d : Dev) (slot : Nat) (i : KeyImage) : (d.showSlot slot i).lifeCycle = d.lifeCycle := by
  unfold Dev.showSlot
  dsimp only
  rw [Dev.lifeCycle_putSlot _ _ _ _ (by dsimp only; omega), Dev.lifeCycle_putSlot _ _ _ _ (by dsimp only; omega), Dev.lifeCycle_putSlot _ _ _ _ (by dsimp only; omega),
    Dev.lifeCycle_putSlot _ _ _ _ (by dsimp only; omega)]

theorem Dev.lifeCycle_setSlot (d : Dev) (slot : Nat) (i : KeyImage) : (d.setSlot slot i).lifeCycle = d.lifeCycle := by
  have hslot : (((d.upKey fun e => { e with nv := sset (fun _ => ({} : KeyImage)) e.nv slot i }).showSlot slot i).keyChanged slot (d.keyState slot) (i.a0 / 2 ^ 30) slot).lifeCycle = d.lifeCycle := by
    rw [Dev.lifeCycle_keyChanged, Dev.lifeCycle_showSlot]
    rfl
  unfold Dev.setSlot
  dsimp only
  split
  · refine (Dev.each_proj Dev.lifeCycle _ (fun k e => ?_) _ _).trans hslot
    rw [Dev.lifeCycle_keyChanged, Dev.lifeCycle_putSlot _ _ _ _ (by dsimp only; omega)]
  · exact hslot

theorem Dev.lifeCycle_laneShow (d : Dev) (n : Fin 16) : (d.laneShow n).lifeCycle = d.lifeCycle := by
  unfold Dev.laneShow
  dsimp only
  rw [Dev.lifeCycle_put _ _ _ _ (by dsimp only [Pg.cl, Pg.key]; omega), Dev.lifeCycle_put _ _ _ _ (by dsimp only [Pg.cl, Pg.key]; omega)]

theorem Dev.lifeCycle_ntsShow (d : Dev) : d.ntsShow.lifeCycle = d.lifeCycle := by
  unfold Dev.ntsShow
  split
  · rfl
  · rw [Dev.lifeCycle_int]
    exact d.lifeCycle_put _ _ _ (by decide)

theorem Dev.lifeCycle_keyFollow (d : Dev) : d.keyFollow.lifeCycle = d.lifeCycle := by
  unfold Dev.keyFollow
  rw [Dev.lifeCycle_ntsShow, Dev.each_proj Dev.lifeCycle _ fun n e => e.lifeCycle_laneShow n]

theorem Dev.lifeCycle_showLife (d : Dev) : d.showLife.lifeCycle = d.lifeCycle := by
  unfold Dev.showLife
  rw [Dev.lifeCycle_put _ _ _ _ (by decide), Dev.lifeCycle_put _ _ _ _ (by decide)]

theorem Dev.lifeCycle_renewNonce (d : Dev) : d.renewNonce.lifeCycle = d.lifeCycle := by
  unfold Dev.renewNonce Dev.putOctets
  dsimp only
  rw [Dev.each_proj Dev.lifeCycle _ fun k e => e.lifeCycle_put _ _ _ (by dsimp only [Pg.key]; omega)]
  rfl

/-! A token (R311, R312). -/

/-- The other fields of KEY_LC_STS lie beside LC. -/
theorem Dev.lifeCycle_putBeside (d : Dev) (f : Fld) (v : Nat) (h : f.off = 0x1B0) (hlo : 2 < f.lo) : (d.put (Pg.key 0) f v).lifeCycle = d.lifeCycle :=
  d.get_put_disj _ f KEY0.LC_STS_LC v h.symm (.inl hlo) (by decide)

/-- An accepted token of a state below 8 takes the life cycle there. -/
theorem Dev.lifeCycle_lifeTo (d : Dev) {tgt : Nat} (t : List Nat) (h : tgt < 8) : (d.lifeTo tgt t).lifeCycle = tgt := by
  have hput : (d.put (Pg.key 0) KEY0.LC_STS_LC tgt).lifeCycle = tgt := (d.get_put_same _ _ _ (by decide)).trans (Nat.mod_eq_of_lt h)
  unfold Dev.lifeTo
  extract_lets pg a b c keep e f g k
  have hb : b.lifeCycle = tgt := by
    dsimp only [b]
    split
    · rw [Dev.lifeCycle_putBeside _ KEY0.LC_STS_OWNER 1 rfl (by decide), Dev.lifeCycle_upKey]
      exact hput
    · exact hput
  have hc : c.lifeCycle = tgt := by
    dsimp only [c]
    split
    · rw [Dev.lifeCycle_putBeside _ KEY0.LC_STS_ROOT 4 rfl (by decide), hb]
    · exact hb
  have he : e.lifeCycle = tgt := (Dev.lifeCycle_put _ _ _ _ (by decide)).trans hc
  have hf : f.lifeCycle = tgt := by
    refine (Dev.each_proj Dev.lifeCycle _ (fun k e => ?_) _ _).trans he
    split
    · rfl
    · exact e.lifeCycle_setSlot _ _
  have hg : g.lifeCycle = tgt := by
    dsimp only [g]
    split
    · rw [Dev.lifeCycle_upKey, hf]
    · exact hf
  rw [Dev.lifeCycle_keyFollow, Dev.lifeCycle_showLife]
  exact hg

/-- A token is accepted only when it names the next state, which is none beyond SCRAPPED. -/
theorem Dev.tokenResult_accepts {d : Dev} {t : List Nat} (h : d.tokenResult t = 1) : (t.drop 4).headD 0 = d.lifeCycle + 1 ∧ (t.drop 4).headD 0 ≤ 4 := by
  have hhead : ((t.drop 4).take 1).headD 0 = (t.drop 4).headD 0 := by cases t.drop 4 <;> rfl
  unfold Dev.tokenResult at h
  dsimp only at h
  rw [hhead] at h
  split at h
  · exact absurd h (by decide)
  split at h
  · exact absurd h (by decide)
  split at h
  · exact absurd h (by decide)
  · omega

/-- A token moves the life cycle one step forward or not at all. -/
theorem Dev.lifeCycle_tokenTake (d : Dev) (t : List Nat) : (d.tokenTake t).lifeCycle = d.lifeCycle ∨ ((d.tokenTake t).lifeCycle = d.lifeCycle + 1 ∧ (d.tokenTake t).lifeCycle ≤ 4) := by
  have hrest : (d.tokenTake t).lifeCycle = (d.when (d.tokenResult t == 1) fun d => d.lifeTo ((t.drop 4).headD 0) t).lifeCycle := by
    unfold Dev.tokenTake
    dsimp only
    rw [Dev.lifeCycle_renewNonce, Dev.lifeCycle_int, Dev.lifeCycle_record, Dev.lifeCycle_put _ _ _ _ (by decide)]
  rw [hrest]
  by_cases hr : d.tokenResult t = 1
  · obtain ⟨hnext, hlast⟩ := Dev.tokenResult_accepts hr
    rw [hr, show (d.when (1 == 1) fun d => d.lifeTo ((t.drop 4).headD 0) t) = d.lifeTo ((t.drop 4).headD 0) t from rfl, Dev.lifeCycle_lifeTo _ _ (by omega)]
    exact .inr ⟨hnext, hlast⟩
  · rw [beq_eq_false_iff_ne.mpr hr]
    exact .inl rfl

/-- A submission moves the life cycle one step forward or not at all, whoever makes it. -/
theorem Dev.lifeCycle_submit (d : Dev) (m : Master) :
    let e := d.keyWrite m (Pg.key 0) 0x340 1 (m == .pf0) fun d => d.tokenTake d.tokenOctets
    e.lifeCycle = d.lifeCycle ∨ (e.lifeCycle = d.lifeCycle + 1 ∧ e.lifeCycle ≤ 4) := by
  dsimp only
  unfold Dev.keyWrite
  dsimp only
  split
  case h_1 => exact .inl ((Dev.lifeCycle_discCount _).trans (d.lifeCycle_discard _ _))
  case h_2 =>
    split
    · rw [← d.lifeCycle_served m (Pg.key 0) 0x340 1]
      exact Dev.lifeCycle_tokenTake _ _
    · exact .inl ((Dev.lifeCycle_pmc _ _ _ _).trans d.lifeCycle_discCount)
  case h_3 => exact .inl (d.lifeCycle_discard _ _)

/-- Settles O27: the state that is submitted to is the device's own, with its clock and its store. -/
theorem lifeCycleMovesForward : Obligations.LifeCycleMovesForward := by
  unfold Obligations.LifeCycleMovesForward
  intro m s
  refine ⟨_, State.run_eq s (fun d => d.keyWrite m (Pg.key 0) 0x340 1 (m == .pf0) fun d => d.tokenTake d.tokenOctets), s.withDev_store _, s.withDev_clk _, ?_⟩
  exact s.dev.lifeCycle_submit m

end Sys2Proof.Machine
end

section
/-! PROOF. The instructions of a sequencer: its arithmetic and jumps (O22), its stack (O23) and its words (O24). -/

namespace Sys2Proof.Machine

/-! What stays beside a sequencer: a change of its registers, of its engine, and of what it waits for. -/

/-- Nothing but one sequencer, and the commands that wait, differs. -/
def Dev.SeqAlone (n : Fin 8) (d e : Dev) : Prop :=
  e = { d with regs := e.regs, agenda := e.agenda, alarms := e.alarms, events := e.events, hwSet := e.hwSet, seq := e.seq } ∧ (∀ k : Fin 8, k ≠ n → e.seq[k] = d.seq[k]) ∧
    ∀ pg off, off < 4096 → pg ≠ Pg.seq n → e.reg pg off = d.reg pg off

namespace Dev.SeqAlone

variable {n : Fin 8} {d e f : Dev}

theorem trans (h : d.SeqAlone n e) (h' : e.SeqAlone n f) : d.SeqAlone n f := by
  obtain ⟨heq, hseq, hreg⟩ := h
  obtain ⟨heq', hseq', hreg'⟩ := h'
  refine ⟨heq'.trans ?_, fun k hk => (hseq' k hk).trans (hseq k hk), fun pg off ho hp => (hreg' pg off ho hp).trans (hreg pg off ho hp)⟩
  rw [heq]

/-- A change of the agenda and the alarms. -/
theorem waits (d : Dev) (a : List (Nat × Instr)) (l : List (Ts × Int × Instr)) : d.SeqAlone n { d with agenda := a, alarms := l } := ⟨rfl, fun _ _ => rfl, fun _ _ _ _ => rfl⟩

theorem refl (d : Dev) : d.SeqAlone n d := waits d d.agenda d.alarms

theorem put (d : Dev) (n : Fin 8) (f : Fld) (v : Nat) (h : f.off < 4096) : d.SeqAlone n (d.put (Pg.seq n) f v) :=
  ⟨rfl, fun _ _ => rfl, fun pg off ho hp => d.reg_put_ne _ _ (by omega)⟩

theorem setV (d : Dev) (n a : Fin 8) (x : Nat) : d.SeqAlone n (d.setV n a x) := put d n _ _ (by dsimp only; omega)

theorem upSeq (d : Dev) (n : Fin 8) (g : SeqEng → SeqEng) : d.SeqAlone n (d.upSeq n g) := by
  refine ⟨rfl, fun k hk => ?_, fun _ _ _ _ => rfl⟩
  show (d.seq.set n (g d.seq[n]))[k] = d.seq[k]
  exact Vector.getElem_set_ne _ _ (fun h => hk (Fin.ext h.symm))

theorem taken (d : Dev) (n : Fin 8) : d.SeqAlone n (d.seqTaken n) := by
  unfold Dev.seqTaken
  split
  case h_1 i _ => exact (waits d _ _).trans (upSeq (d.cancel i) n _)
  case h_2 => exact refl d

end Dev.SeqAlone

/-! What an instruction does to the registers of its sequencer. -/

theorem Dev.regs_seqTaken (d : Dev) (n : Fin 8) : (d.seqTaken n).regs = d.regs := by
  unfold Dev.seqTaken
  split
  case h_1 => rfl
  case h_2 => rfl

theorem Dev.v_seqTaken (d : Dev) (n : Fin 8) : (d.seqTaken n).v n = d.v n := funext fun _ => Dev.get_congr (d.regs_seqTaken n) _ _
theorem Dev.seqState_seqTaken (d : Dev) (n : Fin 8) : (d.seqTaken n).seqState n = d.seqState n := Dev.get_congr (d.regs_seqTaken n) _ _
theorem Dev.seqPc_seqTaken (d : Dev) (n : Fin 8) : (d.seqTaken n).seqPc n = d.seqPc n := Dev.get_congr (d.regs_seqTaken n) _ _
theorem Dev.instrWord_seqTaken (d : Dev) (n : Fin 8) (i : Nat) : (d.seqTaken n).instrWord n i = d.instrWord n i := Dev.get_congr (d.regs_seqTaken n) _ _

theorem Dev.v_lt (d : Dev) (n a : Fin 8) : d.v n a < 2 ^ 32 := Fld.get_lt (SEQ.V_V a) _
theorem Dev.instrWord_lt (d : Dev) (n : Fin 8) (i : Nat) : d.instrWord n i < 2 ^ 32 := Fld.get_lt (SEQ.I_INSTR i) _

theorem Dev.v_setV (d : Dev) (n a j : Fin 8) (x : Nat) : (d.setV n a x).v n j = if j = a then x % 2 ^ 32 else d.v n j := by
  unfold Dev.v Dev.setV
  split
  case isTrue h =>
    subst h
    exact (d.get_put_same _ _ _ (show 31 < 96 by decide)).trans (Nat.mod_mod _ _)
  case isFalse h =>
    exact d.get_put_ne _ _ _ (by dsimp only; have := Fin.val_ne_of_ne h; omega)

theorem Dev.get_setV (d : Dev) (n a : Fin 8) (x : Nat) (f : Fld) (h : f.off < 0x180 ∨ 0x1A0 ≤ f.off) : (d.setV n a x).get (Pg.seq n) f = d.get (Pg.seq n) f :=
  d.get_put_ne _ _ _ (by dsimp only; omega)

theorem Dev.seqState_setV (d : Dev) (n a : Fin 8) (x : Nat) : (d.setV n a x).seqState n = d.seqState n := d.get_setV n a x _ (.inl (by decide))
theorem Dev.seqPc_setV (d : Dev) (n a : Fin 8) (x : Nat) : (d.setV n a x).seqPc n = d.seqPc n := d.get_setV n a x _ (.inl (by decide))
theorem Dev.instrWord_setV (d : Dev) (n a : Fin 8) (x i : Nat) : (d.setV n a x).instrWord n i = d.instrWord n i := d.get_setV n a x _ (.inr (by dsimp only; omega))

/-! The fetch of the next instruction (R330, R336). -/

/-- An address a sequencer can go to: a word of its program, and at the last one no WR, whose second word is missing. -/
def Dev.Fetches (d : Dev) (n : Fin 8) (pc : Nat) : Prop := pc < 512 ∧ (pc = 511 → d.instrWord n 511 / 2 ^ 27 ≠ 1)

/-- The fetch shows the address and waits for the issue; the rest of the sequencer's registers stays. -/
theorem Dev.seqFetch_spec {d : Dev} {n : Fin 8} {pc : Nat} (h : d.Fetches n pc) (dt : Nat) :
    d.SeqAlone n (d.seqFetch n pc dt) ∧ (d.seqFetch n pc dt).regs = (d.put (Pg.seq n) SEQ.STS_PC pc).regs := by
  obtain ⟨hpc, hwr⟩ := h
  have hput := Dev.SeqAlone.put d n SEQ.STS_PC pc (by decide)
  have hword (i : Nat) : (d.put (Pg.seq n) SEQ.STS_PC pc).instrWord n i = d.instrWord n i := d.get_put_ne _ _ _ (by dsimp only; omega)
  have hok : ¬ ((d.put (Pg.seq n) SEQ.STS_PC pc).instrWord n pc / 2 ^ 27 % 32 = 1 ∧ pc = 511) := by
    rintro ⟨h1, rfl⟩
    rw [hword] at h1
    have hlt := d.instrWord_lt n 511
    have hne := hwr rfl
    omega
  unfold Dev.seqFetch
  rw [if_neg (Nat.not_le.mpr hpc)]
  dsimp only
  rw [if_neg hok]
  split
  · exact ⟨hput.trans (.upSeq _ _ _), rfl⟩
  · exact ⟨(hput.trans (.upSeq _ _ _)).trans (.waits _ _ _), rfl⟩

/-- A sequencer that goes on to an address. -/
theorem seqWent_of_fetch {s : State} {n : Fin 8} {d : Dev} {pc : Nat} {V : Fin 8 → Nat} (ha : s.dev.SeqAlone n d) (hs : d.seqState n = seqRun) (hv : ∀ j, d.v n j = V j)
    (hf : d.Fetches n pc) (dt : Nat) : SeqWent s (s.withDev (d.seqFetch n pc dt)) n pc V := by
  obtain ⟨halone, hregs⟩ := Dev.seqFetch_spec hf dt
  obtain ⟨heq, hseq, hreg⟩ := ha.trans halone
  have hget (f : Fld) : (d.seqFetch n pc dt).get (Pg.seq n) f = (d.put (Pg.seq n) SEQ.STS_PC pc).get (Pg.seq n) f := Dev.get_congr hregs _ _
  generalize d.seqFetch n pc dt = e at *
  refine ⟨rfl, rfl, ?_, ?_, ?_, fun j => ?_, hseq, hreg⟩
  · show ({ e with clk := s.dev.clk } : Dev) = _
    exact congrArg (fun x : Dev => { x with clk := s.dev.clk }) heq
  · show e.get (Pg.seq n) SEQ.STS_STATE = seqRun
    rw [hget, d.get_put_disj _ SEQ.STS_PC SEQ.STS_STATE _ rfl (.inr (by decide)) (by decide)]
    exact hs
  · show e.get (Pg.seq n) SEQ.STS_PC = pc
    rw [hget, d.get_put_same _ _ _ (by decide)]
    exact Nat.mod_eq_of_lt hf.1
  · show e.get (Pg.seq n) (SEQ.V_V j) = V j
    rw [hget, d.get_put_ne _ _ _ (by dsimp only; omega)]
    exact hv j

/-! Arithmetic and jumps (R334). -/

/-- An instruction of a sequencer in RUN has its effect once it is taken up. -/
theorem State.run_seqIssue {s : State} {n : Fin 8} (hs : s.dev.seqState n = seqRun) (hf : s.dev.seq[n].frozen = false) (f : Dev → Dev) :
    (s.run fun d => d.seqIssue n f) = .next (s.withDev (f (s.dev.seqTaken n))) := State.run_of_eq (f := fun d => d.seqIssue n f) (Dev.seqIssue_run hs hf f)

/-- Va takes a value. -/
def seqUpd (d : Dev) (n a : Fin 8) (x : Nat) (j : Fin 8) : Nat := if j = a then x else d.v n j

section
variable {s : State} {n : Fin 8} (hs : s.dev.seqState n = seqRun)
include hs

/-- A jump that leaves V0 to V7. -/
theorem seqJump_went {T : Nat} (hT : s.dev.Fetches n T) :
    SeqWent s (s.withDev ((s.dev.seqTaken n).seqFetch n T 2)) n T (s.dev.v n) := by
  refine seqWent_of_fetch (.taken _ _) ((s.dev.seqState_seqTaken n).trans hs) (fun j => congrFun (s.dev.v_seqTaken n) j) ⟨hT.1, fun h => ?_⟩ 2
  rw [Dev.instrWord_seqTaken]
  exact hT.2 h

/-- A result in Va, and a jump. -/
theorem seqSetJump_went (a : Fin 8) (x : Nat) {T : Nat} (hT : s.dev.Fetches n T) :
    SeqWent s (s.withDev (((s.dev.seqTaken n).setV n a x).seqFetch n T 2)) n T (seqUpd s.dev n a (x % 2 ^ 32)) := by
  refine seqWent_of_fetch ((Dev.SeqAlone.taken _ _).trans (.setV _ _ _ _)) ?_ (fun j => ?_) ⟨hT.1, fun h => ?_⟩ 2
  · rw [Dev.seqState_setV, Dev.seqState_seqTaken, hs]
  · rw [Dev.v_setV, Dev.v_seqTaken]
    rfl
  · rw [Dev.instrWord_setV, Dev.instrWord_seqTaken]
    exact hT.2 h

/-- An instruction that leaves V0 to V7 goes on with the next word. -/
theorem seqNext_went (hpc : s.dev.seqPc n < 510) : SeqWent s (s.withDev ((s.dev.seqTaken n).seqNext n 1 2)) n (s.dev.seqPc n + 1) (s.dev.v n) := by
  unfold Dev.seqNext
  rw [Dev.seqPc_seqTaken]
  exact seqJump_went hs ⟨by omega, fun h => absurd h (by omega)⟩

/-- A result in Va, and the next word. -/
theorem seqSetNext_went (hpc : s.dev.seqPc n < 510) (a : Fin 8) (x : Nat) :
    SeqWent s (s.withDev (((s.dev.seqTaken n).setV n a x).seqNext n 1 2)) n (s.dev.seqPc n + 1) (seqUpd s.dev n a (x % 2 ^ 32)) := by
  unfold Dev.seqNext
  rw [Dev.seqPc_setV, Dev.seqPc_seqTaken]
  exact seqSetJump_went hs a x ⟨by omega, fun h => absurd h (by omega)⟩

/-- An arithmetic instruction: its result in Va, cut to 32 bits. -/
theorem seqAlu_went (hf : s.dev.seq[n].frozen = false) (hpc : s.dev.seqPc n < 510) (a : Fin 8) (g : Dev → Nat) {z : Nat} (hz : g (s.dev.seqTaken n) % 2 ^ 32 = z) :
    ∃ t, (s.run fun d => d.seqIssue n fun d => (d.setV n a (g d)).seqNext n 1 2) = .next t ∧ SeqWent s t n (s.dev.seqPc n + 1) (seqUpd s.dev n a z) := by
  subst hz
  exact ⟨_, State.run_seqIssue hs hf _, seqSetNext_went hs hpc a _⟩

/-- A conditional jump. -/
theorem seqBranch_went (hpc : s.dev.seqPc n < 510) {T : Nat} (hT : s.dev.Fetches n T) (c : Prop) [Decidable c] :
    SeqWent s (s.withDev (if c then (s.dev.seqTaken n).seqFetch n T 2 else (s.dev.seqTaken n).seqNext n 1 2)) n (if c then T else s.dev.seqPc n + 1) (s.dev.v n) := by
  split
  · exact seqJump_went hs hT
  · exact seqNext_went hs hpc

/-- DJNZ counts Va down, and jumps while it is not zero. -/
theorem seqDjnz_went (hpc : s.dev.seqPc n < 510) (a : Fin 8) {T : Nat} (hT : s.dev.Fetches n T) {x : Nat} (hx : x < 2 ^ 32) :
    SeqWent s (s.withDev (if x ≠ 0 then ((s.dev.seqTaken n).setV n a x).seqFetch n T 2 else ((s.dev.seqTaken n).setV n a x).seqNext n 1 2)) n
      (if x = 0 then s.dev.seqPc n + 1 else T) (seqUpd s.dev n a x) := by
  by_cases h0 : x = 0
  · rw [if_pos h0, if_neg (not_not_intro h0)]
    have hwent := seqSetNext_went hs hpc a x
    rwa [Nat.mod_eq_of_lt hx] at hwent
  · rw [if_neg h0, if_pos h0]
    have hwent := seqSetJump_went hs a x hT
    rwa [Nat.mod_eq_of_lt hx] at hwent

end

theorem Dev.seqOperand_seqTaken (d : Dev) (n b : Fin 8) (imm : Bool) (k : Nat) : (d.seqTaken n).seqOperand n imm b k = d.seqOperand n imm b k := by
  unfold Dev.seqOperand
  rw [Dev.v_seqTaken]

theorem Dev.seqOperand_lt (d : Dev) (n b : Fin 8) (imm : Bool) (k : Nat) : d.seqOperand n imm b k < 2 ^ 32 := by
  unfold Dev.seqOperand
  split
  · omega
  · exact d.v_lt n b

/-- Settles O22: each instruction sets its result, if it has one, and fetches the next. -/
theorem sequencerArithmetic : Obligations.SequencerArithmetic := by
  unfold Obligations.SequencerArithmetic
  intro s n a b imm k T hs hf hpc hwr x y pc V upd
  have hT : s.dev.Fetches n T := ⟨T.isLt, hwr⟩
  have hx : x < 2 ^ 32 := s.dev.v_lt n a
  have hy : y < 2 ^ 32 := s.dev.seqOperand_lt n b imm k
  have hv (j : Fin 8) : (s.dev.seqTaken n).v n j = s.dev.v n j := congrFun (s.dev.v_seqTaken n) j
  have hop : (s.dev.seqTaken n).seqOperand n imm b k = y := s.dev.seqOperand_seqTaken n b imm k
  refine ⟨seqAlu_went hs hf hpc a (fun d => d.v n a + d.seqOperand n imm b k) ?_, seqAlu_went hs hf hpc a (fun d => d.v n a + 2 ^ 32 - d.seqOperand n imm b k) ?_,
    seqAlu_went hs hf hpc a (fun d => d.v n a &&& d.seqOperand n imm b k) ?_, seqAlu_went hs hf hpc a (fun d => d.v n a ||| d.seqOperand n imm b k) ?_,
    ⟨_, State.run_seqIssue hs hf _, seqNext_went hs hpc⟩, ⟨_, State.run_seqIssue hs hf _, ?_⟩, ⟨_, State.run_seqIssue hs hf _, seqJump_went hs hT⟩,
    ⟨_, State.run_seqIssue hs hf _, ?_⟩, ⟨_, State.run_seqIssue hs hf _, ?_⟩⟩
  · rw [hv, hop]
  · rw [hv, hop]
  · rw [hv, hop]
    exact Nat.mod_eq_of_lt (Nat.and_lt_two_pow _ hy)
  · rw [hv, hop]
    exact Nat.mod_eq_of_lt (Nat.or_lt_two_pow hx hy)
  · rw [hv]
    exact seqDjnz_went hs hpc a hT (Nat.mod_lt _ (by decide))
  · rw [hv]
    exact seqBranch_went hs hpc hT (x = 0)
  · rw [hv, show (if x = 0 then pc + 1 else T.val) = if x ≠ 0 then T.val else pc + 1 from (ite_not _ _ _).symm]
    exact seqBranch_went hs hpc hT (x ≠ 0)

/-- Settles O24, by evaluation of each word. -/
theorem sequencerWordsDecode : Obligations.SequencerWordsDecode := by
  unfold Obligations.SequencerWordsDecode
  decide

end Sys2Proof.Machine
end

section
/-! PROOF. The stack of a sequencer (O23). -/

namespace Sys2Proof.Machine

/-! What a fault of class 0 to 2 leaves of a sequencer: its state, its stack and its registers. -/

/-- The page of a sequencer, and an offset from its CTL up to V7. -/
structure SeqStill (pg off : Nat) : Prop where
  page : Pg.seq 0 ≤ pg ∧ pg ≤ Pg.seq 7
  low : 0x100 ≤ off
  high : off < 0x1A0

namespace SeqStill

variable {pg off : Nat} (h : SeqStill pg off) (d : Dev)
include h

theorem off_lt : off < 4096 := by
  obtain ⟨-, -, hoff⟩ := h
  omega

/-- A register of a page that no sequencer has. -/
theorem reg_put_far {pg' : Nat} (f : Fld) (v : Nat) (hf : f.off < 4096) (hp : pg' < Pg.seq 0 ∨ Pg.seq 7 < pg') : (d.put pg' f v).reg pg off = d.reg pg off := by
  obtain ⟨⟨hlo, hhi⟩, -, hoff⟩ := h
  exact d.reg_put_ne _ _ (by dsimp only [Pg.seq] at *; omega)

theorem reg_put_header (pg' : Nat) (f : Fld) (v : Nat) (hf : f.off < 0x100) : (d.put pg' f v).reg pg off = d.reg pg off := by
  obtain ⟨-, hlo, hoff⟩ := h
  exact d.reg_put_ne _ _ (by omega)

theorem reg_count (pg' : Nat) (f : Fld) (hf : f.off < 4096) (hp : pg' < Pg.seq 0 ∨ Pg.seq 7 < pg' ∨ 0x1A0 ≤ f.off) : (d.count pg' f).reg pg off = d.reg pg off := by
  obtain ⟨⟨hlo, hhi⟩, hlow, hoff⟩ := h
  exact d.reg_count _ _ _ (by omega) (by omega) hf (by dsimp only [Pg.seq] at *; omega)

theorem reg_int (pg' b : Nat) : (d.int pg' b).reg pg off = d.reg pg off := by
  have hlt := h.off_lt
  obtain ⟨⟨hlo, hhi⟩, hlow, hoff⟩ := h
  exact d.reg_int_own _ _ (by dsimp only [Pg.seq, Pg.glb] at *; omega) hlow hlt

theorem reg_event {e : Nat} (he : e < 128) : (d.event e).reg pg off = d.reg pg off := by
  unfold Dev.event
  refine Dev.reg_each _ _ _ fun n d => ?_
  dsimp only
  rw [Dev.reg_seqNotice, Dev.reg_when _ _ _ fun e => (h.reg_int _ _ _).trans (h.reg_count e _ _ (by decide) (.inr (.inr (by decide)))), Dev.reg_when _ _ _ fun e' => e'.reg_setAgain n e]
  obtain ⟨-, hlow, hoff⟩ := h
  exact d.reg_raiseBits _ _ (by dsimp only [Pg.seq] at *; omega)

theorem reg_flush : d.flush.reg pg off = d.reg pg off := by
  unfold Dev.flush
  split
  · rfl
  · exact h.reg_put_far _ _ _ (by decide) (.inr (by decide))

theorem reg_lose : d.lose.reg pg off = d.reg pg off := by
  unfold Dev.lose
  dsimp only
  rw [Dev.reg_when _ _ _ fun e => h.reg_int e _ _]
  exact (Dev.reg_congr rfl _ _).trans (h.reg_count d _ _ (by decide) (.inr (.inl (by decide))))

theorem reg_spill (o : Option Record) : (d.spill o).reg pg off = d.reg pg off := by
  unfold Dev.spill
  split
  · split
    · rfl
    · split
      · dsimp only [Dev.reg]
      · exact h.reg_count d _ _ (by decide) (.inr (.inl (by decide)))
  · rfl

theorem reg_writeLine (w : Record) : (d.writeLine w).reg pg off = d.reg pg off := by
  unfold Dev.writeLine
  dsimp only
  rw [h.reg_put_far _ _ _ (by decide) (.inr (by decide))]
  exact (Dev.reg_congr rfl _ _).trans (h.reg_spill d _)

theorem reg_levelUp : d.levelUp.reg pg off = d.reg pg off := by
  unfold Dev.levelUp
  dsimp only
  rw [Dev.reg_when _ _ _ fun e => (h.reg_flush _).trans (h.reg_event e (by decide)), h.reg_put_far _ _ _ (by decide) (.inr (by decide))]

theorem reg_enter (typ source : Nat) (p : List Nat) (l : Bool) : (d.enter typ source p l).reg pg off = d.reg pg off := by
  unfold Dev.enter
  split
  · exact h.reg_lose d
  · dsimp only
    split
    · rw [h.reg_writeLine, h.reg_put_far _ _ _ (by decide) (.inr (by decide))]
      exact Dev.reg_congr rfl _ _
    · rw [h.reg_levelUp]
      exact (Dev.reg_congr rfl _ _).trans ((h.reg_put_far _ REC.NEXT_SEQ_SEQ (d.get Pg.rec REC.NEXT_SEQ_SEQ + 1) (by decide) (.inr (by decide))).trans (Dev.reg_congr rfl _ _))

theorem reg_record (typ source : Nat) (p : List Nat) (named : Bool) (key : Nat) : (d.record typ source p named key).reg pg off = d.reg pg off := by
  unfold Dev.record
  dsimp only
  split
  · split
    · exact Dev.reg_congr rfl _ _
    · exact h.reg_enter d _ _ _ _
  · exact h.reg_enter d _ _ _ _

theorem reg_askSnap (r : SnapReq) : (d.askSnap r).reg pg off = d.reg pg off := by
  unfold Dev.askSnap
  split
  · exact (h.reg_put_far _ REC.SNAP_STS_BUSY 1 (by decide) (.inr (by decide))).trans (Dev.reg_congr rfl _ _)
  · split
    · exact (h.reg_put_far _ REC.SNAP_STS_QLVL _ (by decide) (.inr (by decide))).trans (Dev.reg_congr rfl _ _)
    · exact (h.reg_int _ _ _).trans (h.reg_count d _ _ (by decide) (.inr (.inl (by decide))))

theorem reg_react_minor (pg' : Nat) {c : Nat} (hc : c < 3) : (d.react pg' c).reg pg off = d.reg pg off := by
  rw [d.react_minor pg' hc, Dev.reg_when _ _ _ fun e => h.reg_askSnap e _, h.reg_event _ (by omega), Dev.reg_when _ _ _ fun e => h.reg_flush e, h.reg_int]

theorem reg_put_flt (f : Fld) (v : Nat) (hf : f.off < 4096) : (d.put Pg.flt f v).reg pg off = d.reg pg off := h.reg_put_far d f v hf (.inr (by decide))

theorem reg_fltView (pg' : Nat) : (d.fltView pg').reg pg off = d.reg pg off := by
  have hs := slotOf_lt pg'
  unfold Dev.fltView
  dsimp only
  rw [h.reg_put_flt _ _ _ (by decide), h.reg_put_flt _ _ _ (by decide), h.reg_put_flt _ _ _ (by dsimp only; omega)]

theorem reg_latchClass (pg' c : Nat) (forced : Bool) : (d.latchClass pg' c forced).reg pg off = d.reg pg off := by
  unfold Dev.latchClass Dev.putb
  rw [Dev.reg_stampAs, h.reg_put_flt _ _ _ (by decide), h.reg_put_flt _ _ _ (by decide), h.reg_put_flt _ _ _ (by decide), h.reg_put_flt _ _ _ (by decide),
    h.reg_put_header _ _ _ _ (by decide)]
  obtain ⟨-, hlow, hoff⟩ := h
  exact d.reg_raiseBits _ _ (by dsimp only; omega)

theorem reg_noteClass (pg' c : Nat) (forced rail : Bool) : (d.noteClass pg' c forced rail).reg pg off = d.reg pg off := by
  have hlt := h.off_lt
  have hlow := h.low
  unfold Dev.noteClass
  dsimp only
  rw [h.reg_record, Dev.reg_when _ _ _ fun e => h.reg_put_header e _ _ _ (by decide), h.reg_fltView, Dev.reg_pmc _ _ _ _ (by omega) hlt,
    Dev.reg_when _ _ _ fun e => h.reg_latchClass e pg' c forced, h.reg_put_header _ _ _ _ (by decide)]

theorem reg_takeUp (pg' : Nat) {c : Nat} (hc : c < 3) (forced rail : Bool) : (d.takeUp pg' c forced rail).reg pg off = d.reg pg off := by
  rw [d.takeUp_eq, Dev.reg_when _ _ _ fun e => h.reg_react_minor e pg' hc, h.reg_noteClass]

theorem reg_becameLive (pg' : Nat) {c : Nat} (hc : c < 3) (forced rail : Bool) : (d.becameLive pg' c forced rail).reg pg off = d.reg pg off := by
  unfold Dev.becameLive
  extract_lets a d1
  split
  · exact Dev.reg_congr rfl _ _
  · exact (h.reg_takeUp d1 pg' hc forced rail).trans (Dev.reg_congr rfl _ _)

theorem reg_raise (pg' : Nat) {c : Nat} (hc : c < 3) (cause : Nat) (rail : Bool) : (d.raise pg' c cause rail).reg pg off = d.reg pg off := by
  unfold Dev.raise
  extract_lets was _ d1 d2
  have h2 : d2.reg pg off = d.reg pg off := (h.reg_put_header d1 pg' HDR.FLT_STS_LIVE _ (by decide)).trans (Dev.reg_congr rfl _ _)
  rw [← h2]
  split
  · rw [Dev.reg_when _ _ _ fun e => h.reg_put_header e _ _ _ (by decide), h.reg_fltView]
  · exact h.reg_becameLive d2 pg' hc _ rail

end SeqStill

/-! A fault of a sequencer (R330). -/

theorem seqStill_sts (n : Fin 8) : SeqStill (Pg.seq n) 0x110 := ⟨⟨by dsimp only [Pg.seq]; omega, by dsimp only [Pg.seq]; omega⟩, by decide, by decide⟩

/-- A fault shows FAULT and its cause. -/
theorem Dev.seqFault_shows (d : Dev) (n : Fin 8) {cause : Nat} (hc : cause < 16) :
    (d.seqFault n cause).seqState n = seqFaulted ∧ (d.seqFault n cause).get (Pg.seq n) SEQ.STS_CAUSE = cause := by
  have hclass : (if cause = causeParity then 2 else 1) < 3 := by split <;> decide
  have hsts : (d.seqFault n cause).reg (Pg.seq n) 0x110 = (((d.seqUnfetch n).seqEnter n seqFaulted).put (Pg.seq n) SEQ.STS_CAUSE cause).reg (Pg.seq n) 0x110 := by
    unfold Dev.seqFault
    dsimp only
    rw [(seqStill_sts n).reg_raise _ _ hclass, (seqStill_sts n).reg_record, (seqStill_sts n).reg_int]
  have hget (f : Fld) (hf : f.off = 0x110) : (d.seqFault n cause).get (Pg.seq n) f = (((d.seqUnfetch n).seqEnter n seqFaulted).put (Pg.seq n) SEQ.STS_CAUSE cause).get (Pg.seq n) f := by
    unfold Dev.get
    rw [hf, hsts]
  constructor
  · unfold Dev.seqState
    rw [hget _ rfl, Dev.get_put_disj _ _ SEQ.STS_CAUSE SEQ.STS_STATE _ rfl (.inr (by decide)) (by decide)]
    exact Dev.get_put_same _ _ SEQ.STS_STATE _ (by decide)
  · rw [hget _ rfl, Dev.get_put_same _ _ SEQ.STS_CAUSE _ (by decide)]
    exact Nat.mod_eq_of_lt hc

/-! The stack, in entries of 9 bits (R330). -/

/-- The entries of a stack, without entry k. -/
theorem entry_cleared (r k : Nat) : r &&& 511 <<< (9 * k) = r / 2 ^ (9 * k) % 512 * 2 ^ (9 * k) := by
  have hsplit : r &&& 511 <<< (9 * k) = ((r >>> (9 * k)) &&& 511) <<< (9 * k) := by
    refine Nat.eq_of_testBit_eq fun i => ?_
    rw [Nat.testBit_and, Nat.testBit_shiftLeft, Nat.testBit_shiftLeft, Nat.testBit_and, Nat.testBit_shiftRight]
    by_cases hi : 9 * k ≤ i
    · rw [show 9 * k + (i - 9 * k) = i by omega]
      simp [hi]
    · simp [hi]
  rw [hsplit, Nat.shiftLeft_eq, Nat.shiftRight_eq_div_pow, show 511 = 2 ^ 9 - 1 from rfl, Nat.and_two_pow_sub_one_eq_mod]

/-- A stack of four entries with one more on top: the new entry, and those below as they were. -/
theorem pushed_entries {r k x : Nat} (hr : r < 2 ^ 36) (hk : k < 4) (hx : x < 512) :
    let p := (r - (r &&& 511 <<< (9 * k)) + x <<< (9 * k)) % 2 ^ 36
    p / 2 ^ (9 * k) % 512 = x ∧ ∀ j < k, p / 2 ^ (9 * j) % 512 = r / 2 ^ (9 * j) % 512 := by
  dsimp only
  rw [entry_cleared, Nat.shiftLeft_eq]
  obtain rfl | rfl | rfl | rfl : k = 0 ∨ k = 1 ∨ k = 2 ∨ k = 3 := by omega
  · exact ⟨by omega, fun j hj => absurd hj (by omega)⟩
  · refine ⟨by omega, fun j hj => ?_⟩
    obtain rfl : j = 0 := by omega
    omega
  · refine ⟨by omega, fun j hj => ?_⟩
    obtain rfl | rfl : j = 0 ∨ j = 1 := by omega
    · omega
    · omega
  · refine ⟨by omega, fun j hj => ?_⟩
    obtain rfl | rfl | rfl : j = 0 ∨ j = 1 ∨ j = 2 := by omega
    · omega
    · omega
    · omega

/-- The stack of a device, in entries. -/
def Dev.stackEntry (d : Dev) (n : Fin 8) (j : Nat) : Nat := d.get (Pg.seq n) SEQ.STACK_RET / 2 ^ (9 * j) % 512

theorem Dev.get_seqTaken (d : Dev) (n : Fin 8) (f : Fld) : (d.seqTaken n).get (Pg.seq n) f = d.get (Pg.seq n) f := Dev.get_congr (d.regs_seqTaken n) _ _

/-- A field of the sequencer that lies beside its PC, after a fetch. -/
theorem Dev.get_seqFetch {d : Dev} {n : Fin 8} {pc : Nat} (h : d.Fetches n pc) (dt : Nat) (f : Fld) (hf : f.off ≠ 0x110 ∨ (f.off = 0x110 ∧ 8 < f.lo ∧ f.hi < 96)) :
    (d.seqFetch n pc dt).get (Pg.seq n) f = d.get (Pg.seq n) f := by
  obtain ⟨-, hregs⟩ := Dev.seqFetch_spec h dt
  rw [Dev.get_congr hregs]
  obtain hne | ⟨hoff, hlo, hhi⟩ := hf
  · exact d.get_put_ne _ _ _ (by dsimp only; omega)
  · exact d.get_put_disj _ SEQ.STS_PC f _ hoff (.inr hlo) hhi

/-- The device of a sequencer whose stack and depth change. -/
def Dev.stacked (d : Dev) (n : Fin 8) (r k : Nat) : Dev := (d.put (Pg.seq n) SEQ.STACK_RET r).put (Pg.seq n) SEQ.STS_DEPTH k

theorem Dev.seqAlone_depth (d : Dev) (n : Fin 8) (k : Nat) : d.SeqAlone n (d.put (Pg.seq n) SEQ.STS_DEPTH k) := .put d n _ _ (by decide)

theorem Dev.seqAlone_stacked (d : Dev) (n : Fin 8) (r k : Nat) : d.SeqAlone n (d.stacked n r k) := (Dev.SeqAlone.put d n SEQ.STACK_RET r (by decide)).trans (Dev.seqAlone_depth _ _ _)

/-- The depth lies beside the state, in a register of its own page. -/
theorem Dev.get_depth (d : Dev) (n : Fin 8) (k : Nat) (f : Fld) (hf : f.off ≠ 0x110 ∨ (f.off = 0x110 ∧ 24 < f.lo ∧ f.hi < 96)) :
    (d.put (Pg.seq n) SEQ.STS_DEPTH k).get (Pg.seq n) f = d.get (Pg.seq n) f := by
  obtain hne | ⟨hoff, hlo, hhi⟩ := hf
  · exact d.get_put_ne _ _ _ (by dsimp only; omega)
  · exact d.get_put_disj _ SEQ.STS_DEPTH f _ hoff (.inr hlo) hhi

theorem Dev.get_stacked (d : Dev) (n : Fin 8) (r k : Nat) (f : Fld) (h : f.off ≠ 0x118) (hf : f.off ≠ 0x110 ∨ (f.off = 0x110 ∧ 24 < f.lo ∧ f.hi < 96)) :
    (d.stacked n r k).get (Pg.seq n) f = d.get (Pg.seq n) f := by
  unfold Dev.stacked
  rw [Dev.get_depth _ _ _ _ hf]
  exact d.get_put_ne _ _ _ (by dsimp only; omega)

section
variable {s : State} {n : Fin 8} (hs : s.dev.seqState n = seqRun) (hf : s.dev.seq[n].frozen = false)
include hs hf

/-- A CALL below a depth of 4 pushes the address after it and goes to its target. -/
theorem seqCall_went (T : Fin 512) (hT : s.dev.Fetches n T) (hk : s.dev.get (Pg.seq n) SEQ.STS_DEPTH < 4) :
    ∃ t, exec (.seqCall n T) s = .next t ∧ SeqWent s t n T.val (s.dev.v n) ∧ t.dev.get (Pg.seq n) SEQ.STS_DEPTH = s.dev.get (Pg.seq n) SEQ.STS_DEPTH + 1 ∧
      t.dev.get (Pg.seq n) SEQ.STACK_RET = s.dev.seqPushed n % 2 ^ 36 := by
  have hpushed : (s.dev.seqTaken n).seqPushed n = s.dev.seqPushed n := by
    unfold Dev.seqPushed
    rw [Dev.get_seqTaken, Dev.get_seqTaken, Dev.seqPc_seqTaken]
  have hexec : exec (.seqCall n T) s =
      .next (s.withDev (((s.dev.seqTaken n).stacked n (s.dev.seqPushed n) (s.dev.get (Pg.seq n) SEQ.STS_DEPTH + 1)).seqFetch n T 2)) := by
    refine (State.run_seqIssue hs hf _).trans ?_
    dsimp only
    rw [Dev.get_seqTaken, if_neg (Nat.not_le.mpr hk), hpushed]
    rfl
  generalize hd : (s.dev.seqTaken n).stacked n (s.dev.seqPushed n) (s.dev.get (Pg.seq n) SEQ.STS_DEPTH + 1) = d at hexec
  have hget (f : Fld) (h : f.off ≠ 0x118) (h' : f.off ≠ 0x110 ∨ (f.off = 0x110 ∧ 24 < f.lo ∧ f.hi < 96)) : d.get (Pg.seq n) f = s.dev.get (Pg.seq n) f := by
    rw [← hd, Dev.get_stacked _ _ _ _ _ h h', Dev.get_seqTaken]
  have hfetch : d.Fetches n T := by
    obtain ⟨hlt, hwr⟩ := hT
    refine ⟨hlt, fun h => ?_⟩
    unfold Dev.instrWord
    rw [hget _ (by dsimp only; omega) (.inl (by dsimp only; omega))]
    exact hwr h
  refine ⟨_, hexec, seqWent_of_fetch ?_ ((hget SEQ.STS_STATE (by decide) (.inr ⟨rfl, by decide, by decide⟩)).trans hs)
    (fun j => hget (SEQ.V_V j) (by dsimp only; omega) (.inl (by dsimp only; omega))) hfetch 2, ?_, ?_⟩
  · rw [← hd]
    exact (Dev.SeqAlone.taken _ _).trans (Dev.seqAlone_stacked _ _ _ _)
  · rw [State.withDev_get, Dev.get_seqFetch hfetch _ _ (.inr ⟨rfl, by decide, by decide⟩), ← hd]
    exact (Dev.get_put_same _ _ SEQ.STS_DEPTH _ (by decide)).trans (Nat.mod_eq_of_lt (by dsimp only; omega))
  · rw [State.withDev_get, Dev.get_seqFetch hfetch _ _ (.inl (by decide)), ← hd]
    unfold Dev.stacked
    rw [Dev.get_depth _ _ _ _ (.inl (by decide))]
    exact Dev.get_put_same _ _ SEQ.STACK_RET _ (by decide)

/-- A RET at a depth of 1 to 4 goes to the address on top, and the depth is one less. -/
theorem seqRet_went {k : Nat} (hk : s.dev.get (Pg.seq n) SEQ.STS_DEPTH = k + 1) (hk4 : k < 4) (hT : s.dev.Fetches n (s.dev.stackEntry n k)) :
    ∃ t, exec (.seqRet n) s = .next t ∧ SeqWent s t n (s.dev.stackEntry n k) (s.dev.v n) ∧ t.dev.get (Pg.seq n) SEQ.STS_DEPTH = k := by
  have hexec : exec (.seqRet n) s = .next (s.withDev (((s.dev.seqTaken n).put (Pg.seq n) SEQ.STS_DEPTH k).seqFetch n (s.dev.stackEntry n k) 2)) := by
    refine (State.run_seqIssue hs hf _).trans ?_
    dsimp only
    rw [Dev.get_seqTaken, Dev.get_seqTaken, hk, if_neg (by omega), Nat.add_sub_cancel, Nat.shiftRight_eq_div_pow]
    rfl
  generalize hd : (s.dev.seqTaken n).put (Pg.seq n) SEQ.STS_DEPTH k = d at hexec
  have hget (f : Fld) (h : f.off ≠ 0x110 ∨ (f.off = 0x110 ∧ 24 < f.lo ∧ f.hi < 96)) : d.get (Pg.seq n) f = s.dev.get (Pg.seq n) f := by
    rw [← hd, Dev.get_depth _ _ _ _ h, Dev.get_seqTaken]
  have hfetch : d.Fetches n (s.dev.stackEntry n k) := by
    obtain ⟨hlt, hwr⟩ := hT
    refine ⟨hlt, fun h => ?_⟩
    unfold Dev.instrWord
    rw [hget _ (.inl (by dsimp only; omega))]
    exact hwr h
  refine ⟨_, hexec, seqWent_of_fetch ?_ ((hget SEQ.STS_STATE (.inr ⟨rfl, by decide, by decide⟩)).trans hs) (fun j => hget (SEQ.V_V j) (.inl (by dsimp only; omega))) hfetch 2, ?_⟩
  · rw [← hd]
    exact (Dev.SeqAlone.taken _ _).trans (Dev.seqAlone_depth _ _ _)
  · rw [State.withDev_get, Dev.get_seqFetch hfetch _ _ (.inr ⟨rfl, by decide, by decide⟩), ← hd]
    exact (Dev.get_put_same _ _ SEQ.STS_DEPTH _ (by decide)).trans (Nat.mod_eq_of_lt (by dsimp only; omega))

/-- An instruction that faults the stack. -/
theorem seqStack_faults (f : Dev → Dev) (h : f (s.dev.seqTaken n) = (s.dev.seqTaken n).seqFault n causeStack) :
    ∃ t, (s.run fun d => d.seqIssue n f) = .next t ∧ t.dev.seqState n = seqFaulted ∧ t.dev.get (Pg.seq n) SEQ.STS_CAUSE = 3 := by
  obtain ⟨hstate, hcause⟩ := (s.dev.seqTaken n).seqFault_shows n (cause := causeStack) (by decide)
  refine ⟨_, State.run_seqIssue hs hf f, ?_⟩
  rw [h]
  exact ⟨hstate, hcause⟩

end

/-- Settles O23: CALL pushes, RET pops, and beyond the four entries they fault. -/
theorem sequencerStack : Obligations.SequencerStack := by
  unfold Obligations.SequencerStack
  intro s n T hs hf k entry
  have hdepth : (s.dev.seqTaken n).get (Pg.seq n) SEQ.STS_DEPTH = k := s.dev.get_seqTaken n _
  refine ⟨fun hk hwr => ?_, fun h1 h4 hwr => ?_, fun hk => ?_, fun hk => ?_⟩
  · obtain ⟨t, hexec, hwent, hd, hstack⟩ := seqCall_went hs hf T ⟨T.isLt, hwr⟩ hk
    obtain ⟨htop, hbelow⟩ := pushed_entries (x := (s.dev.seqPc n + 1) % 512) (Fld.get_lt SEQ.STACK_RET (s.dev.reg (Pg.seq n) 0x118)) hk (Nat.mod_lt _ (by decide))
    refine ⟨t, hexec, hwent, hd, ?_, fun j hj => ?_⟩
    · show t.dev.get (Pg.seq n) SEQ.STACK_RET / 2 ^ (9 * k) % 512 = _
      rw [hstack]
      exact htop
    · show t.dev.get (Pg.seq n) SEQ.STACK_RET / 2 ^ (9 * j) % 512 = _
      rw [hstack]
      exact hbelow j hj
  · exact seqRet_went hs hf (k := k - 1) (by omega) (by omega) ⟨Nat.mod_lt _ (by decide), hwr⟩
  · refine seqStack_faults hs hf _ ?_
    dsimp only
    rw [hdepth, hk, if_pos (by decide)]
  · refine seqStack_faults hs hf _ ?_
    dsimp only
    rw [hdepth, hk, if_pos rfl]

end Sys2Proof.Machine
end

section
/-! PROOF. The commands of the audio ports (O54) and of the recorder (O57). -/

namespace Sys2Proof.Machine

/-! Audio (R319 to R328). -/

section
variable (s : State) (p : Fin 4) (rx : Bool)

theorem audEnables_complete (m : Master) (v w : Nat) (h : Served s m (Pg.aud p) (audCtlOff rx)) :
    (w = v % 2 ^ 31 + 2 ^ 31 → exec (.audEnable m p rx v) s = .next (s.withDev ((s.took m (Pg.aud p) (audCtlOff rx) w).audConfig p rx (audCtlOff rx) w))) ∧
    (w = v % 2 ^ 31 → exec (.audDisable m p rx v) s = .next (s.withDev ((s.took m (Pg.aud p) (audCtlOff rx) w).audConfig p rx (audCtlOff rx) w))) := by
  refine ⟨?_, ?_⟩
  · rintro rfl
    exact State.run_write h _ _
  · rintro rfl
    exact State.run_write h _ _

theorem audConfigWrite_completes (m : Master) (off v o : Nat) (ho : o = audCtlOff rx + (if off % 256 = 4 then 4 else if off % 256 = 0x20 then 0x20 else 0)) (h : Served s m (Pg.aud p) o) :
    exec (.audConfigWrite m p rx off v) s = .next (s.withDev ((s.took m (Pg.aud p) o v).audConfig p rx o v)) := by
  subst ho
  exact State.run_write h _ _

/-- The oscillator of a master in WAIT locks: the direction plans its start, or runs free (R320). -/
theorem audOscLock_completes (hw : s.dev.audState p rx = audWait) (hm : s.dev.audSlave p rx = false) (hg : s.dev.granted kindAudio 0 = true) :
    let d := s.dev.upAud p rx fun e => { e with osc := true }
    (d.audQual p = true → exec (.audOscLock p rx) s = .next (s.withDev (d.audPlan p rx))) ∧
    (d.audQual p = false → exec (.audOscLock p rx) s = .next (s.withDev (d.audToFree p rx))) := by
  intro d
  have hgo : ¬ (s.dev.audState p rx ≠ audWait ∨ s.dev.audSlave p rx = true ∨ (!s.dev.granted kindAudio 0) = true) := by
    rw [hw, hm, hg]
    decide
  have hexec : exec (.audOscLock p rx) s = .next (s.withDev (if d.audQual p then d.audPlan p rx else d.audToFree p rx)) := by
    show execAudOscLock p rx s = _
    rw [execAudOscLock, State.run_eq, if_neg hgo]
  refine ⟨fun hq => ?_, fun hq => ?_⟩
  · rw [hexec, if_pos hq]
  · rw [hexec, if_neg (Bool.eq_false_iff.mp hq)]

/-- The start point of a direction in WAIT is reached (R320). -/
theorem audStart_completes (t : Int) (ht : (s.dev.audEng p rx).startAt = some t) (hw : s.dev.audState p rx = audWait) (hv : t ≤ s.dev.audView p) :
    (s.dev.audQual p = true → exec (.audStart p rx) s = .next (s.withDev (s.dev.audGo p rx))) ∧
    (s.dev.audQual p = false → exec (.audStart p rx) s = .next (s.withDev (s.dev.audToFree p rx))) := by
  have hexec : exec (.audStart p rx) s = .next (s.withDev (if !s.dev.audQual p then s.dev.audToFree p rx else s.dev.audGo p rx)) := by
    show execAudStart p rx s = _
    rw [execAudStart, State.run_eq, ht]
    dsimp only
    rw [if_neg (not_not_intro hw), if_neg (not_lt.mpr hv)]
  refine ⟨fun hq => ?_, fun hq => ?_⟩
  · rw [hexec, hq, if_neg (by decide)]
  · rw [hexec, hq, if_pos (by decide)]

theorem audFrameBoundary_completes (hr : s.dev.audState p rx = audRun ∨ s.dev.audState p rx = audFree) (recs : List (Nat × List Nat)) (samples : List Nat) :
    exec (.audFrameBoundary p rx recs samples) s = .next (s.withDev (s.dev.audFrame p rx recs samples)) := by
  show execAudFrameBoundary p rx recs samples s = _
  rw [execAudFrameBoundary, State.run_eq, if_neg]
  rintro ⟨hnr, hnf⟩
  exact hr.elim hnr hnf

/-- The frame starts of a slave, and their loss (R324). -/
theorem audSlave_completes (hs : s.dev.audSlave p rx = true) :
    (s.dev.audState p rx ≠ audOff → exec (.wsEdge p rx) s = .next (s.withDev (s.dev.audEdge p rx))) ∧
    ((s.dev.audState p rx = audWait ∨ s.dev.audState p rx = audRun) →
      let d := (s.dev.upAud p rx fun e => { e with seen := 0, present := false, edge := false, last := none }).audEnter p rx audLost 3
      exec (.audInputLoss p rx) s = .next (s.withDev (d.audRate p rx (d.aget p rx AUD.RATE_MHZ) true))) := by
  refine ⟨fun hon => ?_, fun hst => ?_⟩
  · show execWsEdge p rx s = _
    rw [execWsEdge, State.run_eq, hs, show (s.dev.audState p rx != audOff) = true from bne_iff_ne.mpr hon, if_neg (by decide)]
  · show execAudInputLoss p rx s = _
    rw [execAudInputLoss, State.run_eq]
    dsimp only
    rw [hs, if_neg (by decide)]
    obtain hst | hst := hst
    · rw [hst, if_neg (by decide), if_neg (by decide)]
    · rw [hst, if_neg (by decide), if_neg (by decide)]

theorem audRateMeasure_completes (hon : s.dev.audState p rx ≠ audOff) : exec (.audRateMeasure p rx) s = .next (s.withDev (s.dev.audMeasure p rx)) := by
  show execAudRateMeasure p rx s = _
  rw [execAudRateMeasure, State.run_eq, if_neg hon]

theorem audCommands_complete (m : Master) (off : Nat) (ho : off = 0x10C + 0x100 * dirOf rx) (h : Served s m (Pg.aud p) off) :
    (let d := s.took m (Pg.aud p) off 1
     d.audSlave p rx = false → d.audState p rx = audRun → exec (.realign m p rx) s = .next (s.withDev (d.audAgain p rx))) ∧
    exec (.audCntClr m p rx) s = .next (s.withDev
      ((((s.took m (Pg.aud p) off 2).aput p rx AUD.SLIPS_COUNT 0).aput p rx AUD.LATE_COUNT 0).aput p rx AUD.DISC_COUNT 0)) := by
  subst ho
  refine ⟨fun hm hr => (State.run_write h 1 _).trans ?_, State.run_write h 2 _⟩
  rw [hm, hr, if_neg (by decide)]

end

/-- Settles O54: command by command. -/
theorem audioCommandsComplete : Obligations.AudioCommandsComplete := by
  unfold Obligations.AudioCommandsComplete
  refine fun s p rx => ⟨audEnables_complete s p rx, audConfigWrite_completes s p rx, audOscLock_completes s p rx, audStart_completes s p rx, audFrameBoundary_completes s p rx, ?_,
    audSlave_completes s p rx, audRateMeasure_completes s p rx, audCommands_complete s p rx⟩
  rintro m v _ rfl h
  exact State.run_writeStore h v id

/-! The recorder (R341 to R350). -/

theorem recCommands_complete (s : State) (m : Master) (h : Served s m Pg.rec 0x10C) :
    exec (.recFlush m) s = .next (s.withDev (s.took m Pg.rec 0x10C 1).flush) ∧
    (m = .pf0 → exec (.recClear m) s = .next (s.withDev (s.took m Pg.rec 0x10C 2).clearAsk)) ∧
    (m ≠ .pf0 → exec (.recClear m) s = .next (s.withDev ((((s.took m Pg.rec 0x10C 2).count Pg.rec REC.CLR_RES_DISC).put Pg.rec REC.CLR_RES_RESULT 3).int Pg.rec 2))) ∧
    (∀ l : Fin 16, exec (.recSnap m l) s = .next (s.withDev ((s.took m Pg.rec 0x10C (3 + 4 * l.val)).askSnap ⟨l, 2, srcMaster m⟩))) := by
  refine ⟨State.run_write h 1 _, fun hm => (State.run_write h 2 _).trans ?_, fun hm => (State.run_write h 2 _).trans ?_, fun l => State.run_write h _ _⟩
  · dsimp only
    rw [if_neg (not_not_intro hm)]
  · dsimp only
    rw [if_pos hm]

theorem flushComplete_completes (s : State) (n : Nat) (h : s.dev.rcd.flushing = some n) : exec .flushComplete s = .next (s.withDev (s.dev.flushDone n)) := by
  show execFlushComplete s = _
  rw [execFlushComplete, State.run_eq, h]

theorem snapshotComplete_completes (s : State) (r : SnapRun) (h : s.dev.rcd.snapRun = some r) (hl : r.left = []) : exec .snapshotComplete s = .next (s.withDev (s.dev.snapGroup r)) := by
  show execSnapshotComplete s = _
  rw [execSnapshotComplete, State.run_eq, h]
  dsimp only
  rw [hl, if_pos (by decide)]

/-- Settles O57: command by command. -/
theorem recorderCommandsComplete : Obligations.RecorderCommandsComplete := by
  unfold Obligations.RecorderCommandsComplete
  exact fun s => ⟨recCommands_complete s, flushComplete_completes s, snapshotComplete_completes s, fun _ v h => State.run_writeStore h v _⟩

end Sys2Proof.Machine
end

section
/-! PROOF. The control of the sequencers (O55) and the completion of their instructions (O56). -/

namespace Sys2Proof.Machine

/-! Control (R330, R332, R337). -/

section
variable (s : State) (n : Fin 8)

theorem seqCtl_completes (m : Master) (v w : Nat) (h : Served s m (Pg.seq n) 0x100) :
    (w = v % 2 ^ 31 + 2 ^ 31 → exec (.seqEnable m n v) s = .next (s.withDev (((s.took m (Pg.seq n) 0x100 w).storeReg (Pg.seq n) 0x100 w).seqCtl n true))) ∧
    (w = v % 2 ^ 31 → exec (.seqDisable m n v) s = .next (s.withDev (((s.took m (Pg.seq n) 0x100 w).storeReg (Pg.seq n) 0x100 w).seqCtl n false))) := by
  refine ⟨?_, ?_⟩
  · rintro rfl
    exact State.run_writeStore h _ _
  · rintro rfl
    exact State.run_writeStore h _ _

/-- The commands of SEQ_CMD in the states that take them (R330). -/
theorem seqCommands_complete (m : Master) (h : Served s m (Pg.seq n) 0x104) :
    (let d := s.took m (Pg.seq n) 0x104 1
     d.seqState n = seqIdle → exec (.seqStart m n) s = .next (s.withDev (d.seqBegin n 4 (d.get (Pg.seq n) SEQ.START_ENTRY)))) ∧
    (let d := s.took m (Pg.seq n) 0x104 2
     (d.seqState n = seqRun → exec (.seqStop m n) s = .next (s.withDev (d.seqToIdle n))) ∧
     (d.seqState n = seqWaiting → exec (.seqStop m n) s = .next (s.withDev ((d.setV n 7 0).seqToIdle n)))) ∧
    (let d := s.took m (Pg.seq n) 0x104 3
     d.seqState n = seqFaulted → exec (.clrFault m n) s = .next (s.withDev (((d.seqLower n).put (Pg.seq n) SEQ.STS_CAUSE 0).seqToIdle n))) := by
  refine ⟨fun hs => (State.run_write h 1 _).trans ?_, ⟨fun hs => (State.run_write h 2 _).trans ?_, fun hs => (State.run_write h 2 _).trans ?_⟩, fun hs => (State.run_write h 3 _).trans ?_⟩
  · rw [hs]
    rfl
  · rw [if_pos hs]
  · rw [if_neg (by rw [hs]; decide), if_pos hs]
  · rw [hs]
    rfl

/-- The lowest trigger that is enabled and pending starts its recipe (R330). -/
theorem triggerStart_completes (hs : s.dev.seqState n = seqIdle) (hf : s.dev.seq[n].frozen = false) (hen : s.dev.on (Pg.seq n) (SEQ.TRIG_EN 0) = true)
    (hp : s.dev.evPending n (s.dev.get (Pg.seq n) (SEQ.TRIG_EVT 0)) = true) :
    exec (.triggerStart n) s = .next (s.withDev ((s.dev.evClear n (s.dev.get (Pg.seq n) (SEQ.TRIG_EVT 0))).seqBegin n 0 (s.dev.get (Pg.seq n) (SEQ.TRIG_ENTRY 0)))) := by
  have hfirst : [0, 1, 2, 3].find? (fun k => s.dev.on (Pg.seq n) (SEQ.TRIG_EN k) && s.dev.evPending n (s.dev.get (Pg.seq n) (SEQ.TRIG_EVT k))) = some 0 :=
    List.find?_cons_of_pos (by rw [hen, hp]; rfl)
  show execTriggerStart n s = _
  rw [execTriggerStart, State.run_eq]
  dsimp only
  rw [hf, if_neg (by rw [hs]; decide), hfirst]

theorem seqBudgetExpiry_completes (h : s.dev.seqOverdue n = true) : exec (.seqBudgetExpiry n) s = .next (s.withDev (s.dev.seqFault n causeBudget)) := by
  show execSeqBudgetExpiry n s = _
  rw [execSeqBudgetExpiry, State.run_eq, if_pos h]

theorem seqWaitEnd_completes (w : SeqWait) (hw : s.dev.seq[n].wait = some w) (hs : s.dev.seqState n = seqWaiting) (hf : s.dev.seq[n].frozen = false) :
    exec (.seqWaitEnd n) s = .next (s.withDev (s.dev.seqJudge s.store n w)) := by
  show execSeqWaitEnd n s = _
  rw [execSeqWaitEnd, State.run_eq, hw]
  dsimp only
  rw [hf, if_neg (by rw [hs]; decide)]

theorem seqInstrWrite_completes (m : Master) (i : Fin 512) (v off : Nat) (ho : off = 0x800 + 4 * i.val) (h : s.dev.gate m (Pg.seq n) off = .served) (hm : m = .pf0 ∨ m = .loader)
    (hen : s.dev.on (Pg.seq n) SEQ.CTL_EN = false) : exec (.seqInstrWrite m n i v) s = .next (s.withDev ((s.took m (Pg.seq n) off v).storeReg (Pg.seq n) off v)) := by
  subst ho
  have hmay : (m == .pf0 || m == .loader) = true := by
    obtain rfl | rfl := hm
    · rfl
    · rfl
  show execSeqInstrWrite m n i v s = _
  rw [execSeqInstrWrite, State.run_eq, Dev.writeIf_served h, hen, hmay, if_pos (by decide)]

end

/-- Settles O55: command by command. -/
theorem sequencerControlCompletes : Obligations.SequencerControlCompletes := by
  unfold Obligations.SequencerControlCompletes
  exact fun s n => ⟨seqCtl_completes s n, seqCommands_complete s n, triggerStart_completes s n, seqBudgetExpiry_completes s n, seqWaitEnd_completes s n, seqInstrWrite_completes s n⟩

/-! Instructions (R334). -/

section
variable {s : State} {n : Fin 8} (hs : s.dev.seqState n = seqRun) (hf : s.dev.seq[n].frozen = false)
include hs hf

/-- An instruction whose effect on the device that took it up is known. -/
theorem State.run_seqIssue_eq {f : Dev → Dev} {e : Dev} (h : f (s.dev.seqTaken n) = e) : (s.run fun d => d.seqIssue n f) = .next (s.withDev e) := by
  rw [State.run_seqIssue hs hf, h]

/-- An address that is aligned, in range and permitted. -/
theorem seqWr_completes (sp src : Bool) (va : Fin 8) (w : Fin 64) (addr : Nat) (ha : seqAddrOk sp addr = true) (hw : (s.dev.seqTaken n).seqMayWrite n sp addr = true) :
    let d := s.dev.seqTaken n
    exec (.seqWr n sp src va w addr) s = .next (s.withDev ((d.seqPost n sp addr (if src then d.dataWord n w else d.v n va)).seqNext n 2 4)) := by
  refine State.run_seqIssue_eq hs hf ?_
  rw [ha, hw, if_neg (by decide), if_neg (by decide)]

theorem seqRd_completes (va vb : Fin 8) (w : Fin 64) :
    let d := s.dev.seqTaken n
    exec (.seqRd n 0 va w vb) s = .next (s.withDev ((d.setV n va (d.dataWord n w)).seqNext n 1 2)) ∧
    (∀ mode : Fin 4, mode ≠ 0 →
      let a := if mode = 3 then d.v n vb else d.dataWord n w
      let r := d.seqRead s.store n (mode == 2) a
      seqAddrOk (mode == 2) a = true → d.seqMayRead n (mode == 2) = true → exec (.seqRd n mode va w vb) s = .next (s.withDev ((r.2.setV n va r.1).seqNext n 1 32))) := by
  refine ⟨State.run_seqIssue_eq hs hf (if_pos rfl), ?_⟩
  intro mode h0 a r ha hr
  refine State.run_seqIssue_eq hs hf ?_
  dsimp only
  rw [if_neg h0, ha, hr, if_neg (by decide), if_neg (by decide)]

theorem seqWaitb_completes (sp : Bool) (b : Fin 32) (val : Bool) (w : Fin 64) (unit : Fin 4) (tmo : Nat) (ha : seqAddrOk sp ((s.dev.seqTaken n).dataWord n w) = true)
    (hr : (s.dev.seqTaken n).seqMayRead n sp = true) :
    let d := s.dev.seqTaken n
    exec (.seqWaitb n sp b val w unit tmo) s = .next (s.withDev (d.seqWait s.store n (.bit sp b (d.dataWord n w) val) (seqTimeout unit tmo))) := by
  refine State.run_seqIssue_eq hs hf ?_
  dsimp only
  rw [ha, hr, if_neg (by decide), if_neg (by decide)]

theorem seqWaitt_completes (ts : Ts) (w : Fin 64) :
    let d := s.dev.seqTaken n
    exec (.seqWaitt n true ts w) s = .next (s.withDev (d.seqWait s.store n (.mec (d.now + d.dataWord n w)) none)) ∧
    (w.val ≤ 61 → exec (.seqWaitt n false ts w) s = .next (s.withDev (d.seqWait s.store n
      (.time ts (untime96 (d.dataWord n w + d.dataWord n (w + 1) * 2 ^ 32 + d.dataWord n (w + 2) * 2 ^ 64))) none))) :=
  ⟨State.run_seqIssue_eq hs hf (if_pos rfl), fun hw => State.run_seqIssue_eq hs hf ((if_neg (by decide)).trans (if_neg (Nat.not_lt.mpr hw)))⟩

theorem seqWaite_completes (e : Fin 128) (unit : Fin 4) (tmo : Nat) :
    let d := s.dev.seqTaken n
    exec (.seqWaite n e true unit tmo) s = .next (s.withDev (d.seqWait s.store n (.event e) (seqTimeout unit tmo))) ∧
    exec (.seqWaite n e false unit tmo) s = .next (s.withDev ((d.evClear n e).seqWait s.store n (.event e) (seqTimeout unit tmo))) :=
  ⟨State.run_seqIssue_eq hs hf rfl, State.run_seqIssue_eq hs hf rfl⟩

theorem seqJumps_complete (va : Fin 8) (t : Fin 512) :
    let d := s.dev.seqTaken n
    exec (.seqJmp n t) s = .next (s.withDev (d.seqFetch n t 2)) ∧
    exec (.seqJz n va t) s = .next (s.withDev (if d.v n va = 0 then d.seqFetch n t 2 else d.seqNext n 1 2)) ∧
    exec (.seqJnz n va t) s = .next (s.withDev (if d.v n va = 0 then d.seqNext n 1 2 else d.seqFetch n t 2)) ∧
    (let x := (d.v n va + 2 ^ 32 - 1) % 2 ^ 32
     exec (.seqDjnz n va t) s = .next (s.withDev (if x = 0 then (d.setV n va x).seqNext n 1 2 else (d.setV n va x).seqFetch n t 2))) :=
  ⟨State.run_seqIssue_eq hs hf rfl, State.run_seqIssue_eq hs hf rfl, State.run_seqIssue_eq hs hf (ite_not _ _ _), State.run_seqIssue_eq hs hf (ite_not _ _ _)⟩

theorem seqAlus_complete (va vb : Fin 8) (imm : Bool) (k : Nat) :
    let d := s.dev.seqTaken n
    let y := if imm then k % 2 ^ 16 else d.v n vb
    exec (.seqAdd n va imm vb k) s = .next (s.withDev ((d.setV n va (d.v n va + y)).seqNext n 1 2)) ∧
    exec (.seqSub n va imm vb k) s = .next (s.withDev ((d.setV n va (d.v n va + 2 ^ 32 - y)).seqNext n 1 2)) ∧
    exec (.seqAnd n va imm vb k) s = .next (s.withDev ((d.setV n va (d.v n va &&& y)).seqNext n 1 2)) ∧
    exec (.seqOr n va imm vb k) s = .next (s.withDev ((d.setV n va (d.v n va ||| y)).seqNext n 1 2)) :=
  ⟨State.run_seqIssue_eq hs hf rfl, State.run_seqIssue_eq hs hf rfl, State.run_seqIssue_eq hs hf rfl, State.run_seqIssue_eq hs hf rfl⟩

/-- REC enters the tag, the PC and V0 to V6 (R338). -/
theorem seqRec_completes (tag : Nat) :
    let d := s.dev.seqTaken n
    exec (.seqRec n tag) s = .next (s.withDev ((d.record 0x81 (srcMaster (.seq n)) (oct 4 (tag % 2 ^ 16 + d.seqPc n * 2 ^ 16) ++
      [d.v n 0, d.v n 1, d.v n 2, d.v n 3, d.v n 4, d.v n 5, d.v n 6].flatMap fun x => oct 4 x)).seqNext n 1 2)) :=
  State.run_seqIssue_eq hs hf rfl

/-- RAISE: an event, or a fault pulse of class 0 to 3; a class that is none faults the sequencer (R364). -/
theorem seqRaise_completes (x : Fin 16) :
    let d := s.dev.seqTaken n
    exec (.seqRaise n false x) s = .next (s.withDev (((d.event (96 + x)).int (Pg.seq n) 3).seqNext n 1 2)) ∧
    (x.val < 4 → exec (.seqRaise n true x) s = .next (s.withDev ((d.fault (Pg.seq n) x causeForce).seqNext n 1 2))) ∧
    (4 < x.val → exec (.seqRaise n true x) s = .next (s.withDev (d.seqFault n causeOperand))) := by
  refine ⟨State.run_seqIssue_eq hs hf rfl, fun hlt => State.run_seqIssue_eq hs hf ?_, fun hgt => State.run_seqIssue_eq hs hf ?_⟩
  · rw [if_neg (by decide), if_neg (by omega), if_neg (by omega)]
  · rw [if_neg (by decide), if_pos hgt]

theorem seqCall_completes (t : Fin 512) :
    let d := s.dev.seqTaken n
    let k := d.get (Pg.seq n) SEQ.STS_DEPTH
    k < 4 → exec (.seqCall n t) s = .next (s.withDev (((d.put (Pg.seq n) SEQ.STACK_RET (d.seqPushed n)).put (Pg.seq n) SEQ.STS_DEPTH (k + 1)).seqFetch n t 2)) :=
  fun hk => State.run_seqIssue_eq hs hf (if_neg (Nat.not_le.mpr hk))

theorem seqRet_completes :
    let d := s.dev.seqTaken n
    let k := d.get (Pg.seq n) SEQ.STS_DEPTH
    0 < k → exec (.seqRet n) s = .next (s.withDev ((d.put (Pg.seq n) SEQ.STS_DEPTH (k - 1)).seqFetch n ((d.get (Pg.seq n) SEQ.STACK_RET >>> (9 * (k - 1))) % 512) 2)) :=
  fun hk => State.run_seqIssue_eq hs hf (if_neg (Nat.ne_of_gt hk))

end

/-- Settles O56: instruction by instruction. -/
theorem sequencerInstructionsComplete : Obligations.SequencerInstructionsComplete := by
  unfold Obligations.SequencerInstructionsComplete
  intro s n hs hf
  exact ⟨State.run_seqIssue hs hf _, seqWr_completes hs hf, seqRd_completes hs hf, fun _ _ _ => ⟨State.run_seqIssue hs hf _, State.run_seqIssue hs hf _⟩, seqWaitb_completes hs hf,
    seqWaitt_completes hs hf, seqWaite_completes hs hf, seqJumps_complete hs hf, seqAlus_complete hs hf, seqRec_completes hs hf, fun _ => State.run_seqIssue hs hf _, seqRaise_completes hs hf,
    State.run_seqIssue hs hf _, seqCall_completes hs hf, seqRet_completes hs hf, State.run_seqIssue hs hf _, State.run_seqIssue hs hf _⟩

end Sys2Proof.Machine
end

section
/-! PROOF. The local counters (O31). -/

namespace Sys2Proof.Machine

/-! A step of a counter (R370). -/

/-- The count and WRAPPED of a counter lie in one register. -/
theorem Dev.get_putCount_wrapped (d : Dev) (pg k v : Nat) : (d.put pg (HDR.PMC_CNT_COUNT k) v).get pg (HDR.PMC_CNT_WRAPPED k) = d.get pg (HDR.PMC_CNT_WRAPPED k) :=
  d.get_put_disj pg (HDR.PMC_CNT_COUNT k) (HDR.PMC_CNT_WRAPPED k) v rfl (.inr (show 47 < 63 by decide)) (show 63 < 96 by decide)

theorem Dev.get_putWrapped_count (d : Dev) (pg k v : Nat) : (d.put pg (HDR.PMC_CNT_WRAPPED k) v).get pg (HDR.PMC_CNT_COUNT k) = d.get pg (HDR.PMC_CNT_COUNT k) :=
  d.get_put_disj pg (HDR.PMC_CNT_WRAPPED k) (HDR.PMC_CNT_COUNT k) v rfl (.inl (show 47 < 63 by decide)) (show 47 < 96 by decide)

theorem Dev.get_putCount (d : Dev) (pg k v : Nat) : (d.put pg (HDR.PMC_CNT_COUNT k) v).get pg (HDR.PMC_CNT_COUNT k) = v % 2 ^ 48 := d.get_put_same _ _ _ (show 47 < 96 by decide)

/-- Below its last value a counter adds 1. -/
theorem Dev.pmcStep_counts {d : Dev} {pg k : Nat} (h : d.get pg (HDR.PMC_CNT_COUNT k) < 2 ^ 48 - 1) :
    (d.pmcStep pg k).get pg (HDR.PMC_CNT_COUNT k) = d.get pg (HDR.PMC_CNT_COUNT k) + 1 ∧ (d.pmcStep pg k).get pg (HDR.PMC_CNT_WRAPPED k) = d.get pg (HDR.PMC_CNT_WRAPPED k) := by
  unfold Dev.pmcStep
  dsimp only
  rw [if_neg (by omega), Dev.get_putCount, Dev.get_putCount_wrapped]
  exact ⟨Nat.mod_eq_of_lt (by omega), rfl⟩

/-- At its last value it returns to 0. -/
theorem Dev.pmcStep_wraps {d : Dev} {pg k : Nat} (h : d.get pg (HDR.PMC_CNT_COUNT k) = 2 ^ 48 - 1) :
    (d.pmcStep pg k).get pg (HDR.PMC_CNT_COUNT k) = 0 ∧ (d.pmcStep pg k).get pg (HDR.PMC_CNT_WRAPPED k) = 1 := by
  unfold Dev.pmcStep
  dsimp only
  rw [if_pos (by omega), Dev.get_putWrapped_count, Dev.get_putCount]
  exact ⟨rfl, Dev.get_put_same _ _ _ _ (show 63 < 96 by decide)⟩

/-! What the fabric looks at lies in own registers. -/

/-- The devices agree in every own register. -/
def Dev.OwnSame (d e : Dev) : Prop := ∀ pg off, 0x100 ≤ off → off < 4096 → e.reg pg off = d.reg pg off

namespace Dev.OwnSame

variable {d e : Dev} (h : d.OwnSame e)
include h

theorem on_eq (pg : Nat) (f : Fld) (hlo : 0x100 ≤ f.off) (hhi : f.off < 4096) : e.on pg f = d.on pg f := by
  unfold Dev.on Dev.get
  rw [h pg f.off hlo hhi]

theorem inCave_eq : e.inCave = d.inCave := by
  unfold Dev.inCave Dev.get
  rw [h Pg.pwr _ (by decide) (by decide)]

theorem domainOn_eq (pg : Nat) : e.domainOn pg = d.domainOn pg := by
  unfold Dev.domainOn
  rw [h.inCave_eq]

theorem access_eq (m : Master) : e.access m = d.access m := by
  unfold Dev.access
  rw [h.on_eq Pg.hif HIF.MGMT_CTL_CLASS (by decide) (by decide)]

theorem gate_eq (m : Master) (pg off : Nat) : e.gate m pg off = d.gate m pg off := by
  unfold Dev.gate Dev.mayWrite
  rw [h.inCave_eq, h.access_eq, h.on_eq Pg.glb GLB.BOOT_STS_BOOT_DONE (by decide) (by decide)]

theorem locked_eq (pg : Nat) : e.locked pg = d.locked pg := by
  unfold Dev.locked
  rw [h.on_eq _ FLT.CTL_LOCK (by decide) (by decide), h.on_eq _ CLKD.CAVE_CTL_LOCK (by decide) (by decide), h.on_eq _ PLK.CTL_LOCK (by decide) (by decide),
    h.on_eq _ LDR.POLICY_LOCK (by decide) (by decide), h.on_eq _ HIF.MGMT_CTL_LOCK (by decide) (by decide), h.on_eq _ SEQ.PERM_CTL_LOCK (by decide) (by decide)]

theorem served {s : State} (hs : s.dev = d) {m : Master} {pg off : Nat} (hserved : Served s m pg off) : e.gate m pg off = .served ∧ e.locked pg = false := by
  obtain ⟨hg, hl⟩ := hserved
  rw [h.gate_eq, h.locked_eq, ← hs]
  exact ⟨hg, hl⟩

end Dev.OwnSame

theorem Dev.ownSame_cycleSync (d : Dev) (pg : Nat) (k : Fin 4) : d.OwnSame (d.cycleSync pg k) := fun _ _ hlo hhi => d.reg_cycleSync pg k k.isLt (by omega) hhi

/-! The selection of a counter (R370). -/

/-- The row of PMC_SEL in the common header. -/
def pmcSelRow : RegDesc := ⟨0x30, 4, 4, 0, 1, 32, false, .val, 0x0, 0xC0000FFF, 0x0, 0x0, 0x0, 0x20000000⟩

theorem regAt_pmcSel {pg : Nat} (h : (pageRow pg).isSome = true) (k : Fin 4) : regAt pg (0x30 + 4 * k) = some pmcSelRow := by
  have hrow : regMap.HDR.find? (fun d => (d.index (0x30 + 4 * k.val)).isSome) = some pmcSelRow := by
    revert k
    decide
  unfold regAt pageRegs
  rw [if_pos h, List.find?_append, hrow, Option.some_or]

theorem pmcSelRow_start (k : Fin 4) : pmcSelRow.start (0x30 + 4 * k) = 0x30 + 4 * k := by
  revert k
  decide

/-- A written selection reads back. -/
theorem Dev.get_storeSel (d : Dev) {pg : Nat} (h : (pageRow pg).isSome = true) (k : Fin 4) (v : Nat) :
    (d.storeReg pg (0x30 + 4 * k) v).get pg (HDR.PMC_SEL_EN k) = v / 2 ^ 31 % 2 ∧ (d.storeReg pg (0x30 + 4 * k) v).get pg (HDR.PMC_SEL_FILT k) = v / 2 ^ 30 % 2 ∧
      (d.storeReg pg (0x30 + 4 * k) v).get pg (HDR.PMC_SEL_EVENT k) = v % 4096 := by
  rw [d.storeReg_eq (regAt_pmcSel h k), pmcSelRow_start]
  unfold Dev.get
  dsimp only
  rw [Dev.reg_setReg_same]
  refine ⟨RegDesc.get_store _ _ _ _ _ _ (HDR.PMC_SEL_EN k) (show 31 < 96 by decide) ?_, RegDesc.get_store _ _ _ _ _ _ (HDR.PMC_SEL_FILT k) (show 30 < 96 by decide) ?_,
    (RegDesc.get_store _ _ _ _ _ _ (HDR.PMC_SEL_EVENT k) (show 11 < 96 by decide) ?_).trans (congrArg (· % 4096) (Nat.div_one v))⟩
  · revert k
    decide
  · revert k
    decide
  · revert k
    decide

theorem Dev.regs_cycleFollow (d : Dev) (pg k : Nat) : (d.cycleFollow pg k).regs = d.regs := by
  unfold Dev.cycleFollow
  dsimp only
  split
  · split <;> rfl
  · rfl

/-- FREEZE of a page stays through a look at its cycles. -/
theorem Dev.reg_cycleSync_pageCtl (d : Dev) (pg pg' : Nat) (k : Fin 4) : (d.cycleSync pg k).reg pg' 8 = d.reg pg' 8 := by
  unfold Dev.cycleSync
  dsimp only
  split
  · exact (Dev.reg_congr rfl _ _).trans ((Dev.reg_when _ _ _ fun e => e.reg_put_ne _ _ (by dsimp only; omega)).trans (d.reg_put_ne (HDR.PMC_CNT_COUNT k) _ (by dsimp only; omega)))
  · rfl

/-- FREEZE of a page stays through a served write. -/
theorem Dev.reg_served_pageCtl (d : Dev) (m : Master) (pg off v : Nat) (h : off ≠ 0x70) : (d.served m pg off v).reg pg 8 = d.reg pg 8 := by
  rw [d.reg_served_lastWr m pg off v h (by decide), Dev.reg_lastWr _ _ _ _ _ (.inr (by decide)) (by decide)]
  exact d.reg_pmc_outside _ _ _ (by decide) (by decide)

/-- The device of a new selection with CLR, before the write itself is counted. -/
def Dev.pmcCleared (d : Dev) (pg : Nat) (k : Fin 4) (v : Nat) : Dev :=
  let e := (d.storeReg pg (0x30 + 4 * k) v).setReg pg (0x40 + 8 * k) 0
  { e with cyc := e.cyc.filter fun x => x.1 ≠ 4 * pg + k.val }.cycleFollow pg k

theorem Dev.reg_pmcCleared (d : Dev) (pg : Nat) (k : Fin 4) (v pg' off : Nat) :
    (d.pmcCleared pg k v).reg pg' off = ((d.storeReg pg (0x30 + 4 * k) v).setReg pg (0x40 + 8 * k) 0).reg pg' off := by
  unfold Dev.pmcCleared
  exact Dev.reg_congr (Dev.regs_cycleFollow _ _ _) _ _

/-- Beside the selection and the counter every register stays. -/
theorem Dev.reg_pmcCleared_ne (d : Dev) {pg : Nat} (hp : (pageRow pg).isSome = true) (k : Fin 4) (v : Nat) {pg' off : Nat} (h : off < 0x30 ∨ 0x60 ≤ off) (h' : off < 4096) :
    (d.pmcCleared pg k v).reg pg' off = d.reg pg' off := by
  rw [Dev.reg_pmcCleared, Dev.reg_setReg_ne _ _ (by omega), d.storeReg_eq (regAt_pmcSel hp k), pmcSelRow_start, Dev.reg_setReg_ne _ _ (by omega)]

/-- What a cleared counter shows. -/
theorem Dev.get_pmcCleared_count (d : Dev) (pg : Nat) (k : Fin 4) (v : Nat) :
    (d.pmcCleared pg k v).get pg (HDR.PMC_CNT_COUNT k) = 0 ∧ (d.pmcCleared pg k v).get pg (HDR.PMC_CNT_WRAPPED k) = 0 := by
  unfold Dev.get
  dsimp only
  rw [Dev.reg_pmcCleared, Dev.reg_setReg_same]
  exact ⟨rfl, rfl⟩

theorem Dev.pmcSelect_eq (d : Dev) (m : Master) (pg : Nat) (k : Fin 4) {v : Nat} (was : Word) (hclr : bit v 29 = true) :
    d.pmcSelect m pg k v was = (d.pmcCleared pg k v).when ((d.pmcCleared pg k v).on pg (HDR.PMC_SEL_EN k) && (d.pmcCleared pg k v).get pg (HDR.PMC_SEL_EVENT k) == 3 &&
      !(d.pmcCleared pg k v).on pg HDR.PAGE_CTL_FREEZE && (d.pmcCleared pg k v).domainOn pg &&
      (!(d.pmcCleared pg k v).on pg (HDR.PMC_SEL_FILT k) || (d.pmcCleared pg k v).passes { master := some m, addr := some (4096 * pg + 0x30 + 4 * k) })) fun e => e.pmcStep pg k := by
  unfold Dev.pmcSelect
  rw [hclr, if_pos rfl]
  rfl

/-- The write that selects is an accepted write, counted where the new selection counts those (R368). -/
theorem Dev.pmcSelect_clears (d : Dev) (m : Master) {pg : Nat} (hp : (pageRow pg).isSome = true) (k : Fin 4) {v : Nat} (was : Word) (hclr : bit v 29 = true) (hfilt : bit v 30 = false) :
    d.pmcSelect m pg k v was = (d.pmcCleared pg k v).when (bit v 31 && v % 4096 == 3 && !d.on pg HDR.PAGE_CTL_FREEZE && d.domainOn pg) fun e => e.pmcStep pg k := by
  obtain ⟨hen, hfil, hev⟩ := d.get_storeSel hp k v
  have hsel (f : Fld) (hf : f.off = 0x30 + 4 * k.val) : (d.pmcCleared pg k v).get pg f = (d.storeReg pg (0x30 + 4 * k) v).get pg f := by
    unfold Dev.get
    rw [Dev.reg_pmcCleared, Dev.reg_setReg_ne _ _ (by omega)]
  have hbit (i : Nat) : (v / 2 ^ i % 2 != 0) = bit v i := by
    unfold bit
    rw [Nat.testBit_eq_decide_div_mod_eq]
    rcases Nat.mod_two_eq_zero_or_one (v / 2 ^ i) with h | h
    · rw [h]; rfl
    · rw [h]; rfl
  have hown : d.OwnSame (d.pmcCleared pg k v) := fun _ _ hlo hhi => d.reg_pmcCleared_ne hp k v (.inr (by omega)) hhi
  have hfreeze : (d.pmcCleared pg k v).on pg HDR.PAGE_CTL_FREEZE = d.on pg HDR.PAGE_CTL_FREEZE := by
    unfold Dev.on Dev.get
    rw [d.reg_pmcCleared_ne hp k v (.inl (by decide)) (by decide)]
  have hon (f : Fld) (hf : f.off = 0x30 + 4 * k.val) : (d.pmcCleared pg k v).on pg f = ((d.storeReg pg (0x30 + 4 * k) v).get pg f != 0) := by
    unfold Dev.on
    rw [hsel f hf]
  rw [d.pmcSelect_eq m pg k was hclr, hon (HDR.PMC_SEL_EN k) rfl, hon (HDR.PMC_SEL_FILT k) rfl, hsel (HDR.PMC_SEL_EVENT k) rfl, hen, hfil, hev, hbit, hbit, hfilt, hfreeze, hown.domainOn_eq, Bool.not_false, Bool.true_or, Bool.and_true]

/-- Settles O31: the step of a counter, and the step of a cleared one. -/
theorem countersRollOver : Obligations.CountersRollOver := by
  unfold Obligations.CountersRollOver
  refine ⟨fun d pg k _ => ⟨Dev.pmcStep_counts, Dev.pmcStep_wraps⟩, fun s m pg k v hs hclr hfilt => ?_⟩
  have hp : (pageRow pg.val).isSome = true := by
    obtain ⟨r, hr⟩ := Dev.regAt_of_served hs.1
    unfold regAt at hr
    by_contra hnone
    rw [if_neg hnone] at hr
    cases hr
  have hown := s.dev.ownSame_cycleSync pg k
  obtain ⟨hg, hl⟩ := hown.served rfl hs
  obtain ⟨hsel, -, -, -⟩ := pmcCommands_complete s
  have hexec := hsel m pg k v _ rfl hg hl
  dsimp only at hexec
  generalize he : (s.dev.cycleSync pg k).served m pg (0x30 + 4 * k.val) v = e at hexec
  have hfreeze : e.on pg HDR.PAGE_CTL_FREEZE = s.dev.on pg HDR.PAGE_CTL_FREEZE := by
    unfold Dev.on Dev.get
    rw [← he, Dev.reg_served_pageCtl _ _ _ _ _ (by omega), Dev.reg_cycleSync_pageCtl]
  have hdomain : e.domainOn pg = s.dev.domainOn pg := by
    rw [← hown.domainOn_eq]
    exact Dev.OwnSame.domainOn_eq (fun pg' off hlo hhi => by rw [← he, Dev.reg_served _ _ _ _ _ hlo hhi]) _
  rw [e.pmcSelect_clears m hp k _ hclr hfilt, hfreeze, hdomain] at hexec
  obtain ⟨hcount, hwrapped⟩ := e.get_pmcCleared_count pg k v
  refine ⟨_, hexec, ?_⟩
  rw [State.withDev_get, State.withDev_get]
  by_cases hc : bit v 31 = true ∧ v % 4096 = 3 ∧ s.dev.on pg HDR.PAGE_CTL_FREEZE = false ∧ s.dev.domainOn pg = true
  · rw [if_pos hc]
    obtain ⟨hen, hev, hf, hd⟩ := hc
    obtain ⟨hcount', hwrapped'⟩ := Dev.pmcStep_counts (d := e.pmcCleared pg k v) (pg := pg) (k := k) (by rw [hcount]; decide)
    rw [hen, hev, hf, hd]
    show ((e.pmcCleared pg k v).pmcStep pg k).get pg _ = 0 ∧ ((e.pmcCleared pg k v).pmcStep pg k).get pg _ = 1
    rw [hcount', hwrapped', hcount, hwrapped]
    exact ⟨rfl, rfl⟩
  · rw [if_neg hc]
    have hno : (bit v 31 && v % 4096 == 3 && !s.dev.on pg HDR.PAGE_CTL_FREEZE && s.dev.domainOn pg) = false := by
      rw [Bool.eq_false_iff]
      intro hyes
      rw [Bool.and_eq_true, Bool.and_eq_true, Bool.and_eq_true, beq_iff_eq, Bool.not_eq_true'] at hyes
      obtain ⟨⟨⟨hen, hev⟩, hf⟩, hd⟩ := hyes
      exact hc ⟨hen, hev, hf, hd⟩
    rw [hno]
    exact ⟨hwrapped, hcount⟩

end Sys2Proof.Machine
end

section
/-! PROOF. The commands of the scheduler, of Cave and of the clock monitors (O59). -/

namespace Sys2Proof.Machine

section
variable (s : State)

theorem powerWrites_complete (m : Master) (v : Nat) :
    (Served s m Pg.pwr 0x104 → exec (.powerCapWrite m v) s = .next (s.withDev ((s.took m Pg.pwr 0x104 v).storeReg Pg.pwr 0x104 v))) ∧
    (Served s m Pg.clkd 0x104 → exec (.sclkSsWrite m v) s = .next (s.withDev ((s.took m Pg.clkd 0x104 v).storeReg Pg.clkd 0x104 v))) ∧
    (∀ pg : Page, Served s m pg 0x28 → exec (.pwrReqWrite m pg v) s = .next (s.withDev ((s.took m pg 0x28 v).storeReg pg 0x28 v))) :=
  ⟨fun h => State.run_writeStore h v id, fun h => State.run_writeStore h v id, fun _ h => State.run_writeStore h v id⟩

/-- A second of the law: a step down while HOT, a step up after a COOL second (R384). -/
theorem capStep_completes :
    let d := (s.dev.upPwr fun e => { e with samples := 0, cool := true }).timer second .capStep
    (d.on Pg.pwr PWR.STS_MAIN_HOT = true → exec .capStep s = .next (s.withStore (capDown (s.store, d)))) ∧
    (d.on Pg.pwr PWR.STS_MAIN_HOT = false → s.dev.pwr.cool = true → s.dev.pwr.samples ≠ 0 → exec .capStep s = .next (s.withStore (capUp (s.store, d)))) := by
  intro d
  have hexec : exec .capStep s = .next (s.withStore (if d.on Pg.pwr PWR.STS_MAIN_HOT then capDown (s.store, d)
      else if s.dev.pwr.cool && s.dev.pwr.samples != 0 then capUp (s.store, d) else (s.store, d))) := rfl
  refine ⟨fun hh => ?_, fun hh hc hn => ?_⟩
  · rw [hexec, if_pos hh]
  · rw [hexec, hh, if_neg (by decide), hc, bne_iff_ne.mpr hn, if_pos (by decide)]

/-- An admission cycle, with what it shows (R380 to R383). -/
theorem admissionCycle_completes :
    let r := admitAll (followWants (takeCap (s.store, s.dev)))
    exec .admissionCycle s = .next (s.withStore (r.1, r.2.capShow.pwrShow)) := by
  show execAdmissionCycle s = _
  rw [execAdmissionCycle, State.runStore_eq]

theorem thermalSample_completes (core analog portA portB : Int) (mw : Nat) :
    exec (.thermalSample core analog portA portB mw) s = .next (s.withStore (thermalJudge (s.store, s.dev) core analog portA portB mw)) := by
  show execThermalSample core analog portA portB mw s = _
  rw [execThermalSample, State.runStore_eq]

theorem pfwDeassert_completes : exec .pfwDeassert s = .next (s.withDev (s.dev.upPwr fun e => { e with pfw := false }).powerBack) := by
  show execPfwDeassert s = _
  rw [execPfwDeassert, State.run_eq]

theorem monitorClear_completes : exec .monitorClear s = .next (s.withDev (s.dev.upPwr fun e => { e with trip := false }).powerBack) := by
  show execMonitorClear s = _
  rw [execMonitorClear, State.run_eq]

/-! Cave (R386 to R390). -/

theorem enterCave_completes (m : Master) (h : Served s m Pg.pwr 0x110) : exec (.enterCave m) s = .next (s.withDev ((s.took m Pg.pwr 0x110 1).caveEnter 1)) := State.run_write h 1 _

theorem exitCave_pf0_completes (h : Served s .pf0 Pg.pwr 0x110) : exec (.exitCave .pf0) s = .next (s.withDev (s.took .pf0 Pg.pwr 0x110 2).caveExit) := by
  show execExitCave .pf0 s = _
  rw [execExitCave, State.run_eq, if_neg (by decide), Dev.write_served h, if_pos rfl]

theorem exitCave_mgmt_completes (h : s.dev.on Pg.glb GLB.BOOT_STS_BOOT_DONE = true) :
    exec (.exitCave .mgmt) s = .next (s.withDev (s.took .mgmt Pg.pwr 0x110 2).caveExit) := by
  show execExitCave .mgmt s = _
  rw [execExitCave, State.run_eq, if_pos rfl, if_pos h]

theorem pfwAssert_completes :
    let d := ((s.dev.upPwr fun e => { e with pfw := true }).cancel .autoExit).powerFail
    (d.on Pg.pwr PWR.CTL_PFW_CAVE = true → exec .pfwAssert s = .next (s.withDev (d.caveEnter 2))) ∧
    (d.on Pg.pwr PWR.CTL_PFW_CAVE = false → exec .pfwAssert s = .next (s.withDev d)) := by
  intro d
  have hexec : exec .pfwAssert s = .next (s.withDev (if d.on Pg.pwr PWR.CTL_PFW_CAVE then d.caveEnter 2 else d)) := by
    show execPfwAssert s = _
    rw [execPfwAssert, State.run_eq]
  refine ⟨fun hc => ?_, fun hc => ?_⟩
  · rw [hexec, if_pos hc]
  · rw [hexec, if_neg (Bool.eq_false_iff.mp hc)]

/-- The supply monitor trips where it watches (R386, R458). -/
theorem monitorTrip_completes (hin : s.dev.caveState ≠ caveIn) (hen : s.dev.caveState ≠ caveEntering) :
    let d := ((s.dev.upPwr fun e => { e with trip := true }).cancel .autoExit).powerFail
    (d.on Pg.pwr PWR.CTL_MON_CAVE = true → exec .monitorTrip s = .next (s.withDev (d.caveEnter 3))) ∧
    (d.on Pg.pwr PWR.CTL_MON_CAVE = false → exec .monitorTrip s = .next (s.withDev d)) := by
  intro d
  have hexec : exec .monitorTrip s = .next (s.withDev (if d.on Pg.pwr PWR.CTL_MON_CAVE then d.caveEnter 3 else d)) := by
    show execMonitorTrip s = _
    rw [execMonitorTrip, State.run_eq, if_neg (not_or.mpr ⟨hin, hen⟩)]
  refine ⟨fun hc => ?_, fun hc => ?_⟩
  · rw [hexec, if_pos hc]
  · rw [hexec, if_neg (Bool.eq_false_iff.mp hc)]

theorem autoExit_completes (ha : s.dev.on Pg.pwr PWR.CTL_AUTO_EXIT = true) (hp : s.dev.powerFails = false) : exec .autoExit s = .next (s.withDev s.dev.caveExit) := by
  show execAutoExit s = _
  rw [execAutoExit, State.run_eq, ha, hp, if_pos (by decide)]

/-- The steps of an entry (R388). -/
theorem caveSteps_complete (hc : s.dev.caveState = caveEntering) :
    (let r := s.dev.caveGoes.foldl revoke (s.store, s.dev.upPwr fun e => { e with left := none })
     exec .caveRevoke s = .next (s.withStore (r.1, r.2.pwrShow))) ∧
    exec .caveCclkStop s = .next (s.withDev s.dev.seqFreeze) ∧
    exec .caveStore s = .next (s.withStore (caveStoreDown (s.store, s.dev))) ∧
    exec .caveEntered s = .next (s.withStore (caveDark (s.store, s.dev))) := by
  refine ⟨?_, ?_, ?_, ?_⟩
  · show execCaveRevoke s = _
    rw [execCaveRevoke, State.runStore_eq, if_neg (not_not_intro hc)]
  · show execCaveCclkStop s = _
    rw [execCaveCclkStop, State.run_eq, if_pos hc]
  · show execCaveStore s = _
    rw [execCaveStore, State.runStore_eq, if_neg (not_not_intro hc)]
  · show execCaveEntered s = _
    rw [execCaveEntered, State.runStore_eq, if_neg (not_not_intro hc)]

theorem caveExitDone_completes (hc : s.dev.caveState = caveExiting) (hl : s.dev.on Pg.hif HIF.STS_LINK_UP = true) :
    let d := s.dev.each allPages fun pg d => d.put pg HDR.PAGE_STS_CAVE_HELD 0
    exec .caveExitDone s = .next (s.withDev (((d.each d.pwr.held fun r d => d.after 0 (.c4RegionReset r)).upPwr fun e => { e with held := [], left := none }).caveTo caveRun)) := by
  show execCaveExitDone s = _
  rw [execCaveExitDone, State.run_eq, if_pos ⟨hc, hl⟩]

/-! Clocks (R376). -/

theorem oscLoss_completes : exec .oscLoss s = .next (s.withDev s.dev.oscGone) := by
  show execOscLoss s = _
  rw [execOscLoss, State.run_eq]

theorem oscReturn_completes (h : s.dev.on Pg.clkd CLKD.STS_OSC_PRESENT = false) : exec .oscReturn s = .next (s.withDev
    ((((s.dev.put Pg.clkd CLKD.STS_OSC_PRESENT 1).int Pg.clkd 0).record 0xA2 (srcPage Pg.clkd) [8, 1]).upPwr fun e => { e with oscLost := none })) := by
  show execOscReturn s = _
  rw [execOscReturn, State.run_eq, if_neg (Bool.eq_false_iff.mp h)]

theorem oscRelock_completes (h : s.dev.on Pg.clkd CLKD.STS_OSC_PRESENT = true) :
    exec .oscRelock s = .next (s.withDev (((s.dev.clkLock 0 true).lower (Pg.ts 0) 3 causeOsc).lower (Pg.ts 1) 3 causeOsc)) := by
  show execOscRelock s = _
  rw [execOscRelock, State.run_eq, h, if_neg (by decide)]

end

/-- Settles O59: command by command. -/
theorem powerCommandsComplete : Obligations.PowerCommandsComplete := by
  unfold Obligations.PowerCommandsComplete
  exact fun s => ⟨admissionCycle_completes s, powerWrites_complete s, thermalSample_completes s, capStep_completes s, enterCave_completes s, exitCave_pf0_completes s,
    exitCave_mgmt_completes s, pfwAssert_completes s, pfwDeassert_completes s, monitorTrip_completes s, monitorClear_completes s, autoExit_completes s, caveSteps_complete s, caveExitDone_completes s,
    oscLoss_completes s, oscReturn_completes s, oscRelock_completes s⟩

end Sys2Proof.Machine
end

section
/-! PROOF. The redundant pair and the Kwager link (O33, O60). -/

namespace Sys2Proof.Machine

/-! A replay (R399). -/

/-- A replay is counted, and nothing else happens. -/
theorem Dev.kwgTake_replay {d : Dev} {h : KwgHead} (hl : linkHello ≤ d.link) (hk : d.linkKey.isSome = true) (hm : h.mec ≤ d.plk.lastMec) (f : Dev → Dev) : d.kwgTake h f = d.plkCount 2 := by
  unfold Dev.kwgTake
  rw [if_neg, if_pos hm]
  · unfold Dev.kwgBad
    rw [if_neg (Nat.not_lt.mpr hl), if_pos rfl]
  · rintro (hlt | hnone)
    · exact absurd hl (Nat.not_le.mpr hlt)
    · rw [Option.isNone_iff_eq_none] at hnone
      rw [hnone] at hk
      cases hk

/-- Settles O33: a replay is its count. -/
theorem replaysAreDropped : Obligations.ReplaysAreDropped := by
  unfold Obligations.ReplaysAreDropped
  intro d h f hl hk hm
  rw [Dev.kwgTake_replay hl hk hm f]
  refine ⟨d.onlyRegs_count _ _ _, fun hf => ?_, fun pg off h1 h2 hne => d.reg_count _ _ _ (by omega) h2 (by decide) (by omega)⟩
  refine (d.get_count_same Pg.plk (PLK.CNT_COUNT 2) _ (by decide) (by decide) (by decide)).trans ?_
  rw [hf, if_neg Bool.false_ne_true]
  rfl

/-! The link (R398 to R400). -/

section
variable (s : State)

theorem plkCtl_completes (m : Master) (v : Nat) (h : Served s m Pg.plk 0x100) :
    let d := (s.took m Pg.plk 0x100 v).storeReg Pg.plk 0x100 v
    (d.on Pg.plk PLK.CTL_EN = true → exec (.plkEnable m v) s = .next (s.withDev ((d.plkStart.plkEval).claimTry).claimFollow)) ∧
    (d.on Pg.plk PLK.CTL_EN = false → exec (.plkDisable m v) s = .next (s.withDev ((d.plkStop.plkEval).claimTry).claimFollow)) := by
  refine ⟨fun hen => (State.run_writeStore h v _).trans ?_, fun hen => (State.run_writeStore h v _).trans ?_⟩
  · rw [if_pos hen]
  · rw [if_neg (Bool.eq_false_iff.mp hen)]

theorem kwgAlign_completes (hl : s.dev.link = linkAlign) :
    (s.dev.plk.slot = none → s.dev.plk.due = false → exec (.kwgBlockLock true) s = .next (s.withDev (s.dev.linkTo linkHello false))) ∧
    exec .kwgAlignTimeout s = .next (s.withDev ((s.dev.plkCount 0).timerTime 0 second .kwgAlignTimeout)) := by
  refine ⟨fun hslot hdue => ?_, ?_⟩
  · show execKwgBlockLock true s = _
    rw [execKwgBlockLock, State.run_eq, if_pos rfl, if_pos ⟨hl, by rw [hslot]; rfl, by rw [hdue]; rfl⟩]
  · show execKwgAlignTimeout s = _
    rw [execKwgAlignTimeout, State.run_eq, if_pos hl]

theorem kwgBlockLoss_completes (hl : s.dev.link = linkHello ∨ s.dev.link = linkUp) : exec (.kwgBlockLock false) s = .next (s.withDev s.dev.linkFail) := by
  show execKwgBlockLock false s = _
  rw [execKwgBlockLock, State.run_eq, if_neg Bool.false_ne_true, if_pos hl]

theorem helloTx_completes (hl : s.dev.link = linkHello ∨ s.dev.link = linkUp) :
    exec .helloTx s = .next (s.withDev ((s.dev.kwgSend "hello" s.dev.helloArgs).timerTime 0 milli .helloTx)) := by
  show execHelloTx s = _
  rw [execHelloTx, State.run_eq, if_pos hl]

theorem linkUp_completes (hl : s.dev.link = linkUp) :
    exec .kwgLinkTimeout s = .next (s.withDev s.dev.linkFail.plkEval) ∧
    exec .healthTx s = .next (s.withDev ((s.dev.kwgSend "health" s.dev.healthReport).timerTime 0 (100 * milli) .healthTx)) ∧
    (let d := s.dev.syncSend
     exec .kwgSyncTx s = .next (s.withDev (if d.role = roleActive ∧ bit (d.get Pg.plk PLK.MIR_MIR) 0 = true then d.mirrorSend s.store else d))) := by
  refine ⟨?_, ?_, ?_⟩
  · show execKwgLinkTimeout s = _
    rw [execKwgLinkTimeout, State.run_eq, if_pos hl]
  · show execHealthTx s = _
    rw [execHealthTx, State.run_eq, if_pos hl]
  · show execKwgSyncTx s = _
    rw [execKwgSyncTx, State.run_eq, if_neg (not_not_intro hl)]

theorem hbToggle_completes (hen : s.dev.on Pg.plk PLK.CTL_EN = true) (hb : s.dev.on Pg.glb GLB.BOOT_STS_BOOT_DONE = true) (hc : s.dev.inCave = false) :
    let d := s.dev.timer milli .hbToggle
    (bit (d.get Pg.flt FLT.CLASS_STS_LAT) 4 = false →
      exec .hbToggle s = .next (s.withDev ((d.upPlk fun e => { e with hbOut := !e.hbOut }).emit (.message "hb-out" [b2n (!s.dev.plk.hbOut)])))) ∧
    (bit (d.get Pg.flt FLT.CLASS_STS_LAT) 4 = true → exec .hbToggle s = .next (s.withDev d)) := by
  intro d
  have hexec : exec .hbToggle s = .next (s.withDev (if bit (d.get Pg.flt FLT.CLASS_STS_LAT) 4 then d
      else (d.upPlk fun e => { e with hbOut := !e.hbOut }).emit (.message "hb-out" [b2n (!d.plk.hbOut)]))) := by
    show execHbToggle s = _
    rw [execHbToggle, State.run_eq, hen, hb, hc, if_neg (by decide)]
  refine ⟨fun hf => ?_, fun ht => ?_⟩
  · rw [hexec, if_neg (Bool.eq_false_iff.mp hf)]
    rfl
  · rw [hexec, if_pos ht]

/-- What an enabled pair does with its heartbeat and its self-tests (R400, R406). -/
theorem pairOn_completes (hr : s.dev.role ≠ roleOff) :
    exec .partnerLost s = .next (s.withDev s.dev.partnerSilent) ∧
    (∀ ok : Bool, exec (.selftest ok) s = .next (s.withDev (s.dev.selftestEnd ok))) ∧
    (let d := s.dev.upPlk fun e => { e with hbAt := s.dev.freeNs }
     d.role = s.dev.role → exec .hbInEdge s = .next (s.withDev ((((d.putPin 1 true).put Pg.plk PLK.STS_P_LOST 0).lostWatch).plkEval))) := by
  refine ⟨?_, fun ok => ?_, fun hd => ?_⟩
  · show execPartnerLost s = _
    rw [execPartnerLost, State.run_eq, if_neg hr]
  · show execSelftest ok s = _
    rw [execSelftest, State.run_eq, if_neg hr]
  · show execHbInEdge s = _
    rw [execHbInEdge, State.run_eq]
    dsimp only
    rw [if_neg (by rw [hd]; exact hr)]

/-! Commands and the claim (R401, R402, R404, R407). -/

theorem plkCommands_complete (m : Master) (force : Bool) (h : Served s m Pg.plk 0x104) :
    (let d := s.took m Pg.plk 0x104 (1 + 4 * b2n force)
     d.role = roleStandby →
      (force = false → d.link = linkUp → exec (.take m force) s = .next (s.withDev (d.kwgSend "handover-request" []))) ∧
      (force = true → (d.on Pg.plk PLK.CTL_WIT_EN = true ∨ (d.pin 0 = false ∧ d.on Pg.plk PLK.STS_P_LOST = true)) →
        exec (.take m force) s = .next (s.withDev (d.request prCommand true)))) ∧
    (let d := s.took m Pg.plk 0x104 2
     d.role = roleActive → exec (.handover m) s = .next (s.withDev (d.release prCommand))) ∧
    (let d := s.took m Pg.plk 0x104 3
     d.role = roleRequesting → exec (.plkAbort m) s = .next (s.withDev (d.roleTo roleStandby prCommand))) := by
  refine ⟨fun hr => ⟨?_, ?_⟩, fun hr => (State.run_write h 2 _).trans ?_, fun hr => (State.run_write h 3 _).trans ?_⟩
  · rintro rfl hl
    refine (State.run_write h _ _).trans ?_
    rw [if_neg (not_not_intro hr), if_pos (by decide), if_pos hl]
  · rintro rfl hw
    refine (State.run_write h _ _).trans ?_
    rw [if_neg (not_not_intro hr), if_neg (by decide), if_pos]
    rw [Bool.or_eq_true, Bool.and_eq_true, Bool.not_eq_true']
    exact hw
  · rw [if_pos hr]
  · rw [if_pos hr]

theorem claimWaitEnd_completes (hr : s.dev.role = roleRequesting) (hg : s.dev.claimGranted = true) (ha : s.dev.plk.grantAt.isSome = true) :
    exec .claimWaitEnd s = .next (s.withStore (claimDone (s.store, s.dev))) := by
  show execClaimWaitEnd s = _
  rw [execClaimWaitEnd, State.runStore_eq, if_pos ⟨hr, hg, ha⟩]

theorem claimInChange_completes (high : Bool) (hr : s.dev.role ≠ roleRequesting) : exec (.claimInChange high) s = .next (s.withDev (s.dev.putPin 0 high).plkEval) := by
  show execClaimInChange high s = _
  rw [execClaimInChange, State.run_eq, beq_eq_false_iff_ne.mpr hr]
  rfl

theorem witGrantFall_completes :
    let d := s.dev.witPin 2 false
    d.on Pg.plk PLK.CTL_WIT_EN = true → (d.role = roleActive ∨ d.role = roleReleasing) → exec .witGrantFall s = .next (s.withDev (d.roleTo roleStandby prWitness).plkEval) := by
  intro d hen hr
  have hen' : (s.dev.witPin 2 false).on Pg.plk PLK.CTL_WIT_EN = true := hen
  show execWitGrantFall s = _
  rw [execWitGrantFall, State.run_eq]
  dsimp only
  rw [hen', if_neg (by decide), if_pos hr]

theorem reqTimeout_completes (hr : s.dev.role = roleRequesting) (hg : s.dev.plk.grantAt = none) :
    exec .reqTimeout s = .next (s.withDev ((s.dev.plkCount 5).roleTo roleStandby s.dev.plk.cause).plkEval) := by
  show execReqTimeout s = _
  rw [execReqTimeout, State.run_eq, if_pos ⟨hr, by rw [hg]; rfl⟩]

/-! Messages of the partner (R398, R404, R408 to R412). -/

/-- A message that the pair takes, by the value of its effect. -/
theorem State.run_kwgTake {s : State} {h : KwgHead} (ht : s.dev.kwgTakes h = true) {f : Dev → Dev} {e : Dev} (he : f (s.dev.kwgSeen h) = e) :
    (s.run fun d => d.kwgTake h f) = .next (s.withDev e.plkEval) := by
  rw [State.run_eq, Dev.kwgTake_takes ht, he]

theorem helloRx_completes (h : KwgHead) (ht : s.dev.kwgTakes h = true) (uid epoch : Nat) :
    let d := s.dev.kwgSeen h
    d.link = linkHello → epoch = d.keyEpoch (d.get Pg.plk PLK.KEY_SLOT) → (d.get Pg.plk PLK.PUID_UID = 0 ∨ uid = d.get Pg.plk PLK.PUID_UID) →
      exec (.helloRx h uid epoch) s = .next (s.withDev ((d.upPlk fun e => { e with uid := uid }).linkTo linkUp true).plkEval) :=
  fun hl he hu => State.run_kwgTake ht (if_pos ⟨hl, he, hu⟩)

theorem upMessages_complete (h : KwgHead) (ht : s.dev.kwgTakes h = true) :
    let d := s.dev.kwgSeen h
    d.link = linkUp →
      (d.role = roleActive → exec (.handoverRequestRx h) s = .next (s.withDev (d.release prCommand).plkEval)) ∧
      (∀ x : Health, exec (.healthRx h x) s = .next (s.withDev (d.healthTake h x).plkEval)) ∧
      (∀ f : LaneRx, exec (.kwgSyncRx h f) s = .next (s.withDev (d.kwgSend "resp" (h.mec :: laneWords (d.laneRx f) ++ laneWords d.laneTx)).plkEval)) ∧
      (∀ (m : Nat) (t1 t2 t3 : LaneStamp) (f : LaneRx), d.plk.sync = some (m, t1) →
        exec (.kwgRespRx h m t2 t3 f) s = .next (s.withDev (d.respTake t1 t2 t3 (d.laneRx f)).plkEval)) := by
  intro d hl
  refine ⟨fun hr => State.run_kwgTake ht (if_pos ⟨hr, hl⟩), fun x => State.run_kwgTake ht (if_neg (not_not_intro hl)), fun f => State.run_kwgTake ht (if_pos hl), fun m t1 t2 t3 f hsync => ?_⟩
  refine State.run_kwgTake ht ?_
  show (match d.plk.sync with
    | some (k, t1) => if d.link = linkUp ∧ k = m then d.respTake t1 t2 t3 (d.laneRx f) else d
    | none => d) = _
  rw [hsync]
  exact if_pos ⟨hl, rfl⟩

/-- A mirrored change is taken into the store of a standby (R411, R412). -/
theorem mirrorEntryRx_completes (h : KwgHead) (ht : s.dev.kwgTakes h = true) (hl : s.dev.link = linkUp) (hr : s.dev.role = roleStandby ∨ s.dev.role = roleRequesting)
    (hm : bit (s.dev.get Pg.plk PLK.MIR_MIR) 0 = true) (x : MirrorEntry) :
    exec (.mirrorEntryRx h x) s = .next (s.withStore (mirrorTake (s.store, (s.dev.kwgSeen h).plkEval) h x)) := by
  have htakes := ht
  rw [Dev.kwgTakes, Bool.and_eq_true, Bool.and_eq_true, decide_eq_true_eq, decide_eq_true_eq] at htakes
  obtain ⟨⟨-, hkey⟩, hmec⟩ := htakes
  show execMirrorEntryRx h x s = _
  rw [execMirrorEntryRx, State.runStore_eq]
  dsimp only
  rw [if_pos ⟨hl, hkey, hmec, hr, hm⟩, Dev.kwgTake_takes ht]
  rfl

end

/-- Settles O60: command by command. -/
theorem pairCommandsComplete : Obligations.PairCommandsComplete := by
  unfold Obligations.PairCommandsComplete
  exact fun s => ⟨plkCtl_completes s, kwgAlign_completes s, kwgBlockLoss_completes s, helloTx_completes s, fun r => State.run_eq s fun d => d.kwgBad r, linkUp_completes s, hbToggle_completes s,
    pairOn_completes s, plkCommands_complete s, State.run_eq s Dev.plkEval, claimWaitEnd_completes s, claimInChange_completes s,
    State.run_eq s fun d => ((d.witPin 2 true).claimTry).claimFollow, witGrantFall_completes s, reqTimeout_completes s,
    fun h ht => ⟨helloRx_completes s h ht, upMessages_complete s h ht, mirrorEntryRx_completes s h ht⟩⟩

end Sys2Proof.Machine
end

section
/-! PROOF. The commands of update sessions (O58). -/

namespace Sys2Proof.Machine

/-! Commands of LDR_CMD (R427, R430). -/

/-- A write of PF0 to the loader's page has its effect. -/
theorem Dev.ldrWrite_pf0 {s : State} {off : Nat} (h : Served s .pf0 Pg.ldr off) (v : Nat) (eff : Dev → Dev) : s.dev.ldrWrite .pf0 off v eff = eff (s.took .pf0 Pg.ldr off v) := by
  unfold Dev.ldrWrite
  rw [h.1]
  dsimp only
  rw [if_pos (.inl rfl), Dev.write_served h]

section
variable {s : State} (h : Served s .pf0 Pg.ldr 0x104) {op : Nat} {d : Dev} (hd : d = s.took .pf0 Pg.ldr 0x104 op) (hp : d.powerFails = false)
include h hd hp

/-- A command of PF0 while power stands. -/
theorem State.run_ldrCmd {eff : Dev → Dev} {e : Dev} (he : eff d = e) : (s.run fun d => d.ldrCmd .pf0 op eff) = .next (s.withDev e) := by
  subst hd he
  refine State.run_of_eq ((Dev.ldrWrite_pf0 h op _).trans ?_)
  rw [hp, if_neg Bool.false_ne_true]

/-- A command of the lock owner in a phase that takes it. -/
theorem State.run_ownerCmd (ho : d.ldr.jnl.owner = masterId .pf0) {phases : List Nat} (hph : d.ldr.jnl.phase ∈ phases) {eff : Dev → Dev} {e : Dev} (he : eff d = e) :
    (s.run fun d => d.ownerCmd .pf0 op phases eff) = .next (s.withDev e) := by
  refine State.run_ldrCmd h hd hp ?_
  rw [if_neg (not_not_intro ho), if_neg (not_not_intro hph), he]

theorem openSession_completes (hop : op = 1) (c : Container) : exec (.openSession .pf0 c) s = .next (s.withDev (d.openFor .pf0 c)) := by
  subst hop
  exact State.run_ldrCmd h hd hp rfl

theorem verifyHdr_completes (hop : op = 2) (c : Container) (hc : d.session .pf0 = some c) : exec (.verifyHdr .pf0) s = .next (s.withDev (d.headVerify .pf0 c)) := by
  subst hop
  refine State.run_ldrCmd h hd hp ?_
  rw [hc]

theorem calCommit_completes (hop : op = 8) (hn : d.ldr.jnl.owner = noOwner) : exec (.calCommit .pf0) s =
    .next (s.withDev (((d.ldrPhase phCal (masterId .pf0)).upLdr fun e => { e with slot := some d.calCollect }).copyStart (256 + d.calCollect.body.length))) := by
  subst hop
  refine State.run_ldrCmd h hd hp ?_
  rw [if_neg (not_not_intro rfl), if_neg (not_not_intro hn)]

theorem restoreImage_completes (hop : op = 9) (hn : d.ldr.jnl.owner = noOwner) (hi : d.ldr.jnl.phase = phIdle) : exec (.restoreImage .pf0) s = .next (s.withDev
    (if d.retUsable = true then (d.ldrPhase phRestoring (masterId .pf0)).copyStart ((d.ldr.flash.ret.map Container.size).getD 0) else d.ldrResult lrRollback)) := by
  subst hop
  refine State.run_ldrCmd h hd hp ?_
  rw [if_neg (not_not_intro rfl), if_neg (not_or.mpr ⟨not_not_intro hn, not_not_intro hi⟩)]
  cases d.retUsable <;> rfl

/-- The commands of the lock owner. -/
theorem ownerCommands_complete (ho : d.ldr.jnl.owner = masterId .pf0) :
    (op = 6 → d.ldr.jnl.phase = phTrial → exec (.confirm .pf0) s = .next (s.withDev d.confirmNow)) ∧
    (op = 7 → d.ldr.jnl.phase ∈ [phOpen, phLoading, phLoaded, phVerified] → exec (.ldrAbort .pf0) s = .next (s.withDev
      (((d.upFlash fun f => { f with staging := none }).upLdr fun e => { e with sess := e.sess.filter fun x => x.1 ≠ masterId .pf0 }).ldrIdle.ldrResult lrDone))) ∧
    (∀ c : Container, d.ownerBody = some c →
      (op = 3 → d.ldr.jnl.phase = phOpen → exec (.loadBody .pf0) s = .next (s.withDev (d.bodyLoad c))) ∧
      (op = 4 → d.ldr.jnl.phase = phLoaded → exec (.verifyBody .pf0) s = .next (s.withDev
        (if d.bodyCheck c = 0 then ((d.ldrPhase phVerified d.ldr.jnl.owner).ldrResult lrDone).progress else (d.ldrResult (d.bodyCheck c)).progress))) ∧
      (op = 5 → d.ldr.jnl.phase = phVerified → exec (.activate .pf0) s = .next (s.withDev (d.copyBegin c)))) := by
  refine ⟨?_, ?_, fun c hc => ⟨?_, ?_, ?_⟩⟩
  · rintro rfl hph
    exact State.run_ownerCmd h hd hp ho (List.mem_singleton.mpr hph) rfl
  · rintro rfl hph
    exact State.run_ownerCmd h hd hp ho hph rfl
  · rintro rfl hph
    refine State.run_ownerCmd h hd hp ho (List.mem_singleton.mpr hph) ?_
    rw [hc]
  · rintro rfl hph
    refine State.run_ownerCmd h hd hp ho (List.mem_singleton.mpr hph) ?_
    rw [hc]
  · rintro rfl hph
    refine State.run_ownerCmd h hd hp ho (List.mem_singleton.mpr hph) ?_
    rw [hc]

end

/-! Loads and copies (R427, R429, R431, R433). -/

section
variable (s : State)

theorem loadComplete_completes (hp : s.dev.powerFails = false) (hl : s.dev.ldr.jnl.phase = phLoading) : exec .loadComplete s = .next (s.withDev s.dev.bodyHere) := by
  show execLoadComplete s = _
  rw [execLoadComplete, State.run_eq, if_neg (not_not_intro hl), hp, if_neg Bool.false_ne_true]

/-- The end of a copy, while power stands, by its phase. -/
theorem copyDone_completes (d : Dev) (hd : d = s.dev.cancel .copyDone) (hp : d.powerFails = false) :
    (d.ldr.jnl.phase = phCopyRet → exec .copyDone s = .next (s.withReset (s.store,
      ((d.upFlash fun f => { f with ret := f.running, running := none }).ldrPhase phOverwrite d.ldr.jnl.owner).copyStart ((d.ldr.flash.staging.map Container.size).getD 0)))) ∧
    (d.ldr.jnl.phase = phOverwrite → exec .copyDone s = .next (s.afterReset (packageBegin (s.store,
      ((d.upFlash fun f => { f with running := f.staging }).upJnl fun j => { j with trial := 0, expired := false, done := 0 }).ldrPhase phTrial d.ldr.jnl.owner)))) ∧
    (d.ldr.jnl.phase = phRestoring → exec .copyDone s = .next (s.afterReset (packageBegin (s.store,
      ((d.upFlash fun f => { f with running := f.ret, staging := none }).upJnl fun j => { j with trial := 0, expired := false, done := 0, restored := true }).ldrPhase phIdle noOwner)))) ∧
    (d.ldr.jnl.phase = phSlot ∨ d.ldr.jnl.phase = phCal → exec .copyDone s = .next (s.withReset (s.store, d.slotDone (d.ldr.jnl.phase == phCal)))) := by
  have hphase : s.dev.ldr.jnl.phase = d.ldr.jnl.phase := by rw [hd]; rfl
  have hgo {p : Nat} (hp' : d.ldr.jnl.phase = p) (hcopy : ¬ (p < phCopyRet ∨ p = phTrial)) : exec .copyDone s = .next (s.withReset (
      if p = phCopyRet then (s.store, ((d.upFlash fun f => { f with ret := f.running, running := none }).ldrPhase phOverwrite d.ldr.jnl.owner).copyStart ((d.ldr.flash.staging.map Container.size).getD 0))
      else if p = phOverwrite then resetBy s.store (((d.upFlash fun f => { f with running := f.staging }).upJnl fun j => { j with trial := 0, expired := false, done := 0 }).ldrPhase phTrial d.ldr.jnl.owner)
      else if p = phRestoring then
        resetBy s.store (((d.upFlash fun f => { f with running := f.ret, staging := none }).upJnl fun j => { j with trial := 0, expired := false, done := 0, restored := true }).ldrPhase phIdle noOwner)
      else (s.store, d.slotDone (p == phCal)))) := by
    show execCopyDone s = _
    rw [execCopyDone, State.runReset_eq]
    dsimp only
    rw [hphase, hp', if_neg hcopy, ← hd, hp, if_neg Bool.false_ne_true]
    rfl
  refine ⟨fun h => hgo h (by decide), fun h => (hgo h (by decide)).trans ?_, fun h => (hgo h (by decide)).trans ?_, ?_⟩
  · exact congrArg _ (s.withReset_packageBegin _ _)
  · exact congrArg _ (s.withReset_packageBegin _ _)
  · rintro (h | h)
    · rw [h]
      exact hgo h (by decide)
    · rw [h]
      exact hgo h (by decide)

/-! Confirmation and timeouts (R428, R431, R432). -/

theorem selfConfirm_completes (ht : s.dev.ldr.jnl.phase = phTrial) (hm : s.dev.mayConfirm = true) (hp : s.dev.powerFails = false) : exec .selfConfirm s = .next (s.withDev s.dev.confirmNow) := by
  show execSelfConfirm s = _
  rw [execSelfConfirm, State.run_eq, if_pos ⟨ht, hm, by rw [hp]; rfl⟩]

theorem sessionTimeout_completes (hlo : phOpen ≤ s.dev.ldr.jnl.phase) (hhi : s.dev.ldr.jnl.phase ≤ phVerified) : exec .sessionTimeout s =
    .next (s.withDev ((s.dev.upFlash fun f => { f with staging := none }).upLdr fun e => { e with sess := [] }).ldrIdle) := by
  show execSessionTimeout s = _
  rw [execSessionTimeout, State.run_eq, if_pos ⟨hlo, hhi⟩]

/-- A write of LDR_WDOG (R431). -/
theorem kick_completes (v : Nat) (h : Served s .pf0 Pg.ldr 0x128) :
    let d := (s.took .pf0 Pg.ldr 0x128 v).storeReg Pg.ldr 0x128 v
    (d.ldrWatched = true → bit v 30 = true → exec (.kick .pf0 v) s = .next (s.withDev d.ldrKick)) ∧
    (d.ldrWatched = false → exec (.kick .pf0 v) s = .next (s.withDev (d.cancel .ldrWatchdogExpiry))) := by
  intro d
  have hexec : exec (.kick .pf0 v) s = .next (s.withDev (if !d.ldrWatched then d.cancel .ldrWatchdogExpiry else if bit v 30 || !s.dev.ldrWatched then d.ldrKick else d)) := by
    show execKick .pf0 v s = _
    rw [execKick, State.run_eq]
    dsimp only
    rw [Dev.ldrWrite_pf0 h]
  refine ⟨fun hw hk => ?_, fun hw => ?_⟩
  · rw [hexec, hw, hk, if_neg (by decide), Bool.true_or, if_pos rfl]
  · rw [hexec, hw, if_pos (by decide)]

theorem ldrWatchdogExpiry_completes (hw : s.dev.ldrWatched = true) : exec .ldrWatchdogExpiry s =
    .next (s.afterReset (packageBegin (s.store, s.dev.upJnl fun j => { j with expired := j.phase == phTrial }))) := by
  show execLdrWatchdogExpiry s = _
  rw [execLdrWatchdogExpiry, State.runReset_eq, if_pos hw, resetBy, State.withReset_packageBegin]

/-- The partner pushes a container (R427). -/
theorem partnerContainerRx_completes (h : KwgHead) (c : Container) (ht : s.dev.kwgTakes h = true) (hl : (s.dev.kwgSeen h).link = linkUp) (hp : (s.dev.kwgSeen h).powerFails = false)
    (hb : (s.dev.kwgSeen h).on Pg.glb GLB.BOOT_STS_BOOT_DONE = true) : exec (.partnerContainerRx h c) s = .next (s.withDev ((s.dev.kwgSeen h).partnerPush c).plkEval) := by
  have hcmd : (s.dev.kwgSeen h).ldrCmd .kwager 1 (fun d => d.partnerPush c) = (s.dev.kwgSeen h).partnerPush c := by
    show (if (s.dev.kwgSeen h).on Pg.glb GLB.BOOT_STS_BOOT_DONE then (if (s.dev.kwgSeen h).powerFails then (s.dev.kwgSeen h).ldrResult lrPower else (s.dev.kwgSeen h).partnerPush c)
      else s.dev.kwgSeen h) = _
    rw [if_pos hb, hp, if_neg Bool.false_ne_true]
  show execPartnerContainerRx h c s = _
  rw [execPartnerContainerRx, State.run_eq, Dev.kwgTake_takes ht, if_neg (not_not_intro hl), hcmd]

end

/-- Settles O58: command by command. -/
theorem loaderCommandsComplete : Obligations.LoaderCommandsComplete := by
  unfold Obligations.LoaderCommandsComplete
  refine fun s => ⟨fun h op d hd hp => ⟨fun c hop => openSession_completes h hd hp hop c, fun hop => verifyHdr_completes h hd hp hop, calCommit_completes h hd hp, restoreImage_completes h hd hp,
    ownerCommands_complete h hd hp⟩, loadComplete_completes s, copyDone_completes s, selfConfirm_completes s, sessionTimeout_completes s, kick_completes s, ldrWatchdogExpiry_completes s,
    partnerContainerRx_completes s⟩

end Sys2Proof.Machine
end

section
/-! PROOF. What the fabric lets through (O17, O18) and the MSI-X tables (O21). -/

namespace Sys2Proof.Machine

/-! Before BOOT_DONE and in Cave (R441, R454). -/

/-- Before BOOT_DONE a read of any page but GLB gives all-ones. -/
theorem Dev.readWord_preboot {d : Dev} {m : Master} {pg : Nat} (hb : d.on Pg.glb GLB.BOOT_STS_BOOT_DONE = false) (hpg : pg ≠ Pg.glb) (hl : m ≠ .loader) (hc : m ≠ .collector) (off : Nat) :
    d.readWord m pg off = 0xFFFFFFFF := by
  unfold Dev.readWord
  dsimp only
  rw [hb, bne_iff_ne.mpr hpg, beq_eq_false_iff_ne.mpr hl, beq_eq_false_iff_ne.mpr hc, if_pos (by decide)]

theorem Dev.gate_preboot {d : Dev} {m : Master} {pg : Nat} (hb : d.on Pg.glb GLB.BOOT_STS_BOOT_DONE = false) (hpg : pg ≠ Pg.glb) (hl : m ≠ .loader) (hc : m ≠ .collector)
    (hcave : d.inCave = false) (hp : (pageRow pg).isSome = true) (off : Nat) : d.gate m pg off = .preboot := by
  unfold Dev.gate
  dsimp only
  rw [hcave, Bool.false_and, if_neg Bool.false_ne_true, if_neg (by rw [Option.isNone_iff_eq_none]; exact Option.isSome_iff_ne_none.mp hp), hb, bne_iff_ne.mpr hpg,
    beq_eq_false_iff_ne.mpr hl, beq_eq_false_iff_ne.mpr hc, if_pos (by decide)]

/-- In Cave the link of a function is down: its writes never arrive. -/
theorem registerWrite_cave {s : State} {m : Master} (hc : s.dev.inCave = true) (hm : m = .pf0 ∨ m = .pf1 ∨ m = .pf2) (addr v : Nat) (wide : Bool) :
    exec (.registerWrite m addr wide v) s = .next s := by
  have hpf : (pfOf m).isSome = true := by
    obtain rfl | rfl | rfl := hm
    · rfl
    · rfl
    · rfl
  show routeWrite m addr wide v s = _
  unfold routeWrite
  rw [hc, hpf, if_pos (by decide)]

/-- In Cave the management target finds only the pages of the Cave set. -/
theorem Dev.mgmt_cave {d : Dev} {pg : Nat} {r : PageRow} (hc : d.inCave = true) (hr : pageRow pg = some r) (hdark : r.cave = false) (hb : d.on Pg.glb GLB.BOOT_STS_BOOT_DONE = true) (off : Nat) :
    d.gate .mgmt pg off = .cave ∧ d.readWord .mgmt pg off = 0xFFFFFFFF := by
  constructor
  · unfold Dev.gate
    dsimp only
    rw [hr, hc, hb, Option.map_some, Option.getD_some, hdark]
    rfl
  · unfold Dev.readWord
    dsimp only
    rw [hr, hc, hb, Option.map_some, Option.getD_some, hdark]
    rfl

/-- A page out of Cave and after BOOT_DONE: the register decides, then the class. -/
theorem Dev.gate_open {d : Dev} (hb : d.on Pg.glb GLB.BOOT_STS_BOOT_DONE = true) (hc : d.inCave = false) (m : Master) (pg off : Nat) :
    d.gate m pg off = if (regAt pg off).isNone then .unimpl else if d.mayWrite m pg off then .served else .refused := by
  unfold Dev.gate
  dsimp only
  rw [hb, hc, Bool.false_and, if_neg Bool.false_ne_true, Bool.not_true, Bool.false_and, Bool.false_and, if_neg Bool.false_ne_true, Bool.false_and, Bool.false_and, if_neg Bool.false_ne_true]
  split
  case isTrue hnone =>
    have hreg : regAt pg off = none := by
      unfold regAt
      rw [if_neg]
      rw [Option.isNone_iff_eq_none] at hnone
      rw [hnone]
      decide
    rw [hreg, if_pos (by decide)]
  case isFalse => rfl

theorem Dev.readWord_none {d : Dev} (hb : d.on Pg.glb GLB.BOOT_STS_BOOT_DONE = true) (hc : d.inCave = false) {pg off : Nat} (hr : regAt pg off = none) (m : Master) : d.readWord m pg off = 0 := by
  unfold Dev.readWord
  dsimp only
  rw [hb, hc, Bool.not_true, Bool.false_and, Bool.false_and, if_neg Bool.false_ne_true, Bool.false_and, Bool.false_and, if_neg Bool.false_ne_true, hr]

/-- Settles O17: the verdicts in their order. -/
theorem bootAndCaveCloseTheFabric : Obligations.BootAndCaveCloseTheFabric := by
  unfold Obligations.BootAndCaveCloseTheFabric
  refine fun s m pg off => ⟨fun hb hpg hl hc => ⟨Dev.readWord_preboot hb hpg hl hc off, fun hcave hp => Dev.gate_preboot hb hpg hl hc hcave hp off⟩,
    fun hc => ⟨fun addr v wide hm => registerWrite_cave hc hm addr v wide, fun r hr hdark hb => Dev.mgmt_cave hc hr hdark hb off⟩, fun hb hc hr => ⟨?_, Dev.readWord_none hb hc hr m⟩⟩
  rw [Dev.gate_open hb hc, hr, if_pos (by decide)]

/-! What a class may write (R437). -/

/-- An implemented register of an open page: the class decides. -/
theorem Dev.gate_class {d : Dev} (hb : d.on Pg.glb GLB.BOOT_STS_BOOT_DONE = true) (hc : d.inCave = false) {pg off : Nat} (hr : (regAt pg off).isSome = true) (m : Master) :
    d.gate m pg off = if d.mayWrite m pg off then .served else .refused := by
  rw [Dev.gate_open hb hc, if_neg]
  rw [Option.isNone_iff_eq_none]
  exact Option.isSome_iff_ne_none.mp hr

/-- Internal masters may write everywhere. -/
theorem Dev.mayWrite_internal {d : Dev} {m : Master} (h : d.access m = .internal) (pg off : Nat) : d.mayWrite m pg off = true := by
  unfold Dev.mayWrite
  rw [h]

/-- PF0 may write everywhere. -/
theorem Dev.mayWrite_pf0 (d : Dev) (pg off : Nat) : d.mayWrite .pf0 pg off = true := by
  unfold Dev.mayWrite Dev.access
  dsimp only
  repeat' split
  all_goals rfl

/-- An Observer may take snapshots, force and clear faults, and move its cursor. -/
theorem Dev.mayWrite_pf2 (d : Dev) (pg off : Nat) :
    d.mayWrite .pf2 pg off = decide (off = 0x70 ∨ off = 0x20 ∨ off = 0x24 ∨ (pg = Pg.rec ∧ 0x160 ≤ off ∧ off < 0x164)) := by
  unfold Dev.mayWrite Dev.access
  dsimp only
  split
  · exact (decide_eq_true (.inl ‹_›)).symm
  split
  · exact (decide_eq_false (by omega)).symm
  split
  · exact (decide_eq_false (by omega)).symm
  split
  · exact (decide_eq_true (by omega)).symm
  split
  · exact (decide_eq_false (by omega)).symm
  split
  · exact (decide_eq_false (by omega)).symm
  split
  · exact (decide_eq_true (by omega)).symm
  split
  · exact (decide_eq_false (by omega)).symm
  · exact (decide_eq_false (by omega)).symm

/-- The pages of the key store are no Operator pages. -/
theorem oper_key {pg : Nat} (h : Pg.key 0 ≤ pg ∧ pg ≤ Pg.key 3) {r : PageRow} (hr : pageRow pg = some r) : r.oper = false := by
  have hkey : ∀ k < 4, (pageRow (Pg.key k)).all fun r => !r.oper := by decide
  have hall := hkey (pg - Pg.key 0) (by dsimp only [Pg.key] at h ⊢; omega)
  rw [show Pg.key (pg - Pg.key 0) = pg by dsimp only [Pg.key] at h ⊢; omega, hr, Option.all_some, Bool.not_eq_true'] at hall
  exact hall

/-- An Operator may write the own registers of the pages open to it, its cursor, and the challenge and command of an attestation. -/
theorem Dev.mayWrite_pf1 (d : Dev) {pg off : Nat} {r : PageRow} (hr : pageRow pg = some r) (ho : 0x100 ≤ off) :
    d.mayWrite .pf1 pg off = decide (r.oper = true ∨ (pg = Pg.rec ∧ 0x160 ≤ off ∧ off < 0x164) ∨ (pg = Pg.key 3 ∧ 0x140 ≤ off ∧ off < 0x154)) := by
  unfold Dev.mayWrite Dev.access
  dsimp only
  rw [hr, Option.map_some, Option.getD_some, if_neg (by omega), if_neg (by omega), if_neg (by omega), if_neg (by omega), if_neg (by omega), if_neg (by omega)]
  split
  case isTrue hcursor => exact (decide_eq_true (.inr (.inl hcursor))).symm
  case isFalse hcursor =>
    split
    case isTrue hkey =>
      have hno := oper_key hkey hr
      rw [hno, show (Access.operator == .admin) = false from rfl, show (Access.operator == .operator) = true from rfl, Bool.false_or, Bool.true_and, Bool.eq_iff_iff, decide_eq_true_eq,
        Bool.and_eq_true, Bool.and_eq_true, beq_iff_eq, decide_eq_true_eq, decide_eq_true_eq]
      constructor
      · rintro ⟨⟨hpg, hlo⟩, hhi⟩
        exact .inr (.inr ⟨hpg, hlo, hhi⟩)
      · rintro (hf | hc | ⟨hpg, hlo, hhi⟩)
        · cases hf
        · exact absurd hc hcursor
        · exact ⟨⟨hpg, hlo⟩, hhi⟩
    case isFalse hkey =>
      rw [show (Access.operator == .admin) = false from rfl, show (Access.operator == .operator) = true from rfl, Bool.false_or, Bool.true_and, Bool.eq_iff_iff, decide_eq_true_eq]
      constructor
      · exact .inl
      · rintro (h | h | ⟨rfl, -⟩)
        · exact h
        · exact absurd h hcursor
        · exact absurd ⟨by decide, by decide⟩ hkey

/-- The management target writes as the function whose class it has. -/
theorem Dev.mayWrite_mgmt (d : Dev) (pg off : Nat) : d.mayWrite .mgmt pg off = if d.on Pg.hif HIF.MGMT_CTL_CLASS then d.mayWrite .pf1 pg off else d.mayWrite .pf2 pg off := by
  unfold Dev.mayWrite Dev.access
  dsimp only
  cases d.on Pg.hif HIF.MGMT_CTL_CLASS <;> rfl

/-- Settles O18: class by class. -/
theorem classesDecideWrites : Obligations.ClassesDecideWrites := by
  unfold Obligations.ClassesDecideWrites
  intro s pg off hb hc hr
  have hgate (m : Master) : s.dev.gate m pg off = if s.dev.mayWrite m pg off then .served else .refused := Dev.gate_class hb hc hr m
  have hinternal {m : Master} (hm : s.dev.access m = .internal) : s.dev.gate m pg off = .served := by rw [hgate, Dev.mayWrite_internal hm, if_pos rfl]
  refine ⟨?_, ?_, fun r hrow ho => ?_, ?_, fun n => hinternal rfl, hinternal rfl, hinternal rfl⟩
  · rw [hgate, Dev.mayWrite_pf0, if_pos rfl]
  · rw [hgate, Dev.mayWrite_pf2]
    simp only [decide_eq_true_eq]
  · rw [hgate, Dev.mayWrite_pf1 _ hrow ho]
    simp only [decide_eq_true_eq]
  · rw [hgate, hgate, hgate, Dev.mayWrite_mgmt]
    split <;> rfl

/-! The MSI-X tables (R437, R451). -/

/-- A message changes no table. -/
theorem Dev.msix_sendMsix (d : Dev) (fv : Nat × Nat) : (d.sendMsix fv).hif.msix = d.hif.msix := by
  unfold Dev.sendMsix
  split
  · rfl
  · split <;> rfl

theorem Dev.msix_unmasked (d : Dev) (fv : Nat × Nat) : (d.unmasked fv).hif.msix = d.hif.msix := by
  unfold Dev.unmasked
  split
  · rfl
  · exact Dev.when_proj (fun e => e.hif.msix) _ _ _ fun e => e.msix_sendMsix fv

theorem Dev.msix_served (d : Dev) (m : Master) (pg off v : Nat) : (d.served m pg off v).hif.msix = d.hif.msix := by
  have h := d.onlyMarks_served m pg off v
  unfold Dev.OnlyMarks at h
  rw [h]

/-- Words without a value: a vector is masked at reset. -/
abbrev msixReset (k : Nat) : Nat := if k % 4 = 3 then 1 else 0

/-- A function's write of its table writes one word there. -/
theorem Dev.msix_write_pf {d : Dev} {m : Master} {f off : Nat} (hf : pfOf m = some f) (hc : d.inCave = false) (ho : off < 0xC00) (v : Nat) :
    (d.msixWrite m off v).hif.msix = sset msixReset d.hif.msix (256 * f + (off - 0x800) / 4) (v % 2 ^ 32) := by
  unfold Dev.msixWrite
  rw [hf]
  dsimp only
  rw [hc, if_neg Bool.false_ne_true, if_neg (Nat.not_le.mpr ho)]
  refine (Dev.when_proj (fun e => e.hif.msix) _ _ _ fun e => e.msix_unmasked _).trans ?_
  dsimp only
  rw [Dev.msix_served]

/-- Every other write to the area leaves the tables. -/
theorem Dev.msix_write_other {d : Dev} {m : Master} {off : Nat} (h : pfOf m = none ∨ d.inCave = true ∨ 0xC00 ≤ off) (v : Nat) : (d.msixWrite m off v).hif.msix = d.hif.msix := by
  unfold Dev.msixWrite
  split
  case h_1 hnone =>
    have hd := d.onlyRegs_discard .refused Pg.glb
    unfold Dev.OnlyRegs at hd
    rw [hd]
  case h_2 f hf =>
    split
    case isTrue => rfl
    case isFalse hc =>
      rw [hf] at h
      have hpba : 0xC00 ≤ off := by
        obtain h | h | h := h
        · cases h
        · exact absurd h hc
        · exact h
      dsimp only
      rw [if_pos hpba, Dev.msix_served]

/-- Settles O21: a function writes one word of its own 256. -/
theorem msixTablesAreSeparate : Obligations.MsixTablesAreSeparate := by
  unfold Obligations.MsixTablesAreSeparate
  intro d m off v hlo hhi dflt
  refine ⟨fun g k hk hg => ?_, fun hnone => ?_, fun f hf hc ho => ?_⟩
  · by_cases hother : pfOf m = none ∨ d.inCave = true ∨ 0xC00 ≤ off
    · rw [Dev.msix_write_other hother]
    · obtain ⟨hsome, hc, ho⟩ : pfOf m ≠ none ∧ d.inCave = false ∧ off < 0xC00 := by
        rw [not_or, not_or, Bool.not_eq_true, Nat.not_le] at hother
        exact hother
      obtain ⟨f, hf⟩ := Option.ne_none_iff_exists'.mp hsome
      have hne : f ≠ g := fun h => hg (h ▸ hf)
      rw [Dev.msix_write_pf hf hc ho]
      exact sget_sset_ne msixReset _ _ (by omega)
  · unfold Dev.msixWrite
    rw [hnone]
  · rw [Dev.msix_write_pf hf hc ho]
    exact sget_sset_same msixReset _ _ _

end Sys2Proof.Machine
end

section
/-! PROOF. The commands of the host interface (O44). -/

namespace Sys2Proof.Machine

/-! The common header (R442, R443). -/

/-- PAGE_CTL with SOFT_RST resets the page when no reset runs there. -/
theorem pageCtl_softRst {r : Words × Dev} {m : Master} {pg v : Nat} (h : r.2.gate m pg 0x08 = .served) (hv : bit v 0 = true)
    (hw : ((r.2.served m pg 0x08 v).pageCtlSet pg v).within pg = none) : pageCtl r m pg v = softPage (r.1, (r.2.served m pg 0x08 v).pageCtlSet pg v) pg := by
  simp only [pageCtl, h, hv, hw, if_true]

/-- A reset that runs takes a further SOFT_RST in. -/
theorem pageCtl_absorbed {r : Words × Dev} {m : Master} {pg v : Nat} {x : Region} (h : r.2.gate m pg 0x08 = .served) (hv : bit v 0 = true)
    (hw : ((r.2.served m pg 0x08 v).pageCtlSet pg v).within pg = some x) : pageCtl r m pg v = (r.1, ((r.2.served m pg 0x08 v).pageCtlSet pg v).absorb x) := by
  simp only [pageCtl, h, hv, hw, if_true]

/-- Without SOFT_RST, EN and FREEZE alone take effect. -/
theorem pageCtl_enFreeze {r : Words × Dev} {m : Master} {pg v : Nat} (h : r.2.gate m pg 0x08 = .served) (hv : bit v 0 = false) :
    pageCtl r m pg v = (r.1, (r.2.served m pg 0x08 v).pageCtlSet pg v) := by
  simp only [pageCtl, h, hv, Bool.false_eq_true, if_false]

theorem bit_or_one (v : Nat) : bit (v ||| 1) 0 = true := by
  unfold bit
  rw [Nat.testBit_or]
  exact Bool.or_true _

theorem pageCtl_completes (s : State) (m : Master) (pg : Page) (v w : Nat) (h : s.dev.gate m pg 0x08 = .served) :
    (w = v ||| 1 →
      let d := (s.took m pg 0x08 w).pageCtlSet pg w
      (d.within pg = none → exec (.softRst m pg v) s = .next (s.withStore (softPage (s.store, d) pg))) ∧
      (∀ r, d.within pg = some r → exec (.softRst m pg v) s = .next (s.withDev (d.absorb r)))) ∧
    (bit v 0 = false → exec (.freezeWrite m pg v) s = .next (s.withDev ((s.took m pg 0x08 v).pageCtlSet pg v))) := by
  refine ⟨?_, fun hv => ?_⟩
  · rintro rfl
    intro d
    have hexec : exec (.softRst m pg v) s = s.runStore fun st e => pageCtl (st, e) m pg (v ||| 1) := rfl
    refine ⟨fun hw => ?_, fun r hw => ?_⟩
    · rw [hexec, State.runStore_eq, pageCtl_softRst (r := (s.store, s.dev)) h (bit_or_one v) hw]
    · rw [hexec, State.runStore_eq, pageCtl_absorbed (r := (s.store, s.dev)) h (bit_or_one v) hw]
      rfl
  · show execFreezeWrite m pg v s = _
    rw [execFreezeWrite, State.runStore_eq, pageCtl_enFreeze (r := (s.store, s.dev)) h hv]
    rfl

/-! MSI-X and the link (R449, R451, R453). -/

theorem msixUnmask_completes (s : State) (m : Master) (vec : Fin 64) (f : Nat) (hf : pfOf m = some f) (hc : s.dev.inCave = false) :
    let d := s.took m Pg.glb (0x80C + 16 * vec.val) 0
    exec (.msixUnmask m vec) s = .next (s.withDev (({ d with hif := { d.hif with
      msix := sset (fun k => if k % 4 = 3 then 1 else 0) d.hif.msix (256 * f + (4 * vec.val + 3)) 0 } }).unmasked (f, vec.val))) := by
  have hword : (0x80C + 16 * vec.val - 0x800) / 4 = 4 * vec.val + 3 := by omega
  have hmask : ((4 * vec.val + 3) % 4 == 3) = true := by
    rw [beq_iff_eq]
    omega
  have hvec : (4 * vec.val + 3) / 4 = vec.val := by omega
  show execMsixUnmask m vec s = _
  rw [execMsixUnmask, State.run_eq, Dev.msixWrite, hf]
  dsimp only
  rw [hc, if_neg Bool.false_ne_true, if_neg (by omega), hword, hmask, hvec]
  rfl

theorem calm_mainState : Calm Pg.pwr 0x114 := by
  unfold Calm
  decide

/-- The records that waited for the link are written without a look at the power states. -/
theorem Dev.reg_audFlush (d : Dev) : d.audFlush.reg Pg.pwr 0x114 = d.reg Pg.pwr 0x114 := by
  unfold Dev.audFlush
  refine Dev.reg_each _ _ _ fun p d => ?_
  dsimp only
  rw [Dev.reg_when _ _ _ fun e => e.reg_int _ _ calm_mainState]
  refine (Dev.reg_congr rfl _ _).trans (Dev.reg_each d _ _ fun row e => ?_)
  exact (Dev.reg_put_ne _ _ _ (by dsimp only [Pg.pwr, Pg.aud]; omega)).trans (Dev.reg_congr rfl _ _)

theorem Dev.reg_streamKick (d : Dev) : d.streamKick.reg Pg.pwr 0x114 = d.reg Pg.pwr 0x114 :=
  Dev.reg_when _ _ _ fun e => e.reg_after 1 .streamWrite _ _

theorem Dev.reg_put_hif (d : Dev) (f : Fld) (v : Nat) (hf : f.off < 4096) : (d.put Pg.hif f v).reg Pg.pwr 0x114 = d.reg Pg.pwr 0x114 :=
  d.reg_put_ne _ _ (by dsimp only [Pg.pwr, Pg.hif]; omega)

/-- What waited for the link goes out without a change of the power states. -/
theorem Dev.reg_released (d : Dev) (held : List (Nat × Nat)) (frames : List Instr) :
    (((d.each held fun fv e => e.sendMsix fv).audFlush.streamKick).each frames fun i e => e.after 0 i).reg Pg.pwr 0x114 = d.reg Pg.pwr 0x114 :=
  (Dev.reg_each _ _ _ fun i e => e.reg_after 0 i _ _).trans ((Dev.reg_streamKick _).trans ((Dev.reg_audFlush _).trans (Dev.reg_each _ _ _ fun fv e => e.reg_sendMsix fv)))

/-- The link comes up without a change of the power state. -/
theorem Dev.caveState_pcieUp (d : Dev) (width speed : Nat) : (d.pcieUp width speed).caveState = d.caveState := by
  have hputs : (((d.put Pg.hif HIF.STS_LINK_UP 1).put Pg.hif HIF.STS_WIDTH width).put Pg.hif HIF.STS_SPEED speed).reg Pg.pwr 0x114 = d.reg Pg.pwr 0x114 := by
    rw [Dev.reg_put_hif _ _ _ (by decide), Dev.reg_put_hif _ _ _ (by decide), Dev.reg_put_hif _ _ _ (by decide)]
  have hreg : (d.pcieUp width speed).reg Pg.pwr 0x114 = d.reg Pg.pwr 0x114 := (Dev.reg_released _ _ _).trans ((Dev.reg_congr rfl _ _).trans hputs)
  unfold Dev.caveState Dev.get
  rw [hreg]

theorem pcieLinkUp_completes (s : State) (width speed : Nat) :
    let d := s.dev.pcieUp width speed
    exec (.pcieLinkUp width speed) s = .next (s.withDev (if d.caveState = caveExiting then d.after 0 .caveExitDone else d)) := by
  intro d
  show execPcieLinkUp width speed s = _
  rw [execPcieLinkUp, State.run_eq]
  rw [← s.dev.caveState_pcieUp width speed]
  by_cases hx : d.caveState = caveExiting
  · rw [if_pos hx, show (d.caveState == caveExiting) = true from beq_iff_eq.mpr hx]
    rfl
  · rw [if_neg hx, show (d.caveState == caveExiting) = false from beq_eq_false_iff_ne.mpr hx]
    rfl

theorem testDis_completes (s : State) (h : s.dev.gate .pf0 Pg.glb 0x124 = .served) : exec (.testDis .pf0) s = .next (s.withDev ((s.took .pf0 Pg.glb 0x124 1).storeReg Pg.glb 0x124 1)) := by
  show execTestDis .pf0 s = _
  rw [execTestDis, State.run_eq, Dev.writeOr_served h, if_pos (by decide)]

/-- Settles O44: command by command. -/
theorem hostCommandsComplete : Obligations.HostCommandsComplete := by
  unfold Obligations.HostCommandsComplete
  exact fun s => ⟨fun m pg v => State.run_eq s fun d => d.writeSnap m pg v, fun pg => State.run_eq s fun d => d.snapFinish pg, pageCtl_completes s, fun _ _ v h => State.run_write h v _,
    fun _ _ v h => State.run_write h v _, fun _ _ v h => State.run_write h v _, msixUnmask_completes s, State.run_eq s Dev.perst, pcieLinkUp_completes s,
    State.run_eq s fun d => d.put Pg.hif HIF.STS_LINK_UP 0, testDis_completes s⟩

end Sys2Proof.Machine
end
